-- ==== Sys2Proof/Word.lean ====
section
/-! DEFINITION. The words the manual treats as bits: bytes, 16-bit line words, 32-bit register words (R2). -/
namespace Sys2Proof

/-- One byte. -/
abbrev Byte := BitVec 8

/-- One 16-bit word: a Suari line word (R223), a comb point (R299), a waggle word (R264). -/
abbrev Half := BitVec 16

/-- One 32-bit register word (R2). -/
abbrev Word := BitVec 32

end Sys2Proof
end

