-- ==== Sys2Proof/Syntax.lean ====
section
/-! DEFINITION. The commands the block takes: one constructor per row of spec/opcode_table.json, in the table's
order, with the operands the row's rule speaks of (host data, analog values, words from a line, pin levels). -/
namespace Sys2Proof

/-- The host paths, in the precedence order of R80. -/
inductive Path where
  | pcie | spi | portA | svc
deriving DecidableEq, Repr

/-- The two ends of a ring (R242) and the two hive ports (HIVEA, HIVEB). -/
inductive PortEnd where
  | a | b
deriving DecidableEq, Repr

/-- A carrier of R179 and R192: the reference, a phase's or an auxiliary output's. -/
inductive Carrier where
  | ref
  | phase (p : Fin 48)
  | aux (x : Fin 8)
deriving DecidableEq, Repr

/-- What a Suari port receives of a frame: the code words in line order (R224), the frame's and any that came before its
`SOF` or after its end, the receiver's tally of the running disparity ahead of the first of them (R227), and the time, in
units of 0.5 ns, the rule of its receiver measures. DESIGN CHOICE: log 9, 59. -/
structure RxFrame where
  codes : List (BitVec 18)
  rd    : Int
  time  : Nat
deriving DecidableEq, Repr

/-- What the tags on a line answered, in the order in which the device asked (R422): presence of each line reset, the
sixteen answer slots of each QUERY, the two bytes of each CONFIRM, the 33 bytes of each READ. DESIGN CHOICE: log 9. -/
inductive TagAnswer where
  | presence (b : Bool)
  | query (slots : BitVec 16)
  | confirm (chk notChk : Byte)
  | data (bytes : List Byte)
deriving DecidableEq, Repr

/-- A PD message as it comes from the CC wire: its SOP type (0 SOP, 1 SOP', 2 SOP''), header and data objects. -/
structure PdMsg where
  sop    : Fin 3
  header : Half
  objs   : List Word
deriving DecidableEq, Repr

/-- How a controller transfer of port B ended on the bus (R382). DESIGN CHOICE: log 9. -/
inductive TwbResult where
  | ok (rx : List Byte)
  | addrNack
  | dataNack
deriving DecidableEq, Repr

/-- What the CC logic and VBUS read when the service island looks (R395): VBUS in mV, Rp seen and on which pin (true:
CC2), Ra seen on the other pin. DESIGN CHOICE: log 9. -/
structure CcSense where
  mv  : BitVec 16
  rp  : Bool
  cc2 : Bool
  ra  : Bool
deriving DecidableEq, Repr

/-- What follows a command byte of port A (R377): the bytes written, then how many are read after a repeated START. -/
structure CmdBytes where
  bytes : List Byte
  n     : Nat := 0
deriving DecidableEq, Repr

/-- The words with an error that came with the loss of a port's lock: code errors and disparity errors (R227, R230). -/
structure LockErrors where
  code : Nat := 0
  disp : Nat := 0
deriving DecidableEq, Repr

/-- What the loss of a port's lock cuts short (R230): how many words of a frame the port was sending had left, the words of a
frame it was receiving, and when, in units of 0.5 ns. DESIGN CHOICE: log 9. -/
structure LockCut where
  sent : Option Nat := none
  rx   : List Half := []
  time : Nat := 0
deriving DecidableEq, Repr

/-- Where a host read goes: an offset of BAR0, or an offset of BAR2 from which one byte and `n` more are read (R357, R360).
DESIGN CHOICE: log 101. -/
inductive ReadPlace where
  | bar0 (ofs : Nat)
  | bar2 (ofs : Nat) (n : Fin 64)
deriving DecidableEq, Repr

/-- What the host has set in the endpoint's configuration space (R355): Bus Master Enable, and the max payload of 256 bytes.
DEDUCED: log 118. -/
structure EndpointSet where
  bme    : Bool
  mps256 : Bool := false
deriving DecidableEq, Repr

/-- What the CC logic comes to as a partner is attached (R395): it waits for the connection to settle, it tries the other role, the
partner has gone again, or the connection stands: the partner presented Rd, and took the other role while the device tried.
DESIGN CHOICE: log 9. -/
inductive AttachStep where
  | wait | trial | gone
  | done (rd turned : Bool)
deriving DecidableEq, Repr

/-- One die site's count of 100 µs, converted (R415): a reading in 0.01 °C, or none when it gave no count (R416).
DESIGN CHOICE: log 9. -/
abbrev SiteReading := Option Int

/-- What the checks of a stride boundary find wrong: the lanes whose reference check fails in the stride that begins (R213),
the blocks whose staging copies fail their parity (R94), and the blocks with a configuration register, queue pointer or
credit count that fails its parity (R17). DESIGN CHOICE: log 102. DESIGN CHOICE: log 9. -/
structure BoundaryChecks where
  lanes  : BitVec 16 := 0
  staged : BitVec 21 := 0
  regs   : BitVec 21 := 0
deriving DecidableEq, Repr

/-- The commands of the block: the rows of spec/opcode_table.json. DESIGN CHOICE: log 9. -/
inductive Instr where
  | strideBoundary (chk : BoundaryChecks)
  | lapBoundary (chk : BoundaryChecks)
  | currentPlacement
  | dataPlacement
  | commitPoint (shadowBad : BitVec 16)
  | engineAbortTimeout (e : Fin 16)
  | contextStart (e : Fin 16) (bad : List Nat)
  | contextComplete (e : Fin 16)
  | strideWatchdogExpiry
  | paceInEdge (pos : Nat) (high : Nat)
  | holdoverEntry
  | hiveMarkReceive (port : PortEnd) (f : RxFrame)
  | hiveCommandReceive (port : PortEnd) (f : RxFrame)
  | hiveReportReceive (port : PortEnd) (f : RxFrame)
  | hiveReportTimeout
  | lossHoldExpiry
  | leaderLost
  | leaderLostClear (path : Path)
  | reqCold (path : Path)
  | reqService (path : Path)
  | reqIdle (path : Path)
  | reqLoaded (path : Path)
  | reqArmed (path : Path)
  | reqRun (path : Path)
  | reqHold (path : Path)
  | stateChange
  | buildComplete
  | unitWakeComplete
  | n1AnalysisComplete
  | claim (path : Path)
  | release (path : Path)
  | takeOver (path : Path)
  | check (path : Path)
  | checkComplete
  | fetch (path : Path) (slot : Bool)
  | fetchComplete
  | store (path : Path) (slot : Bool)
  | storeComplete (readBackOk : Bool)
  | abort (path : Path) (moved : Nat)
  | imgBufferWrite (path : Path) (ofs : Nat) (val : Word)
  | commit (path : Path) (blk : Fin 21) (badPar : Bool)
  | registerWrite (path : Path) (ofs : Nat) (be : BitVec 4) (val : Word)
  | contextCoeffWrite (path : Path) (ofs : Nat) (val : Word)
  | contextStateWrite (path : Path) (ofs : Nat) (val : Word)
  | snapshotRequest (path : Path)
  | hostVoltageTarget (path : Path) (val : Word)
  | bankCfgWrite (path : Path) (b : Fin 24) (val : Word)
  | carrierPeriodStart (c : Carrier)
  | carrierPeriodCentre (c : Carrier)
  | pwmCompareEdge (c : Carrier) (on : Bool)
  | deadTimeExpiry (p : Fin 48)
  | tripFilterAssert (t : Fin 16)
  | tripFilterDeassert (t : Fin 16)
  | tripClear (path : Path) (n : Fin 2) (mask : Word)
  | auxCword (path : Path) (mask : BitVec 8)
  | adcConversion
  | rawCodeOut (lane : Fin 16) (code : BitVec 14)
  | channelResult (ain : Fin 128)
  | fetchGo (path : Path) (lanes : BitVec 16)
  | refEnable (path : Path) (en : Bool)
  | refReady
  | calZero (path : Path) (ain : Fin 128) (count : BitVec 16)
  | calFullScale (path : Path) (ain : Fin 128) (count : BitVec 16)
  | calAbort (path : Path)
  | calCaptureComplete
  | owStart (path : Path)
  | owAbort (path : Path)
  | owPhaseComplete
  | streamTripStop (str : Fin 4)
  | linkAligned (port : Fin 50)
  | linkEcho (port : Fin 50)
  | echoRequest (port : Fin 50) (wait : BitVec 7)
  | echoReply (port : Fin 50) (trip : Nat) (turn : Half)
  | linkUp (port : Fin 50)
  | trainTimeout (port : Fin 50)
  | lockLoss (port : Fin 50) (errs : LockErrors) (cut : LockCut)
  | bypassClose
  | bypassOpen
  | batonArrival (ring : Fin 24) (port : PortEnd) (f : RxFrame)
  | batonLost (ring : Fin 24) (port : PortEnd)
  | ringTrainTimeout (ring : Fin 24)
  | enumerationReturn (ring : Fin 24) (port : PortEnd) (f : RxFrame)
  | enumerationTimeout (ring : Fin 24)
  | probeReturn (ring : Fin 24) (port : PortEnd) (f : RxFrame)
  | waggleAck (ring : Fin 24) (port : PortEnd)
  | waggleDesc (ring : Fin 24) (port : PortEnd)
  | waggleUplinkOther (ring : Fin 24) (port : PortEnd)
  | waggleReplyTimeout (ring : Fin 24) (port : PortEnd)
  | waggleSendComplete (ring : Fin 24) (port : PortEnd)
  | mailboxSend (path : Path)
  | enumerate (path : Path) (ring : Fin 24)
  | probeAgain (path : Path) (ring : Fin 24)
  | sleepBroadcast (path : Path) (ring : Fin 24)
  | wakeBroadcast (path : Path) (ring : Fin 24)
  | ringSplit (ring : Fin 24)
  | ringWhole (ring : Fin 24)
  | nodeSilent (ring : Fin 24) (node : Fin 256)
  | sweepRunCheck (ring : Fin 24)
  | headroomDeadline (bank : Fin 24)
  | diagRunJudge (ring : Fin 24)
  | wireTestCmd (path : Path) (val : Word)
  | balCmd (path : Path) (val : Word)
  | quietDisWrite (path : Path) (val : Word)
  | limitsRebroadcast (ring : Fin 24)
  | combHostWrite (path : Path) (ofs : Nat) (val : Half)
  | campaignStart (path : Path)
  | campaignStop (path : Path)
  | campaignBroadcast
  | streamSampleTake (ring : Fin 24)
  | phasorRunReceive (ring : Fin 24)
  | windowEnd (ring : Fin 24) (node : Fin 256)
  | binWrite
  | excitationRampEnd
  | faultEventTake
  | faultClear (path : Path) (n : Fin 4) (mask : Word)
  | tripLatchRelease (path : Path) (n : Fin 4) (mask : Word)
  | hostFaultRaise (path : Path) (val : Word)
  | nvmLogWrite
  | hostLinkReset
  | dmaWrite (ring : Fin 16)
  | dmaEnable (path : Path) (ring : Fin 16) (val : Word)
  | dmaRptrWrite (path : Path) (ring : Fin 16) (val : Word)
  | dmaHoldExpiry (ring : Fin 16)
  | msixUnmask (vec : Fin 32)
  | spiReadRegisters (uart : Bool) (bytes : List Byte)
  | spiWriteRegisters (uart : Bool) (bytes : List Byte)
  | spiReadBar2 (uart : Bool) (bytes : List Byte)
  | spiWriteComb (uart : Bool) (bytes : List Byte)
  | spiReadStatus (uart : Bool) (bytes : List Byte)
  | spiFrameShort (bytes : List Byte)
  | uartGapTimeout (bytes : List Byte)
  | pointer (x : CmdBytes)
  | block (x : CmdBytes)
  | dataWrite (bytes : List Byte)
  | dataRead (n : Nat)
  | vset (x : CmdBytes)
  | vtarget (x : CmdBytes)
  | vslewed (x : CmdBytes)
  | vlimits (x : CmdBytes)
  | status (x : CmdBytes)
  | alertResponse (port : PortEnd) (won : Bool)
  | twoWireTimeout (port : PortEnd) (rx : List Byte)
  | portABusStuck
  | twoWireWake (port : PortEnd)
  | twbGo (path : Path) (val : Word)
  | twbTransferStart
  | twbTransferEnd (res : TwbResult)
  | twbArbitrationLost (winner : Option (BitVec 7))
  | arbSrErr (rx : List Byte)
  | twbAbort (path : Path) (rx : List Byte)
  | twbRecover (path : Option Path) (sda : List Bool)
  | mailboxWrite (bytes : List Byte)
  | mailboxRead (ofs : Byte) (n : Nat)
  | twbAlertAssert (path : Path)
  | twbAlertSeen
  | serviceIslandPowerUp (cc : CcSense)
  | pdMessageReceive (m : PdMsg)
  | pdSend (path : Path)
  | sendSoftReset (path : Path)
  | sendHardReset (path : Path)
  | hardResetReceive
  | hardResetRecovery
  | responseTimeout
  | rxPop (path : Path)
  | hostPolicyTake (path : Path)
  | sourcePathRequest (path : Path)
  | sourcePathClose (mv : BitVec 16)
  | sourceGuardTimeout
  | prSwap (path : Path)
  | prSwapTimeout
  | vconnSwap (path : Path)
  | vconnOn
  | detach (mv : BitVec 16)
  | seqOn (path : Path)
  | seqOff (path : Path)
  | seqTick (pg : BitVec 16)
  | pgTimeout (rail : Fin 16)
  | fallTimeout (rail : Fin 16)
  | thmMeasure (sites : List SiteReading)
  | tagResetPresence (path : Path) (line : Fin 4)
  | tagSearch (path : Path) (line : Fin 4)
  | tagRead (path : Path) (line : Fin 4) (blk : Fin 8)
  | tagCommandEnd (line : Fin 4) (ans : List TagAnswer)
  | tagShort (line : Fin 4)
  | vtagLoss
  | nvmWritePage (path : Path)
  | nvmUnlockRead (path : Path)
  | nvmUnlockWrite (path : Path)
  | nvmLock (path : Path)
  | nvmSetReadPassword (path : Path)
  | nvmSetWritePassword (path : Path)
  | nvmIncrement (path : Path) (ctr : Fin 8)
  | nvmCommandComplete
  | pwBackoffEnd
  | nvmPowerUpScan
  | deviceReset
  | resetRelease (pcieEn : Bool) (adr : BitVec 3)
  | coreDomainReady
  | coreSupplyLoss (vlnk : Bool)
  | supplyFall (rail : Fin 6)
  | dataPlacementComplete
  | unitPowerDownComplete
  | registerRead (path : Path) (place : ReadPlace) (be : BitVec 4) (badPar : Bool)
  | pcieLinkUp (speed lanes : BitVec 2) (host : EndpointSet)
  | attach (cc : CcSense) (step : AttachStep)
  | prSwapVbusArrival (mv : BitVec 16)
  | goodcrcTimeout
  | vsvcLoss
  | supplyRise (sup : Fin 6)
  | clockLockLoss
  | spiInvalidOpcode (uart : Bool) (bytes : List Byte)
  | unknownCommandByte (bytes : List Byte)
deriving DecidableEq, Repr

end Sys2Proof
end

