-- ==== Sys2Proof/Decode.lean ====
section
/-! DEFINITION. The command a word of the opcode table spells: the table gives no row bits. -/
namespace Sys2Proof

/-- The opcode table lists operations and events by name and gives none of them bits, so no word spells a command.
DESIGN CHOICE: log 4. -/
def decodeTableWord (_nbits _w : Nat) : Option Instr := none

end Sys2Proof
end

