-- ==== Sys2Proof/Config.lean ====
section
/-! DEFINITION. The values the manual leaves open (free values): constants without a body, so that no proof can see them. -/
namespace Sys2Proof

/-- The n-th value the manual leaves open: a result it says is undefined or for which it states nothing. DESIGN CHOICE: log 8. -/
opaque Config.freeWord : Nat → BitVec 32

/-- The gain part of a notch whose cosine rounds to 1, for which R209 divides by 0: by notch frequency, period and
coefficient. DESIGN CHOICE: log 8, 53. -/
opaque Config.notchFree : Nat → Nat → Nat → BitVec 32

/-- The cap of a bank, in ppm, where the voltage command is 0 and R157 divides by 0: by the inputs of the rule alone (R20), the
bank, its `PLC_BANK_CFGn` and I_plan. DESIGN CHOICE: log 8, 38. -/
opaque Config.capFree : Nat → BitVec 32 → Rat → BitVec 32

end Sys2Proof
end

