-- ==== Sys2Proof/Machine/RegMap.lean ====
section
/-! DEFINITION. The register map of BAR0 (R358), block by block: every register the manual's tables introduce, its
offset in the block's 64 KiB window, its fields with their access codes (R7), and a name for each field. -/
namespace Sys2Proof.Machine

/-- The access codes of R7. -/
inductive Acc where
  | rw | ro | w1c | wo | rc | rwl | rwf | rws
deriving DecidableEq, Repr

/-- A field of a register: its bit range, both ends included (R1), and its access code. -/
structure FieldDesc where
  hi  : Nat
  lo  : Nat
  acc : Acc
deriving DecidableEq, Repr

/-- A register, or an array of registers at `base + d1 * n + d2 * m` for n below n1 and m below n2. -/
structure RegDesc where
  base : Nat
  d1 : Nat
  n1 : Nat
  d2 : Nat
  n2 : Nat
  fields : List FieldDesc
deriving DecidableEq, Repr

/-- A named field of a block: the register's offset in the block's window, the field's lowest bit and its width. -/
structure Fld where
  ofs   : Nat
  lo    : Nat
  width : Nat
deriving DecidableEq, Repr

/-- The registers of the SYS block. -/
def sysRegs : List RegDesc := [
  ⟨0x0000, 0, 1, 0, 1, [⟨31, 16, .ro⟩, ⟨15, 8, .ro⟩, ⟨7, 0, .ro⟩]⟩,
  ⟨0x0100, 0, 1, 0, 1, [⟨2, 0, .wo⟩]⟩,
  ⟨0x0104, 0, 1, 0, 1, [⟨17, 17, .w1c⟩, ⟨16, 16, .w1c⟩, ⟨15, 8, .ro⟩, ⟨7, 7, .ro⟩, ⟨6, 4, .ro⟩, ⟨2, 0, .ro⟩]⟩,
  ⟨0x0300, 0, 1, 0, 1, [⟨12, 8, .rw⟩, ⟨3, 0, .rw⟩]⟩,
  ⟨0x0304, 0, 1, 0, 1, [⟨31, 24, .rc⟩, ⟨23, 16, .rc⟩, ⟨15, 11, .rc⟩, ⟨10, 0, .ro⟩]⟩,
  ⟨0x0310, 0, 1, 0, 1, [⟨20, 0, .ro⟩]⟩,
  ⟨0x0314, 0, 1, 0, 1, [⟨31, 31, .ro⟩, ⟨20, 0, .ro⟩]⟩,
  ⟨0x0320, 0, 1, 0, 1, [⟨13, 8, .w1c⟩, ⟨7, 7, .ro⟩, ⟨6, 6, .ro⟩, ⟨5, 0, .ro⟩]⟩]

/-- The registers of the TBS block. -/
def tbsRegs : List RegDesc := [
  ⟨0x0000, 0, 1, 0, 1, [⟨12, 0, .rwf⟩]⟩,
  ⟨0x0004, 0, 1, 0, 1, [⟨22, 16, .rwf⟩, ⟨9, 0, .rwf⟩]⟩,
  ⟨0x0008, 0, 1, 0, 1, [⟨23, 16, .rwf⟩, ⟨15, 8, .rwf⟩, ⟨4, 4, .rwl⟩, ⟨1, 0, .rwf⟩]⟩,
  ⟨0x000C, 0, 1, 0, 1, [⟨15, 0, .rwf⟩]⟩,
  ⟨0x0010, 0, 1, 0, 1, [⟨31, 0, .ro⟩]⟩,
  ⟨0x0014, 0, 1, 0, 1, [⟨28, 16, .ro⟩, ⟨9, 0, .ro⟩]⟩,
  ⟨0x0018, 0, 1, 0, 1, [⟨20, 20, .w1c⟩, ⟨19, 19, .w1c⟩, ⟨18, 18, .w1c⟩, ⟨17, 17, .w1c⟩, ⟨16, 16, .w1c⟩, ⟨15, 8, .ro⟩, ⟨1, 0, .ro⟩]⟩,
  ⟨0x001C, 0, 1, 0, 1, [⟨23, 16, .ro⟩, ⟨15, 0, .rc⟩]⟩,
  ⟨0x0020, 0, 1, 0, 1, [⟨31, 31, .w1c⟩, ⟨11, 0, .ro⟩]⟩,
  ⟨0x0040, 4, 8, 0, 1, [⟨31, 0, .w1c⟩]⟩]

/-- The registers of the IMG block. -/
def imgRegs : List RegDesc := [
  ⟨0x0000, 0, 1, 0, 1, [⟨4, 4, .wo⟩, ⟨2, 0, .wo⟩]⟩,
  ⟨0x0004, 0, 1, 0, 1, [⟨31, 15, .ro⟩, ⟨11, 8, .ro⟩, ⟨6, 4, .ro⟩, ⟨2, 2, .w1c⟩, ⟨1, 1, .ro⟩, ⟨0, 0, .ro⟩]⟩,
  ⟨0x0008, 0, 1, 0, 1, [⟨31, 16, .ro⟩, ⟨10, 8, .ro⟩, ⟨7, 0, .ro⟩]⟩,
  ⟨0x000C, 0, 1, 0, 1, [⟨31, 0, .ro⟩]⟩,
  ⟨0x0010, 0, 1, 0, 1, [⟨2, 0, .rw⟩]⟩,
  ⟨0x0014, 0, 1, 0, 1, [⟨31, 0, .ro⟩]⟩,
  ⟨0x0018, 0, 1, 0, 1, [⟨31, 0, .ro⟩]⟩,
  ⟨0x001C, 0, 1, 0, 1, [⟨10, 8, .ro⟩, ⟨4, 4, .ro⟩, ⟨1, 1, .ro⟩, ⟨0, 0, .ro⟩]⟩]

/-- The registers of the PLC block. -/
def plcRegs : List RegDesc := [
  ⟨0x0040, 0, 1, 0, 1, [⟨15, 0, .rwl⟩]⟩,
  ⟨0x0044, 0, 1, 0, 1, [⟨31, 0, .rwl⟩]⟩,
  ⟨0x0048, 0, 1, 0, 1, [⟨31, 16, .rwl⟩, ⟨15, 0, .rwl⟩]⟩,
  ⟨0x004C, 0, 1, 0, 1, [⟨25, 16, .rwl⟩, ⟨15, 8, .rwl⟩, ⟨7, 0, .rwl⟩]⟩,
  ⟨0x0050, 0, 1, 0, 1, [⟨12, 0, .rwl⟩]⟩,
  ⟨0x0054, 0, 1, 0, 1, [⟨15, 0, .rwl⟩]⟩,
  ⟨0x0058, 0, 1, 0, 1, [⟨27, 8, .ro⟩, ⟨7, 7, .ro⟩, ⟨6, 6, .ro⟩, ⟨5, 5, .ro⟩, ⟨4, 4, .ro⟩, ⟨3, 3, .ro⟩, ⟨2, 2, .ro⟩, ⟨1, 1, .w1c⟩, ⟨0, 0, .w1c⟩]⟩,
  ⟨0x005C, 0, 1, 0, 1, [⟨23, 0, .ro⟩]⟩,
  ⟨0x0060, 4, 2, 0, 1, [⟨31, 0, .ro⟩]⟩,
  ⟨0x0100, 0, 1, 0, 1, [⟨31, 24, .rc⟩, ⟨23, 15, .ro⟩, ⟨14, 11, .ro⟩, ⟨5, 5, .ro⟩, ⟨4, 4, .ro⟩, ⟨3, 3, .w1c⟩, ⟨2, 2, .w1c⟩, ⟨1, 1, .ro⟩, ⟨0, 0, .ro⟩]⟩,
  ⟨0x0104, 0, 1, 0, 1, [⟨31, 16, .ro⟩, ⟨15, 0, .ro⟩]⟩,
  ⟨0x0108, 0, 1, 0, 1, [⟨31, 16, .ro⟩, ⟨15, 0, .ro⟩]⟩,
  ⟨0x010C, 0, 1, 0, 1, [⟨28, 16, .ro⟩, ⟨15, 8, .ro⟩, ⟨7, 4, .ro⟩, ⟨3, 0, .ro⟩]⟩,
  ⟨0x0120, 4, 8, 0, 1, [⟨31, 0, .ro⟩]⟩,
  ⟨0x0140, 4, 16, 0, 1, [⟨28, 16, .ro⟩, ⟨12, 0, .ro⟩]⟩,
  ⟨0x0400, 4, 256, 0, 1, [⟨31, 31, .ro⟩, ⟨30, 30, .ro⟩, ⟨29, 28, .ro⟩, ⟨27, 24, .ro⟩, ⟨23, 16, .ro⟩, ⟨12, 0, .ro⟩]⟩,
  ⟨0x0800, 32, 24, 4, 4, [⟨19, 0, .ro⟩]⟩,
  ⟨0x0810, 32, 24, 4, 2, [⟨16, 0, .ro⟩]⟩,
  ⟨0x0818, 32, 24, 0, 1, [⟨25, 16, .ro⟩, ⟨13, 13, .ro⟩, ⟨12, 12, .ro⟩, ⟨11, 6, .ro⟩, ⟨5, 0, .ro⟩]⟩,
  ⟨0x081C, 32, 24, 0, 1, [⟨31, 0, .ro⟩]⟩,
  ⟨0x0B00, 4, 48, 0, 1, [⟨31, 16, .ro⟩, ⟨15, 0, .ro⟩]⟩,
  ⟨0x0C00, 4, 24, 0, 1, [⟨31, 16, .rwl⟩, ⟨15, 8, .rwl⟩, ⟨7, 0, .rwl⟩]⟩]

/-- The registers of the CEA block. -/
def ceaRegs : List RegDesc := [
  ⟨0x0000, 0, 1, 0, 1, [⟨17, 17, .w1c⟩, ⟨16, 16, .w1c⟩, ⟨15, 8, .ro⟩]⟩,
  ⟨0x0004, 0, 1, 0, 1, [⟨31, 16, .ro⟩, ⟨15, 0, .w1c⟩]⟩,
  ⟨0x0008, 0, 1, 0, 1, [⟨31, 24, .ro⟩, ⟨15, 0, .w1c⟩]⟩,
  ⟨0x0010, 0, 1, 0, 1, [⟨7, 0, .rw⟩]⟩,
  ⟨0x0014, 0, 1, 0, 1, [⟨15, 8, .ro⟩, ⟨1, 1, .w1c⟩, ⟨0, 0, .wo⟩]⟩,
  ⟨0x0020, 0, 1, 0, 1, [⟨5, 0, .rw⟩]⟩,
  ⟨0x0024, 0, 1, 0, 1, [⟨31, 24, .ro⟩, ⟨23, 16, .ro⟩, ⟨11, 10, .ro⟩, ⟨9, 9, .w1c⟩, ⟨8, 8, .w1c⟩, ⟨7, 0, .rc⟩]⟩,
  ⟨0x0028, 0, 1, 0, 1, [⟨31, 16, .ro⟩, ⟨15, 0, .ro⟩]⟩,
  ⟨0x0100, 4, 8, 0, 1, [⟨31, 0, .rwl⟩]⟩,
  ⟨0x0120, 4, 8, 0, 1, [⟨31, 0, .ro⟩]⟩,
  ⟨0x0140, 4, 8, 0, 1, [⟨31, 0, .w1c⟩]⟩,
  ⟨0xFF00, 0, 1, 0, 1, [⟨0, 0, .wo⟩]⟩,
  ⟨0xFF04, 0, 1, 0, 1, [⟨15, 8, .ro⟩, ⟨2, 2, .w1c⟩, ⟨1, 1, .w1c⟩, ⟨0, 0, .ro⟩]⟩]

/-- The registers of the BUS block. -/
def busRegs : List RegDesc := [
  ⟨0x0000, 0, 1, 0, 1, [⟨31, 16, .rws⟩, ⟨15, 0, .rws⟩]⟩,
  ⟨0x0004, 0, 1, 0, 1, [⟨15, 0, .rws⟩]⟩,
  ⟨0x0008, 0, 1, 0, 1, [⟨15, 0, .rwl⟩]⟩,
  ⟨0x000C, 0, 1, 0, 1, [⟨0, 0, .rwl⟩]⟩,
  ⟨0x0010, 0, 1, 0, 1, [⟨31, 16, .ro⟩, ⟨15, 0, .ro⟩]⟩,
  ⟨0x0014, 0, 1, 0, 1, [⟨15, 0, .rwl⟩]⟩,
  ⟨0x0018, 0, 1, 0, 1, [⟨31, 0, .ro⟩]⟩,
  ⟨0x001C, 0, 1, 0, 1, [⟨31, 16, .rwf⟩, ⟨15, 0, .rwf⟩]⟩,
  ⟨0x0020, 0, 1, 0, 1, [⟨31, 16, .ro⟩, ⟨2, 0, .ro⟩]⟩,
  ⟨0x0024, 0, 1, 0, 1, [⟨6, 5, .ro⟩, ⟨4, 4, .w1c⟩, ⟨3, 3, .w1c⟩, ⟨2, 2, .w1c⟩, ⟨1, 1, .w1c⟩, ⟨0, 0, .w1c⟩]⟩,
  ⟨0x0028, 0, 1, 0, 1, [⟨31, 24, .rc⟩, ⟨23, 16, .rc⟩, ⟨15, 0, .rc⟩]⟩,
  ⟨0xFF00, 0, 1, 0, 1, [⟨0, 0, .wo⟩]⟩,
  ⟨0xFF04, 0, 1, 0, 1, [⟨15, 8, .ro⟩, ⟨2, 2, .w1c⟩, ⟨1, 1, .w1c⟩, ⟨0, 0, .ro⟩]⟩]

/-- The registers of the PWM block. -/
def pwmRegs : List RegDesc := [
  ⟨0x0000, 0, 1, 0, 1, [⟨18, 17, .ro⟩, ⟨16, 16, .ro⟩, ⟨15, 0, .rws⟩]⟩,
  ⟨0x0004, 0, 1, 0, 1, [⟨13, 8, .ro⟩, ⟨4, 4, .w1c⟩, ⟨3, 3, .ro⟩, ⟨2, 2, .w1c⟩, ⟨1, 1, .w1c⟩, ⟨0, 0, .w1c⟩]⟩,
  ⟨0x0008, 0, 1, 0, 1, [⟨31, 24, .rc⟩, ⟨23, 12, .rc⟩, ⟨11, 0, .rc⟩]⟩,
  ⟨0x0010, 0, 1, 0, 1, [⟨31, 16, .ro⟩, ⟨15, 0, .ro⟩]⟩,
  ⟨0x0020, 4, 4, 0, 1, [⟨31, 24, .rwf⟩, ⟨23, 16, .rwf⟩, ⟨15, 8, .rwf⟩, ⟨7, 0, .rwf⟩]⟩,
  ⟨0x0030, 4, 2, 0, 1, [⟨31, 0, .w1c⟩]⟩,
  ⟨0x0038, 4, 2, 0, 1, [⟨31, 0, .rwf⟩]⟩,
  ⟨0x0040, 4, 3, 0, 1, [⟨31, 0, .rwf⟩]⟩,
  ⟨0x0050, 0, 1, 0, 1, [⟨5, 0, .rw⟩]⟩,
  ⟨0x0054, 0, 1, 0, 1, [⟨31, 16, .ro⟩, ⟨8, 8, .ro⟩, ⟨7, 7, .ro⟩, ⟨6, 6, .ro⟩, ⟨5, 5, .ro⟩, ⟨4, 4, .ro⟩, ⟨3, 3, .ro⟩]⟩,
  ⟨0x0100, 8, 48, 0, 1, [⟨31, 16, .rws⟩, ⟨15, 0, .rws⟩]⟩,
  ⟨0x0104, 8, 48, 0, 1, [⟨16, 16, .ro⟩, ⟨15, 0, .rws⟩]⟩,
  ⟨0x0300, 4, 8, 0, 1, [⟨3, 3, .rwf⟩, ⟨2, 2, .rwf⟩, ⟨1, 0, .rwf⟩]⟩,
  ⟨0x0320, 4, 8, 0, 1, [⟨31, 0, .rw⟩]⟩,
  ⟨0x0340, 0, 1, 0, 1, [⟨7, 0, .wo⟩]⟩,
  ⟨0x0400, 4, 48, 0, 1, [⟨31, 0, .ro⟩]⟩,
  ⟨0xFF00, 0, 1, 0, 1, [⟨0, 0, .wo⟩]⟩,
  ⟨0xFF04, 0, 1, 0, 1, [⟨15, 8, .ro⟩, ⟨2, 2, .w1c⟩, ⟨1, 1, .w1c⟩, ⟨0, 0, .ro⟩]⟩]

/-- The registers of the ACQ block. -/
def acqRegs : List RegDesc := [
  ⟨0x0000, 0, 1, 0, 1, [⟨3, 3, .w1c⟩, ⟨2, 2, .ro⟩, ⟨1, 1, .w1c⟩, ⟨0, 0, .w1c⟩]⟩,
  ⟨0x0004, 0, 1, 0, 1, [⟨0, 0, .rwf⟩]⟩,
  ⟨0x0008, 0, 1, 0, 1, [⟨31, 16, .ro⟩, ⟨15, 0, .ro⟩]⟩,
  ⟨0x0010, 0, 1, 0, 1, [⟨31, 16, .wo⟩, ⟨9, 8, .wo⟩, ⟨6, 0, .wo⟩]⟩,
  ⟨0x0014, 0, 1, 0, 1, [⟨31, 0, .rw⟩]⟩,
  ⟨0x0018, 0, 1, 0, 1, [⟨31, 16, .ro⟩, ⟨15, 8, .ro⟩, ⟨2, 2, .w1c⟩, ⟨1, 1, .w1c⟩, ⟨0, 0, .ro⟩]⟩,
  ⟨0x0020, 0, 1, 0, 1, [⟨28, 16, .rwl⟩, ⟨15, 8, .rwl⟩, ⟨7, 0, .rwl⟩]⟩,
  ⟨0x0024, 0, 1, 0, 1, [⟨1, 1, .wo⟩, ⟨0, 0, .wo⟩]⟩,
  ⟨0x0028, 0, 1, 0, 1, [⟨5, 5, .w1c⟩, ⟨4, 4, .w1c⟩, ⟨3, 3, .w1c⟩, ⟨2, 0, .ro⟩]⟩,
  ⟨0x0030, 4, 4, 0, 1, [⟨31, 0, .rw⟩]⟩,
  ⟨0x0040, 4, 4, 0, 1, [⟨31, 0, .w1c⟩]⟩,
  ⟨0x0050, 0, 1, 0, 1, [⟨15, 0, .wo⟩]⟩,
  ⟨0x0100, 4, 16, 0, 1, [⟨27, 24, .rwf⟩, ⟨23, 0, .rwf⟩]⟩,
  ⟨0x0140, 4, 16, 0, 1, [⟨27, 24, .rwf⟩, ⟨21, 16, .rwf⟩, ⟨10, 8, .rwf⟩, ⟨2, 0, .rwf⟩]⟩,
  ⟨0x0180, 4, 16, 0, 1, [⟨31, 31, .ro⟩, ⟨30, 30, .ro⟩, ⟨29, 17, .ro⟩, ⟨15, 0, .ro⟩]⟩,
  ⟨0x0200, 16, 4, 0, 1, [⟨31, 16, .rw⟩, ⟨15, 12, .rw⟩, ⟨9, 9, .rw⟩, ⟨8, 8, .rw⟩, ⟨5, 5, .rw⟩, ⟨4, 4, .w1c⟩, ⟨0, 0, .rw⟩]⟩,
  ⟨0x0204, 16, 4, 0, 1, [⟨16, 8, .rw⟩, ⟨7, 0, .rw⟩]⟩,
  ⟨0x0208, 16, 4, 0, 1, [⟨31, 24, .rc⟩, ⟨16, 0, .ro⟩]⟩,
  ⟨0x020C, 16, 4, 0, 1, [⟨16, 0, .rw⟩]⟩,
  ⟨0x1000, 32, 128, 0, 1, [⟨31, 31, .ro⟩, ⟨30, 29, .rwl⟩, ⟨28, 27, .rwl⟩, ⟨3, 3, .rwf⟩, ⟨1, 0, .rwf⟩]⟩,
  ⟨0x1004, 32, 128, 0, 1, [⟨31, 16, .rwf⟩, ⟨14, 12, .rwf⟩, ⟨10, 0, .rwf⟩]⟩,
  ⟨0x1008, 32, 128, 0, 1, [⟨31, 16, .rws⟩, ⟨15, 0, .rws⟩]⟩,
  ⟨0x100C, 32, 128, 0, 1, [⟨31, 0, .rwf⟩]⟩,
  ⟨0x1010, 32, 128, 0, 1, [⟨31, 0, .rwf⟩]⟩,
  ⟨0x1014, 32, 128, 0, 1, [⟨31, 0, .ro⟩]⟩,
  ⟨0x1018, 32, 128, 0, 1, [⟨31, 31, .ro⟩, ⟨20, 16, .ro⟩, ⟨12, 0, .ro⟩]⟩,
  ⟨0xFF00, 0, 1, 0, 1, [⟨0, 0, .wo⟩]⟩,
  ⟨0xFF04, 0, 1, 0, 1, [⟨15, 8, .ro⟩, ⟨2, 2, .w1c⟩, ⟨1, 1, .w1c⟩, ⟨0, 0, .ro⟩]⟩]

/-- The registers of the LNK block. -/
def lnkRegs : List RegDesc := [
  ⟨0x0000, 0, 1, 0, 1, [⟨2, 2, .ro⟩, ⟨1, 1, .w1c⟩, ⟨0, 0, .w1c⟩]⟩,
  ⟨0x0004, 4, 2, 0, 1, [⟨31, 0, .ro⟩]⟩,
  ⟨0x000C, 0, 1, 0, 1, [⟨7, 6, .rwf⟩, ⟨5, 4, .rwf⟩, ⟨3, 2, .rwf⟩, ⟨1, 0, .rwf⟩]⟩,
  ⟨0x0010, 0, 1, 0, 1, [⟨5, 0, .rw⟩]⟩,
  ⟨0x0014, 0, 1, 0, 1, [⟨31, 16, .rc⟩, ⟨13, 8, .ro⟩, ⟨2, 0, .ro⟩]⟩,
  ⟨0x0018, 0, 1, 0, 1, [⟨31, 24, .rc⟩, ⟨23, 16, .rc⟩, ⟨15, 0, .rc⟩]⟩,
  ⟨0x001C, 0, 1, 0, 1, [⟨31, 31, .ro⟩, ⟨15, 0, .ro⟩]⟩,
  ⟨0x0020, 0, 1, 0, 1, [⟨31, 24, .rc⟩, ⟨23, 16, .rc⟩, ⟨15, 0, .rc⟩]⟩]

/-- The registers of the RNG block. -/
def rngRegs : List RegDesc := [
  ⟨0x0000, 0, 1, 0, 1, [⟨2, 2, .w1c⟩, ⟨1, 1, .w1c⟩, ⟨0, 0, .w1c⟩]⟩,
  ⟨0x0004, 0, 1, 0, 1, [⟨15, 8, .rwf⟩, ⟨3, 0, .rwf⟩]⟩,
  ⟨0x0008, 0, 1, 0, 1, [⟨12, 8, .wo⟩, ⟨2, 0, .wo⟩]⟩,
  ⟨0x000C, 0, 1, 0, 1, [⟨23, 0, .ro⟩]⟩,
  ⟨0x0010, 0, 1, 0, 1, [⟨23, 0, .ro⟩]⟩,
  ⟨0x0014, 0, 1, 0, 1, [⟨23, 0, .w1c⟩]⟩,
  ⟨0x0018, 0, 1, 0, 1, [⟨23, 0, .ro⟩]⟩,
  ⟨0x001C, 0, 1, 0, 1, [⟨23, 0, .ro⟩]⟩,
  ⟨0x0020, 0, 1, 0, 1, [⟨12, 8, .rw⟩, ⟨7, 0, .rw⟩]⟩,
  ⟨0x0024, 0, 1, 0, 1, [⟨31, 31, .ro⟩, ⟨30, 30, .ro⟩, ⟨29, 29, .ro⟩, ⟨28, 28, .ro⟩, ⟨27, 27, .ro⟩, ⟨26, 26, .ro⟩, ⟨25, 24, .ro⟩, ⟨23, 20, .ro⟩, ⟨7, 0, .ro⟩]⟩,
  ⟨0x0028, 0, 1, 0, 1, [⟨31, 16, .ro⟩, ⟨15, 0, .ro⟩]⟩,
  ⟨0x0040, 4, 8, 0, 1, [⟨31, 0, .ro⟩]⟩,
  ⟨0x0060, 4, 8, 0, 1, [⟨31, 0, .ro⟩]⟩,
  ⟨0x0080, 0, 1, 0, 1, [⟨23, 16, .ro⟩, ⟨12, 8, .rw⟩, ⟨4, 4, .w1c⟩, ⟨3, 3, .w1c⟩, ⟨2, 2, .w1c⟩, ⟨1, 1, .ro⟩, ⟨0, 0, .wo⟩]⟩,
  ⟨0x0100, 4, 17, 0, 1, [⟨31, 16, .rw⟩, ⟨15, 0, .rw⟩]⟩,
  ⟨0x0180, 4, 17, 0, 1, [⟨31, 16, .ro⟩, ⟨15, 0, .ro⟩]⟩,
  ⟨0x0400, 32, 24, 0, 1, [⟨31, 24, .ro⟩, ⟨23, 16, .ro⟩, ⟨15, 15, .ro⟩, ⟨14, 14, .ro⟩, ⟨11, 3, .ro⟩, ⟨2, 0, .ro⟩]⟩,
  ⟨0x0404, 32, 24, 0, 1, [⟨31, 24, .rc⟩, ⟨23, 16, .rc⟩, ⟨15, 8, .rc⟩, ⟨7, 0, .rc⟩]⟩,
  ⟨0x0408, 32, 24, 0, 1, [⟨31, 16, .ro⟩, ⟨15, 0, .ro⟩]⟩,
  ⟨0x040C, 32, 24, 0, 1, [⟨31, 24, .ro⟩, ⟨23, 16, .ro⟩, ⟨13, 8, .w1c⟩, ⟨1, 1, .w1c⟩, ⟨0, 0, .w1c⟩]⟩,
  ⟨0x0410, 32, 24, 0, 1, [⟨31, 24, .ro⟩, ⟨23, 23, .ro⟩, ⟨22, 22, .ro⟩, ⟨15, 12, .ro⟩, ⟨11, 8, .ro⟩, ⟨7, 4, .ro⟩, ⟨3, 0, .ro⟩]⟩]

/-- The registers of the CSV block. -/
def csvRegs : List RegDesc := [
  ⟨0x0000, 0, 1, 0, 1, [⟨31, 16, .rc⟩, ⟨3, 3, .w1c⟩, ⟨2, 2, .w1c⟩, ⟨1, 1, .w1c⟩, ⟨0, 0, .w1c⟩]⟩,
  ⟨0x0004, 0, 1, 0, 1, [⟨31, 16, .rwl⟩, ⟨4, 4, .rwl⟩, ⟨2, 0, .rwl⟩]⟩,
  ⟨0x0008, 0, 1, 0, 1, [⟨23, 0, .rwl⟩]⟩,
  ⟨0x000C, 0, 1, 0, 1, [⟨31, 24, .rc⟩, ⟨23, 16, .rc⟩, ⟨15, 8, .rc⟩, ⟨7, 0, .rc⟩]⟩,
  ⟨0x0010, 0, 1, 0, 1, [⟨12, 8, .rw⟩, ⟨7, 0, .rw⟩]⟩,
  ⟨0x0014, 0, 1, 0, 1, [⟨31, 31, .wo⟩, ⟨23, 16, .wo⟩, ⟨12, 0, .wo⟩]⟩,
  ⟨0x0018, 0, 1, 0, 1, [⟨28, 24, .ro⟩, ⟨23, 16, .ro⟩, ⟨5, 4, .ro⟩, ⟨2, 2, .w1c⟩, ⟨1, 1, .w1c⟩, ⟨0, 0, .ro⟩]⟩,
  ⟨0x0020, 0, 1, 0, 1, [⟨31, 16, .wo⟩, ⟨12, 12, .wo⟩, ⟨11, 0, .wo⟩]⟩,
  ⟨0x0024, 0, 1, 0, 1, [⟨15, 8, .ro⟩, ⟨2, 2, .w1c⟩, ⟨1, 1, .w1c⟩, ⟨0, 0, .ro⟩]⟩,
  ⟨0x0028, 0, 1, 0, 1, [⟨31, 16, .ro⟩, ⟨15, 0, .ro⟩]⟩,
  ⟨0x0100, 32, 16, 0, 1, [⟨31, 16, .rws⟩, ⟨15, 0, .rws⟩]⟩,
  ⟨0x0104, 32, 16, 0, 1, [⟨31, 16, .rws⟩, ⟨15, 0, .rws⟩]⟩,
  ⟨0x0108, 32, 16, 0, 1, [⟨31, 16, .rws⟩, ⟨15, 0, .rws⟩]⟩,
  ⟨0x010C, 32, 16, 0, 1, [⟨31, 16, .rws⟩, ⟨15, 0, .rws⟩]⟩,
  ⟨0x0110, 32, 16, 0, 1, [⟨31, 16, .rws⟩, ⟨15, 0, .rws⟩]⟩,
  ⟨0x0114, 32, 16, 0, 1, [⟨31, 16, .rws⟩, ⟨15, 0, .rws⟩]⟩,
  ⟨0x0400, 16, 24, 0, 1, [⟨31, 16, .ro⟩, ⟨15, 0, .ro⟩]⟩,
  ⟨0x0404, 16, 24, 0, 1, [⟨31, 16, .ro⟩, ⟨15, 0, .ro⟩]⟩,
  ⟨0x0408, 16, 24, 0, 1, [⟨31, 31, .ro⟩, ⟨27, 24, .ro⟩, ⟨23, 16, .ro⟩, ⟨15, 15, .ro⟩, ⟨11, 8, .ro⟩, ⟨7, 0, .ro⟩]⟩,
  ⟨0xFF00, 0, 1, 0, 1, [⟨0, 0, .wo⟩]⟩,
  ⟨0xFF04, 0, 1, 0, 1, [⟨15, 8, .ro⟩, ⟨2, 2, .w1c⟩, ⟨1, 1, .w1c⟩, ⟨0, 0, .ro⟩]⟩]

/-- The registers of the SPX block. -/
def spxRegs : List RegDesc := [
  ⟨0x0000, 0, 1, 0, 1, [⟨23, 16, .ro⟩, ⟨5, 5, .w1c⟩, ⟨4, 4, .w1c⟩, ⟨3, 3, .w1c⟩, ⟨2, 2, .w1c⟩, ⟨1, 1, .ro⟩, ⟨0, 0, .ro⟩]⟩,
  ⟨0x0004, 0, 1, 0, 1, [⟨1, 1, .wo⟩, ⟨0, 0, .wo⟩]⟩,
  ⟨0x0008, 0, 1, 0, 1, [⟨31, 16, .rw⟩, ⟨15, 8, .rw⟩, ⟨7, 0, .rw⟩]⟩,
  ⟨0x000C, 0, 1, 0, 1, [⟨21, 0, .rw⟩]⟩,
  ⟨0x0010, 0, 1, 0, 1, [⟨23, 0, .rw⟩]⟩,
  ⟨0x0014, 0, 1, 0, 1, [⟨23, 0, .rw⟩]⟩,
  ⟨0x0018, 0, 1, 0, 1, [⟨31, 16, .ro⟩, ⟨15, 0, .ro⟩]⟩,
  ⟨0x001C, 0, 1, 0, 1, [⟨31, 0, .ro⟩]⟩,
  ⟨0x0020, 0, 1, 0, 1, [⟨12, 8, .rw⟩, ⟨7, 0, .rw⟩]⟩,
  ⟨0x0024, 0, 1, 0, 1, [⟨31, 16, .ro⟩, ⟨15, 8, .ro⟩, ⟨5, 5, .w1c⟩, ⟨4, 4, .ro⟩, ⟨3, 3, .ro⟩, ⟨2, 2, .ro⟩, ⟨1, 1, .ro⟩, ⟨0, 0, .ro⟩]⟩,
  ⟨0x0040, 8, 8, 0, 1, [⟨31, 31, .rw⟩, ⟨26, 22, .rw⟩, ⟨21, 0, .rw⟩]⟩,
  ⟨0x0044, 8, 8, 0, 1, [⟨15, 0, .rw⟩]⟩,
  ⟨0x0100, 8, 24, 0, 1, [⟨31, 30, .ro⟩, ⟨29, 29, .ro⟩, ⟨23, 20, .ro⟩, ⟨15, 0, .rc⟩]⟩,
  ⟨0x0104, 8, 24, 0, 1, [⟨31, 16, .rc⟩, ⟨15, 0, .rc⟩]⟩]

/-- The registers of the BGT block. -/
def bgtRegs : List RegDesc := [
  ⟨0x0000, 0, 1, 0, 1, [⟨25, 16, .rwl⟩, ⟨15, 0, .rwl⟩]⟩,
  ⟨0x0004, 0, 1, 0, 1, [⟨31, 16, .rwl⟩, ⟨15, 0, .rwl⟩]⟩,
  ⟨0x0008, 0, 1, 0, 1, [⟨15, 0, .rwl⟩]⟩,
  ⟨0x000C, 0, 1, 0, 1, [⟨31, 0, .rwl⟩]⟩,
  ⟨0x0010, 0, 1, 0, 1, [⟨22, 22, .ro⟩, ⟨21, 21, .ro⟩, ⟨20, 20, .w1c⟩, ⟨19, 19, .w1c⟩, ⟨18, 18, .w1c⟩, ⟨17, 17, .w1c⟩, ⟨15, 0, .ro⟩]⟩,
  ⟨0x0014, 0, 1, 0, 1, [⟨31, 24, .ro⟩, ⟨23, 23, .ro⟩, ⟨22, 16, .ro⟩, ⟨15, 0, .ro⟩]⟩,
  ⟨0x0018, 0, 1, 0, 1, [⟨31, 0, .ro⟩]⟩,
  ⟨0x001C, 0, 1, 0, 1, [⟨31, 0, .rwf⟩]⟩,
  ⟨0x0020, 0, 1, 0, 1, [⟨23, 16, .rc⟩, ⟨15, 0, .ro⟩]⟩,
  ⟨0x0100, 4, 24, 0, 1, [⟨15, 0, .ro⟩]⟩]

/-- The registers of the FLT block. -/
def fltRegs : List RegDesc := [
  ⟨0x0000, 0, 1, 0, 1, [⟨23, 17, .ro⟩, ⟨6, 6, .w1c⟩, ⟨5, 5, .w1c⟩, ⟨4, 4, .w1c⟩, ⟨3, 3, .ro⟩, ⟨2, 2, .w1c⟩, ⟨1, 1, .w1c⟩, ⟨0, 0, .ro⟩]⟩,
  ⟨0x0004, 0, 1, 0, 1, [⟨15, 8, .rwl⟩, ⟨1, 0, .rwl⟩]⟩,
  ⟨0x0008, 0, 1, 0, 1, [⟨6, 0, .rw⟩]⟩,
  ⟨0x000C, 0, 1, 0, 1, [⟨31, 24, .rwf⟩, ⟨23, 16, .rwl⟩, ⟨15, 0, .rwl⟩]⟩,
  ⟨0x0010, 0, 1, 0, 1, [⟨7, 0, .rwl⟩]⟩,
  ⟨0x0014, 0, 1, 0, 1, [⟨31, 31, .ro⟩, ⟨30, 30, .ro⟩, ⟨23, 16, .rc⟩, ⟨15, 8, .ro⟩, ⟨7, 0, .ro⟩]⟩,
  ⟨0x0020, 4, 4, 0, 1, [⟨31, 0, .w1c⟩]⟩,
  ⟨0x0030, 0, 1, 0, 1, [⟨19, 16, .wo⟩, ⟨15, 8, .wo⟩, ⟨7, 0, .wo⟩]⟩,
  ⟨0x0034, 0, 1, 0, 1, [⟨31, 8, .ro⟩, ⟨5, 0, .ro⟩]⟩,
  ⟨0x0038, 0, 1, 0, 1, [⟨31, 24, .rc⟩, ⟨19, 16, .ro⟩, ⟨9, 0, .ro⟩]⟩,
  ⟨0x003C, 0, 1, 0, 1, [⟨31, 0, .ro⟩]⟩,
  ⟨0x0040, 0, 1, 0, 1, [⟨24, 24, .ro⟩, ⟨23, 0, .ro⟩]⟩,
  ⟨0x1000, 16, 64, 4, 4, [⟨31, 0, .ro⟩]⟩]

/-- The registers of the HST block. -/
def hstRegs : List RegDesc := [
  ⟨0x0000, 0, 1, 0, 1, [⟨31, 24, .rc⟩, ⟨23, 16, .rc⟩, ⟨6, 6, .w1c⟩, ⟨5, 4, .ro⟩, ⟨3, 2, .ro⟩, ⟨1, 1, .ro⟩, ⟨0, 0, .ro⟩]⟩,
  ⟨0x0004, 0, 1, 0, 1, [⟨5, 4, .rw⟩, ⟨1, 1, .rw⟩, ⟨0, 0, .rw⟩]⟩,
  ⟨0x0010, 0, 1, 0, 1, [⟨13, 0, .w1c⟩]⟩,
  ⟨0x0014, 0, 1, 0, 1, [⟨13, 0, .rw⟩]⟩,
  ⟨0x0018, 0, 1, 0, 1, [⟨0, 0, .rw⟩]⟩,
  ⟨0x001C, 0, 1, 0, 1, [⟨31, 16, .rw⟩, ⟨15, 0, .w1c⟩]⟩,
  ⟨0x0020, 0, 1, 0, 1, [⟨31, 24, .rc⟩, ⟨23, 16, .rc⟩, ⟨15, 8, .rc⟩]⟩,
  ⟨0x0100, 32, 16, 0, 1, [⟨31, 12, .rw⟩]⟩,
  ⟨0x0104, 32, 16, 0, 1, [⟨31, 0, .rw⟩]⟩,
  ⟨0x0108, 32, 16, 0, 1, [⟨31, 31, .rw⟩, ⟨30, 29, .rw⟩, ⟨28, 24, .rw⟩, ⟨23, 16, .rw⟩, ⟨15, 0, .rw⟩]⟩,
  ⟨0x010C, 32, 16, 0, 1, [⟨31, 24, .rc⟩, ⟨19, 0, .ro⟩]⟩,
  ⟨0x0110, 32, 16, 0, 1, [⟨19, 0, .rw⟩]⟩,
  ⟨0x0114, 32, 16, 0, 1, [⟨31, 3, .rw⟩, ⟨0, 0, .rw⟩]⟩,
  ⟨0x0118, 32, 16, 0, 1, [⟨31, 0, .rw⟩]⟩]

/-- The registers of the TWO block. -/
def twoRegs : List RegDesc := [
  ⟨0x0000, 0, 1, 0, 1, [⟨9, 9, .rw⟩, ⟨8, 8, .rw⟩, ⟨6, 0, .ro⟩]⟩,
  ⟨0x0004, 0, 1, 0, 1, [⟨31, 16, .ro⟩, ⟨15, 11, .ro⟩, ⟨7, 7, .w1c⟩, ⟨5, 5, .w1c⟩, ⟨4, 4, .w1c⟩, ⟨3, 3, .w1c⟩, ⟨2, 2, .w1c⟩, ⟨1, 1, .ro⟩, ⟨0, 0, .ro⟩]⟩,
  ⟨0x0008, 0, 1, 0, 1, [⟨13, 0, .rw⟩]⟩,
  ⟨0x000C, 0, 1, 0, 1, [⟨31, 24, .rc⟩, ⟨23, 16, .rc⟩, ⟨15, 8, .rc⟩, ⟨7, 0, .rc⟩]⟩,
  ⟨0x0020, 0, 1, 0, 1, [⟨31, 31, .rw⟩, ⟨19, 16, .rw⟩, ⟨13, 12, .rw⟩, ⟨11, 11, .rw⟩, ⟨10, 10, .rw⟩, ⟨9, 9, .rw⟩, ⟨8, 8, .rw⟩, ⟨6, 0, .rw⟩]⟩,
  ⟨0x0024, 0, 1, 0, 1, [⟨31, 31, .wo⟩, ⟨30, 30, .wo⟩, ⟨29, 29, .wo⟩, ⟨21, 16, .wo⟩, ⟨13, 8, .wo⟩, ⟨6, 0, .wo⟩]⟩,
  ⟨0x0028, 0, 1, 0, 1, [⟨23, 16, .ro⟩, ⟨9, 9, .w1c⟩, ⟨8, 8, .w1c⟩, ⟨7, 7, .ro⟩, ⟨6, 6, .w1c⟩, ⟨5, 5, .w1c⟩, ⟨4, 4, .w1c⟩, ⟨3, 3, .w1c⟩, ⟨2, 2, .w1c⟩, ⟨1, 1, .w1c⟩, ⟨0, 0, .ro⟩]⟩,
  ⟨0x002C, 0, 1, 0, 1, [⟨31, 24, .rc⟩, ⟨23, 16, .rc⟩, ⟨5, 0, .ro⟩]⟩,
  ⟨0x0040, 4, 8, 0, 1, [⟨31, 0, .rw⟩]⟩,
  ⟨0x0060, 4, 8, 0, 1, [⟨31, 0, .ro⟩]⟩,
  ⟨0x0080, 4, 8, 0, 1, [⟨31, 0, .rw⟩]⟩]

/-- The registers of the SVC block. -/
def svcRegs : List RegDesc := [
  ⟨0x0000, 0, 1, 0, 1, [⟨20, 16, .rw⟩, ⟨15, 8, .rw⟩, ⟨6, 6, .rw⟩, ⟨5, 5, .rw⟩, ⟨4, 4, .rw⟩, ⟨3, 2, .rw⟩, ⟨1, 0, .rw⟩]⟩,
  ⟨0x0004, 0, 1, 0, 1, [⟨13, 13, .w1c⟩, ⟨12, 12, .ro⟩, ⟨11, 11, .ro⟩, ⟨10, 10, .ro⟩, ⟨9, 9, .ro⟩, ⟨8, 8, .ro⟩, ⟨7, 7, .ro⟩, ⟨6, 6, .ro⟩, ⟨5, 5, .ro⟩, ⟨4, 4, .ro⟩, ⟨3, 3, .ro⟩, ⟨2, 0, .ro⟩]⟩,
  ⟨0x0008, 0, 1, 0, 1, [⟨15, 0, .ro⟩]⟩,
  ⟨0x000C, 0, 1, 0, 1, [⟨2, 2, .rw⟩, ⟨1, 1, .rw⟩, ⟨0, 0, .rw⟩]⟩,
  ⟨0x0010, 0, 1, 0, 1, [⟨31, 16, .rw⟩, ⟨10, 10, .wo⟩, ⟨9, 9, .wo⟩, ⟨8, 8, .wo⟩, ⟨6, 4, .rw⟩, ⟨1, 0, .rw⟩]⟩,
  ⟨0x0020, 4, 7, 0, 1, [⟨31, 0, .rw⟩]⟩,
  ⟨0x0040, 0, 1, 0, 1, [⟨31, 16, .ro⟩, ⟨13, 11, .ro⟩, ⟨9, 9, .wo⟩, ⟨8, 8, .ro⟩, ⟨6, 4, .ro⟩, ⟨1, 0, .ro⟩]⟩,
  ⟨0x0044, 4, 7, 0, 1, [⟨31, 0, .ro⟩]⟩,
  ⟨0x0060, 0, 1, 0, 1, [⟨16, 16, .ro⟩, ⟨15, 8, .ro⟩, ⟨1, 1, .wo⟩, ⟨0, 0, .wo⟩]⟩,
  ⟨0x0064, 0, 1, 0, 1, [⟨13, 8, .rw⟩, ⟨1, 1, .ro⟩, ⟨0, 0, .ro⟩]⟩,
  ⟨0x0068, 0, 1, 0, 1, [⟨11, 11, .w1c⟩, ⟨10, 10, .w1c⟩, ⟨9, 9, .w1c⟩, ⟨8, 8, .w1c⟩, ⟨7, 7, .w1c⟩, ⟨6, 6, .w1c⟩, ⟨5, 5, .w1c⟩, ⟨4, 4, .w1c⟩, ⟨3, 3, .w1c⟩, ⟨2, 2, .w1c⟩, ⟨1, 1, .w1c⟩, ⟨0, 0, .w1c⟩]⟩]

/-- The registers of the SEQ block. -/
def seqRegs : List RegDesc := [
  ⟨0x0000, 0, 1, 0, 1, [⟨31, 16, .rwf⟩, ⟨8, 8, .rwf⟩, ⟨4, 0, .rwf⟩]⟩,
  ⟨0x0004, 0, 1, 0, 1, [⟨1, 0, .wo⟩]⟩,
  ⟨0x0008, 0, 1, 0, 1, [⟨19, 16, .ro⟩, ⟨10, 10, .ro⟩, ⟨9, 9, .w1c⟩, ⟨8, 8, .w1c⟩, ⟨7, 7, .w1c⟩, ⟨6, 6, .w1c⟩, ⟨5, 5, .w1c⟩, ⟨4, 4, .w1c⟩, ⟨3, 3, .ro⟩, ⟨2, 0, .ro⟩]⟩,
  ⟨0x000C, 0, 1, 0, 1, [⟨31, 16, .ro⟩, ⟨15, 0, .ro⟩]⟩,
  ⟨0x0010, 0, 1, 0, 1, [⟨31, 16, .w1c⟩, ⟨15, 0, .w1c⟩]⟩,
  ⟨0x0100, 16, 16, 0, 1, [⟨31, 16, .rwf⟩, ⟨11, 8, .rwf⟩, ⟨3, 0, .rwf⟩]⟩,
  ⟨0x0104, 16, 16, 0, 1, [⟨31, 16, .rwf⟩, ⟨15, 0, .rwf⟩]⟩,
  ⟨0x0108, 16, 16, 0, 1, [⟨31, 16, .rwf⟩, ⟨8, 8, .rwf⟩, ⟨7, 0, .rwf⟩]⟩]

/-- The registers of the THM block. -/
def thmRegs : List RegDesc := [
  ⟨0x0000, 0, 1, 0, 1, [⟨27, 24, .rw⟩, ⟨23, 16, .rw⟩, ⟨15, 8, .rw⟩, ⟨0, 0, .w1c⟩]⟩,
  ⟨0x0004, 0, 1, 0, 1, [⟨11, 0, .rw⟩]⟩,
  ⟨0x0008, 0, 1, 0, 1, [⟨27, 16, .ro⟩, ⟨11, 0, .ro⟩]⟩,
  ⟨0x000C, 0, 1, 0, 1, [⟨31, 28, .ro⟩, ⟨27, 16, .ro⟩, ⟨15, 0, .ro⟩]⟩,
  ⟨0x0010, 4, 12, 0, 1, [⟨16, 16, .ro⟩, ⟨15, 0, .ro⟩]⟩]

/-- The registers of the TAG block. -/
def tagRegs : List RegDesc := [
  ⟨0x0000, 0, 1, 0, 1, [⟨4, 4, .ro⟩, ⟨3, 0, .rw⟩]⟩,
  ⟨0x0004, 0, 1, 0, 1, [⟨10, 8, .wo⟩, ⟨5, 4, .wo⟩, ⟨2, 0, .wo⟩]⟩,
  ⟨0x0008, 0, 1, 0, 1, [⟨31, 0, .rw⟩]⟩,
  ⟨0x000C, 0, 1, 0, 1, [⟨31, 0, .rw⟩]⟩,
  ⟨0x0010, 4, 4, 0, 1, [⟨22, 16, .ro⟩, ⟨11, 8, .ro⟩, ⟨4, 4, .w1c⟩, ⟨3, 3, .w1c⟩, ⟨2, 2, .ro⟩, ⟨1, 1, .w1c⟩, ⟨0, 0, .ro⟩]⟩,
  ⟨0x0020, 4, 8, 0, 1, [⟨31, 0, .ro⟩]⟩,
  ⟨0x1000, 512, 4, 8, 64, [⟨31, 0, .ro⟩]⟩,
  ⟨0x1004, 512, 4, 8, 64, [⟨31, 0, .ro⟩]⟩]

/-- The registers of the NVM block. -/
def nvmRegs : List RegDesc := [
  ⟨0x0000, 0, 1, 0, 1, [⟨23, 16, .ro⟩, ⟨6, 6, .ro⟩, ⟨5, 5, .ro⟩, ⟨4, 4, .ro⟩, ⟨3, 3, .w1c⟩, ⟨2, 2, .w1c⟩, ⟨1, 1, .ro⟩, ⟨0, 0, .ro⟩]⟩,
  ⟨0x0004, 0, 1, 0, 1, [⟨10, 8, .wo⟩, ⟨3, 0, .wo⟩]⟩,
  ⟨0x0008, 0, 1, 0, 1, [⟨17, 6, .rw⟩]⟩,
  ⟨0x000C, 0, 1, 0, 1, [⟨31, 0, .rw⟩]⟩,
  ⟨0x0010, 0, 1, 0, 1, [⟨31, 0, .rw⟩]⟩,
  ⟨0x0014, 0, 1, 0, 1, [⟨31, 0, .wo⟩]⟩,
  ⟨0x0018, 0, 1, 0, 1, [⟨31, 0, .wo⟩]⟩,
  ⟨0x001C, 0, 1, 0, 1, [⟨2, 0, .rw⟩]⟩,
  ⟨0x0040, 4, 8, 0, 1, [⟨31, 0, .ro⟩]⟩,
  ⟨0x0100, 4, 16, 0, 1, [⟨31, 0, .rw⟩]⟩]

/-- The register table of block n (R358). -/
def regTable : Nat → List RegDesc
  | 0 => sysRegs
  | 1 => tbsRegs
  | 2 => imgRegs
  | 3 => plcRegs
  | 4 => ceaRegs
  | 5 => busRegs
  | 6 => pwmRegs
  | 7 => acqRegs
  | 8 => lnkRegs
  | 9 => rngRegs
  | 10 => csvRegs
  | 11 => spxRegs
  | 12 => bgtRegs
  | 13 => fltRegs
  | 14 => hstRegs
  | 15 => twoRegs
  | 16 => svcRegs
  | 17 => seqRegs
  | 18 => thmRegs
  | 19 => tagRegs
  | 20 => nvmRegs
  | _ => []

/-- The index pair (n, m) of the register of `d` at offset `ofs`, if it holds one. -/
def RegDesc.index (d : RegDesc) (ofs : Nat) : Option (Nat × Nat) :=
  if ofs < d.base then none
  else
    let x := ofs - d.base
    let n := if d.d1 = 0 then 0 else x / d.d1
    let y := x - d.d1 * n
    let m := if d.d2 = 0 then 0 else y / d.d2
    if n < d.n1 ∧ m < d.n2 ∧ y = d.d2 * m then some (n, m) else none

/-- The register of block `b` at offset `ofs`: its description and its indices. -/
def findReg (b ofs : Nat) : Option (RegDesc × Nat × Nat) :=
  (regTable b).findSome? fun d => (d.index ofs).map fun nm => (d, nm.1, nm.2)

/-- The nonzero reset values of the SYS registers, by rising offset. -/
def sysReset : List (Nat × BitVec 32) := [
  (0x0000, 0x48500A01#32), (0x0104, 0x00000001#32)]

/-- The nonzero reset values of the TBS registers, by rising offset. -/
def tbsReset : List (Nat × BitVec 32) := [
  (0x0000, 0x00000FA0#32), (0x0004, 0x005000C8#32), (0x0008, 0x00960300#32)]

/-- The nonzero reset values of the PLC registers, by rising offset. -/
def plcReset : List (Nat × BitVec 32) := [
  (0x004C, 0x00640000#32), (0x0050, 0x00000400#32)]

/-- The nonzero reset values of the BUS registers, by rising offset. -/
def busReset : List (Nat × BitVec 32) := [
  (0x001C, 0x00C80014#32)]

/-- The nonzero reset values of the PWM registers, by rising offset. -/
def pwmReset : List (Nat × BitVec 32) := [
  (0x0020, 0x08080808#32), (0x0024, 0x08080808#32), (0x0028, 0x08080808#32), (0x002C, 0x08080808#32)]

/-- The nonzero reset values of the LNK registers, by rising offset. -/
def lnkReset : List (Nat × BitVec 32) := [
  (0x0000, 0x00000004#32), (0x000C, 0x00000055#32)]

/-- The nonzero reset values of the RNG registers, by rising offset. -/
def rngReset : List (Nat × BitVec 32) := [
  (0x0004, 0x00000402#32)]

/-- The nonzero reset values of the CSV registers, by rising offset. -/
def csvReset : List (Nat × BitVec 32) := [
  (0x0004, 0x01F40010#32)]

/-- The nonzero reset values of the BGT registers, by rising offset. -/
def bgtReset : List (Nat × BitVec 32) := [
  (0x0000, 0x03E836B0#32)]

/-- The nonzero reset values of the FLT registers, by rising offset. -/
def fltReset : List (Nat × BitVec 32) := [
  (0x0000, 0x00000001#32), (0x0004, 0x00004003#32)]

/-- The nonzero reset values of the HST registers, by rising offset; every vector of the MSI-X table is masked.
PRESUMED: log 7. -/
def hstReset : List (Nat × BitVec 32) :=
  (0x0004, 0x00000023#32) :: (List.range 32).map fun v => (0x800C + 16 * v, 1#32)

/-- The nonzero reset values of the TWO registers, by rising offset. -/
def twoReset : List (Nat × BitVec 32) := [
  (0x0000, 0x00000360#32), (0x0020, 0x00031C00#32)]

/-- The nonzero reset values of the SVC registers, by rising offset. -/
def svcReset : List (Nat × BitVec 32) := [
  (0x0000, 0x001B0A6A#32)]

/-- The nonzero reset values of the SEQ registers, by rising offset. -/
def seqReset : List (Nat × BitVec 32) := [
  (0x0000, 0x00640000#32), (0x0108, 0x000000FF#32), (0x0118, 0x000000FF#32), (0x0128, 0x000000FF#32),
  (0x0138, 0x000000FF#32), (0x0148, 0x000000FF#32), (0x0158, 0x000000FF#32), (0x0168, 0x000000FF#32),
  (0x0178, 0x000000FF#32), (0x0188, 0x000000FF#32), (0x0198, 0x000000FF#32), (0x01A8, 0x000000FF#32),
  (0x01B8, 0x000000FF#32), (0x01C8, 0x000000FF#32), (0x01D8, 0x000000FF#32), (0x01E8, 0x000000FF#32),
  (0x01F8, 0x000000FF#32)]

/-- The nonzero reset values of the THM registers, by rising offset. -/
def thmReset : List (Nat × BitVec 32) := [
  (0x0000, 0x05786900#32)]

/-! Register offsets in their block, under the names of the manual. -/
def R.SYS_QUEUE_SEL : Nat := 0x0300
def R.SYS_QUEUE_STAT : Nat := 0x0304
def R.TBS_STRIDE : Nat := 0x0000
def R.TBS_LAP : Nat := 0x0004
def R.TBS_SYNC_CFG : Nat := 0x0008
def R.TBS_PACE_OFS : Nat := 0x000C
def R.TBS_STRIDE_CNT : Nat := 0x0010
def R.TBS_LAP_POS : Nat := 0x0014
def R.TBS_STAT : Nat := 0x0018
def R.TBS_OVR_CNT : Nat := 0x001C
def R.TBS_HIVE_STAT : Nat := 0x0020
def R.TBS_OVR_MAPn (n : Nat) : Nat := 0x0040 + 4 * n
def R.IMG_CTRL : Nat := 0x0000
def R.IMG_STAT : Nat := 0x0004
def R.IMG_ERR : Nat := 0x0008
def R.IMG_ERR_OFS : Nat := 0x000C
def R.IMG_BUF_PAGE : Nat := 0x0010
def R.IMG_ID_IN_FORCE : Nat := 0x0014
def R.IMG_VER_IN_FORCE : Nat := 0x0018
def R.IMG_NVM_STAT : Nat := 0x001C
/-- `blk_COMMIT` (R92, R93). -/
def R.blk_COMMIT : Nat := 0xFF00
/-- `blk_COMMIT_STAT` (R92, R93). -/
def R.blk_COMMIT_STAT : Nat := 0xFF04
def R.SYS_WRITE_IGN : Nat := 0x0310
def R.SYS_WRITE_IGN_ADDR : Nat := 0x0314
def R.CEA_STAT : Nat := 0x0000
def R.CEA_ENG_STAT : Nat := 0x0004
def R.CEA_SHADOW_STAT : Nat := 0x0008
def R.CEA_WIN_SEL : Nat := 0x0010
def R.CEA_SNAP : Nat := 0x0014
def R.CEA_PLAUS_SEL : Nat := 0x0020
def R.CEA_PLAUS_STAT : Nat := 0x0024
def R.CEA_PLAUS_RES : Nat := 0x0028
def R.CEA_BANK_SELn (n : Nat) : Nat := 0x0100 + 4 * n
def R.CEA_SAT_MAPn (n : Nat) : Nat := 0x0120 + 4 * n
def R.CEA_STALE_MAPn (n : Nat) : Nat := 0x0140 + 4 * n
def R.PLC_PLACE_STAT : Nat := 0x0100
def R.PLC_ENG_ROLE : Nat := 0x0104
def R.PLC_N1_STAT : Nat := 0x0108
def R.PLC_PACK_STAT : Nat := 0x010C
def R.PLC_BENCH_MAPn (n : Nat) : Nat := 0x0120 + 4 * n
def R.PLC_ENG_LOADn (n : Nat) : Nat := 0x0140 + 4 * n
def R.PLC_CTX_MAPn (n : Nat) : Nat := 0x0400 + 4 * n
def R.BUS_VLIM : Nat := 0x0000
def R.BUS_VSLEW : Nat := 0x0004
def R.BUS_VCMD_HOST : Nat := 0x0008
def R.BUS_VCMD_CFG : Nat := 0x000C
def R.BUS_VCMD_STAT : Nat := 0x0010
def R.BUS_IMAX : Nat := 0x0014
def R.BUS_CMD : Nat := 0x0018
def R.BUS_LOSS_CFG : Nat := 0x001C
def R.BUS_HIVE_STAT : Nat := 0x0020
def R.BUS_STAT : Nat := 0x0024
def R.BUS_CNT : Nat := 0x0028
def R.PLC_SHARE_CFG : Nat := 0x0040
def R.PLC_HR_REF : Nat := 0x0044
def R.PLC_TDER : Nat := 0x0048
def R.PLC_PHASE_CFG : Nat := 0x004C
def R.PLC_ANG_CFG : Nat := 0x0050
def R.PLC_EXC_MAX : Nat := 0x0054
def R.PLC_SHARE_STAT : Nat := 0x0058
def R.PLC_HR_LOST : Nat := 0x005C
def R.PLC_PH_ACTn (n : Nat) : Nat := 0x0060 + 4 * n
def R.PLC_BANK_SHAREn_m (n : Nat) (m : Nat) : Nat := 0x0800 + 32 * n + 4 * m
def R.PLC_BANK_WTn_m (n : Nat) (m : Nat) : Nat := 0x0810 + 32 * n + 4 * m
def R.PLC_BANK_PHn (n : Nat) : Nat := 0x0818 + 32 * n
def R.PLC_BANK_REFn (n : Nat) : Nat := 0x081C + 32 * n
def R.PLC_ANGLEn (n : Nat) : Nat := 0x0B00 + 4 * n
def R.PLC_BANK_CFGn (n : Nat) : Nat := 0x0C00 + 4 * n
def R.PWM_CARRIER : Nat := 0x0000
def R.PWM_STAT : Nat := 0x0004
def R.PWM_CNT : Nat := 0x0008
def R.PWM_TRIP_IN : Nat := 0x0010
def R.PWM_TRIP_FILTn (n : Nat) : Nat := 0x0020 + 4 * n
def R.PWM_TRIP_FLAGn (n : Nat) : Nat := 0x0030 + 4 * n
def R.PWM_FLIM_MODEn (n : Nat) : Nat := 0x0038 + 4 * n
def R.PWM_TRIP_LVLn (n : Nat) : Nat := 0x0040 + 4 * n
def R.PWM_TRIP_SEL : Nat := 0x0050
def R.PWM_TRIP_CAUSE : Nat := 0x0054
def R.PWM_PHn_TIM (n : Nat) : Nat := 0x0100 + 8 * n
def R.PWM_PHn_MIN (n : Nat) : Nat := 0x0104 + 8 * n
def R.PWM_PH_DUTYn (n : Nat) : Nat := 0x0400 + 4 * n
def R.PWM_AUX_CFGn (n : Nat) : Nat := 0x0300 + 4 * n
def R.PWM_AUX_DUTYn (n : Nat) : Nat := 0x0320 + 4 * n
def R.PWM_AUX_CWORD : Nat := 0x0340
def R.ACQ_STAT : Nat := 0x0000
def R.ACQ_REF : Nat := 0x0004
def R.ACQ_LANE_STAT : Nat := 0x0008
def R.ACQ_CAL_CMD : Nat := 0x0010
def R.ACQ_CAL_FS : Nat := 0x0014
def R.ACQ_CAL_STAT : Nat := 0x0018
def R.ACQ_OW_CFG : Nat := 0x0020
def R.ACQ_OW_CMD : Nat := 0x0024
def R.ACQ_OW_STAT : Nat := 0x0028
def R.ACQ_OW_MASKn (n : Nat) : Nat := 0x0030 + 4 * n
def R.ACQ_OW_OPENn (n : Nat) : Nat := 0x0040 + 4 * n
def R.ACQ_FETCH_GO : Nat := 0x0050
def R.ACQ_SEQl (l : Nat) : Nat := 0x0100 + 4 * l
def R.ACQ_FETCH_CFGl (l : Nat) : Nat := 0x0140 + 4 * l
def R.ACQ_FETCH_RESl (l : Nat) : Nat := 0x0180 + 4 * l
def R.ACQ_STRs_CFG (s : Nat) : Nat := 0x0200 + 16 * s
def R.ACQ_STRs_BUF (s : Nat) : Nat := 0x0204 + 16 * s
def R.ACQ_STRs_WPTR (s : Nat) : Nat := 0x0208 + 16 * s
def R.ACQ_STRs_RPTR (s : Nat) : Nat := 0x020C + 16 * s
def R.ACQ_CHn_CFG (n : Nat) : Nat := 0x1000 + 32 * n
def R.ACQ_CHn_FILT (n : Nat) : Nat := 0x1004 + 32 * n
def R.ACQ_CHn_FLIM (n : Nat) : Nat := 0x1008 + 32 * n
def R.ACQ_CHn_CAL_OFS (n : Nat) : Nat := 0x100C + 32 * n
def R.ACQ_CHn_CAL_GAIN (n : Nat) : Nat := 0x1010 + 32 * n
def R.ACQ_CHn_RES (n : Nat) : Nat := 0x1014 + 32 * n
def R.ACQ_CHn_STAT (n : Nat) : Nat := 0x1018 + 32 * n
def R.LNK_STAT : Nat := 0x0000
def R.LNK_UPn (n : Nat) : Nat := 0x0004 + 4 * n
def R.LNK_TX_CFG : Nat := 0x000C
def R.LNK_PORT_SEL : Nat := 0x0010
def R.LNK_PORT_STAT : Nat := 0x0014
def R.LNK_PORT_ERR : Nat := 0x0018
def R.LNK_PORT_DLY : Nat := 0x001C
def R.LNK_HIVE_CNT : Nat := 0x0020
def R.RNG_STAT : Nat := 0x0000
def R.RNG_CFG : Nat := 0x0004
def R.RNG_CMD : Nat := 0x0008
def R.RNG_READY : Nat := 0x000C
def R.RNG_SPLIT : Nat := 0x0010
def R.RNG_OVERFLOW_NODE : Nat := 0x0014
def R.RNG_MISMATCH : Nat := 0x0018
def R.RNG_DLY_OVER : Nat := 0x001C
def R.RNG_SEL : Nat := 0x0020
def R.RNG_NODE_STAT : Nat := 0x0024
def R.RNG_NODE_DLY : Nat := 0x0028
def R.RNG_DESCn (n : Nat) : Nat := 0x0040 + 4 * n
def R.RNG_REACHn (n : Nat) : Nat := 0x0060 + 4 * n
def R.RNG_WAG_CTL : Nat := 0x0080
def R.RNG_WAG_TXn (n : Nat) : Nat := 0x0100 + 4 * n
def R.RNG_WAG_RXn (n : Nat) : Nat := 0x0180 + 4 * n
def R.RNG_RINGr_STAT (r : Nat) : Nat := 0x0400 + 32 * r
def R.RNG_RINGr_CNT (r : Nat) : Nat := 0x0404 + 32 * r
def R.RNG_RINGr_LAT (r : Nat) : Nat := 0x0408 + 32 * r
def R.RNG_RINGr_ALM (r : Nat) : Nat := 0x040C + 32 * r
def R.RNG_RINGr_PLAN (r : Nat) : Nat := 0x0410 + 32 * r
def R.CSV_STAT : Nat := 0x0000
def R.CSV_CFG : Nat := 0x0004
def R.CSV_QUIET_DIS : Nat := 0x0008
def R.CSV_CNT : Nat := 0x000C
def R.CSV_SEL : Nat := 0x0010
def R.CSV_WIRE_CMD : Nat := 0x0014
def R.CSV_WIRE_STAT : Nat := 0x0018
def R.CSV_BAL_CMD : Nat := 0x0020
def R.CSV_BAL_STAT : Nat := 0x0024
def R.CSV_BAL_PWR : Nat := 0x0028
def R.CSV_LIMn_0 (n : Nat) : Nat := 0x0100 + 32 * n
def R.CSV_LIMn_1 (n : Nat) : Nat := 0x0104 + 32 * n
def R.CSV_LIMn_2 (n : Nat) : Nat := 0x0108 + 32 * n
def R.CSV_LIMn_3 (n : Nat) : Nat := 0x010C + 32 * n
def R.CSV_LIMn_4 (n : Nat) : Nat := 0x0110 + 32 * n
def R.CSV_LIMn_5 (n : Nat) : Nat := 0x0114 + 32 * n
def R.CSV_HRn_DIS (n : Nat) : Nat := 0x0400 + 16 * n
def R.CSV_HRn_CHG (n : Nat) : Nat := 0x0404 + 16 * n
def R.CSV_HRn_SRC (n : Nat) : Nat := 0x0408 + 16 * n
def R.SPX_STAT : Nat := 0x0000
def R.SPX_CMD : Nat := 0x0004
def R.SPX_CAMP_CFG : Nat := 0x0008
def R.SPX_CAMP_INT : Nat := 0x000C
def R.SPX_BANK_MASK : Nat := 0x0010
def R.SPX_BANK_NEG : Nat := 0x0014
def R.SPX_LOAD : Nat := 0x0018
def R.SPX_WIN : Nat := 0x001C
def R.SPX_SEL : Nat := 0x0020
def R.SPX_NODE_STAT : Nat := 0x0024
def R.SPX_TONEt_CFG (t : Nat) : Nat := 0x0040 + 8 * t
def R.SPX_TONEt_AMP (t : Nat) : Nat := 0x0044 + 8 * t
def R.SPX_RINGr_STAT (r : Nat) : Nat := 0x0100 + 8 * r
def R.SPX_RINGr_OK (r : Nat) : Nat := 0x0104 + 8 * r
def R.SYS_STATE_CMD : Nat := 0x0100
def R.SYS_STATE_STAT : Nat := 0x0104
def R.BGT_CORE_CFG : Nat := 0x0000
def R.BGT_GD_CFG : Nat := 0x0004
def R.BGT_BAL_CFG : Nat := 0x0008
def R.BGT_BAL_TOTAL : Nat := 0x000C
def R.BGT_STAT : Nat := 0x0010
def R.BGT_UNIT_REQ : Nat := 0x0014
def R.BGT_UNIT_ON : Nat := 0x0018
def R.BGT_HOST_OFF : Nat := 0x001C
def R.BGT_GD_STAT : Nat := 0x0020
def R.BGT_BAL_GRANTr (r : Nat) : Nat := 0x0100 + 4 * r
def R.FLT_STAT : Nat := 0x0000
def R.FLT_CFG : Nat := 0x0004
def R.FLT_SRC_SEL : Nat := 0x0008
def R.FLT_SRC_CFG : Nat := 0x000C
def R.FLT_SRC_REACT : Nat := 0x0010
def R.FLT_SRC_STAT : Nat := 0x0014
def R.FLT_ACTIVEn (n : Nat) : Nat := 0x0020 + 4 * n
def R.FLT_RAISE : Nat := 0x0030
def R.FLT_LOG_PTR : Nat := 0x0034
def R.FLT_NVLOG_STAT : Nat := 0x0038
def R.FLT_SEQ : Nat := 0x003C
def R.FLT_DEG_STAT : Nat := 0x0040
def R.FLT_LOGi_w (i : Nat) (w : Nat) : Nat := 0x1000 + 16 * i + 4 * w
def R.SYS_ID : Nat := 0x0000
def R.HST_STAT : Nat := 0x0000
def R.HST_PCIE_CFG : Nat := 0x0004
def R.HST_IRQ_STAT : Nat := 0x0010
def R.HST_IRQ_EN : Nat := 0x0014
def R.HST_IRQ_CFG : Nat := 0x0018
def R.HST_DMA_IRQ : Nat := 0x001C
def R.HST_SPI_STAT : Nat := 0x0020
def R.HST_DMAr_BASE_LO (r : Nat) : Nat := 0x0100 + 32 * r
def R.HST_DMAr_BASE_HI (r : Nat) : Nat := 0x0104 + 32 * r
def R.HST_DMAr_CFG (r : Nat) : Nat := 0x0108 + 32 * r
def R.HST_DMAr_WPTR (r : Nat) : Nat := 0x010C + 32 * r
def R.HST_DMAr_RPTR (r : Nat) : Nat := 0x0110 + 32 * r
def R.HST_DMAr_WB_LO (r : Nat) : Nat := 0x0114 + 32 * r
def R.HST_DMAr_WB_HI (r : Nat) : Nat := 0x0118 + 32 * r
def R.TWO_A_CFG : Nat := 0x0000
def R.TWO_A_STAT : Nat := 0x0004
def R.TWO_A_ALERT_EN : Nat := 0x0008
def R.TWO_A_CNT : Nat := 0x000C
def R.TWO_B_CFG : Nat := 0x0020
def R.TWO_B_XFER : Nat := 0x0024
def R.TWO_B_STAT : Nat := 0x0028
def R.TWO_B_CNT : Nat := 0x002C
def R.TWO_B_TXn (n : Nat) : Nat := 0x0040 + 4 * n
def R.TWO_B_RXn (n : Nat) : Nat := 0x0060 + 4 * n
def R.TWO_B_MBXn (n : Nat) : Nat := 0x0080 + 4 * n
def R.SVC_CFG : Nat := 0x0000
def R.SVC_STAT : Nat := 0x0004
def R.SVC_VBUS : Nat := 0x0008
def R.SVC_PATH : Nat := 0x000C
def R.SVC_TX : Nat := 0x0010
def R.SVC_TX_DOn (n : Nat) : Nat := 0x0020 + 4 * n
def R.SVC_RX : Nat := 0x0040
def R.SVC_RX_DOn (n : Nat) : Nat := 0x0044 + 4 * n
def R.SVC_SWAP : Nat := 0x0060
def R.SVC_ALT : Nat := 0x0064
def R.SVC_EVT : Nat := 0x0068
def R.SEQ_CFG : Nat := 0x0000
def R.SEQ_CMD : Nat := 0x0004
def R.SEQ_STAT : Nat := 0x0008
def R.SEQ_RAILS : Nat := 0x000C
def R.SEQ_FLAGS : Nat := 0x0010
def R.SEQ_RAILn_A (n : Nat) : Nat := 0x0100 + 16 * n
def R.SEQ_RAILn_B (n : Nat) : Nat := 0x0104 + 16 * n
def R.SEQ_RAILn_C (n : Nat) : Nat := 0x0108 + 16 * n
def R.THM_CFG : Nat := 0x0000
def R.THM_MASK : Nat := 0x0004
def R.THM_STAT : Nat := 0x0008
def R.THM_SUM : Nat := 0x000C
def R.THM_SITEn (n : Nat) : Nat := 0x0010 + 4 * n
def R.TAG_CFG : Nat := 0x0000
def R.TAG_CMD : Nat := 0x0004
def R.TAG_ARG_LO : Nat := 0x0008
def R.TAG_ARG_HI : Nat := 0x000C
def R.TAG_STATl (l : Nat) : Nat := 0x0010 + 4 * l
def R.TAG_DATAn (n : Nat) : Nat := 0x0020 + 4 * n
def R.TAG_IDl_i_LO (l : Nat) (i : Nat) : Nat := 0x1000 + 512 * l + 8 * i
def R.TAG_IDl_i_HI (l : Nat) (i : Nat) : Nat := 0x1004 + 512 * l + 8 * i
def R.NVM_STAT : Nat := 0x0000
def R.NVM_CMD : Nat := 0x0004
def R.NVM_ADDR : Nat := 0x0008
def R.NVM_MASK_LO : Nat := 0x000C
def R.NVM_MASK_HI : Nat := 0x0010
def R.NVM_PW_LO : Nat := 0x0014
def R.NVM_PW_HI : Nat := 0x0018
def R.NVM_WIN_PAGE : Nat := 0x001C
def R.NVM_CTRn (n : Nat) : Nat := 0x0040 + 4 * n
def R.NVM_BUFn (n : Nat) : Nat := 0x0100 + 4 * n
def R.SYS_PWR_STAT : Nat := 0x0320

/-! Fields, under the names of the manual. -/
def F.SYS_QUEUE_SEL_ring : Fld := ⟨0x0300, 8, 5⟩
def F.SYS_QUEUE_SEL_qid : Fld := ⟨0x0300, 0, 4⟩
def F.SYS_QUEUE_STAT_ovr_cnt : Fld := ⟨0x0304, 24, 8⟩
def F.SYS_QUEUE_STAT_stale_cnt : Fld := ⟨0x0304, 16, 8⟩
def F.SYS_QUEUE_STAT_flush_cnt : Fld := ⟨0x0304, 11, 5⟩
def F.SYS_QUEUE_STAT_credits : Fld := ⟨0x0304, 0, 11⟩
def F.TBS_STRIDE_stride_clk : Fld := ⟨0x0000, 0, 13⟩
def F.TBS_LAP_commit_pct : Fld := ⟨0x0004, 16, 7⟩
def F.TBS_LAP_lap_len : Fld := ⟨0x0004, 0, 10⟩
def F.TBS_SYNC_CFG_wd_pct : Fld := ⟨0x0008, 16, 8⟩
def F.TBS_SYNC_CFG_holdover_strides : Fld := ⟨0x0008, 8, 8⟩
def F.TBS_SYNC_CFG_pace_out_en : Fld := ⟨0x0008, 4, 1⟩
def F.TBS_SYNC_CFG_src : Fld := ⟨0x0008, 0, 2⟩
def F.TBS_PACE_OFS_pace_ofs : Fld := ⟨0x000C, 0, 16⟩
def F.TBS_STRIDE_CNT_stride_cnt : Fld := ⟨0x0010, 0, 32⟩
def F.TBS_LAP_POS_clock : Fld := ⟨0x0014, 16, 13⟩
def F.TBS_LAP_POS_stride_in_lap : Fld := ⟨0x0014, 0, 10⟩
def F.TBS_STAT_lap_misalign : Fld := ⟨0x0018, 20, 1⟩
def F.TBS_STAT_lock_lost : Fld := ⟨0x0018, 19, 1⟩
def F.TBS_STAT_wd_expired : Fld := ⟨0x0018, 18, 1⟩
def F.TBS_STAT_write_ignored : Fld := ⟨0x0018, 17, 1⟩
def F.TBS_STAT_cfg_err : Fld := ⟨0x0018, 16, 1⟩
def F.TBS_STAT_phase_err : Fld := ⟨0x0018, 8, 8⟩
def F.TBS_STAT_lock_state : Fld := ⟨0x0018, 0, 2⟩
def F.TBS_OVR_CNT_last_ctx : Fld := ⟨0x001C, 16, 8⟩
def F.TBS_OVR_CNT_ovr_total : Fld := ⟨0x001C, 0, 16⟩
def F.TBS_HIVE_STAT_late : Fld := ⟨0x0020, 31, 1⟩
def F.TBS_HIVE_STAT_hive_delay : Fld := ⟨0x0020, 0, 12⟩
def F.TBS_OVR_MAPn_ovr (n : Nat) : Fld := ⟨0x0040 + 4 * n, 0, 32⟩
def F.IMG_CTRL_slot : Fld := ⟨0x0000, 4, 1⟩
def F.IMG_CTRL_cmd : Fld := ⟨0x0000, 0, 3⟩
def F.IMG_STAT_buf_hwm : Fld := ⟨0x0004, 15, 17⟩
def F.IMG_STAT_step : Fld := ⟨0x0004, 8, 4⟩
def F.IMG_STAT_owner : Fld := ⟨0x0004, 4, 3⟩
def F.IMG_STAT_cmd_err : Fld := ⟨0x0004, 2, 1⟩
def F.IMG_STAT_checked : Fld := ⟨0x0004, 1, 1⟩
def F.IMG_STAT_busy : Fld := ⟨0x0004, 0, 1⟩
def F.IMG_ERR_sec_type : Fld := ⟨0x0008, 16, 16⟩
def F.IMG_ERR_step : Fld := ⟨0x0008, 8, 3⟩
def F.IMG_ERR_code : Fld := ⟨0x0008, 0, 8⟩
def F.IMG_ERR_OFS_ofs : Fld := ⟨0x000C, 0, 32⟩
def F.IMG_BUF_PAGE_page : Fld := ⟨0x0010, 0, 3⟩
def F.IMG_ID_IN_FORCE_image_id : Fld := ⟨0x0014, 0, 32⟩
def F.IMG_VER_IN_FORCE_image_ver : Fld := ⟨0x0018, 0, 32⟩
def F.IMG_NVM_STAT_store_err : Fld := ⟨0x001C, 8, 3⟩
def F.IMG_NVM_STAT_active : Fld := ⟨0x001C, 4, 1⟩
def F.IMG_NVM_STAT_valid1 : Fld := ⟨0x001C, 1, 1⟩
def F.IMG_NVM_STAT_valid0 : Fld := ⟨0x001C, 0, 1⟩
def F.blk_COMMIT_commit : Fld := ⟨0xFF00, 0, 1⟩
def F.blk_COMMIT_STAT_reason : Fld := ⟨0xFF04, 8, 8⟩
def F.blk_COMMIT_STAT_accepted : Fld := ⟨0xFF04, 2, 1⟩
def F.blk_COMMIT_STAT_refused : Fld := ⟨0xFF04, 1, 1⟩
def F.blk_COMMIT_STAT_pending : Fld := ⟨0xFF04, 0, 1⟩
def F.SYS_WRITE_IGN_blk : Fld := ⟨0x0310, 0, 21⟩
def F.SYS_WRITE_IGN_ADDR_valid : Fld := ⟨0x0314, 31, 1⟩
def F.SYS_WRITE_IGN_ADDR_ofs : Fld := ⟨0x0314, 0, 21⟩
def F.CEA_STAT_write_ignored : Fld := ⟨0x0000, 17, 1⟩
def F.CEA_STAT_par_err : Fld := ⟨0x0000, 16, 1⟩
def F.CEA_STAT_par_ctx : Fld := ⟨0x0000, 8, 8⟩
def F.CEA_ENG_STAT_fenced : Fld := ⟨0x0004, 16, 16⟩
def F.CEA_ENG_STAT_abort_to : Fld := ⟨0x0004, 0, 16⟩
def F.CEA_SHADOW_STAT_last_ctx : Fld := ⟨0x0008, 24, 8⟩
def F.CEA_SHADOW_STAT_mismatch : Fld := ⟨0x0008, 0, 16⟩
def F.CEA_WIN_SEL_ctx : Fld := ⟨0x0010, 0, 8⟩
def F.CEA_SNAP_snap_ctx : Fld := ⟨0x0014, 8, 8⟩
def F.CEA_SNAP_done : Fld := ⟨0x0014, 1, 1⟩
def F.CEA_SNAP_req : Fld := ⟨0x0014, 0, 1⟩
def F.CEA_PLAUS_SEL_model : Fld := ⟨0x0020, 0, 6⟩
def F.CEA_PLAUS_STAT_ctx : Fld := ⟨0x0024, 24, 8⟩
def F.CEA_PLAUS_STAT_count : Fld := ⟨0x0024, 16, 8⟩
def F.CEA_PLAUS_STAT_last_attr : Fld := ⟨0x0024, 10, 2⟩
def F.CEA_PLAUS_STAT_hard_done : Fld := ⟨0x0024, 9, 1⟩
def F.CEA_PLAUS_STAT_fired : Fld := ⟨0x0024, 8, 1⟩
def F.CEA_PLAUS_STAT_fire_cnt : Fld := ⟨0x0024, 0, 8⟩
def F.CEA_PLAUS_RES_xdiff : Fld := ⟨0x0028, 16, 16⟩
def F.CEA_PLAUS_RES_res : Fld := ⟨0x0028, 0, 16⟩
def F.CEA_BANK_SELn_bank_b (n : Nat) : Fld := ⟨0x0100 + 4 * n, 0, 32⟩
def F.CEA_SAT_MAPn_sat (n : Nat) : Fld := ⟨0x0120 + 4 * n, 0, 32⟩
def F.CEA_STALE_MAPn_stale (n : Nat) : Fld := ⟨0x0140 + 4 * n, 0, 32⟩
def F.PLC_PLACE_STAT_replace_cnt : Fld := ⟨0x0100, 24, 8⟩
def F.PLC_PLACE_STAT_benched : Fld := ⟨0x0100, 15, 9⟩
def F.PLC_PLACE_STAT_last_fenced : Fld := ⟨0x0100, 11, 4⟩
def F.PLC_PLACE_STAT_n1_valid : Fld := ⟨0x0100, 5, 1⟩
def F.PLC_PLACE_STAT_bg_over : Fld := ⟨0x0100, 4, 1⟩
def F.PLC_PLACE_STAT_crit_unplaced : Fld := ⟨0x0100, 3, 1⟩
def F.PLC_PLACE_STAT_benched_new : Fld := ⟨0x0100, 2, 1⟩
def F.PLC_PLACE_STAT_replace_pending : Fld := ⟨0x0100, 1, 1⟩
def F.PLC_PLACE_STAT_valid : Fld := ⟨0x0100, 0, 1⟩
def F.PLC_ENG_ROLE_spare : Fld := ⟨0x0104, 16, 16⟩
def F.PLC_ENG_ROLE_used : Fld := ⟨0x0104, 0, 16⟩
def F.PLC_N1_STAT_crit_loss : Fld := ⟨0x0108, 16, 16⟩
def F.PLC_N1_STAT_bench_loss : Fld := ⟨0x0108, 0, 16⟩
def F.PLC_PACK_STAT_bound : Fld := ⟨0x010C, 16, 13⟩
def F.PLC_PACK_STAT_ctx : Fld := ⟨0x010C, 8, 8⟩
def F.PLC_PACK_STAT_engine : Fld := ⟨0x010C, 4, 4⟩
def F.PLC_PACK_STAT_reason : Fld := ⟨0x010C, 0, 4⟩
def F.PLC_BENCH_MAPn_benched (n : Nat) : Fld := ⟨0x0120 + 4 * n, 0, 32⟩
def F.PLC_ENG_LOADn_max_bound (n : Nat) : Fld := ⟨0x0140 + 4 * n, 16, 13⟩
def F.PLC_ENG_LOADn_wc_sum (n : Nat) : Fld := ⟨0x0140 + 4 * n, 0, 13⟩
def F.PLC_CTX_MAPn_placed (n : Nat) : Fld := ⟨0x0400 + 4 * n, 31, 1⟩
def F.PLC_CTX_MAPn_fenced (n : Nat) : Fld := ⟨0x0400 + 4 * n, 30, 1⟩
def F.PLC_CTX_MAPn_class (n : Nat) : Fld := ⟨0x0400 + 4 * n, 28, 2⟩
def F.PLC_CTX_MAPn_engine (n : Nat) : Fld := ⟨0x0400 + 4 * n, 24, 4⟩
def F.PLC_CTX_MAPn_pos (n : Nat) : Fld := ⟨0x0400 + 4 * n, 16, 8⟩
def F.PLC_CTX_MAPn_bound (n : Nat) : Fld := ⟨0x0400 + 4 * n, 0, 13⟩
def F.BUS_VLIM_v_hi : Fld := ⟨0x0000, 16, 16⟩
def F.BUS_VLIM_v_lo : Fld := ⟨0x0000, 0, 16⟩
def F.BUS_VSLEW_v_slew : Fld := ⟨0x0004, 0, 16⟩
def F.BUS_VCMD_HOST_target : Fld := ⟨0x0008, 0, 16⟩
def F.BUS_VCMD_CFG_vsrc : Fld := ⟨0x000C, 0, 1⟩
def F.BUS_VCMD_STAT_target : Fld := ⟨0x0010, 16, 16⟩
def F.BUS_VCMD_STAT_slewed : Fld := ⟨0x0010, 0, 16⟩
def F.BUS_IMAX_i_bus_max : Fld := ⟨0x0014, 0, 16⟩
def F.BUS_CMD_c : Fld := ⟨0x0018, 0, 32⟩
def F.BUS_LOSS_CFG_loss_ramp : Fld := ⟨0x001C, 16, 16⟩
def F.BUS_LOSS_CFG_loss_hold : Fld := ⟨0x001C, 0, 16⟩
def F.BUS_HIVE_STAT_miss : Fld := ⟨0x0020, 16, 16⟩
def F.BUS_HIVE_STAT_loss_state : Fld := ⟨0x0020, 0, 3⟩
def F.BUS_STAT_role : Fld := ⟨0x0024, 5, 2⟩
def F.BUS_STAT_leader_lost : Fld := ⟨0x0024, 4, 1⟩
def F.BUS_STAT_c_clip : Fld := ⟨0x0024, 3, 1⟩
def F.BUS_STAT_vcmd_rej : Fld := ⟨0x0024, 2, 1⟩
def F.BUS_STAT_write_ignored : Fld := ⟨0x0024, 1, 1⟩
def F.BUS_STAT_cfg_err : Fld := ⟨0x0024, 0, 1⟩
def F.BUS_CNT_vcmd_rej_cnt : Fld := ⟨0x0028, 24, 8⟩
def F.BUS_CNT_ign_cnt : Fld := ⟨0x0028, 16, 8⟩
def F.BUS_CNT_c_clip_cnt : Fld := ⟨0x0028, 0, 16⟩
def F.PLC_SHARE_CFG_share_slew : Fld := ⟨0x0040, 0, 16⟩
def F.PLC_HR_REF_hr_ref : Fld := ⟨0x0044, 0, 32⟩
def F.PLC_TDER_t_der_hi : Fld := ⟨0x0048, 16, 16⟩
def F.PLC_TDER_t_der_lo : Fld := ⟨0x0048, 0, 16⟩
def F.PLC_PHASE_CFG_ph_ramp : Fld := ⟨0x004C, 16, 10⟩
def F.PLC_PHASE_CFG_ph_shed : Fld := ⟨0x004C, 8, 8⟩
def F.PLC_PHASE_CFG_ph_add : Fld := ⟨0x004C, 0, 8⟩
def F.PLC_ANG_CFG_ang_slew : Fld := ⟨0x0050, 0, 13⟩
def F.PLC_EXC_MAX_exc_max : Fld := ⟨0x0054, 0, 16⟩
def F.PLC_SHARE_STAT_slew_left : Fld := ⟨0x0058, 8, 20⟩
def F.PLC_SHARE_STAT_phcfg_inv : Fld := ⟨0x0058, 7, 1⟩
def F.PLC_SHARE_STAT_tder_inv : Fld := ⟨0x0058, 6, 1⟩
def F.PLC_SHARE_STAT_blocked_chg : Fld := ⟨0x0058, 5, 1⟩
def F.PLC_SHARE_STAT_blocked_dis : Fld := ⟨0x0058, 4, 1⟩
def F.PLC_SHARE_STAT_short_chg : Fld := ⟨0x0058, 3, 1⟩
def F.PLC_SHARE_STAT_short_dis : Fld := ⟨0x0058, 2, 1⟩
def F.PLC_SHARE_STAT_ref_clip : Fld := ⟨0x0058, 1, 1⟩
def F.PLC_SHARE_STAT_cfg_err : Fld := ⟨0x0058, 0, 1⟩
def F.PLC_HR_LOST_lost : Fld := ⟨0x005C, 0, 24⟩
def F.PLC_PH_ACTn_act (n : Nat) : Fld := ⟨0x0060 + 4 * n, 0, 32⟩
def F.PLC_BANK_SHAREn_m_ppm (n : Nat) (m : Nat) : Fld := ⟨0x0800 + 32 * n + 4 * m, 0, 20⟩
def F.PLC_BANK_WTn_m_weight (n : Nat) (m : Nat) : Fld := ⟨0x0810 + 32 * n + 4 * m, 0, 17⟩
def F.PLC_BANK_PHn_ramp_left (n : Nat) : Fld := ⟨0x0818 + 32 * n, 16, 10⟩
def F.PLC_BANK_PHn_hold (n : Nat) : Fld := ⟨0x0818 + 32 * n, 13, 1⟩
def F.PLC_BANK_PHn_safe (n : Nat) : Fld := ⟨0x0818 + 32 * n, 12, 1⟩
def F.PLC_BANK_PHn_n_new (n : Nat) : Fld := ⟨0x0818 + 32 * n, 6, 6⟩
def F.PLC_BANK_PHn_n_act (n : Nat) : Fld := ⟨0x0818 + 32 * n, 0, 6⟩
def F.PLC_BANK_REFn_ref (n : Nat) : Fld := ⟨0x081C + 32 * n, 0, 32⟩
def F.PLC_ANGLEn_target (n : Nat) : Fld := ⟨0x0B00 + 4 * n, 16, 16⟩
def F.PLC_ANGLEn_angle (n : Nat) : Fld := ⟨0x0B00 + 4 * n, 0, 16⟩
def F.PLC_BANK_CFGn_i_lim (n : Nat) : Fld := ⟨0x0C00 + 4 * n, 16, 16⟩
def F.PLC_BANK_CFGn_ph_max (n : Nat) : Fld := ⟨0x0C00 + 4 * n, 8, 8⟩
def F.PLC_BANK_CFGn_ph_min (n : Nat) : Fld := ⟨0x0C00 + 4 * n, 0, 8⟩
def F.PWM_CARRIER_reload : Fld := ⟨0x0000, 17, 2⟩
def F.PWM_CARRIER_carrier : Fld := ⟨0x0000, 16, 1⟩
def F.PWM_CARRIER_period_clk : Fld := ⟨0x0000, 0, 16⟩
def F.PWM_STAT_clr_phase : Fld := ⟨0x0004, 8, 6⟩
def F.PWM_STAT_trip_clr_refused : Fld := ⟨0x0004, 4, 1⟩
def F.PWM_STAT_any_trip : Fld := ⟨0x0004, 3, 1⟩
def F.PWM_STAT_duty_clip : Fld := ⟨0x0004, 2, 1⟩
def F.PWM_STAT_write_ignored : Fld := ⟨0x0004, 1, 1⟩
def F.PWM_STAT_cfg_err : Fld := ⟨0x0004, 0, 1⟩
def F.PWM_CNT_duty_clip_cnt : Fld := ⟨0x0008, 24, 8⟩
def F.PWM_CNT_min_stretch_cnt : Fld := ⟨0x0008, 12, 12⟩
def F.PWM_CNT_min_drop_cnt : Fld := ⟨0x0008, 0, 12⟩
def F.PWM_TRIP_IN_filt : Fld := ⟨0x0010, 16, 16⟩
def F.PWM_TRIP_IN_raw : Fld := ⟨0x0010, 0, 16⟩
def F.PWM_TRIP_FILTn_filt3 (n : Nat) : Fld := ⟨0x0020 + 4 * n, 24, 8⟩
def F.PWM_TRIP_FILTn_filt2 (n : Nat) : Fld := ⟨0x0020 + 4 * n, 16, 8⟩
def F.PWM_TRIP_FILTn_filt1 (n : Nat) : Fld := ⟨0x0020 + 4 * n, 8, 8⟩
def F.PWM_TRIP_FILTn_filt0 (n : Nat) : Fld := ⟨0x0020 + 4 * n, 0, 8⟩
def F.PWM_TRIP_FLAGn_tripped (n : Nat) : Fld := ⟨0x0030 + 4 * n, 0, 32⟩
def F.PWM_FLIM_MODEn_latch (n : Nat) : Fld := ⟨0x0038 + 4 * n, 0, 32⟩
def F.PWM_TRIP_LVLn_lvl (n : Nat) : Fld := ⟨0x0040 + 4 * n, 0, 32⟩
def F.PWM_TRIP_SEL_phase : Fld := ⟨0x0050, 0, 6⟩
def F.PWM_TRIP_CAUSE_ext : Fld := ⟨0x0054, 16, 16⟩
def F.PWM_TRIP_CAUSE_reaction : Fld := ⟨0x0054, 8, 1⟩
def F.PWM_TRIP_CAUSE_crit_unplaced : Fld := ⟨0x0054, 7, 1⟩
def F.PWM_TRIP_CAUSE_wd : Fld := ⟨0x0054, 6, 1⟩
def F.PWM_TRIP_CAUSE_plaus : Fld := ⟨0x0054, 5, 1⟩
def F.PWM_TRIP_CAUSE_ring : Fld := ⟨0x0054, 4, 1⟩
def F.PWM_TRIP_CAUSE_flim : Fld := ⟨0x0054, 3, 1⟩
def F.PWM_PHn_TIM_dt_fall (n : Nat) : Fld := ⟨0x0100 + 8 * n, 16, 16⟩
def F.PWM_PHn_TIM_dt_rise (n : Nat) : Fld := ⟨0x0100 + 8 * n, 0, 16⟩
def F.PWM_PHn_MIN_min_mode (n : Nat) : Fld := ⟨0x0104 + 8 * n, 16, 1⟩
def F.PWM_PHn_MIN_min_pulse (n : Nat) : Fld := ⟨0x0104 + 8 * n, 0, 16⟩
def F.PWM_PH_DUTYn_duty (n : Nat) : Fld := ⟨0x0400 + 4 * n, 0, 32⟩
def F.PWM_AUX_CFGn_trip_all (n : Nat) : Fld := ⟨0x0300 + 4 * n, 3, 1⟩
def F.PWM_AUX_CFGn_pol (n : Nat) : Fld := ⟨0x0300 + 4 * n, 2, 1⟩
def F.PWM_AUX_CFGn_src (n : Nat) : Fld := ⟨0x0300 + 4 * n, 0, 2⟩
def F.PWM_AUX_DUTYn_duty (n : Nat) : Fld := ⟨0x0320 + 4 * n, 0, 32⟩
def F.PWM_AUX_CWORD_mask : Fld := ⟨0x0340, 0, 8⟩
def F.ACQ_STAT_fetch_ref : Fld := ⟨0x0000, 3, 1⟩
def F.ACQ_STAT_ref_ready : Fld := ⟨0x0000, 2, 1⟩
def F.ACQ_STAT_write_ignored : Fld := ⟨0x0000, 1, 1⟩
def F.ACQ_STAT_cfg_err : Fld := ⟨0x0000, 0, 1⟩
def F.ACQ_REF_en : Fld := ⟨0x0004, 0, 1⟩
def F.ACQ_LANE_STAT_fenced : Fld := ⟨0x0008, 16, 16⟩
def F.ACQ_LANE_STAT_powered : Fld := ⟨0x0008, 0, 16⟩
def F.ACQ_CAL_CMD_count : Fld := ⟨0x0010, 16, 16⟩
def F.ACQ_CAL_CMD_step : Fld := ⟨0x0010, 8, 2⟩
def F.ACQ_CAL_CMD_ain : Fld := ⟨0x0010, 0, 7⟩
def F.ACQ_CAL_FS_fs_value : Fld := ⟨0x0014, 0, 32⟩
def F.ACQ_CAL_STAT_left : Fld := ⟨0x0018, 16, 16⟩
def F.ACQ_CAL_STAT_err : Fld := ⟨0x0018, 8, 8⟩
def F.ACQ_CAL_STAT_done : Fld := ⟨0x0018, 2, 1⟩
def F.ACQ_CAL_STAT_refused : Fld := ⟨0x0018, 1, 1⟩
def F.ACQ_CAL_STAT_busy : Fld := ⟨0x0018, 0, 1⟩
def F.ACQ_OW_CFG_ow_thr : Fld := ⟨0x0020, 16, 13⟩
def F.ACQ_OW_CFG_settle : Fld := ⟨0x0020, 8, 8⟩
def F.ACQ_OW_CFG_m : Fld := ⟨0x0020, 0, 8⟩
def F.ACQ_OW_CMD_abort : Fld := ⟨0x0024, 1, 1⟩
def F.ACQ_OW_CMD_start : Fld := ⟨0x0024, 0, 1⟩
def F.ACQ_OW_STAT_open_found : Fld := ⟨0x0028, 5, 1⟩
def F.ACQ_OW_STAT_refused : Fld := ⟨0x0028, 4, 1⟩
def F.ACQ_OW_STAT_done : Fld := ⟨0x0028, 3, 1⟩
def F.ACQ_OW_STAT_phase : Fld := ⟨0x0028, 0, 3⟩
def F.ACQ_OW_MASKn_mask (n : Nat) : Fld := ⟨0x0030 + 4 * n, 0, 32⟩
def F.ACQ_OW_OPENn_open (n : Nat) : Fld := ⟨0x0040 + 4 * n, 0, 32⟩
def F.ACQ_FETCH_GO_lane : Fld := ⟨0x0050, 0, 16⟩
def F.ACQ_SEQl_n (l : Nat) : Fld := ⟨0x0100 + 4 * l, 24, 4⟩
def F.ACQ_SEQl_mux (l : Nat) : Fld := ⟨0x0100 + 4 * l, 0, 24⟩
def F.ACQ_FETCH_CFGl_fetch_max (l : Nat) : Fld := ⟨0x0140 + 4 * l, 24, 4⟩
def F.ACQ_FETCH_CFGl_phase (l : Nat) : Fld := ⟨0x0140 + 4 * l, 16, 6⟩
def F.ACQ_FETCH_CFGl_trig (l : Nat) : Fld := ⟨0x0140 + 4 * l, 8, 3⟩
def F.ACQ_FETCH_CFGl_mux (l : Nat) : Fld := ⟨0x0140 + 4 * l, 0, 3⟩
def F.ACQ_FETCH_RESl_valid (l : Nat) : Fld := ⟨0x0180 + 4 * l, 31, 1⟩
def F.ACQ_FETCH_RESl_late (l : Nat) : Fld := ⟨0x0180 + 4 * l, 30, 1⟩
def F.ACQ_FETCH_RESl_clock (l : Nat) : Fld := ⟨0x0180 + 4 * l, 17, 13⟩
def F.ACQ_FETCH_RESl_code (l : Nat) : Fld := ⟨0x0180 + 4 * l, 0, 16⟩
def F.ACQ_STRs_CFG_post (s : Nat) : Fld := ⟨0x0200 + 16 * s, 16, 16⟩
def F.ACQ_STRs_CFG_ring (s : Nat) : Fld := ⟨0x0200 + 16 * s, 12, 4⟩
def F.ACQ_STRs_CFG_stop_on_trip (s : Nat) : Fld := ⟨0x0200 + 16 * s, 9, 1⟩
def F.ACQ_STRs_CFG_mode (s : Nat) : Fld := ⟨0x0200 + 16 * s, 8, 1⟩
def F.ACQ_STRs_CFG_dest (s : Nat) : Fld := ⟨0x0200 + 16 * s, 5, 1⟩
def F.ACQ_STRs_CFG_trip_stop (s : Nat) : Fld := ⟨0x0200 + 16 * s, 4, 1⟩
def F.ACQ_STRs_CFG_en (s : Nat) : Fld := ⟨0x0200 + 16 * s, 0, 1⟩
def F.ACQ_STRs_BUF_size (s : Nat) : Fld := ⟨0x0204 + 16 * s, 8, 9⟩
def F.ACQ_STRs_BUF_base (s : Nat) : Fld := ⟨0x0204 + 16 * s, 0, 8⟩
def F.ACQ_STRs_WPTR_lost (s : Nat) : Fld := ⟨0x0208 + 16 * s, 24, 8⟩
def F.ACQ_STRs_WPTR_wptr (s : Nat) : Fld := ⟨0x0208 + 16 * s, 0, 17⟩
def F.ACQ_STRs_RPTR_rptr (s : Nat) : Fld := ⟨0x020C + 16 * s, 0, 17⟩
def F.ACQ_CHn_CFG_present (n : Nat) : Fld := ⟨0x1000 + 32 * n, 31, 1⟩
def F.ACQ_CHn_CFG_rec (n : Nat) : Fld := ⟨0x1000 + 32 * n, 29, 2⟩
def F.ACQ_CHn_CFG_stream (n : Nat) : Fld := ⟨0x1000 + 32 * n, 27, 2⟩
def F.ACQ_CHn_CFG_flim_en (n : Nat) : Fld := ⟨0x1000 + 32 * n, 3, 1⟩
def F.ACQ_CHn_CFG_pull (n : Nat) : Fld := ⟨0x1000 + 32 * n, 0, 2⟩
def F.ACQ_CHn_FILT_notch (n : Nat) : Fld := ⟨0x1004 + 32 * n, 16, 16⟩
def F.ACQ_CHn_FILT_order (n : Nat) : Fld := ⟨0x1004 + 32 * n, 12, 3⟩
def F.ACQ_CHn_FILT_ratio (n : Nat) : Fld := ⟨0x1004 + 32 * n, 0, 11⟩
def F.ACQ_CHn_FLIM_flim_hi (n : Nat) : Fld := ⟨0x1008 + 32 * n, 16, 16⟩
def F.ACQ_CHn_FLIM_flim_lo (n : Nat) : Fld := ⟨0x1008 + 32 * n, 0, 16⟩
def F.ACQ_CHn_CAL_OFS_cal_ofs (n : Nat) : Fld := ⟨0x100C + 32 * n, 0, 32⟩
def F.ACQ_CHn_CAL_GAIN_cal_gain (n : Nat) : Fld := ⟨0x1010 + 32 * n, 0, 32⟩
def F.ACQ_CHn_RES_res (n : Nat) : Fld := ⟨0x1014 + 32 * n, 0, 32⟩
def F.ACQ_CHn_STAT_slow (n : Nat) : Fld := ⟨0x1018 + 32 * n, 31, 1⟩
def F.ACQ_CHn_STAT_flags (n : Nat) : Fld := ⟨0x1018 + 32 * n, 16, 5⟩
def F.ACQ_CHn_STAT_d_f (n : Nat) : Fld := ⟨0x1018 + 32 * n, 0, 13⟩
def F.LNK_STAT_bypass : Fld := ⟨0x0000, 2, 1⟩
def F.LNK_STAT_write_ignored : Fld := ⟨0x0000, 1, 1⟩
def F.LNK_STAT_cfg_err : Fld := ⟨0x0000, 0, 1⟩
def F.LNK_UPn_up (n : Nat) : Fld := ⟨0x0004 + 4 * n, 0, 32⟩
def F.LNK_TX_CFG_hive_deemph : Fld := ⟨0x000C, 6, 2⟩
def F.LNK_TX_CFG_hive_swing : Fld := ⟨0x000C, 4, 2⟩
def F.LNK_TX_CFG_ring_deemph : Fld := ⟨0x000C, 2, 2⟩
def F.LNK_TX_CFG_ring_swing : Fld := ⟨0x000C, 0, 2⟩
def F.LNK_PORT_SEL_port : Fld := ⟨0x0010, 0, 6⟩
def F.LNK_PORT_STAT_train_to_cnt : Fld := ⟨0x0014, 16, 16⟩
def F.LNK_PORT_STAT_rd : Fld := ⟨0x0014, 8, 6⟩
def F.LNK_PORT_STAT_state : Fld := ⟨0x0014, 0, 3⟩
def F.LNK_PORT_ERR_lock_loss_cnt : Fld := ⟨0x0018, 24, 8⟩
def F.LNK_PORT_ERR_disp_err_cnt : Fld := ⟨0x0018, 16, 8⟩
def F.LNK_PORT_ERR_code_err_cnt : Fld := ⟨0x0018, 0, 16⟩
def F.LNK_PORT_DLY_valid : Fld := ⟨0x001C, 31, 1⟩
def F.LNK_PORT_DLY_seg_delay : Fld := ⟨0x001C, 0, 16⟩
def F.LNK_HIVE_CNT_abort_cnt : Fld := ⟨0x0020, 24, 8⟩
def F.LNK_HIVE_CNT_crc_fail_cnt : Fld := ⟨0x0020, 16, 8⟩
def F.LNK_HIVE_CNT_fwd_cnt : Fld := ⟨0x0020, 0, 16⟩
def F.RNG_STAT_cmd_refused : Fld := ⟨0x0000, 2, 1⟩
def F.RNG_STAT_write_ignored : Fld := ⟨0x0000, 1, 1⟩
def F.RNG_STAT_cfg_err : Fld := ⟨0x0000, 0, 1⟩
def F.RNG_CFG_sil_laps : Fld := ⟨0x0004, 8, 8⟩
def F.RNG_CFG_brk_confirm : Fld := ⟨0x0004, 0, 4⟩
def F.RNG_CMD_ring : Fld := ⟨0x0008, 8, 5⟩
def F.RNG_CMD_cmd : Fld := ⟨0x0008, 0, 3⟩
def F.RNG_READY_ready : Fld := ⟨0x000C, 0, 24⟩
def F.RNG_SPLIT_split : Fld := ⟨0x0010, 0, 24⟩
def F.RNG_OVERFLOW_NODE_overflow : Fld := ⟨0x0014, 0, 24⟩
def F.RNG_MISMATCH_mismatch : Fld := ⟨0x0018, 0, 24⟩
def F.RNG_DLY_OVER_over : Fld := ⟨0x001C, 0, 24⟩
def F.RNG_SEL_ring : Fld := ⟨0x0020, 8, 5⟩
def F.RNG_SEL_node : Fld := ⟨0x0020, 0, 8⟩
def F.RNG_NODE_STAT_claimed : Fld := ⟨0x0024, 31, 1⟩
def F.RNG_NODE_STAT_desc_ok : Fld := ⟨0x0024, 30, 1⟩
def F.RNG_NODE_STAT_reach_a : Fld := ⟨0x0024, 29, 1⟩
def F.RNG_NODE_STAT_reach_b : Fld := ⟨0x0024, 28, 1⟩
def F.RNG_NODE_STAT_silent : Fld := ⟨0x0024, 27, 1⟩
def F.RNG_NODE_STAT_end : Fld := ⟨0x0024, 26, 1⟩
def F.RNG_NODE_STAT_class : Fld := ⟨0x0024, 24, 2⟩
def F.RNG_NODE_STAT_cells : Fld := ⟨0x0024, 20, 4⟩
def F.RNG_NODE_STAT_version : Fld := ⟨0x0024, 0, 8⟩
def F.RNG_NODE_DLY_d_b : Fld := ⟨0x0028, 16, 16⟩
def F.RNG_NODE_DLY_d_a : Fld := ⟨0x0028, 0, 16⟩
def F.RNG_DESCn_desc (n : Nat) : Fld := ⟨0x0040 + 4 * n, 0, 32⟩
def F.RNG_REACHn_reach (n : Nat) : Fld := ⟨0x0060 + 4 * n, 0, 32⟩
def F.RNG_WAG_CTL_err : Fld := ⟨0x0080, 16, 8⟩
def F.RNG_WAG_CTL_ring : Fld := ⟨0x0080, 8, 5⟩
def F.RNG_WAG_CTL_reply : Fld := ⟨0x0080, 4, 1⟩
def F.RNG_WAG_CTL_done : Fld := ⟨0x0080, 3, 1⟩
def F.RNG_WAG_CTL_failed : Fld := ⟨0x0080, 2, 1⟩
def F.RNG_WAG_CTL_busy : Fld := ⟨0x0080, 1, 1⟩
def F.RNG_WAG_CTL_send : Fld := ⟨0x0080, 0, 1⟩
def F.RNG_WAG_TXn_word_hi (n : Nat) : Fld := ⟨0x0100 + 4 * n, 16, 16⟩
def F.RNG_WAG_TXn_word_lo (n : Nat) : Fld := ⟨0x0100 + 4 * n, 0, 16⟩
def F.RNG_WAG_RXn_word_hi (n : Nat) : Fld := ⟨0x0180 + 4 * n, 16, 16⟩
def F.RNG_WAG_RXn_word_lo (n : Nat) : Fld := ⟨0x0180 + 4 * n, 0, 16⟩
def F.RNG_RINGr_STAT_brk_b (r : Nat) : Fld := ⟨0x0400 + 32 * r, 24, 8⟩
def F.RNG_RINGr_STAT_brk_a (r : Nat) : Fld := ⟨0x0400 + 32 * r, 16, 8⟩
def F.RNG_RINGr_STAT_brk_b_valid (r : Nat) : Fld := ⟨0x0400 + 32 * r, 15, 1⟩
def F.RNG_RINGr_STAT_brk_a_valid (r : Nat) : Fld := ⟨0x0400 + 32 * r, 14, 1⟩
def F.RNG_RINGr_STAT_count (r : Nat) : Fld := ⟨0x0400 + 32 * r, 3, 9⟩
def F.RNG_RINGr_STAT_state (r : Nat) : Fld := ⟨0x0400 + 32 * r, 0, 3⟩
def F.RNG_RINGr_CNT_hdr_err_cnt (r : Nat) : Fld := ⟨0x0404 + 32 * r, 24, 8⟩
def F.RNG_RINGr_CNT_wag_err_cnt (r : Nat) : Fld := ⟨0x0404 + 32 * r, 16, 8⟩
def F.RNG_RINGr_CNT_lost_cnt (r : Nat) : Fld := ⟨0x0404 + 32 * r, 8, 8⟩
def F.RNG_RINGr_CNT_route_err_cnt (r : Nat) : Fld := ⟨0x0404 + 32 * r, 0, 8⟩
def F.RNG_RINGr_LAT_trav_b (r : Nat) : Fld := ⟨0x0408 + 32 * r, 16, 16⟩
def F.RNG_RINGr_LAT_trav_a (r : Nat) : Fld := ⟨0x0408 + 32 * r, 0, 16⟩
def F.RNG_RINGr_ALM_node_b (r : Nat) : Fld := ⟨0x040C + 32 * r, 24, 8⟩
def F.RNG_RINGr_ALM_node_a (r : Nat) : Fld := ⟨0x040C + 32 * r, 16, 8⟩
def F.RNG_RINGr_ALM_kinds (r : Nat) : Fld := ⟨0x040C + 32 * r, 8, 6⟩
def F.RNG_RINGr_ALM_multi (r : Nat) : Fld := ⟨0x040C + 32 * r, 1, 1⟩
def F.RNG_RINGr_ALM_hard (r : Nat) : Fld := ⟨0x040C + 32 * r, 0, 1⟩
def F.RNG_RINGr_PLAN_first_b (r : Nat) : Fld := ⟨0x0410 + 32 * r, 24, 8⟩
def F.RNG_RINGr_PLAN_sweep_short (r : Nat) : Fld := ⟨0x0410 + 32 * r, 23, 1⟩
def F.RNG_RINGr_PLAN_div_pending (r : Nat) : Fld := ⟨0x0410 + 32 * r, 22, 1⟩
def F.RNG_RINGr_PLAN_div_b (r : Nat) : Fld := ⟨0x0410 + 32 * r, 12, 4⟩
def F.RNG_RINGr_PLAN_div_a (r : Nat) : Fld := ⟨0x0410 + 32 * r, 8, 4⟩
def F.RNG_RINGr_PLAN_q_b (r : Nat) : Fld := ⟨0x0410 + 32 * r, 4, 4⟩
def F.RNG_RINGr_PLAN_q_a (r : Nat) : Fld := ⟨0x0410 + 32 * r, 0, 4⟩
def F.CSV_STAT_host_wr_ign : Fld := ⟨0x0000, 16, 16⟩
def F.CSV_STAT_cmd_refused : Fld := ⟨0x0000, 3, 1⟩
def F.CSV_STAT_hr_invalid : Fld := ⟨0x0000, 2, 1⟩
def F.CSV_STAT_write_ignored : Fld := ⟨0x0000, 1, 1⟩
def F.CSV_STAT_cfg_err : Fld := ⟨0x0000, 0, 1⟩
def F.CSV_CFG_pair_margin : Fld := ⟨0x0004, 16, 16⟩
def F.CSV_CFG_auto_wire : Fld := ⟨0x0004, 4, 1⟩
def F.CSV_CFG_fshift : Fld := ⟨0x0004, 0, 3⟩
def F.CSV_QUIET_DIS_dis : Fld := ⟨0x0008, 0, 24⟩
def F.CSV_CNT_lim_cnt : Fld := ⟨0x000C, 24, 8⟩
def F.CSV_CNT_wire_cnt : Fld := ⟨0x000C, 16, 8⟩
def F.CSV_CNT_ref_fail_cnt : Fld := ⟨0x000C, 8, 8⟩
def F.CSV_CNT_sum_fail_cnt : Fld := ⟨0x000C, 0, 8⟩
def F.CSV_SEL_ring : Fld := ⟨0x0010, 8, 5⟩
def F.CSV_SEL_node : Fld := ⟨0x0010, 0, 8⟩
def F.CSV_WIRE_CMD_go : Fld := ⟨0x0014, 31, 1⟩
def F.CSV_WIRE_CMD_t_p : Fld := ⟨0x0014, 16, 8⟩
def F.CSV_WIRE_CMD_mask : Fld := ⟨0x0014, 0, 13⟩
def F.CSV_WIRE_STAT_ring : Fld := ⟨0x0018, 24, 5⟩
def F.CSV_WIRE_STAT_node : Fld := ⟨0x0018, 16, 8⟩
def F.CSV_WIRE_STAT_result : Fld := ⟨0x0018, 4, 2⟩
def F.CSV_WIRE_STAT_refused : Fld := ⟨0x0018, 2, 1⟩
def F.CSV_WIRE_STAT_done : Fld := ⟨0x0018, 1, 1⟩
def F.CSV_WIRE_STAT_busy : Fld := ⟨0x0018, 0, 1⟩
def F.CSV_BAL_CMD_laps : Fld := ⟨0x0020, 16, 16⟩
def F.CSV_BAL_CMD_go : Fld := ⟨0x0020, 12, 1⟩
def F.CSV_BAL_CMD_mask : Fld := ⟨0x0020, 0, 12⟩
def F.CSV_BAL_STAT_reason : Fld := ⟨0x0024, 8, 8⟩
def F.CSV_BAL_STAT_refused : Fld := ⟨0x0024, 2, 1⟩
def F.CSV_BAL_STAT_done : Fld := ⟨0x0024, 1, 1⟩
def F.CSV_BAL_STAT_busy : Fld := ⟨0x0024, 0, 1⟩
def F.CSV_BAL_PWR_grant : Fld := ⟨0x0028, 16, 16⟩
def F.CSV_BAL_PWR_est : Fld := ⟨0x0028, 0, 16⟩
def F.CSV_LIMn_0_v_hi_hard (n : Nat) : Fld := ⟨0x0100 + 32 * n, 16, 16⟩
def F.CSV_LIMn_0_v_hi_soft (n : Nat) : Fld := ⟨0x0100 + 32 * n, 0, 16⟩
def F.CSV_LIMn_1_v_lo_soft (n : Nat) : Fld := ⟨0x0104 + 32 * n, 16, 16⟩
def F.CSV_LIMn_1_v_lo_hard (n : Nat) : Fld := ⟨0x0104 + 32 * n, 0, 16⟩
def F.CSV_LIMn_2_t_hi_hard (n : Nat) : Fld := ⟨0x0108 + 32 * n, 16, 16⟩
def F.CSV_LIMn_2_t_hi_soft (n : Nat) : Fld := ⟨0x0108 + 32 * n, 0, 16⟩
def F.CSV_LIMn_3_t_lo_soft (n : Nat) : Fld := ⟨0x010C + 32 * n, 16, 16⟩
def F.CSV_LIMn_3_t_lo_hard (n : Nat) : Fld := ⟨0x010C + 32 * n, 0, 16⟩
def F.CSV_LIMn_4_sum_tol (n : Nat) : Fld := ⟨0x0110 + 32 * n, 16, 16⟩
def F.CSV_LIMn_4_wire_thr (n : Nat) : Fld := ⟨0x0110 + 32 * n, 0, 16⟩
def F.CSV_LIMn_5_ref_tol (n : Nat) : Fld := ⟨0x0114 + 32 * n, 16, 16⟩
def F.CSV_LIMn_5_bal_max (n : Nat) : Fld := ⟨0x0114 + 32 * n, 0, 16⟩
def F.CSV_HRn_DIS_t (n : Nat) : Fld := ⟨0x0400 + 16 * n, 16, 16⟩
def F.CSV_HRn_DIS_h (n : Nat) : Fld := ⟨0x0400 + 16 * n, 0, 16⟩
def F.CSV_HRn_CHG_t (n : Nat) : Fld := ⟨0x0404 + 16 * n, 16, 16⟩
def F.CSV_HRn_CHG_h (n : Nat) : Fld := ⟨0x0404 + 16 * n, 0, 16⟩
def F.CSV_HRn_SRC_chg_valid (n : Nat) : Fld := ⟨0x0408 + 16 * n, 31, 1⟩
def F.CSV_HRn_SRC_chg_cell (n : Nat) : Fld := ⟨0x0408 + 16 * n, 24, 4⟩
def F.CSV_HRn_SRC_chg_node (n : Nat) : Fld := ⟨0x0408 + 16 * n, 16, 8⟩
def F.CSV_HRn_SRC_dis_valid (n : Nat) : Fld := ⟨0x0408 + 16 * n, 15, 1⟩
def F.CSV_HRn_SRC_dis_cell (n : Nat) : Fld := ⟨0x0408 + 16 * n, 8, 4⟩
def F.CSV_HRn_SRC_dis_node (n : Nat) : Fld := ⟨0x0408 + 16 * n, 0, 8⟩
def F.SPX_STAT_reason : Fld := ⟨0x0000, 16, 8⟩
def F.SPX_STAT_refused : Fld := ⟨0x0000, 5, 1⟩
def F.SPX_STAT_stopped : Fld := ⟨0x0000, 4, 1⟩
def F.SPX_STAT_overload : Fld := ⟨0x0000, 3, 1⟩
def F.SPX_STAT_cfg_err : Fld := ⟨0x0000, 2, 1⟩
def F.SPX_STAT_ramp : Fld := ⟨0x0000, 1, 1⟩
def F.SPX_STAT_run : Fld := ⟨0x0000, 0, 1⟩
def F.SPX_CMD_stop : Fld := ⟨0x0004, 1, 1⟩
def F.SPX_CMD_start : Fld := ⟨0x0004, 0, 1⟩
def F.SPX_CAMP_CFG_ps : Fld := ⟨0x0008, 16, 16⟩
def F.SPX_CAMP_CFG_drop_max : Fld := ⟨0x0008, 8, 8⟩
def F.SPX_CAMP_CFG_n_win : Fld := ⟨0x0008, 0, 8⟩
def F.SPX_CAMP_INT_n_int : Fld := ⟨0x000C, 0, 22⟩
def F.SPX_BANK_MASK_mask : Fld := ⟨0x0010, 0, 24⟩
def F.SPX_BANK_NEG_neg : Fld := ⟨0x0014, 0, 24⟩
def F.SPX_LOAD_cap : Fld := ⟨0x0018, 16, 16⟩
def F.SPX_LOAD_load : Fld := ⟨0x0018, 0, 16⟩
def F.SPX_WIN_win_cnt : Fld := ⟨0x001C, 0, 32⟩
def F.SPX_SEL_ring : Fld := ⟨0x0020, 8, 5⟩
def F.SPX_SEL_node : Fld := ⟨0x0020, 0, 8⟩
def F.SPX_NODE_STAT_excl : Fld := ⟨0x0024, 16, 16⟩
def F.SPX_NODE_STAT_win : Fld := ⟨0x0024, 8, 8⟩
def F.SPX_NODE_STAT_resync : Fld := ⟨0x0024, 5, 1⟩
def F.SPX_NODE_STAT_tone_skip : Fld := ⟨0x0024, 4, 1⟩
def F.SPX_NODE_STAT_sat : Fld := ⟨0x0024, 3, 1⟩
def F.SPX_NODE_STAT_partial : Fld := ⟨0x0024, 2, 1⟩
def F.SPX_NODE_STAT_incomplete : Fld := ⟨0x0024, 1, 1⟩
def F.SPX_NODE_STAT_written : Fld := ⟨0x0024, 0, 1⟩
def F.SPX_TONEt_CFG_en (t : Nat) : Fld := ⟨0x0040 + 8 * t, 31, 1⟩
def F.SPX_TONEt_CFG_bin (t : Nat) : Fld := ⟨0x0040 + 8 * t, 22, 5⟩
def F.SPX_TONEt_CFG_cyc (t : Nat) : Fld := ⟨0x0040 + 8 * t, 0, 22⟩
def F.SPX_TONEt_AMP_amp (t : Nat) : Fld := ⟨0x0044 + 8 * t, 0, 16⟩
def F.SPX_RINGr_STAT_place (r : Nat) : Fld := ⟨0x0100 + 8 * r, 30, 2⟩
def F.SPX_RINGr_STAT_ref_bank (r : Nat) : Fld := ⟨0x0100 + 8 * r, 29, 1⟩
def F.SPX_RINGr_STAT_div_floor (r : Nat) : Fld := ⟨0x0100 + 8 * r, 20, 4⟩
def F.SPX_RINGr_STAT_inc_cnt (r : Nat) : Fld := ⟨0x0100 + 8 * r, 0, 16⟩
def F.SPX_RINGr_OK_part_cnt (r : Nat) : Fld := ⟨0x0104 + 8 * r, 16, 16⟩
def F.SPX_RINGr_OK_ok_cnt (r : Nat) : Fld := ⟨0x0104 + 8 * r, 0, 16⟩
def F.SYS_STATE_CMD_req : Fld := ⟨0x0100, 0, 3⟩
def F.SYS_STATE_STAT_done : Fld := ⟨0x0104, 17, 1⟩
def F.SYS_STATE_STAT_refused : Fld := ⟨0x0104, 16, 1⟩
def F.SYS_STATE_STAT_reason : Fld := ⟨0x0104, 8, 8⟩
def F.SYS_STATE_STAT_busy : Fld := ⟨0x0104, 7, 1⟩
def F.SYS_STATE_STAT_target : Fld := ⟨0x0104, 4, 3⟩
def F.SYS_STATE_STAT_state : Fld := ⟨0x0104, 0, 3⟩
def F.BGT_CORE_CFG_core_didt : Fld := ⟨0x0000, 16, 10⟩
def F.BGT_CORE_CFG_core_ma : Fld := ⟨0x0000, 0, 16⟩
def F.BGT_GD_CFG_gd_ma_total : Fld := ⟨0x0004, 16, 16⟩
def F.BGT_GD_CFG_gd_ma_phase : Fld := ⟨0x0004, 0, 16⟩
def F.BGT_BAL_CFG_bal_mw_ring : Fld := ⟨0x0008, 0, 16⟩
def F.BGT_BAL_TOTAL_bal_mw_total : Fld := ⟨0x000C, 0, 32⟩
def F.BGT_STAT_gd_over : Fld := ⟨0x0010, 22, 1⟩
def F.BGT_STAT_wake_busy : Fld := ⟨0x0010, 21, 1⟩
def F.BGT_STAT_over : Fld := ⟨0x0010, 20, 1⟩
def F.BGT_STAT_deny : Fld := ⟨0x0010, 19, 1⟩
def F.BGT_STAT_write_ignored : Fld := ⟨0x0010, 18, 1⟩
def F.BGT_STAT_cfg_err : Fld := ⟨0x0010, 17, 1⟩
def F.BGT_STAT_reserved_ma : Fld := ⟨0x0010, 0, 16⟩
def F.BGT_UNIT_REQ_quad : Fld := ⟨0x0014, 24, 8⟩
def F.BGT_UNIT_REQ_pcie : Fld := ⟨0x0014, 23, 1⟩
def F.BGT_UNIT_REQ_phy : Fld := ⟨0x0014, 16, 7⟩
def F.BGT_UNIT_REQ_lane : Fld := ⟨0x0014, 0, 16⟩
def F.BGT_UNIT_ON_on : Fld := ⟨0x0018, 0, 32⟩
def F.BGT_HOST_OFF_off : Fld := ⟨0x001C, 0, 32⟩
def F.BGT_GD_STAT_adds_denied : Fld := ⟨0x0020, 16, 8⟩
def F.BGT_GD_STAT_gd_use : Fld := ⟨0x0020, 0, 16⟩
def F.BGT_BAL_GRANTr_grant (r : Nat) : Fld := ⟨0x0100 + 4 * r, 0, 16⟩
def F.FLT_STAT_clr_src : Fld := ⟨0x0000, 17, 7⟩
def F.FLT_STAT_nv_drop : Fld := ⟨0x0000, 6, 1⟩
def F.FLT_STAT_clr_refused : Fld := ⟨0x0000, 5, 1⟩
def F.FLT_STAT_alert : Fld := ⟨0x0000, 4, 1⟩
def F.FLT_STAT_any_active : Fld := ⟨0x0000, 3, 1⟩
def F.FLT_STAT_write_ignored : Fld := ⟨0x0000, 2, 1⟩
def F.FLT_STAT_cfg_err : Fld := ⟨0x0000, 1, 1⟩
def F.FLT_STAT_faultn_low : Fld := ⟨0x0000, 0, 1⟩
def F.FLT_CFG_deg_c : Fld := ⟨0x0004, 8, 8⟩
def F.FLT_CFG_faultn_class : Fld := ⟨0x0004, 0, 2⟩
def F.FLT_SRC_SEL_src : Fld := ⟨0x0008, 0, 7⟩
def F.FLT_SRC_CFG_cls : Fld := ⟨0x000C, 24, 8⟩
def F.FLT_SRC_CFG_thresh : Fld := ⟨0x000C, 16, 8⟩
def F.FLT_SRC_CFG_window : Fld := ⟨0x000C, 0, 16⟩
def F.FLT_SRC_REACT_react : Fld := ⟨0x0010, 0, 8⟩
def F.FLT_SRC_STAT_active : Fld := ⟨0x0014, 31, 1⟩
def F.FLT_SRC_STAT_open : Fld := ⟨0x0014, 30, 1⟩
def F.FLT_SRC_STAT_post_cnt : Fld := ⟨0x0014, 16, 8⟩
def F.FLT_SRC_STAT_unit : Fld := ⟨0x0014, 8, 8⟩
def F.FLT_SRC_STAT_count : Fld := ⟨0x0014, 0, 8⟩
def F.FLT_ACTIVEn_active (n : Nat) : Fld := ⟨0x0020 + 4 * n, 0, 32⟩
def F.FLT_RAISE_idx : Fld := ⟨0x0030, 16, 4⟩
def F.FLT_RAISE_sub : Fld := ⟨0x0030, 8, 8⟩
def F.FLT_RAISE_bank : Fld := ⟨0x0030, 0, 8⟩
def F.FLT_LOG_PTR_total : Fld := ⟨0x0034, 8, 24⟩
def F.FLT_LOG_PTR_next : Fld := ⟨0x0034, 0, 6⟩
def F.FLT_NVLOG_STAT_dropped : Fld := ⟨0x0038, 24, 8⟩
def F.FLT_NVLOG_STAT_pending : Fld := ⟨0x0038, 16, 4⟩
def F.FLT_NVLOG_STAT_next : Fld := ⟨0x0038, 0, 10⟩
def F.FLT_SEQ_seq : Fld := ⟨0x003C, 0, 32⟩
def F.FLT_DEG_STAT_c_lim : Fld := ⟨0x0040, 24, 1⟩
def F.FLT_DEG_STAT_banks : Fld := ⟨0x0040, 0, 24⟩
def F.FLT_LOGi_w_word (i : Nat) (w : Nat) : Fld := ⟨0x1000 + 16 * i + 4 * w, 0, 32⟩
def F.SYS_ID_part : Fld := ⟨0x0000, 16, 16⟩
def F.SYS_ID_rev_major : Fld := ⟨0x0000, 8, 8⟩
def F.SYS_ID_rev_minor : Fld := ⟨0x0000, 0, 8⟩
def F.HST_STAT_unmapped_cnt : Fld := ⟨0x0000, 24, 8⟩
def F.HST_STAT_size_err_cnt : Fld := ⟨0x0000, 16, 8⟩
def F.HST_STAT_cfg_err : Fld := ⟨0x0000, 6, 1⟩
def F.HST_STAT_speed : Fld := ⟨0x0000, 4, 2⟩
def F.HST_STAT_lanes : Fld := ⟨0x0000, 2, 2⟩
def F.HST_STAT_bme : Fld := ⟨0x0000, 1, 1⟩
def F.HST_STAT_link_up : Fld := ⟨0x0000, 0, 1⟩
def F.HST_PCIE_CFG_max_speed : Fld := ⟨0x0004, 4, 2⟩
def F.HST_PCIE_CFG_max_lanes : Fld := ⟨0x0004, 1, 1⟩
def F.HST_PCIE_CFG_en : Fld := ⟨0x0004, 0, 1⟩
def F.HST_IRQ_STAT_cause : Fld := ⟨0x0010, 0, 14⟩
def F.HST_IRQ_EN_en : Fld := ⟨0x0014, 0, 14⟩
def F.HST_IRQ_CFG_pin_en : Fld := ⟨0x0018, 0, 1⟩
def F.HST_DMA_IRQ_en : Fld := ⟨0x001C, 16, 16⟩
def F.HST_DMA_IRQ_cause : Fld := ⟨0x001C, 0, 16⟩
def F.HST_SPI_STAT_crc_err_cnt : Fld := ⟨0x0020, 24, 8⟩
def F.HST_SPI_STAT_addr_err_cnt : Fld := ⟨0x0020, 16, 8⟩
def F.HST_SPI_STAT_short_cnt : Fld := ⟨0x0020, 8, 8⟩
def F.HST_DMAr_BASE_LO_base_lo (r : Nat) : Fld := ⟨0x0100 + 32 * r, 12, 20⟩
def F.HST_DMAr_BASE_HI_base_hi (r : Nat) : Fld := ⟨0x0104 + 32 * r, 0, 32⟩
def F.HST_DMAr_CFG_en (r : Nat) : Fld := ⟨0x0108 + 32 * r, 31, 1⟩
def F.HST_DMAr_CFG_src (r : Nat) : Fld := ⟨0x0108 + 32 * r, 29, 2⟩
def F.HST_DMAr_CFG_size_log2 (r : Nat) : Fld := ⟨0x0108 + 32 * r, 24, 5⟩
def F.HST_DMAr_CFG_hold (r : Nat) : Fld := ⟨0x0108 + 32 * r, 16, 8⟩
def F.HST_DMAr_CFG_thr (r : Nat) : Fld := ⟨0x0108 + 32 * r, 0, 16⟩
def F.HST_DMAr_WPTR_lost (r : Nat) : Fld := ⟨0x010C + 32 * r, 24, 8⟩
def F.HST_DMAr_WPTR_wptr (r : Nat) : Fld := ⟨0x010C + 32 * r, 0, 20⟩
def F.HST_DMAr_RPTR_rptr (r : Nat) : Fld := ⟨0x0110 + 32 * r, 0, 20⟩
def F.HST_DMAr_WB_LO_wb_lo (r : Nat) : Fld := ⟨0x0114 + 32 * r, 3, 29⟩
def F.HST_DMAr_WB_LO_wb_en (r : Nat) : Fld := ⟨0x0114 + 32 * r, 0, 1⟩
def F.HST_DMAr_WB_HI_wb_hi (r : Nat) : Fld := ⟨0x0118 + 32 * r, 0, 32⟩
def F.TWO_A_CFG_timeout_en : Fld := ⟨0x0000, 9, 1⟩
def F.TWO_A_CFG_fmp : Fld := ⟨0x0000, 8, 1⟩
def F.TWO_A_CFG_addr : Fld := ⟨0x0000, 0, 7⟩
def F.TWO_A_STAT_ptr : Fld := ⟨0x0004, 16, 16⟩
def F.TWO_A_STAT_blk : Fld := ⟨0x0004, 11, 5⟩
def F.TWO_A_STAT_cfg_err : Fld := ⟨0x0004, 7, 1⟩
def F.TWO_A_STAT_bus_stuck : Fld := ⟨0x0004, 5, 1⟩
def F.TWO_A_STAT_timeout : Fld := ⟨0x0004, 4, 1⟩
def F.TWO_A_STAT_part_word : Fld := ⟨0x0004, 3, 1⟩
def F.TWO_A_STAT_nack_cmd : Fld := ⟨0x0004, 2, 1⟩
def F.TWO_A_STAT_alert : Fld := ⟨0x0004, 1, 1⟩
def F.TWO_A_STAT_busy : Fld := ⟨0x0004, 0, 1⟩
def F.TWO_A_ALERT_EN_en : Fld := ⟨0x0008, 0, 14⟩
def F.TWO_A_CNT_timeout_cnt : Fld := ⟨0x000C, 24, 8⟩
def F.TWO_A_CNT_part_cnt : Fld := ⟨0x000C, 16, 8⟩
def F.TWO_A_CNT_nack_cnt : Fld := ⟨0x000C, 8, 8⟩
def F.TWO_A_CNT_vset_cnt : Fld := ⟨0x000C, 0, 8⟩
def F.TWO_B_CFG_en : Fld := ⟨0x0020, 31, 1⟩
def F.TWO_B_CFG_retries : Fld := ⟨0x0020, 16, 4⟩
def F.TWO_B_CFG_speed : Fld := ⟨0x0020, 12, 2⟩
def F.TWO_B_CFG_mode : Fld := ⟨0x0020, 11, 1⟩
def F.TWO_B_CFG_timeout_en : Fld := ⟨0x0020, 10, 1⟩
def F.TWO_B_CFG_alert_assert : Fld := ⟨0x0020, 9, 1⟩
def F.TWO_B_CFG_tgt_en : Fld := ⟨0x0020, 8, 1⟩
def F.TWO_B_CFG_addr : Fld := ⟨0x0020, 0, 7⟩
def F.TWO_B_XFER_go : Fld := ⟨0x0024, 31, 1⟩
def F.TWO_B_XFER_abort : Fld := ⟨0x0024, 30, 1⟩
def F.TWO_B_XFER_recover : Fld := ⟨0x0024, 29, 1⟩
def F.TWO_B_XFER_rd_len : Fld := ⟨0x0024, 16, 6⟩
def F.TWO_B_XFER_wr_len : Fld := ⟨0x0024, 8, 6⟩
def F.TWO_B_XFER_addr : Fld := ⟨0x0024, 0, 7⟩
def F.TWO_B_STAT_err : Fld := ⟨0x0028, 16, 8⟩
def F.TWO_B_STAT_mbx_rd : Fld := ⟨0x0028, 9, 1⟩
def F.TWO_B_STAT_mbx_wr : Fld := ⟨0x0028, 8, 1⟩
def F.TWO_B_STAT_as_target : Fld := ⟨0x0028, 7, 1⟩
def F.TWO_B_STAT_switched : Fld := ⟨0x0028, 6, 1⟩
def F.TWO_B_STAT_alert_seen : Fld := ⟨0x0028, 5, 1⟩
def F.TWO_B_STAT_bus_stuck : Fld := ⟨0x0028, 4, 1⟩
def F.TWO_B_STAT_timeout : Fld := ⟨0x0028, 3, 1⟩
def F.TWO_B_STAT_failed : Fld := ⟨0x0028, 2, 1⟩
def F.TWO_B_STAT_done : Fld := ⟨0x0028, 1, 1⟩
def F.TWO_B_STAT_busy : Fld := ⟨0x0028, 0, 1⟩
def F.TWO_B_CNT_arb_lost_cnt : Fld := ⟨0x002C, 24, 8⟩
def F.TWO_B_CNT_timeout_cnt : Fld := ⟨0x002C, 16, 8⟩
def F.TWO_B_CNT_rx_cnt : Fld := ⟨0x002C, 0, 6⟩
def F.TWO_B_TXn_data (n : Nat) : Fld := ⟨0x0040 + 4 * n, 0, 32⟩
def F.TWO_B_RXn_data (n : Nat) : Fld := ⟨0x0060 + 4 * n, 0, 32⟩
def F.TWO_B_MBXn_data (n : Nat) : Fld := ⟨0x0080 + 4 * n, 0, 32⟩
def F.SVC_CFG_t_resp : Fld := ⟨0x0000, 16, 5⟩
def F.SVC_CFG_fb_ma : Fld := ⟨0x0000, 8, 8⟩
def F.SVC_CFG_auto_sr : Fld := ⟨0x0000, 6, 1⟩
def F.SVC_CFG_vbus_fed : Fld := ⟨0x0000, 5, 1⟩
def F.SVC_CFG_host_pol : Fld := ⟨0x0000, 4, 1⟩
def F.SVC_CFG_try : Fld := ⟨0x0000, 2, 2⟩
def F.SVC_CFG_role : Fld := ⟨0x0000, 0, 2⟩
def F.SVC_STAT_cfg_err : Fld := ⟨0x0004, 13, 1⟩
def F.SVC_STAT_ra : Fld := ⟨0x0004, 12, 1⟩
def F.SVC_STAT_snk_en : Fld := ⟨0x0004, 11, 1⟩
def F.SVC_STAT_src_en : Fld := ⟨0x0004, 10, 1⟩
def F.SVC_STAT_dead_batt : Fld := ⟨0x0004, 9, 1⟩
def F.SVC_STAT_alt : Fld := ⟨0x0004, 8, 1⟩
def F.SVC_STAT_contract : Fld := ⟨0x0004, 7, 1⟩
def F.SVC_STAT_vconn_on : Fld := ⟨0x0004, 6, 1⟩
def F.SVC_STAT_drole : Fld := ⟨0x0004, 5, 1⟩
def F.SVC_STAT_prole : Fld := ⟨0x0004, 4, 1⟩
def F.SVC_STAT_orient : Fld := ⟨0x0004, 3, 1⟩
def F.SVC_STAT_cc_state : Fld := ⟨0x0004, 0, 3⟩
def F.SVC_VBUS_mv : Fld := ⟨0x0008, 0, 16⟩
def F.SVC_PATH_snk_req : Fld := ⟨0x000C, 2, 1⟩
def F.SVC_PATH_vsel : Fld := ⟨0x000C, 1, 1⟩
def F.SVC_PATH_src_req : Fld := ⟨0x000C, 0, 1⟩
def F.SVC_TX_header : Fld := ⟨0x0010, 16, 16⟩
def F.SVC_TX_hard_reset : Fld := ⟨0x0010, 10, 1⟩
def F.SVC_TX_soft_reset : Fld := ⟨0x0010, 9, 1⟩
def F.SVC_TX_send : Fld := ⟨0x0010, 8, 1⟩
def F.SVC_TX_n_obj : Fld := ⟨0x0010, 4, 3⟩
def F.SVC_TX_sop : Fld := ⟨0x0010, 0, 2⟩
def F.SVC_TX_DOn_obj (n : Nat) : Fld := ⟨0x0020 + 4 * n, 0, 32⟩
def F.SVC_RX_header : Fld := ⟨0x0040, 16, 16⟩
def F.SVC_RX_depth : Fld := ⟨0x0040, 11, 3⟩
def F.SVC_RX_pop : Fld := ⟨0x0040, 9, 1⟩
def F.SVC_RX_valid : Fld := ⟨0x0040, 8, 1⟩
def F.SVC_RX_n_obj : Fld := ⟨0x0040, 4, 3⟩
def F.SVC_RX_sop : Fld := ⟨0x0040, 0, 2⟩
def F.SVC_RX_DOn_obj (n : Nat) : Fld := ⟨0x0044 + 4 * n, 0, 32⟩
def F.SVC_SWAP_busy : Fld := ⟨0x0060, 16, 1⟩
def F.SVC_SWAP_err : Fld := ⟨0x0060, 8, 8⟩
def F.SVC_SWAP_vconn : Fld := ⟨0x0060, 1, 1⟩
def F.SVC_SWAP_pr : Fld := ⟨0x0060, 0, 1⟩
def F.SVC_ALT_tap_link : Fld := ⟨0x0064, 8, 6⟩
def F.SVC_ALT_uart_on : Fld := ⟨0x0064, 1, 1⟩
def F.SVC_ALT_tap_on : Fld := ⟨0x0064, 0, 1⟩
def F.SVC_EVT_alt_exit : Fld := ⟨0x0068, 11, 1⟩
def F.SVC_EVT_alt_enter : Fld := ⟨0x0068, 10, 1⟩
def F.SVC_EVT_swap_done : Fld := ⟨0x0068, 9, 1⟩
def F.SVC_EVT_swap_fail : Fld := ⟨0x0068, 8, 1⟩
def F.SVC_EVT_guard_to : Fld := ⟨0x0068, 7, 1⟩
def F.SVC_EVT_hard_reset : Fld := ⟨0x0068, 6, 1⟩
def F.SVC_EVT_soft_reset : Fld := ⟨0x0068, 5, 1⟩
def F.SVC_EVT_resp_to : Fld := ⟨0x0068, 4, 1⟩
def F.SVC_EVT_tx_fail : Fld := ⟨0x0068, 3, 1⟩
def F.SVC_EVT_rx : Fld := ⟨0x0068, 2, 1⟩
def F.SVC_EVT_det_trans : Fld := ⟨0x0068, 1, 1⟩
def F.SVC_EVT_detach : Fld := ⟨0x0068, 0, 1⟩
def F.SEQ_CFG_gap : Fld := ⟨0x0000, 16, 16⟩
def F.SEQ_CFG_mode : Fld := ⟨0x0000, 8, 1⟩
def F.SEQ_CFG_count : Fld := ⟨0x0000, 0, 5⟩
def F.SEQ_CMD_cmd : Fld := ⟨0x0004, 0, 2⟩
def F.SEQ_STAT_last_rail : Fld := ⟨0x0008, 16, 4⟩
def F.SEQ_STAT_fall_src : Fld := ⟨0x0008, 10, 1⟩
def F.SEQ_STAT_cfg_err : Fld := ⟨0x0008, 9, 1⟩
def F.SEQ_STAT_write_ignored : Fld := ⟨0x0008, 8, 1⟩
def F.SEQ_STAT_stuck : Fld := ⟨0x0008, 7, 1⟩
def F.SEQ_STAT_pu_fail : Fld := ⟨0x0008, 6, 1⟩
def F.SEQ_STAT_bad_table : Fld := ⟨0x0008, 5, 1⟩
def F.SEQ_STAT_cmd_refused : Fld := ⟨0x0008, 4, 1⟩
def F.SEQ_STAT_on_pending : Fld := ⟨0x0008, 3, 1⟩
def F.SEQ_STAT_state : Fld := ⟨0x0008, 0, 3⟩
def F.SEQ_RAILS_en : Fld := ⟨0x000C, 16, 16⟩
def F.SEQ_RAILS_good : Fld := ⟨0x000C, 0, 16⟩
def F.SEQ_FLAGS_ooo : Fld := ⟨0x0010, 16, 16⟩
def F.SEQ_FLAGS_lost : Fld := ⟨0x0010, 0, 16⟩
def F.SEQ_RAILn_A_dep_mask (n : Nat) : Fld := ⟨0x0100 + 16 * n, 16, 16⟩
def F.SEQ_RAILn_A_pg_in (n : Nat) : Fld := ⟨0x0100 + 16 * n, 8, 4⟩
def F.SEQ_RAILn_A_slot (n : Nat) : Fld := ⟨0x0100 + 16 * n, 0, 4⟩
def F.SEQ_RAILn_B_fall_timeout (n : Nat) : Fld := ⟨0x0104 + 16 * n, 16, 16⟩
def F.SEQ_RAILn_B_pg_timeout (n : Nat) : Fld := ⟨0x0104 + 16 * n, 0, 16⟩
def F.SEQ_RAILn_C_fall_code (n : Nat) : Fld := ⟨0x0108 + 16 * n, 16, 16⟩
def F.SEQ_RAILn_C_on_stuck (n : Nat) : Fld := ⟨0x0108 + 16 * n, 8, 1⟩
def F.SEQ_RAILn_C_fall_ain (n : Nat) : Fld := ⟨0x0108 + 16 * n, 0, 8⟩
def F.THM_CFG_hyst : Fld := ⟨0x0000, 24, 4⟩
def F.THM_CFG_t_crit : Fld := ⟨0x0000, 16, 8⟩
def F.THM_CFG_t_warn : Fld := ⟨0x0000, 8, 8⟩
def F.THM_CFG_cfg_err : Fld := ⟨0x0000, 0, 1⟩
def F.THM_MASK_mask : Fld := ⟨0x0004, 0, 12⟩
def F.THM_STAT_crit : Fld := ⟨0x0008, 16, 12⟩
def F.THM_STAT_warn : Fld := ⟨0x0008, 0, 12⟩
def F.THM_SUM_site : Fld := ⟨0x000C, 28, 4⟩
def F.THM_SUM_broken : Fld := ⟨0x000C, 16, 12⟩
def F.THM_SUM_max : Fld := ⟨0x000C, 0, 16⟩
def F.THM_SITEn_broken (n : Nat) : Fld := ⟨0x0010 + 4 * n, 16, 1⟩
def F.THM_SITEn_temp (n : Nat) : Fld := ⟨0x0010 + 4 * n, 0, 16⟩
def F.TAG_CFG_no_vtag : Fld := ⟨0x0000, 4, 1⟩
def F.TAG_CFG_en : Fld := ⟨0x0000, 0, 4⟩
def F.TAG_CMD_block : Fld := ⟨0x0004, 8, 3⟩
def F.TAG_CMD_line : Fld := ⟨0x0004, 4, 2⟩
def F.TAG_CMD_cmd : Fld := ⟨0x0004, 0, 3⟩
def F.TAG_ARG_LO_id_lo : Fld := ⟨0x0008, 0, 32⟩
def F.TAG_ARG_HI_id_hi : Fld := ⟨0x000C, 0, 32⟩
def F.TAG_STATl_count (l : Nat) : Fld := ⟨0x0010 + 4 * l, 16, 7⟩
def F.TAG_STATl_err (l : Nat) : Fld := ⟨0x0010 + 4 * l, 8, 4⟩
def F.TAG_STATl_overflow (l : Nat) : Fld := ⟨0x0010 + 4 * l, 4, 1⟩
def F.TAG_STATl_short (l : Nat) : Fld := ⟨0x0010 + 4 * l, 3, 1⟩
def F.TAG_STATl_presence (l : Nat) : Fld := ⟨0x0010 + 4 * l, 2, 1⟩
def F.TAG_STATl_done (l : Nat) : Fld := ⟨0x0010 + 4 * l, 1, 1⟩
def F.TAG_STATl_busy (l : Nat) : Fld := ⟨0x0010 + 4 * l, 0, 1⟩
def F.TAG_DATAn_data (n : Nat) : Fld := ⟨0x0020 + 4 * n, 0, 32⟩
def F.TAG_IDl_i_LO_id_lo (l : Nat) (i : Nat) : Fld := ⟨0x1000 + 512 * l + 8 * i, 0, 32⟩
def F.TAG_IDl_i_HI_id_hi (l : Nat) (i : Nat) : Fld := ⟨0x1004 + 512 * l + 8 * i, 0, 32⟩
def F.NVM_STAT_err : Fld := ⟨0x0000, 16, 8⟩
def F.NVM_STAT_pw_backoff : Fld := ⟨0x0000, 6, 1⟩
def F.NVM_STAT_wr_unlocked : Fld := ⟨0x0000, 5, 1⟩
def F.NVM_STAT_rd_unlocked : Fld := ⟨0x0000, 4, 1⟩
def F.NVM_STAT_refused : Fld := ⟨0x0000, 3, 1⟩
def F.NVM_STAT_done : Fld := ⟨0x0000, 2, 1⟩
def F.NVM_STAT_busy : Fld := ⟨0x0000, 1, 1⟩
def F.NVM_STAT_ready : Fld := ⟨0x0000, 0, 1⟩
def F.NVM_CMD_ctr : Fld := ⟨0x0004, 8, 3⟩
def F.NVM_CMD_cmd : Fld := ⟨0x0004, 0, 4⟩
def F.NVM_ADDR_page : Fld := ⟨0x0008, 6, 12⟩
def F.NVM_MASK_LO_mask : Fld := ⟨0x000C, 0, 32⟩
def F.NVM_MASK_HI_mask : Fld := ⟨0x0010, 0, 32⟩
def F.NVM_PW_LO_pw_lo : Fld := ⟨0x0014, 0, 32⟩
def F.NVM_PW_HI_pw_hi : Fld := ⟨0x0018, 0, 32⟩
def F.NVM_WIN_PAGE_page : Fld := ⟨0x001C, 0, 3⟩
def F.NVM_CTRn_value (n : Nat) : Fld := ⟨0x0040 + 4 * n, 0, 32⟩
def F.NVM_BUFn_data (n : Nat) : Fld := ⟨0x0100 + 4 * n, 0, 32⟩
def F.SYS_PWR_STAT_drop : Fld := ⟨0x0320, 8, 6⟩
def F.SYS_PWR_STAT_core_ready : Fld := ⟨0x0320, 7, 1⟩
def F.SYS_PWR_STAT_ref_lock : Fld := ⟨0x0320, 6, 1⟩
def F.SYS_PWR_STAT_good : Fld := ⟨0x0320, 0, 6⟩

end Sys2Proof.Machine
end

