-- ==== Sys2Proof/Machine/State.lean ====
section
/-! DEFINITION. The state of the block: one record per register block of R358, each with its register file and with the
state the manual gives that unit beside its registers, the waiting commands, and what the device has sent. -/
namespace Sys2Proof.Machine

/-- A register file of one block: block offset and word, offsets strictly rising, no entry equal to 0; an unlisted
register reads 0. -/
abbrev RegFile := List (Nat × Word)

/-- A byte memory: address and byte, addresses strictly rising, no entry equal to 0; an unlisted byte reads 0.
DESIGN CHOICE: log 2. -/
abbrev Memory := List Host.Cell

/-- A write of a live (RW-L) or staged (RW-S) field that waits for its boundary (R8, R9): `sel` is the context, source,
limit set or model a selector register chose at the write, 0 elsewhere. -/
structure Pend where
  sel   : Nat := 0
  ofs   : Nat := 0
  lo    : Nat := 0
  width : Nat := 0
  val   : Nat := 0
deriving DecidableEq, Repr

/-- The commit machinery of a block with staged fields (R92): the staging copies written, the set captured. -/
structure Staging where
  stg : List Pend := []
  cap : Option (List Pend) := none
deriving DecidableEq, Repr

/-! ## The structure of the image (R47 to R79), as the build leaves it in force -/

/-- A binding of a context (R61). -/
structure Binding where
  kind  : Nat := 0
  prev  : Bool := false
  idx   : Nat := 0
  value : Word := 0
deriving DecidableEq, Repr

/-- A context record (R60); `ofs` is its image offset. -/
structure CtxRec where
  cls      : Nat := 0
  nSec     : Nat := 0
  wc       : Nat := 0
  hasB     : Bool := false
  startB   : Bool := false
  clampHi  : Word := 0
  clampLo  : Word := 0
  coeffOff : Nat := 0
  ins      : List Binding := []
  outs     : List Binding := []
  ofs      : Nat := 0
deriving DecidableEq, Repr

/-- A phase record (R66); `bank` 255: unassigned. -/
structure PhaseRec where
  bank     : Nat := 255
  pol      : Nat := 0
  csAin    : Nat := 0
  minMode  : Nat := 0
  tripMask : BitVec 16 := 0
  dtRise   : Nat := 0
  dtFall   : Nat := 0
  minPulse : Nat := 0
deriving DecidableEq, Repr

/-- A bank record (R67); `ring` 255: unused. -/
structure BankRec where
  ring    : Nat := 255
  strings : Nat := 0
  phMin   : Nat := 0
  phMax   : Nat := 0
  vNom    : Nat := 0
  iLim    : Nat := 0
  vAin    : Nat := 0
  iAin    : Nat := 0
  strAin  : Nat := 255
deriving DecidableEq, Repr

/-- A lane entry (R68). -/
structure LaneRec where
  n   : Nat := 0
  mux : List Nat := []
deriving DecidableEq, Repr

/-- A channel entry (R68). -/
structure ChanRec where
  ain    : Nat := 0
  order  : Nat := 0
  ratio  : Nat := 0
  notch  : Nat := 0
  pull   : Nat := 0
  fast   : Bool := false
  flimHi : Int := 0
  flimLo : Int := 0
  ofs    : Nat := 0
deriving DecidableEq, Repr

/-- A run entry of a ring (R69). -/
structure RunRec where
  first : Nat := 0
  last  : Nat := 0
  cls   : Nat := 0
  cells : Nat := 0
deriving DecidableEq, Repr

/-- A ring record (R69). -/
structure RingRec where
  ring     : Nat := 0
  coupling : Nat := 0
  nodes    : Nat := 0
  impK     : Nat := 0
  demod    : Nat := 0
  quiet    : Nat := 0
  runs     : List RunRec := []
  ofs      : Nat := 0
deriving DecidableEq, Repr

/-- A limit set (R70). -/
structure LimSet where
  vHiHard : Int := 0
  vHiSoft : Int := 0
  vLoSoft : Int := 0
  vLoHard : Int := 0
  tHiHard : Int := 0
  tHiSoft : Int := 0
  tLoSoft : Int := 0
  tLoHard : Int := 0
  sumTol  : Int := 0
  wireThr : Int := 0
  refTol  : Int := 0
  balMax  : Int := 0
deriving DecidableEq, Repr

/-- An assignment of a limit set (R70). -/
structure AsgRec where
  ring  : Nat := 0
  first : Nat := 0
  last  : Nat := 0
  set   : Nat := 0
  ofs   : Nat := 0
deriving DecidableEq, Repr

/-- A fault table entry (R71). -/
structure FltRec where
  cls    : Nat := 0
  thresh : Nat := 0
  window : Nat := 0
  react  : Nat := 0
deriving DecidableEq, Repr

/-- A rail entry (R73). -/
structure RailRec where
  slot     : Nat := 0
  pgIn     : Nat := 0
  depMask  : BitVec 16 := 0
  pgTo     : Nat := 0
  fallTo   : Nat := 0
  fallAin  : Nat := 255
  onStuck  : Nat := 0
  fallCode : Nat := 0
  ofs      : Nat := 0
deriving DecidableEq, Repr

/-- A plausibility model (R118). -/
structure PlausRec where
  ctx     : Nat := 0
  fbSlot  : Nat := 0
  xchk    : Nat := 0
  xchkAin : Nat := 0
  ka      : Int := 0
  kb      : Int := 0
  rThr    : Nat := 0
  xThr    : Nat := 0
  cntLim  : Nat := 0
  hard    : Bool := false
  ofs     : Nat := 0
deriving DecidableEq, Repr

/-- The contents of the sections of an image (R56). -/
structure Img where
  id : Word := 0
  ver : Word := 0
  strideClk : Nat := 4000
  lapLen    : Nat := 200
  commitPct : Nat := 80
  wdPct     : Nat := 150
  holdover  : Nat := 3
  src       : Nat := 0
  paceOfs   : Int := 0
  paceOut   : Nat := 0
  spareEng  : Nat := 0
  ctxs      : List CtxRec := []
  loopOfs   : Nat := 0
  coeff     : List Word := []
  coeffLen  : Nat := 0
  periodClk : Nat := 0
  carrier   : Nat := 0
  reload    : Nat := 0
  phases    : List PhaseRec := []
  banks     : List BankRec := []
  groupOfs  : Nat := 0
  lanes     : List LaneRec := []
  chans     : List ChanRec := []
  hasRings  : Bool := false
  rings     : List RingRec := []
  sets      : List LimSet := []
  asgs      : List AsgRec := []
  faultn    : Nat := 3
  flts      : List FltRec := []
  coreMa    : Nat := 14000
  coreDidt  : Nat := 1000
  gdPhase   : Nat := 0
  gdTotal   : Nat := 0
  balRing   : Nat := 0
  balTotal  : Nat := 0
  railMode  : Nat := 0
  rails     : List RailRec := []
  role      : Nat := 0
  hAddr     : Nat := 0
  hSize     : Nat := 1
  lossHold  : Nat := 20
  lossRamp  : Nat := 200
  vSet : Nat := 0
  vLo : Nat := 0
  vHi : Nat := 0
  vSlew : Nat := 0
  iBusMax : Nat := 0
  shareSlew : Nat := 0
  tDerLo : Int := 0
  tDerHi : Int := 0
  phAdd : Nat := 0
  phShed : Nat := 0
  excMax : Nat := 0
  hrRef : Nat := 0
  plaus     : List PlausRec := []
deriving DecidableEq, Repr

/-! ## SYS -/

/-- Where a pending state request stands (R328): waiting for its units to wake, for the check or the build, for the
reports of a hive's followers, or for the next stride boundary. -/
inductive ReqPhase where
  | units | check | build | hive (left : Nat) | boundary
deriving DecidableEq, Repr

/-- The pending state request (R327): its target, coded as `SYS_STATE_CMD.req`, and the units woken for it. -/
structure StateReq where
  target : Nat
  phase  : ReqPhase
  woken  : BitVec 32 := 0
deriving DecidableEq, Repr

/-- SYS: identity, operating state, queue counters, supplies. -/
structure Sys where
  r       : RegFile := sysReset
  /-- The level of `RST_N`. -/
  rstN    : Bool := false
  /-- The service island is out of reset (R442). -/
  up      : Bool := false
  req     : Option StateReq := none
  /-- A build has made a structure (R194). -/
  built   : Bool := false
  /-- IDLE has been entered since power-up (R349). -/
  idled   : Bool := false
  /-- The counters of `SYS_QUEUE_STAT` by 32 × queue + ring, laid out as that register. -/
  qcnt    : RegFile := []

deriving DecidableEq, Repr

/-! ## TBS -/

/-- TBS: the pacer and the stride watchdog. -/
structure Tbs where
  r        : RegFile := tbsReset
  live     : List Pend := []
  /-- Clock within the stride, and length of the stride in progress with its trim (R29, R41). -/
  clock    : Nat := 0
  len      : Nat := 4000
  /-- The trim, in clocks, that the next stride takes (R41). -/
  trim     : Int := 0
  /-- Consecutive boundaries with the phase error within ±2 clocks, and without a mark; the boundary that began the stride in
  progress has its mark (R42). -/
  goodRun  : Nat := 0
  missRun  : Nat := 0
  marked   : Bool := false
  /-- The mark of the next stride's boundary came ahead of it, and its error was within ±2 clocks. -/
  early    : Option Bool := none
  /-- The stride's first clock, counted from any clock at which a word boundary grid begins, modulo 128 (R223). -/
  t0       : Nat := 0
  /-- The commit point of the stride has passed (R31). -/
  committed : Bool := false
  /-- Laps since entry to LOADED. -/
  lap      : Nat := 0
  /-- The level and the pulse length, in clocks, of `PACE_OUT` (R40). -/
  pacePulse : Nat := 0
  /-- The pacer left HOLDOVER and corrects by trimming only (R42). -/
  trimOnly : Bool := false
  /-- Strides since the last stride of a re-placement: the stride in progress is one (R137). -/
  replStride : Bool := false
deriving DecidableEq, Repr

/-! ## IMG -/

/-- The loader's running work (R85): a check for its own command or for a LOADED request, the build, a fetch or store of
a slot. -/
inductive Job where
  | check (forLoad : Bool)
  | build
  | fetch (slot : Nat)
  | store (slot : Nat)
deriving DecidableEq, Repr

/-- IMG: the staging buffer and the loader. -/
structure ImgBlk where
  r   : RegFile := []
  buf : Memory := []
  job : Option Job := none
  /-- The structure in force (R84). -/
  str : Img := {}
  /-- The structure that the buffer passed its check with. -/
  next : Option Img := none
  /-- The structure whose build is complete while units are still being woken for it (R328). -/
  ready : Option Img := none
deriving DecidableEq, Repr

/-! ## CEA -/

/-- A context (R129): what the build made of its record, and its live state. -/
structure Ctx where
  cfg      : CtxRec := {}
  bankA    : List Word := []
  bankB    : List Word := []
  s1       : List (BitVec 64) := []
  s2       : List (BitVec 64) := []
  /-- A state's low word written and waiting for its high word (R126): state index and word. -/
  lowWr    : List (Nat × Word) := []
  clampHi  : Word := 0
  clampLo  : Word := 0
  /-- Published value now, and as it stood at the last stride boundary (R61 `prev`). -/
  pub      : Word := 0
  pubPrev  : Word := 0
  u        : Word := 0
  /-- The scaled inputs in `s12.52` of the last start (R107). -/
  v        : List Int := []
  /-- The values last read by the input bindings (R101). -/
  held     : List Word := []
  xLast    : Word := 0
  /-- The context has completed since entry to ARMED (R114). -/
  ranArmed : Bool := false
  sat      : Bool := false
  secSat   : Bool := false
  started : Bool := false
  completed : Bool := false
  overrun : Bool := false
  upstream : Bool := false
  parAbort : Bool := false
  startClk : Nat := 0
  doneClk : Nat := 0
  stale    : BitVec 8 := 0
  /-- The context completed in the previous stride (R121). -/
  donePrev : Bool := false
  /-- The context completed with a free feedback in the previous stride: its stale bits then. -/
  stalePrev : BitVec 8 := 0
  /-- Words that fail parity (R116), by window offset of the word. -/
  parBad   : List Nat := []
deriving DecidableEq, Repr

/-- An engine (R99, R100): the context it runs and its supervision. -/
structure Eng where
  run      : Option Nat := none
  /-- The first clock at which it may start its next context. -/
  freeClk  : Nat := 0
  /-- The context that completed last on it in this stride, for the exception of R102. -/
  lastDone : Option Nat := none
  /-- An abort at the commit point is not acknowledged yet (R34). -/
  aborting : Bool := false
  /-- The context of an abort that was still not acknowledged when the next stride began before C + 64 (R34). -/
  lateCtx  : Option Nat := none
  /-- Run-list position last checked by the supervisor (R122). -/
  chkPos   : Option Nat := none
  /-- Lap of the last mismatch (R123). -/
  mmLap    : Option Nat := none
deriving DecidableEq, Repr

/-- A plausibility model's state (R119 to R124). -/
structure Model where
  count    : Nat := 0
  fPrev    : Word := 0
  pPrev    : Word := 0
  lastAttr : Nat := 0
  hardDone : Bool := false
  fired    : Bool := false
  fireCnt  : Nat := 0
  res      : BitVec 16 := 0
  xdiff    : BitVec 16 := 0
deriving DecidableEq, Repr

/-- CEA: contexts, engines, the plausibility supervisor. -/
structure Cea where
  r      : RegFile := []
  live   : List Pend := []
  st     : Staging := {}
  ctxs   : List Ctx := []
  eng    : Vector Eng 16 := Vector.replicate 16 {}
  models : List Model := []
  /-- The snapshot: window offset and word; the capture that waits for a commit point (R125). -/
  snap   : RegFile := []
  snapReq : Option Nat := none
deriving DecidableEq, Repr

/-! ## PLC -/

/-- Where a context is placed (R133 to R142). -/
structure Place where
  engine  : Nat := 0
  placed  : Bool := false
  estDone : Nat := 0
  bound   : Nat := 0
deriving DecidableEq, Repr

/-- A placement of the contexts on the engines. -/
structure Placement where
  ctx  : List Place := []
  run  : Vector (List Nat) 16 := Vector.replicate 16 []
  free : Vector Nat 16 := Vector.replicate 16 64
  load : Vector Nat 16 := Vector.replicate 16 0
  live : BitVec 16 := 0xFFFF
  spare : BitVec 16 := 0
deriving DecidableEq, Repr

/-- A headroom figure of queue 7 (R153). -/
structure Figure where
  bank  : Nat := 0
  chg   : Bool := false
  h     : Int := 0
  t     : Int := 0
  lap   : Nat := 0
  valid : Bool := false
  node  : Nat := 0
  cell  : Nat := 0
deriving DecidableEq, Repr

/-- The shares of one direction (R159): start and target in ppm by bank, and N. -/
structure ShareDir where
  start  : List Nat := []
  target : List Nat := []
  n      : Nat := 0
  blocked : Bool := false
  short  : Bool := false
  /-- Targets planned in stride L − 1 for the next lap boundary, with their flags `blocked` and `short`. -/
  plan   : Option (List Nat × Bool × Bool) := none
deriving DecidableEq, Repr

/-- The share unit's state of one bank. -/
structure BankSt where
  figD : Option Figure := none
  figC : Option Figure := none
  gotD : Bool := false
  gotC : Bool := false
  /-- Consecutive laps without a valid figure (R154). -/
  missLaps  : Nat := 0
  /-- Weights and cap of the last planning stride (R155, R157, R162). -/
  wtD : Nat := 0
  wtC : Nat := 0
  cap : Nat := 0
  hold      : Bool := false
  nNew      : Nat := 0
  /-- The new count came from the add or shed test (R164), from the add test (R337). -/
  byTest    : Bool := false
  addReq    : Bool := false
  /-- The bank was made safe, or lost its last eligible phase, and is not yet eligible again (R162). -/
  safe      : Bool := false
  rampLen   : Nat := 0
  ref       : Word := 0
  excClip   : Bool := false
deriving DecidableEq, Repr

/-- The share unit's state of one phase (R163 to R171). -/
structure PhaseSt where
  active : Bool := false
  /-- Switching in the sense of `PLC_PH_ACTn`: not parked. -/
  unparked : Bool := false
  f0 : Rat := 0
  f1 : Rat := 0
  angle  : Nat := 0
  target : Nat := 0
  /-- Made safe by a reaction and not back by a lap boundary (R169). -/
  safe   : Bool := false
deriving DecidableEq, Repr

/-- A set of bank references in queue 2. -/
structure RefSet where
  refs : List Word := []
  tag  : Nat := 0
deriving DecidableEq, Repr

/-- A queue 1 entry (R152): c, the voltage in 0.1 V, the stride tag. -/
structure Q1Entry where
  c   : Word := 0
  v   : Nat := 0
  tag : Nat := 0
deriving DecidableEq, Repr

/-- PLC: context placement, the share unit, data placement's plan. -/
structure Plc where
  r      : RegFile := plcReset
  live   : List Pend := []
  pl     : Placement := {}
  /-- The critical contexts that a re-placement has left unplaced, with their event sent (R141). -/
  unpl   : BitVec 256 := 0
  /-- The N + 1 analysis runs: `PLC_N1_STAT` is not valid until N1_ANALYSIS_COMPLETE. -/
  n1Run  : Bool := false
  /-- Data placements that came late, which no register shows (R31). -/
  dpLate : Nat := 0
  dis    : ShareDir := {}
  chg    : ShareDir := {}
  banks  : Vector BankSt 24 := Vector.replicate 24 {}
  ph     : Vector PhaseSt 48 := Vector.replicate 48 {}
  q2     : List RefSet := []
  q7     : List Figure := []
  /-- Data placement is running in stride L − 1 (R22). -/
  dpRun  : Bool := false
  planned : Bool := false
  /-- The c limit of degrade is in force (R348). -/
  cLim   : Bool := false
deriving DecidableEq, Repr

/-! ## BUS -/

/-- BUS: the bus voltage command and the total current command. -/
structure Bus where
  r       : RegFile := busReset
  live    : List Pend := []
  st      : Staging := {}
  /-- Target in force and waiting target, 0.1 V (R150). -/
  tgt     : Nat := 0
  tgtNext : Option Nat := none
  /-- Slewed command, mV (R150). -/
  slew    : Nat := 0
  q1      : List Q1Entry := []
  /-- The entry the bus context published in this stride, until the commit point (R31). -/
  pubCmd  : Option Word := none
  /-- c_h, the last c applied from an entry (R176); c in force. -/
  cHeld   : Word := 0
  c       : Word := 0
  /-- The voltage of the last applied entry, 0.1 V (R152). -/
  vEntry  : Option Nat := none
  m       : Nat := 0
  /-- A follower took a copy of this stride's entry already (R175). -/
  gotCmd  : Bool := false
  /-- As `gotCmd`, for the stride before. -/
  gotPrev : Bool := false
deriving DecidableEq, Repr

/-! ## PWM -/

/-- A compare set of queue 3 (R190). -/
structure CmpSet where
  duty : Word := 0
  tag  : Nat := 0
deriving DecidableEq, Repr

/-- The set pipeline and carrier of one phase or auxiliary output: queued by the context, committed at the commit point,
eligible from the next boundary, then in force (R35, R190). -/
structure Carr where
  queued    : Option CmpSet := none
  committed : Option CmpSet := none
  eligible  : Option CmpSet := none
  /-- Duty of the set in force after R185. -/
  duty      : Word := 0
  /-- Period of this carrier in clocks, and P′ in fine steps of the period in progress (R180, R184). -/
  perClk    : Nat := 0
  pLen      : Nat := 0
  /-- On-width of the set in force (R185, R188), and w₁ and w₂ of the period (R186), in fine steps. -/
  w         : Nat := 0
  w1 : Nat := 0
  w2 : Nat := 0
  /-- The period in progress is past its centre. -/
  past      : Bool := false
deriving DecidableEq, Repr

/-- A phase channel. -/
structure PhaseCh where
  c       : Carr := {}
  /-- Timing in force, in fine steps (R184). -/
  dtRise : Nat := 0
  dtFall : Nat := 0
  minPulse : Nat := 0
  /-- Logical outputs of the switching phase; the output whose rise waits for a dead time (true: H). -/
  h : Bool := false
  l : Bool := false
  rise    : Option Bool := none
  /-- The phase switches: in RUN, unparked, from a period start on (R201, R330). -/
  sw      : Bool := false
  /-- Trip latches (R196): external by input, fast limit by channel, and those the fault collector owns. -/
  ext     : BitVec 16 := 0
  flim    : List Nat := []
  ring    : Bool := false
  plaus   : List Nat := []
  wd      : Bool := false
  crit    : Bool := false
  react   : Bool := false
deriving DecidableEq, Repr

/-- An auxiliary output (R192, R193). -/
structure AuxCh where
  c       : Carr := {}
  pending : Option Word := none
  on      : Bool := false
deriving DecidableEq, Repr

/-- PWM: phase channels, auxiliary outputs, trip inputs. -/
structure Pwm where
  r    : RegFile := pwmReset
  live : List Pend := []
  st   : Staging := {}
  ph   : Vector PhaseCh 48 := Vector.replicate 48 {}
  aux  : Vector AuxCh 8 := Vector.replicate 8 {}
  /-- P′ of the reference carrier, in fine steps, and its period in clocks. -/
  refLen : Nat := 0
  refClk : Nat := 0
  /-- The watchdog's and the safe-all reaction's hold of the auxiliary outputs (R196). -/
  auxWd  : Bool := false
  auxAll : Bool := false
  /-- A set has been clipped in the stride in progress (R185). -/
  clipped : Bool := false
deriving DecidableEq, Repr

/-! ## ACQ -/

/-- A conversion on its way through a lane (R202 to R204): its input, whether it is a fetch, its round, its sampling
clock, the stride it was made in, and whether its round turned out partial. -/
structure Conv where
  ain     : Nat := 0
  fetch   : Bool := false
  late    : Bool := false
  round   : Nat := 0
  clk     : Nat := 0
  stride  : Nat := 0
  partialRound : Bool := false
deriving DecidableEq, Repr

/-- A lane: conversions made and sequence conversions made in this stride, fetches, and the pipeline, oldest first. -/
structure Lane where
  period  : Nat := 0
  seqCnt  : Nat := 0
  fetches : Nat := 0
  fetch   : Bool := false
  late    : Bool := false
  pipe    : List Conv := []
  /-- The lane converted at the last sample mark (R207, R213). -/
  running : Bool := false
deriving DecidableEq, Repr

/-- A result on its way to queue 0 (R210): value and the flags of bits 52:48. -/
structure Res where
  val   : Word := 0
  flags : BitVec 5 := 0
deriving DecidableEq, Repr

/-- A queue 0 entry (R210). -/
structure Q0Entry where
  ain : Nat := 0
  res : Res := {}
  tag : Nat := 0
deriving DecidableEq, Repr

/-- A code of a channel's window (R205): stride and round of its conversion, the code, and the flags `ref` and `ow` of R210
at it. -/
structure WinCode where
  stride : Nat := 0
  round  : Nat := 0
  code   : Int := 0
  ref    : Bool := false
  ow     : Bool := false
deriving DecidableEq, Repr

/-- A channel: its window, notch and last samples. -/
structure Chan where
  present : Bool := false
  /-- The codes of the window. -/
  win     : List WinCode := []
  /-- The stride, and the clock counted from its mark, at which the window's result is complete (R206, R207). -/
  doneAt  : Nat × Nat := (0, 0)
  slow    : Bool := false
  /-- The stride at whose mark the window in progress begins (R207). -/
  winFrom : Nat := 0
  /-- Result periods in strides (R209), and the notch's coefficients and states. -/
  e       : Nat := 1
  coef    : List Word := []
  s1 : Int := 0
  s2 : Int := 0
  primed  : Bool := false
  /-- A slow channel's result that waits for its boundary (R207). -/
  ready   : Option (Res × Int) := none
  /-- The stride in which the last result became readable (R101). -/
  resAt   : Option Nat := none
  /-- F of the last result in units of 2^−16 code, before calibration (R217, R218). -/
  lastF   : Int := 0
  /-- The last raw code that left the lane (R408). -/
  lastRaw : Option Int := none
  /-- The last raw sample judged lies beyond a limit (R199, R200, R213). -/
  beyond  : Bool := false
  calDef  : Bool := true
deriving DecidableEq, Repr

/-- A record stream: records in queue 10, and what R220 and R222 track. -/
structure Stream where
  q     : List (BitVec 64) := []
  gap   : Bool := false
  marked : Bool := false
  left  : Option Nat := none
deriving DecidableEq, Repr

/-- A running calibration capture (R217). -/
structure Cal where
  ain   : Nat := 0
  full  : Bool := false
  count : Nat := 0
  left  : Nat := 0
  sum   : Int := 0
deriving DecidableEq, Repr

/-- A channel under the open-wire test (R218): results counted and summed in the two averaging phases. -/
structure OwChan where
  ain  : Nat := 0
  n1 : Nat := 0
  n2 : Nat := 0
  sum1 : Int := 0
  sum2 : Int := 0
deriving DecidableEq, Repr

/-- A running open-wire test (R218): its phase, the strides of settling done, the channels. -/
structure OwTest where
  phase  : Nat := 1
  waited : Nat := 0
  m      : Nat := 0
  settle : Nat := 0
  thr    : Nat := 0
  chans  : List OwChan := []
deriving DecidableEq, Repr

/-- ACQ: lanes, channels, queue 0, calibration, open-wire test, record streams and the sample buffer. -/
structure Acq where
  r     : RegFile := []
  live  : List Pend := []
  st    : Staging := {}
  lanes : Vector Lane 16 := Vector.replicate 16 {}
  chans : Vector Chan 128 := Vector.replicate 128 {}
  q0    : List Q0Entry := []
  strs  : Vector Stream 4 := Vector.replicate 4 {}
  buf   : Memory := []
  cal   : Option Cal := none
  ow    : Option OwTest := none
deriving DecidableEq, Repr

/-! ## LNK -/

/-- A link port (R229 to R231): ring ports 0 to 47, HIVEA 48, HIVEB 49. `st`: 0 OFF, 1 DOWN, 2 ALIGN, 3 ECHO, 4 UP. -/
structure LnkPort where
  enabled  : Bool := false
  st       : Nat := 0
  trainTo  : Nat := 0
  lockLoss : Nat := 0
  dispErr  : Nat := 0
  codeErr  : Nat := 0
  /-- Echoes completed in ECHO, and the sum of their round trips less turnarounds, in units of 0.5 ns. -/
  echoN    : Nat := 0
  echoSum  : Nat := 0
  segValid : Bool := false
  seg      : Nat := 0
  /-- Where the word boundaries lie after an absolute clock that is a multiple of 128 (R223), in 0.5 ns. -/
  grid     : Nat := 0
  /-- The transmitter's running disparity (R225), and the end of the last frame sent, in 0.5 ns from the start of the stride
  in progress. -/
  txRd     : Int := 0
  txEnd    : Int := 0
  /-- The words of the last frame sent, and the running disparity ahead of it. -/
  last     : List Half := []
  lastRd   : Int := 0
  /-- The receiver's tally of RD after the last word received (R227). -/
  rd       : Int := 0
  /-- When the latest words with an error came, latest first, in 0.5 ns from the start of the stride in progress (R230). -/
  errs     : List Int := []
deriving DecidableEq, Repr

/-- LNK: the link ports and the hive's frames. -/
structure Lnk where
  r    : RegFile := lnkReset
  port : Vector LnkPort 50 := Vector.replicate 50 {}
  /-- The next marks carry `req` (R240); the followers that have reported, with their delays. -/
  reqMark : Bool := false
  reports : List (Nat × Nat) := []
  /-- The leader's stride count less the own one, from the last mark used (R175, R237). -/
  leadOfs : Nat := 0
  /-- The leader's stride count in the last mark that was answered with a report (R240). -/
  reported : Option Nat := none
deriving DecidableEq, Repr

/-! ## RNG -/

/-- A grant (R245): `kind` 0 sweep, 1 stream or phasor run, 2 diagnostic. -/
structure Grant where
  node : Nat := 0
  kind : Nat := 0
  len  : Nat := 0
deriving DecidableEq, Repr

/-- A ring word (R284); `smp` is the sample index the spectroscopy array gives a stream word (R313). -/
structure RingWord where
  val   : Half := 0
  node  : Nat := 0
  idx   : Nat := 0
  tag   : Nat := 0
  flags : Nat := 0
  smp   : Nat := 0
deriving DecidableEq, Repr

/-- What a downlink message is for: ring control, the host's mailbox, a balancing command or stop, a wire test, a
campaign's start, its end. -/
inductive WagUse where
  | ring | mailbox | bal | balStop | wire | stream | streamStop | restart | div
deriving DecidableEq, Repr

/-- A downlink waggle message (R264): its words without CRC, whether it calls for a reply, how often it was sent and how
many of its replies failed their check. -/
structure WagMsg where
  words : List Half := []
  reply : Bool := false
  use   : WagUse := .ring
  tries : Nat := 0
  crcs  : Nat := 0
deriving DecidableEq, Repr

/-- A data baton on its way: the stride it was launched in, its grants, and whether it carries uplink bits. -/
structure Launch where
  stride : Nat := 0
  grants : List Grant := []
  wagEn  : Bool := false
deriving DecidableEq, Repr

/-- One end of a ring. -/
structure RingEnd where
  /-- The message on the downlink, with its CRC, and how many of its bits have left. -/
  cur   : Option (WagMsg × List Half) := none
  bit   : Nat := 0
  /-- Messages of the ring controller, and of the host mailbox, that wait. -/
  todo  : List WagMsg := []
  box   : Option WagMsg := none
  /-- The request whose reply the uplink grant waits for, and the strides without a first bit (R266). -/
  await : Option WagMsg := none
  wait  : Nat := 0
  /-- Uplink bits taken so far, latest first; a message taken whole. -/
  rx    : Option (List Bool) := none
  /-- The stride whose baton brought the first of those bits. -/
  rxAt  : Nat := 0
  inbox : Option (List Half) := none
  fly   : List Launch := []
  carried : List Grant := []
  /-- Consecutive strides of split evidence, of whole evidence, of lost batons (R271, R272). -/
  splitRun : Nat := 0
  wholeRun : Nat := 0
  lossRun  : Nat := 0
  /-- Each `div` that waits for its STREAM_DIV to end, and then for lap boundaries, with those left: 0 until it has ended (R270). -/
  divs     : List (Nat × Nat) := []
deriving DecidableEq, Repr

/-- What the ring controller holds of a node. -/
structure RNode where
  claimed : Bool := false
  cls     : Nat := 0
  cells   : Nat := 0
  version : Nat := 0
  desc    : Option (BitVec 256) := none
  dA      : Nat := 0xFFFF
  dB      : Nat := 0xFFFF
  reachA  : Bool := false
  reachB  : Bool := false
  /-- Serving end; the end named in the last TIMING. -/
  serve   : Option PortEnd := none
  timed   : Option PortEnd := none
  /-- The end whose pass claimed it (R260). -/
  claim   : PortEnd := .a
  /-- The `div` that STREAM_DIV told it (R270, R271). -/
  div     : Nat := 0
  silent  : Bool := false
  /-- Laps without an acknowledged sweep grant; one was acknowledged in this lap (R273). -/
  noAck   : Nat := 0
  acked   : Bool := false
  /-- The stride of the lap in which its sweep grant is due, and sweep grants made in this lap (R269). -/
  sweepAt : Option Nat := none
  granted : Nat := 0
  /-- Stream grants: strides between runs (0: none), their offset, runs due (R269). -/
  strPer  : Nat := 0
  strOfs  : Nat := 0
  due     : Nat := 0
  /-- A baton of this lap named it in `alm_node` with `hard` (R294). -/
  hardLap : Bool := false
deriving DecidableEq, Repr

/-- The plan of one end (R268). -/
structure EndPlan where
  order  : List Nat := []
  stream : List Nat := []
  q      : Nat := 0
  div    : Nat := 0
deriving DecidableEq, Repr

/-- A baton schedule: the plan of a ring, its `j0`, `sweep_short`, and the stream sample period it was made for. -/
structure RingPlan where
  a  : EndPlan := {}
  b  : EndPlan := {}
  j0 : Nat := 0
  short : Bool := false
  ps : Nat := 0
deriving DecidableEq, Repr

/-- A request for a diagnostic run, or for phasor runs: the grant, and how many grants may still be made (R293, R317). -/
structure GrantReq where
  g    : Grant := {}
  left : Nat := 0
deriving DecidableEq, Repr

/-- A ring. -/
structure RingSt where
  a : RingEnd := {}
  b : RingEnd := {}
  nodes : List RNode := []
  /-- 10 ms have passed in TRAIN. -/
  late  : Bool := false
  epoch : Nat := 0
  fails : Nat := 0
  /-- The pass to launch at the next boundary; the pass whose baton is out (R257). -/
  passNext : Option PortEnd := none
  passOut  : Option PortEnd := none
  /-- The stride of its launch, and the strides until its `EOF` leaves (R259). -/
  passAt   : Nat := 0
  passLen  : Nat := 0
  /-- The two passes claimed one address twice (R260). -/
  twice    : Bool := false
  probes   : List (PortEnd × Nat) := []
  probeOut : Option (PortEnd × Nat) := none
  /-- LIMITS has been queued in TIMING; LIMITS follows when the CONFIGs of R281 are through. -/
  limSent  : Bool := false
  limDue   : Bool := false
  /-- Laps since the last LIMITS broadcast. -/
  limLaps  : Nat := 0
  seq      : Nat := 0
  split    : Bool := false
  plan     : Option RingPlan := none
  q8       : List RingPlan := []
  /-- `div` in force, A and B (R270). -/
  divA     : Nat := 0
  divB     : Nat := 0
  reqs     : List GrantReq := []
  q4       : List RingWord := []
  q5       : List RingWord := []
  /-- T_trav from port A and from port B, in 0.5 ns (R262). -/
  travA    : Nat := 0
  travB    : Nat := 0
deriving DecidableEq, Repr

/-- RNG: the ring controllers. -/
structure Rng where
  r : RegFile := rngReset
  ring : Vector RingSt 24 := Vector.replicate 24 {}
  /-- Schedules planned in stride L − 1 that data placement has not sent yet: ring and plan (R22, R31). -/
  plans : List (Nat × RingPlan) := []
deriving DecidableEq, Repr

/-! ## CSV -/

/-- A wire test of one ring (R293): its node, mask and `t_p`, whether the node has accepted it, whether it waits for the
next lap for its second run, runs done; the node's sweep run of the lap has arrived, the requests for a diagnostic grant
are out. -/
structure WireTest where
  node  : Nat := 0
  mask  : BitVec 13 := 0
  tp    : Nat := 0
  going : Bool := false
  again : Bool := false
  runs  : Nat := 0
  asked : Bool := false
  /-- The lap whose sweep mark begins the test: the first after the message's CRC (R293). -/
  lap   : Nat := 0
deriving DecidableEq, Repr

/-- What cell supervision keeps of a node beside the comb. -/
structure CsvNode where
  /-- The wires whose last test was indeterminate (R301). -/
  indet : BitVec 13 := 0
  /-- The lap's sweep run has arrived; the next one has a valid predecessor. -/
  got   : Bool := false
  prev  : Bool := false
  /-- Cells whose v_f has been set since the enumeration (R297). -/
  vfSet : BitVec 12 := 0
  /-- Temperature sensors read since the enumeration. -/
  tsRead : BitVec 4 := 0
  /-- Laps left and cell mask of the last accepted balancing command (R287, R300). -/
  laps  : Nat := 0
  mask  : BitVec 12 := 0
  /-- Headroom of the cells in this lap: by cell, discharge and charge; none: not computed, not passed (R297). -/
  hr    : List (Option (Int × Int)) := []
deriving DecidableEq, Repr

/-- Cell supervision of one ring. -/
structure CsvRing where
  nodes : List CsvNode := []
  test  : Option WireTest := none
  /-- Suspect wires that wait for their automatic test: node and wire. -/
  auto  : List (Nat × Nat) := []
  /-- The figures of the ring's bank have been sent in this lap (R298). -/
  sent  : Bool := false
  /-- The quiet bit of the ring that its nodes were last given (R281). -/
  quiet : Bool := false
deriving DecidableEq, Repr

/-- A balancing command on its way (R287). -/
structure BalOp where
  ring : Nat := 0
  node : Nat := 0
  laps : Nat := 0
  mask : BitVec 12 := 0
deriving DecidableEq, Repr

/-- CSV: cell supervision and the comb. -/
structure Csv where
  r    : RegFile := csvReset
  live : List Pend := []
  st   : Staging := {}
  /-- The comb (R299): r × 2^18 + a × 2^10 + i and point; an unlisted point reads 0. -/
  comb : List (Nat × Half) := []
  ring : Vector CsvRing 24 := Vector.replicate 24 {}
  bal  : Option BalOp := none
deriving DecidableEq, Repr

/-! ## SPX -/

/-- A tone of the campaign that runs, by rank (R309). -/
structure Tone where
  cyc : Nat := 0
  amp : Nat := 0
  bin : Nat := 0
deriving DecidableEq, Repr

/-- The sums of one cell and tone over a window (R318): v·C, v·S, i·C, i·S. -/
structure LockIn where
  vc : Int := 0
  vs : Int := 0
  ic : Int := 0
  is : Int := 0
deriving DecidableEq, Repr

/-- A phasor run of a node (R317): tone rank, exponent, window, values. -/
structure PhasorRun where
  rank : Nat := 0
  x    : Nat := 0
  win  : Nat := 0
  vals : List Half := []
deriving DecidableEq, Repr

/-- The array's model of a node's buffer (R313): in step; out of step, as an empty grant showed; its window closed, a restart
due; the restart queued and not yet leaving. -/
inductive InStep where
  | inStep | lost | due | queued
deriving DecidableEq, Repr

/-- A node of a campaign ring. -/
structure SpxNode where
  /-- The array's model of the node's buffer: sample indices held, oldest first (R313). -/
  sets   : List Nat := []
  /-- Samples of the grid up to here have reached the hub or are lost. -/
  past   : Nat := 0
  e      : Nat := 0
  win    : Nat := 0
  origin : Nat := 0
  /-- Whether the model of its buffer is in step with the node (R313). -/
  step   : InStep := .inStep
  /-- Sets of the window taken; those excluded in at least one cell, and the last of them (R319). -/
  seen   : Nat := 0
  excl   : Nat := 0
  lastEx : Option Nat := none
  /-- The first sample index of the node's grid: it was restarted there (R313). -/
  first  : Nat := 0
  /-- By cell, samples used; by cell and tone rank, the sums. -/
  used   : List Nat := []
  sums   : List (List LockIn) := []
  runs   : List PhasorRun := []
  /-- The runs of this window have been asked for. -/
  asked  : Bool := false
deriving DecidableEq, Repr

/-- A campaign ring. -/
structure SpxRing where
  ring  : Nat := 0
  bank  : Nat := 0
  /-- 1: demodulated in the hub; 2: in the node (R316). -/
  place : Nat := 0
  floor : Nat := 0
  nodes : List SpxNode := []
  /-- The bank was made safe or lost eligibility (R321). -/
  off   : Bool := false
deriving DecidableEq, Repr

/-- Where a campaign stands (R308, R321): accepted, STREAM and TONES sent and waiting for the start mark, running, ramping
down since a stride, the stopping broadcast leaving. -/
inductive CampPhase where
  | accepted | waiting | running | ramping (at_ : Int) | stopping
deriving DecidableEq, Repr

/-- A campaign, with its registers as they stood at its start. -/
structure Camp where
  phase : CampPhase := .accepted
  ps    : Nat := 1
  nInt  : Nat := 1024
  nRamp : Nat := 0
  dropMax : Nat := 0
  nWin  : Nat := 0
  tones : List Tone := []
  mask  : BitVec 24 := 0
  neg   : BitVec 24 := 0
  rings : List SpxRing := []
  /-- The stride in progress, counted from the start mark once that is fixed; negative before it (R306). -/
  k     : Int := -1
  /-- The strides with clipped banks (R310), counted alike, latest first, and the reference results: sample index, input, value
  (none: missing or flagged). -/
  clip  : List (Int × BitVec 24) := []
  refs  : List (Nat × Nat × Option Int) := []
deriving DecidableEq, Repr

/-- A queue 6 entry (R320). -/
structure BinEntry where
  re   : Half := 0
  im   : Half := 0
  idx  : Nat := 0
  node : Nat := 0
  ring : Nat := 0
deriving DecidableEq, Repr

/-- SPX: the spectroscopy array. -/
structure Spx where
  /-- The registers; from 0x10000 on, what `SPX_NODE_STAT` shows of each node (ring × 256 + node, four bytes each). -/
  r    : RegFile := []
  /-- A start, a stop waits for the next stride boundary. -/
  startReq : Bool := false
  stopReq  : Bool := false
  camp : Option Camp := none
  /-- Queue 6, and the bins that wait for its credit (R16). -/
  q6   : List BinEntry := []
  bins : List BinEntry := []
deriving DecidableEq, Repr

/-! ## BGT -/

/-- BGT: the units granted and on, the wakes waiting in the order of their grant, the unit whose switch moves. -/
structure Bgt where
  r       : RegFile := bgtReset
  live    : List Pend := []
  granted : BitVec 32 := 0
  on      : BitVec 32 := 0
  wake    : List Nat := []
  down    : List Nat := []
  /-- Spectroscopy quads requested (R336). -/
  quads   : BitVec 8 := 0
  /-- Units whose request was denied and not withdrawn since. -/
  denied  : BitVec 32 := 0
  isOver  : Bool := false
  /-- Units awake since the last stride boundary: available to placement at the next one (R21). -/
  avail   : BitVec 32 := 0
deriving DecidableEq, Repr

/-! ## FLT -/

/-- A queue 9 entry (R340). -/
structure FltEvent where
  src     : Nat := 0
  summary : Bool := false
  unit    : Nat := 255
  sub     : Nat := 255
  tag     : Nat := 0
deriving DecidableEq, Repr

/-- A fault source (R343, R345): configuration, window, and the reach its activation fixed (R346). -/
structure Src where
  cls    : Nat := 0
  thresh : Nat := 0
  window : Nat := 0
  react  : Nat := 0
  active : Bool := false
  isOpen : Bool := false
  start  : Nat := 0
  count  : Nat := 0
  post   : Nat := 0
  unit   : Nat := 0
  sub    : Nat := 0
  /-- `react` as the activation applied it (R351). -/
  applied : Nat := 0
  /-- The fence is in force since a stride boundary (R345). -/
  fence   : Bool := false
  safePh  : BitVec 48 := 0
  safeBk  : BitVec 24 := 0
  degBk   : BitVec 24 := 0
  degAll  : Bool := false
deriving DecidableEq, Repr

/-- An entry of the fault logs (R353). -/
structure LogEntry where
  w0 : Word := 0
  w1 : Word := 0
  w2 : Word := 0
  w3 : Word := 0
deriving DecidableEq, Repr

/-- Events a source holds while queue 9 has no credit (R16): how many, and the last one's unit, sub and stride tag. -/
structure Held where
  src   : Nat := 0
  count : Nat := 0
  unit  : Nat := 255
  sub   : Nat := 255
  tag   : Nat := 0
deriving DecidableEq, Repr

/-- FLT: the fault collector. -/
structure Flt where
  r       : RegFile := fltReset
  live    : List Pend := []
  q9      : List FltEvent := []
  held    : List Held := []
  src     : Vector Src 128 := Vector.replicate 128 {}
  log     : Vector LogEntry 64 := Vector.replicate 64 {}
  nvPend  : List LogEntry := []
  /-- Entries dropped since the last one written, to be reported by a type 4 entry (R353). -/
  nvLost  : Nat := 0
  /-- Banks that degrade held at the last lap boundary (R348). -/
  degNow  : BitVec 24 := 0
  /-- The units fenced since a stride boundary (R347): engines, contexts, lanes. -/
  fEng    : BitVec 16 := 0
  fCtx    : BitVec 256 := 0
  fLane   : BitVec 16 := 0
  /-- A header carrying `hard` was seen in this stride and in the last, by ring (R339). -/
  hardNow : BitVec 24 := 0
  hardPrev : BitVec 24 := 0
deriving DecidableEq, Repr

/-! ## HST -/

/-- A DMA ring's state beside its registers (R367 to R370). -/
structure Dma where
  /-- Entries waiting to be written to host memory: the stream they came from (4: the fault log) and the 64 bits. -/
  q       : List (Nat × BitVec 64) := []
  /-- Entries written since the cause bit was last cleared, and strides since the first of them. -/
  since   : Nat := 0
  age     : Nat := 0
deriving DecidableEq, Repr

/-- HST: the PCIe endpoint, the SPI target, interrupts, DMA rings. The MSI-X table is held in the register file at
0x8000 and the PBA at 0x9000. -/
structure Hst where
  r     : RegFile := hstReset
  dma   : Vector Dma 16 := Vector.replicate 16 {}
  /-- The max payload size the host has set is 256 bytes, not 128 (R355). -/
  mps256 : Bool := false
  /-- A write frame since the last status byte ended short or had an error (R374), on SPI and on the UART. -/
  shortSpi  : Bool := false
  shortUart : Bool := false
deriving DecidableEq, Repr

/-! ## TWO -/

/-- A controller transfer of port B, pending or running (R382, R383): its bytes are captured when it starts. -/
structure TwbXfer where
  addr : Nat := 0
  wr   : Nat := 0
  rd   : Nat := 0
  /-- Retries made after lost arbitration. -/
  tries : Nat := 0
  running : Bool := false
deriving DecidableEq, Repr

/-- TWO: the two-wire ports. -/
structure Two where
  r : RegFile := twoReset
  /-- A VSET was refused since the last STATUS read (R377). -/
  vsetRef : Bool := false
  /-- The ports' internal clocks run (R392). -/
  clkA : Bool := false
  clkB : Bool := false
  /-- Clocks for which each port's bus has been free (R392). -/
  freeA : Nat := 0
  freeB : Nat := 0
  xfer : Option TwbXfer := none
  /-- The host asked for a recovery that has not run yet (R389). -/
  recover : Bool := false
deriving DecidableEq, Repr
/-! ## SVC -/

/-- A PD message that waits for its GoodCRC (R396), as sent, and its retries. -/
structure PdTx where
  sop    : Nat := 0
  header : Half := 0
  objs   : List Word := []
  tries  : Nat := 0
deriving DecidableEq, Repr

/-- What the response timer waits for (R398): the SOP type of the message sent. -/
inductive RespWait where
  | response (sop : Nat)
  | softAccept
deriving DecidableEq, Repr

/-- Where a swap stands (R401, R402). -/
inductive SwapStage where
  /-- Old source: VBUS is discharged. -/
  | discharge
  /-- New sink: VBUS is awaited. -/
  | asSink
  /-- New source: the source path waits for VBUS below 800 mV, or for its own voltage. -/
  | asSource
  /-- VCONN was enabled, 2 ms run. -/
  | vconn
deriving DecidableEq, Repr

/-- SVC: the service port. -/
structure Svc where
  r : RegFile := svcReset
  /-- The CC logic has started (R395). -/
  started : Bool := false
  /-- `role` and `try` in force since the last entry to Unattached (R395). -/
  roleF   : Nat := 2
  tryF    : Nat := 2
  fifo    : List PdMsg := []
  /-- By SOP type: the MessageID last received, and the next to send (R396). -/
  lastId  : Vector (Option Nat) 3 := Vector.replicate 3 none
  txId    : Vector Nat 3 := Vector.replicate 3 0
  tx      : Option PdTx := none
  resp    : Option RespWait := none
  /-- A Request is on its way to a contract: 0 no, 1 sent, 2 accepted. -/
  reqd    : Nat := 0
  /-- A DR_Swap waits for its answer: it was sent (true) or received. -/
  drSwap  : Option Bool := none
  swap    : Option SwapStage := none
  /-- A source path request waits for VBUS below 800 mV (R399). -/
  srcWait : Bool := false
  /-- The wait of 750 ms after a hard reset as source (R400). -/
  hrWait  : Bool := false
  /-- `SVC_DISCH`; the enable of VCONN on the other CC pin. -/
  disch   : Bool := false
  vconnEn : Bool := false
  /-- Roles held at attach (R406). -/
  prole0  : Bool := false
  drole0  : Bool := false
deriving DecidableEq, Repr
/-! ## SEQ -/

/-- A rail of the working table with what its ticks found (R408 to R413). -/
structure SeqRail where
  cfg : RailRec := {}
  en   : Bool := false
  /-- Consecutive ticks sampled high, at most 4; good since the enable last went high. -/
  goodCnt : Nat := 0
  goodSince : Bool := false
  /-- Consecutive ticks at which the fall test was met, at most 4; fallen in this power-down. -/
  fallCnt : Nat := 0
  fallen : Bool := false
  /-- Ticks since the enable went high, and since it went low. -/
  upAge : Nat := 0
  downAge : Nat := 0
  /-- Ticks since the condition of the rail's next action became true (R411). -/
  wait : Option Nat := none
  /-- The rail was enabled when power-down started; it holds the power-down up. -/
  inDown : Bool := false
  stuck : Bool := false
deriving DecidableEq, Repr

/-- SEQ: the rail sequencer; its state is `SEQ_STAT.state`. -/
structure Seq where
  r : RegFile := seqReset
  rails : List SeqRail := []
  /-- Working table: dependency mode, and the gap in ticks. -/
  dep : Bool := false
  gap : Nat := 0
  /-- Ticks since the condition to finish became true. -/
  fin : Option Nat := none
deriving DecidableEq, Repr

/-! ## THM -/

/-- THM: the die temperature sites. -/
structure Thm where
  r : RegFile := thmReset
deriving DecidableEq, Repr

/-! ## TAG -/

/-- A command running on a tag line: reset and presence, search, READ of an ID's block. -/
inductive TagCmd where
  | reset
  | search
  | read (id : BitVec 64) (blk : Nat)
deriving DecidableEq, Repr

/-- TAG: the four tag lines: the command on each, and the lines that a short turned off (R425). -/
structure Tag where
  r : RegFile := []
  cmd : Vector (Option TagCmd) 4 := Vector.replicate 4 none
  off : BitVec 4 := 0
deriving DecidableEq, Repr

/-! ## NVM -/

/-- A host command of the store that runs or waits for the write engine (R433, R435, R436, R439). -/
inductive NvmCmd where
  | writePage (bytes : List (Nat × Byte))
  | lock
  | setPw (write : Bool) (val : BitVec 64)
  | incr (ctr : Nat)
deriving DecidableEq, Repr

/-- NVM: the store, its commands in order, the consecutive wrong passwords. `mem` outlives every reset. -/
structure Nvm where
  r : RegFile := []
  mem : Memory := []
  cmds : List NvmCmd := []
  fails : Nat := 0
deriving DecidableEq, Repr

/-! ## The device -/

/-- What the device sends: frames on a Suari port, interrupt messages, posted writes, bytes on a serial port, values a host
read returns, PD messages, tag line bytes. DESIGN CHOICE: log 10. -/
inductive Out where
  /-- A frame of 16-bit words on link port `port` (0 to 47 rings, 48 HIVEA, 49 HIVEB), and the code words it is sent as. -/
  | frame (port : Nat) (words : List Half) (codes : List (BitVec 18))
  /-- A frame whose transmission ended with `ABT` after these words (R228). -/
  | abort (port : Nat) (words : List Half) (codes : List (BitVec 18))
  /-- The MSI-X message of vector `vec`. -/
  | msi (vec : Nat) (addr : BitVec 64) (data : Word)
  /-- A posted write to host memory. -/
  | post (addr : BitVec 64) (data : BitVec 64)
  /-- The word a host read on `path` returned. -/
  | read (path : Path) (ofs : Nat) (val : Word)
  /-- Bytes answered on a serial port. -/
  | bytes (path : Path) (bs : List Byte)
  /-- A byte or command NACKed on a two-wire port. -/
  | nack (path : Path)
  /-- A two-wire transaction of port B as controller: address, bytes written, count to read. -/
  | twb (addr : Nat) (wr : List Byte) (rd : Nat)
  /-- Bytes port B answered as target. -/
  | twbTarget (bs : List Byte)
  /-- SCL pulses with which port B frees a held SDA, and whether a STOP follows them (R389). -/
  | twbPulses (n : Nat) (stop : Bool)
  /-- A PD message, or a hard reset, on the CC wire. -/
  | pd (sop : Nat) (header : Half) (objs : List Word)
  | pdHardReset
  /-- Bytes sent on a tag line. -/
  | tag (line : Nat) (bs : List Byte)
  /-- An echo, idle or training word on a link port, with the data word that follows it, and their code words. -/
  | link (port : Nat) (words : List Half) (codes : List (BitVec 18))
deriving DecidableEq, Repr

/-- The machine: every block, the queue of waiting commands, what was sent, and the counter of the free values. -/
structure State where
  sys : Sys := {}
  tbs : Tbs := {}
  img : ImgBlk := {}
  plc : Plc := {}
  cea : Cea := {}
  bus : Bus := {}
  pwm : Pwm := {}
  acq : Acq := {}
  lnk : Lnk := {}
  rng : Rng := {}
  csv : Csv := {}
  spx : Spx := {}
  bgt : Bgt := {}
  flt : Flt := {}
  hst : Hst := {}
  two : Two := {}
  svc : Svc := {}
  seq : Seq := {}
  thm : Thm := {}
  tag : Tag := {}
  nvm : Nvm := {}
  /-- The commands that wait, first in, first out. -/
  pending : List Instr := []
  /-- What the device has sent, oldest first. -/
  out  : List Out := []
  /-- The model's own counter of free values drawn (not the manual's). -/
  free : Nat := 0
deriving DecidableEq, Repr

/-- Why a step may stop with a fault: no event the manual describes stops the block, so only a command whose operands
cannot arise on the hardware faults. -/
inductive Fault where
  /-- A command with operands outside what its port can carry (`Instr.wf` is false); raised by no meaning: safe. -/
  | illFormed
deriving DecidableEq, Repr

/-- Why a step may refuse. -/
inductive Refusal where
  /-- The command has no meaning yet; raised by `exec` alone: safe. -/
  | notModelled (mnemonic : String)
deriving DecidableEq, Repr

/-- The machine right after reset: `RST_N` low, every register at the reset value of its table, nothing waiting.
DESIGN CHOICE: log 2, 6. -/
def State.reset : State := {}

end Sys2Proof.Machine
end

