-- ==== Sys2Proof/Machine/Ops.lean ====
section
/-! DEFINITION. The named operations over register files, byte memories, queues, events and interrupts. -/
namespace Sys2Proof.Machine

/-! ## Sparse words by key -/

/-- The word at `k`; 0 where none is listed. DESIGN CHOICE: log 2. -/
def kvGet {n : Nat} : List (Nat × BitVec n) → Nat → BitVec n
  | [], _ => 0
  | (a, w) :: t, k => if a = k then w else kvGet t k

/-- Put `v` at `k` in front of the first greater key. -/
def kvIns {n : Nat} : List (Nat × BitVec n) → Nat → BitVec n → List (Nat × BitVec n)
  | [], k, v => [(k, v)]
  | (a, w) :: t, k, v => if k < a then (k, v) :: (a, w) :: t else (a, w) :: kvIns t k v

/-- Write `v` at `k`; writing 0 removes the entry. -/
def kvSet {n : Nat} (l : List (Nat × BitVec n)) (k : Nat) (v : BitVec n) : List (Nat × BitVec n) :=
  let l' := l.filter fun p => p.1 != k
  if v = 0 then l' else kvIns l' k v

/-- The keys rise strictly from above `lo` and no word is 0. -/
def kvOk {n : Nat} : Option Nat → List (Nat × BitVec n) → Bool
  | _, [] => true
  | lo, (a, w) :: t => (match lo with | none => true | some b => b < a) && w != 0 && kvOk (some a) t

/-- The canonical form of a byte memory. -/
def Memory.wf (m : Memory) : Bool := kvOk none m

/-- The canonical form of a register file. -/
def RegFile.wf (r : RegFile) : Bool := kvOk none r

/-- The byte at `a`. DESIGN CHOICE: log 2. -/
def Memory.read (m : Memory) (a : Nat) : Byte := kvGet m a

/-- Write the byte at `a`. -/
def Memory.write (m : Memory) (a : Nat) (b : Byte) : Memory := kvSet m a b

/-- Write bytes from `a` on. -/
def Memory.writeBytes (m : Memory) (a : Nat) : List Byte → Memory
  | [] => m
  | b :: t => Memory.writeBytes (m.write a b) (a + 1) t

/-- Read `n` bytes from `a` on. -/
def Memory.readBytes (m : Memory) (a : Nat) : Nat → List Byte
  | 0 => []
  | n + 1 => m.read a :: Memory.readBytes m (a + 1) n

/-- The bytes of a range with `a` rising, in one pass over the sorted cells: gaps read 0. -/
def Memory.gather : Memory → Nat → Nat → List Byte
  | [], _, n => List.replicate n 0
  | (k, b) :: t, a, n =>
    if k < a then Memory.gather t a n
    else if k < a + n then List.replicate (k - a) 0 ++ b :: Memory.gather t (k + 1) (n - (k - a) - 1)
    else List.replicate n 0

/-- `dst` with its `n` bytes from `at_` on replaced by those of `src` from `from_` on. -/
def Memory.blit (dst : Memory) (at_ : Nat) (src : Memory) (from_ n : Nat) : Memory :=
  dst.filter (fun c => c.1 < at_) ++
    ((src.filter fun c => from_ ≤ c.1 && c.1 < from_ + n).map fun c => (c.1 - from_ + at_, c.2)) ++
    dst.filter fun c => at_ + n ≤ c.1

/-- The 16-bit word of two bytes, low byte first. -/
def le16 (a b : Byte) : Half := b ++ a

/-- The 32-bit word of four bytes, low byte first (R2). -/
def le32 (a b c d : Byte) : Word := d ++ c ++ b ++ a

/-- The bytes of a word, byte 0 first (R2). -/
def wordBytes (w : Word) : List Byte :=
  [w.extractLsb' 0 8, w.extractLsb' 8 8, w.extractLsb' 16 8, w.extractLsb' 24 8]

/-! ## Registers and fields -/

/-- The field `f` of the register file. -/
def getF (r : RegFile) (f : Fld) : Nat := ((kvGet r f.ofs).toNat >>> f.lo) % 2 ^ f.width

/-- The field as a two's complement number. -/
def getFI (r : RegFile) (f : Fld) : Int :=
  let x := getF r f
  if x < 2 ^ (f.width - 1) then x else (x : Int) - 2 ^ f.width

/-- A word with bits `[lo + width - 1 : lo]` replaced by `v`. -/
def putBits (w : Word) (lo width v : Nat) : Word :=
  let m : Word := BitVec.ofNat 32 ((2 ^ width - 1) * 2 ^ lo)
  (w &&& ~~~m) ||| (BitVec.ofNat 32 ((v % 2 ^ width) * 2 ^ lo))

/-- Set the field `f` to `v`. -/
def setF (r : RegFile) (f : Fld) (v : Nat) : RegFile := kvSet r f.ofs (putBits (kvGet r f.ofs) f.lo f.width v)

/-- Set the field to a signed value. -/
def setFI (r : RegFile) (f : Fld) (v : Int) : RegFile := setF r f (v % 2 ^ f.width).toNat

/-- A one-bit field. -/
def flag (r : RegFile) (f : Fld) : Bool := getF r f != 0

/-- Set a flag. -/
def setFlag (r : RegFile) (f : Fld) : RegFile := setF r f 1

/-- Count `n` in a saturating field. -/
def incF (r : RegFile) (f : Fld) (n : Nat) : RegFile := setF r f (min (getF r f + n) (2 ^ f.width - 1))

/-- Bit `i` of a register. -/
def getBit (r : RegFile) (ofs i : Nat) : Bool := (kvGet r ofs).getLsbD i

/-- Set or clear bit `i` of a register. -/
def putBit (r : RegFile) (ofs i : Nat) (b : Bool) : RegFile :=
  kvSet r ofs (putBits (kvGet r ofs) i 1 b.toNat)

/-- Bit `i` of an array of 32-bit map registers from `ofs` on. -/
def getMap (r : RegFile) (ofs i : Nat) : Bool := getBit r (ofs + 4 * (i / 32)) (i % 32)

/-- Set or clear bit `i` of an array of map registers. -/
def putMap (r : RegFile) (ofs i : Nat) (b : Bool) : RegFile := putBit r (ofs + 4 * (i / 32)) (i % 32) b

/-! ## Vectors and lists -/

/-- Entry `i`, or `d` beyond the end. -/
def vget {α : Type} {n : Nat} (v : Vector α n) (i : Nat) (d : α) : α := if h : i < n then v[i] else d

/-- Replace entry `i`; nothing beyond the end. -/
def vset {α : Type} {n : Nat} (v : Vector α n) (i : Nat) (x : α) : Vector α n := v.setIfInBounds i x

/-- Apply `f` to entry `i`. -/
def vmod {α : Type} {n : Nat} (v : Vector α n) (i : Nat) (f : α → α) : Vector α n :=
  if h : i < n then v.set i (f v[i]) else v

/-- Apply `f` with the index to every entry. -/
def vmapI {α : Type} {n : Nat} (v : Vector α n) (f : Nat → α → α) : Vector α n := v.mapIdx f

/-- Fold over 0 to n − 1. -/
def foldN {σ : Type} (n : Nat) (f : σ → Nat → σ) (s : σ) : σ := (List.range n).foldl f s

/-- Bits set below `n`, ascending. -/
def bitsOf {w : Nat} (v : BitVec w) : List Nat := (List.range w).filter fun i => v.getLsbD i

/-- The bit vector of a list of indices. -/
def ofBits (w : Nat) (l : List Nat) : BitVec w := l.foldl (fun a i => a ||| (BitVec.ofNat w 1 <<< i)) 0

/-! ## State of operation -/

/-- The operating state, coded as `SYS_STATE_CMD.req`. -/
def opState (s : State) : Nat := getF s.sys.r F.SYS_STATE_STAT_state

/-- Strides run: LOADED, ARMED, RUN, HOLD (R325). DEDUCED: log 110. -/
def strides (s : State) : Bool := 4 ≤ opState s

/-- Contexts compute: ARMED, RUN, HOLD (R104). -/
def computing (s : State) : Bool := 5 ≤ opState s

/-- The core domain is out of reset (R442). -/
def coreReady (s : State) : Bool := flag s.sys.r F.SYS_PWR_STAT_core_ready

/-- The stride count (R15 takes its low 8 bits as the stride tag). -/
def strideCnt (s : State) : Nat := getF s.tbs.r F.TBS_STRIDE_CNT_stride_cnt

/-- Strides from the stride of count `k` to the present one, by the 32-bit count. -/
def strideAge (s : State) (k : Nat) : Nat := (strideCnt s + 2 ^ 32 - k % 2 ^ 32) % 2 ^ 32

/-- The stride tag of R15. -/
def strideTag (s : State) : Nat := strideCnt s % 256

/-- The stride within the lap. -/
def strideInLap (s : State) : Nat := getF s.tbs.r F.TBS_LAP_POS_stride_in_lap

/-- Stride length S, lap length L, commit clock C (R26, R27). -/
def strideLen (s : State) : Nat := getF s.tbs.r F.TBS_STRIDE_stride_clk
def lapLen (s : State) : Nat := getF s.tbs.r F.TBS_LAP_lap_len
def commitClk (s : State) : Nat := strideLen s * getF s.tbs.r F.TBS_LAP_commit_pct / 100

/-- Append to what the device sent. DESIGN CHOICE: log 10. -/
def emit (o : Out) (s : State) : State := { s with out := s.out ++ [o] }
def emits (o : List Out) (s : State) : State := { s with out := s.out ++ o }

/-- Draw a free value: one the manual leaves open. DESIGN CHOICE: log 8. -/
def drawFree (s : State) : Word × State := (Config.freeWord s.free, { s with free := s.free + 1 })

/-! ## Where commands take effect -/

/-- What reaches the service island has an effect only while it is out of reset (R442). -/
def whenUp (f : State → State) (s : State) : Host.Outcome State Fault Refusal := .next (if s.sys.up then f s else s)

/-- What reaches the core domain has an effect only while it is out of reset (R442). -/
def whenCore (f : State → State) (s : State) : Host.Outcome State Fault Refusal := .next (if coreReady s then f s else s)

/-! ## Queue counters (R12, R13, R15) -/

/-- The place of a queue's counters: rings count apart for queues 4, 5 and 8. -/
def qKey (q ring : Nat) : Nat := 32 * q + (if q = 4 ∨ q = 5 ∨ q = 8 then ring else 0)

/-- Count `n` in the field of a queue's counters that `SYS_QUEUE_STAT` lays at `f`. -/
def qCount (f : Fld) (q ring n : Nat) (s : State) : State :=
  { s with sys := { s.sys with qcnt := incF s.sys.qcnt ⟨qKey q ring, f.lo, f.width⟩ n } }

/-- Entries replaced for want of credit. -/
def qOvr (q ring n : Nat) (s : State) : State := qCount F.SYS_QUEUE_STAT_ovr_cnt q ring n s
/-- Entries discarded as stale (R15). -/
def qStale (q ring n : Nat) (s : State) : State := qCount F.SYS_QUEUE_STAT_stale_cnt q ring n s
/-- Entries flushed (R13). -/
def qFlush (q ring n : Nat) (s : State) : State := qCount F.SYS_QUEUE_STAT_flush_cnt q ring n s

/-! ## Interrupts (R364, R365) -/

/-- The MSI-X table entry's address, data and mask bit, and the PBA, in the HST register file. -/
def msixAddr (r : RegFile) (v : Nat) : BitVec 64 := kvGet r (0x8004 + 16 * v) ++ kvGet r (0x8000 + 16 * v)
def msixData (r : RegFile) (v : Nat) : Word := kvGet r (0x8008 + 16 * v)
def msixMasked (r : RegFile) (v : Nat) : Bool := getBit r (0x800C + 16 * v) 0

/-- The device may issue posted writes: link up and Bus Master Enable set (R363). PRESUMED: log 7. -/
def canPost (h : Hst) : Bool := flag h.r F.HST_STAT_link_up && flag h.r F.HST_STAT_bme

/-- Send the message of vector `v`, or set its PBA bit while the vector is masked (R365). PRESUMED: log 7. -/
def sendMsi (v : Nat) (s : State) : State :=
  if msixMasked s.hst.r v then { s with hst := { s.hst with r := putBit s.hst.r 0x9000 v true } }
  else if canPost s.hst then emit (.msi v (msixAddr s.hst.r v) (msixData s.hst.r v)) s
  else s

/-- `TWA_ALERT_N` is driven low or released (R381). -/
def setAlert (low : Bool) (s : State) : State :=
  { s with two := { s.two with r := setF s.two.r F.TWO_A_STAT_alert low.toNat } }

/-- The alert line is released once every enabled cause bit is clear (R381). -/
def alertCheck (s : State) : State :=
  if kvGet s.hst.r R.HST_IRQ_STAT &&& kvGet s.two.r R.TWO_A_ALERT_EN = 0 then setAlert false s else s

/-- A cause of R364 occurs: its bit is set, and where it was 0 the alert line of port A is driven low where the bit is
enabled for it (R381), and its message goes out where it is enabled (R365). -/
def irq (v : Nat) (s : State) : State :=
  if getBit s.hst.r R.HST_IRQ_STAT v then s
  else
    let s := { s with hst := { s.hst with r := putBit s.hst.r R.HST_IRQ_STAT v true } }
    let s := if getBit s.two.r R.TWO_A_ALERT_EN v then setAlert true s else s
    if getBit s.hst.r R.HST_IRQ_EN v then sendMsi v s else s

/-- The cause bit of DMA ring `r` is set (R370). -/
def dmaIrq (r : Nat) (s : State) : State :=
  if getBit s.hst.r R.HST_DMA_IRQ r then s
  else
    let s := { s with hst := { s.hst with r := putBit s.hst.r R.HST_DMA_IRQ r true } }
    if getBit s.hst.r R.HST_DMA_IRQ (16 + r) then sendMsi (16 + r) s else s

/-! ## Fault events (R339, R340) -/

/-- The unit that a source's fence acts on is fenced (R347): contexts, the lane of an input, engines, lanes. -/
def unitFenced (f : Flt) (src unit : Nat) : Bool :=
  if src = 2 ∨ src = 3 ∨ src = 5 ∨ src = 6 then f.fCtx.getLsbD unit
  else if src = 7 ∨ src = 21 then f.fLane.getLsbD (unit / 8)
  else if 32 ≤ src ∧ src < 48 then f.fEng.getLsbD (src - 32)
  else if 48 ≤ src ∧ src < 64 then f.fLane.getLsbD (src - 48)
  else false

/-- Hold an event at its source while queue 9 has no credit (R16). DEDUCED: log 34. -/
def holdEvent (l : List Held) (src unit sub tag : Nat) : List Held :=
  match l with
  | [] => [{ src := src, count := 1, unit := unit, sub := sub, tag := tag }]
  | h :: t =>
    if h.src = src then { h with count := h.count + 1, unit := unit, sub := sub, tag := tag } :: t
    else h :: holdEvent t src unit sub tag

/-- An event of source `src`, with its unit and sub, goes to queue 9 (R340). -/
def postEvent (src unit sub tag : Nat) (f : Flt) : Flt :=
  if unitFenced f src unit then f
  else if f.q9.length < 64 ∧ ¬ f.held.any (·.src = src) then
    { f with q9 := f.q9 ++ [{ src := src, unit := unit, sub := sub, tag := tag }] }
  else { f with held := holdEvent f.held src unit sub tag }

/-- Raise source `src` (R339). -/
def raise (src unit sub : Nat) (s : State) : State := { s with flt := postEvent src unit sub (strideTag s) s.flt }

/-- The parity source of the block at window `b` (R17, R339). DESIGN CHOICE: log 102. -/
def raiseParity (b : Nat) (s : State) : State := raise (88 + b) 255 255 s

/-! ## Blocks by number (R358) -/

/-- The register file of block `b`. -/
def blkRegs (b : Nat) (s : State) : RegFile :=
  match b with
  | 0 => s.sys.r
  | 1 => s.tbs.r
  | 2 => s.img.r
  | 3 => s.plc.r
  | 4 => s.cea.r
  | 5 => s.bus.r
  | 6 => s.pwm.r
  | 7 => s.acq.r
  | 8 => s.lnk.r
  | 9 => s.rng.r
  | 10 => s.csv.r
  | 11 => s.spx.r
  | 12 => s.bgt.r
  | 13 => s.flt.r
  | 14 => s.hst.r
  | 15 => s.two.r
  | 16 => s.svc.r
  | 17 => s.seq.r
  | 18 => s.thm.r
  | 19 => s.tag.r
  | _ => s.nvm.r

/-- Replace the register file of block `b`. -/
def setRegs (b : Nat) (r : RegFile) (s : State) : State :=
  match b with
  | 0 => { s with sys := { s.sys with r := r } }
  | 1 => { s with tbs := { s.tbs with r := r } }
  | 2 => { s with img := { s.img with r := r } }
  | 3 => { s with plc := { s.plc with r := r } }
  | 4 => { s with cea := { s.cea with r := r } }
  | 5 => { s with bus := { s.bus with r := r } }
  | 6 => { s with pwm := { s.pwm with r := r } }
  | 7 => { s with acq := { s.acq with r := r } }
  | 8 => { s with lnk := { s.lnk with r := r } }
  | 9 => { s with rng := { s.rng with r := r } }
  | 10 => { s with csv := { s.csv with r := r } }
  | 11 => { s with spx := { s.spx with r := r } }
  | 12 => { s with bgt := { s.bgt with r := r } }
  | 13 => { s with flt := { s.flt with r := r } }
  | 14 => { s with hst := { s.hst with r := r } }
  | 15 => { s with two := { s.two with r := r } }
  | 16 => { s with svc := { s.svc with r := r } }
  | 17 => { s with seq := { s.seq with r := r } }
  | 18 => { s with thm := { s.thm with r := r } }
  | 19 => { s with tag := { s.tag with r := r } }
  | _ => { s with nvm := { s.nvm with r := r } }

/-- The `write_ignored` flag of block `b` (R91). -/
def wignFld : Nat → Option Fld
  | 1 => some F.TBS_STAT_write_ignored
  | 4 => some F.CEA_STAT_write_ignored
  | 5 => some F.BUS_STAT_write_ignored
  | 6 => some F.PWM_STAT_write_ignored
  | 7 => some F.ACQ_STAT_write_ignored
  | 8 => some F.LNK_STAT_write_ignored
  | 9 => some F.RNG_STAT_write_ignored
  | 10 => some F.CSV_STAT_write_ignored
  | 12 => some F.BGT_STAT_write_ignored
  | 13 => some F.FLT_STAT_write_ignored
  | 17 => some F.SEQ_STAT_write_ignored
  | _ => none

/-- The `cfg_err` flag of block `b`; IMG reports in `cmd_err`. -/
def cfgFld : Nat → Option Fld
  | 1 => some F.TBS_STAT_cfg_err
  | 2 => some F.IMG_STAT_cmd_err
  | 3 => some F.PLC_SHARE_STAT_cfg_err
  | 5 => some F.BUS_STAT_cfg_err
  | 6 => some F.PWM_STAT_cfg_err
  | 7 => some F.ACQ_STAT_cfg_err
  | 8 => some F.LNK_STAT_cfg_err
  | 9 => some F.RNG_STAT_cfg_err
  | 10 => some F.CSV_STAT_cfg_err
  | 11 => some F.SPX_STAT_cfg_err
  | 12 => some F.BGT_STAT_cfg_err
  | 13 => some F.FLT_STAT_cfg_err
  | 14 => some F.HST_STAT_cfg_err
  | 15 => some F.TWO_A_STAT_cfg_err
  | 16 => some F.SVC_STAT_cfg_err
  | 17 => some F.SEQ_STAT_cfg_err
  | 18 => some F.THM_CFG_cfg_err
  | _ => none

/-- A write was ignored as out of range: the block's `cfg_err` is set. -/
def cfgErr (b : Nat) (s : State) : State :=
  match cfgFld b with
  | some f => setRegs b (setFlag (blkRegs b s) f) s
  | none => s

/-- The `write_ignored` flag of block `b` is set. -/
def wignSet (b : Nat) (s : State) : Bool :=
  match wignFld b with
  | some f => flag (blkRegs b s) f
  | none => false

/-- All the `write_ignored` flags (R91): bit n for block n. -/
def wignAll (s : State) : BitVec 32 := ofBits 32 ((List.range 21).filter fun b => wignSet b s)

/-- A write at block offset `ofs` of block `b` was ignored for the state (R91): the flag is set, and the first such write
since every flag was clear is held. DEDUCED: log 58, 100. -/
def wrIgnored (b ofs : Nat) (s : State) : State :=
  match wignFld b with
  | none => s
  | some f =>
    let s := if wignAll s = 0 then
        { s with sys := { s.sys with r := setF (setFlag s.sys.r F.SYS_WRITE_IGN_ADDR_valid) F.SYS_WRITE_IGN_ADDR_ofs (b * 65536 + ofs) } }
      else s
    setRegs b (setFlag (blkRegs b s) f) s

end Sys2Proof.Machine
end

