-- ==== Sys2Proof/Machine/Auth.lean ====
section
/-! DEFINITION. Authentication of an image (R54): SHA-256 and ECDSA over P-256. PRESUMED: the manual names both and leaves
them to their standards (FIPS 180-4, FIPS 186-4); log entry 14. -/
namespace Sys2Proof.Machine

/-- The first `n` primes. -/
def firstPrimes (n : Nat) : List Nat :=
  ((List.range 312).filter fun q => 2 ≤ q && (List.range q).all fun d => d < 2 || q % d != 0).take n

/-- The first 32 bits behind the point of the k-th root of `q`, for roots below 128. -/
def rootFraction (k q : Nat) : Word :=
  let n := q * 2 ^ (32 * k)
  BitVec.ofNat 32 ((List.range 39).foldl (fun r i => if (r + 2 ^ (38 - i)) ^ k ≤ n then r + 2 ^ (38 - i) else r) 0)

/-- The round constants of SHA-256: the cube roots of the first 64 primes. -/
def shaK : List Word := (firstPrimes 64).map (rootFraction 3)

/-- The initial hash of SHA-256: the square roots of the first 8 primes. -/
def shaH0 : List Word := (firstPrimes 8).map (rootFraction 2)

/-- The message schedule, newest word first: from the sixteen words of a block to sixty-four. -/
def shaExtend : Nat → List Word → List Word
  | 0, w => w
  | n + 1, w =>
    let x := w.getD 1 0
    let y := w.getD 14 0
    let s1 := x.rotateRight 17 ^^^ x.rotateRight 19 ^^^ (x >>> 10)
    let s0 := y.rotateRight 7 ^^^ y.rotateRight 18 ^^^ (y >>> 3)
    shaExtend n ((s1 + w.getD 6 0 + s0 + w.getD 15 0) :: w)

/-- The working variables a to h after one round. -/
def shaRound (v : List Word) (kw : Word × Word) : List Word :=
  match v with
  | [a, b, c, d, e, f, g, h] =>
    let S1 := e.rotateRight 6 ^^^ e.rotateRight 11 ^^^ e.rotateRight 25
    let ch := (e &&& f) ^^^ (~~~e &&& g)
    let t1 := h + S1 + ch + kw.1 + kw.2
    let S0 := a.rotateRight 2 ^^^ a.rotateRight 13 ^^^ a.rotateRight 22
    let mj := (a &&& b) ^^^ (a &&& c) ^^^ (b &&& c)
    [t1 + S0 + mj, a, b, c, d + t1, e, f, g]
  | _ => v

/-- The compression function on one block of sixteen words. -/
def shaBlock (h : List Word) (w : List Word) : List Word :=
  let sched := (shaExtend 48 w.reverse).reverse
  let v := (shaK.zip sched).foldl shaRound h
  h.zipWith (· + ·) v

/-- Bytes as big-endian words. -/
def beWords : List Byte → List Word
  | a :: b :: c :: d :: t => (a ++ b ++ c ++ d) :: beWords t
  | _ => []

/-- The words in blocks of sixteen, at most `n` of them. -/
def shaBlocks : Nat → List Word → List Word → List Word
  | 0, h, _ => h
  | n + 1, h, ws => if ws.length < 16 then h else shaBlocks n (shaBlock h (ws.take 16)) (ws.drop 16)

/-- SHA-256 of a message, as a number. PRESUMED: log 14. -/
def sha256 (m : List Byte) : Nat :=
  let len := m.length
  let pad := (119 - len % 64) % 64
  let bits := BitVec.ofNat 64 (8 * len)
  let tail := (List.range 8).map fun i => bits.extractLsb' (56 - 8 * i) 8
  let ws := beWords (m ++ [0x80] ++ List.replicate pad 0 ++ tail)
  (shaBlocks (ws.length / 16) shaH0 ws).foldl (fun a w => a * 2 ^ 32 + w.toNat) 0

/-- The prime, the order, the coefficient b and the generator of P-256. -/
def p256P : Nat := 0xffffffff00000001000000000000000000000000ffffffffffffffffffffffff
def p256N : Nat := 0xffffffff00000000ffffffffffffffffbce6faada7179e84f3b9cac2fc632551
def p256B : Nat := 0x5ac635d8aa3a93e7b3ebbd55769886bc651d06b0cc53b0f63bce3c3e27d2604b
def p256G : Nat × Nat :=
  (0x6b17d1f2e12c4247f8bce6e563a440f277037d812deb33a0f4a13945d898c296,
   0x4fe342e2fe1a7f9b8ee7eb4a7c0f9e162bce33576b315ececbb6406837bf51f5)

/-- x^e mod m over the 256 bits of e. -/
def powMod (x e m : Nat) : Nat :=
  (List.range 256).foldl (fun a i =>
    let a := a * a % m
    if e.testBit (255 - i) then a * x % m else a) 1

/-- The inverse modulo a prime. -/
def invMod (x m : Nat) : Nat := powMod (x % m) (m - 2) m

/-- A point in Jacobian coordinates; z = 0: the point at infinity. -/
structure JPoint where
  x : Nat
  y : Nat
  z : Nat
deriving DecidableEq, Repr

/-- Subtraction modulo p. -/
def subP (a b : Nat) : Nat := (a + p256P - b % p256P) % p256P

/-- Double a point of P-256. -/
def jDouble (q : JPoint) : JPoint :=
  let p := p256P
  if q.z = 0 ∨ q.y = 0 then ⟨1, 1, 0⟩
  else
    let zz := q.z * q.z % p
    let m := 3 * (subP q.x zz * (q.x + zz)) % p
    let yy := q.y * q.y % p
    let s := 4 * q.x * yy % p
    let x := subP (m * m % p) (2 * s)
    ⟨x, subP (m * subP s x % p) (8 * yy * yy), 2 * q.y * q.z % p⟩

/-- Add two points of P-256. -/
def jAdd (a b : JPoint) : JPoint :=
  let p := p256P
  if a.z = 0 then b else if b.z = 0 then a
  else
    let za := a.z * a.z % p
    let zb := b.z * b.z % p
    let u1 := a.x * zb % p
    let u2 := b.x * za % p
    let s1 := a.y * zb % p * b.z % p
    let s2 := b.y * za % p * a.z % p
    if u1 = u2 then (if s1 = s2 then jDouble a else ⟨1, 1, 0⟩)
    else
      let h := subP u2 u1
      let r := subP s2 s1
      let hh := h * h % p
      let hhh := h * hh % p
      let v := u1 * hh % p
      let x := subP (subP (r * r % p) hhh) (2 * v)
      ⟨x, subP (r * subP v x % p) (s1 * hhh), a.z * b.z % p * h % p⟩

/-- k times a point. -/
def jMul (k : Nat) (q : JPoint) : JPoint :=
  (List.range 256).foldl (fun a i =>
    let a := jDouble a
    if k.testBit (255 - i) then jAdd a q else a) ⟨1, 1, 0⟩

/-- The public key lies on the curve and is not the point at infinity. -/
def p256OnCurve (k : Nat × Nat) : Bool :=
  k.1 < p256P && k.2 < p256P &&
    k.2 * k.2 % p256P == (k.1 * k.1 % p256P * k.1 + (p256P - 3) * k.1 + p256B) % p256P

/-- ECDSA verification of the digest `e` with signature (r, s) under the public key. PRESUMED: log 14. -/
def ecdsaVerify (key : Nat × Nat) (e r s : Nat) : Bool :=
  if r = 0 ∨ p256N ≤ r ∨ s = 0 ∨ p256N ≤ s ∨ ¬ p256OnCurve key then false
  else
    let w := invMod s p256N
    let q := jAdd (jMul (e * w % p256N) ⟨p256G.1, p256G.2, 1⟩) (jMul (r * w % p256N) ⟨key.1, key.2, 1⟩)
    if q.z = 0 then false
    else
      let zi := invMod q.z p256P
      q.x * (zi * zi % p256P) % p256P % p256N == r

/-- Bytes as a big-endian number. -/
def beNat (bs : List Byte) : Nat := bs.foldl (fun a b => a * 256 + b.toNat) 0

end Sys2Proof.Machine
end

