-- ==== Sys2Proof/Machine/Crc.lean ====
section
/-! DEFINITION. The check codes of R17: CRC-32 (R53), CRC-16 (R228, R243, R264), CRC-8 (R373, R422). -/
namespace Sys2Proof.Machine

/-- One bit of the reflected CRC-32 of R53. -/
def crc32Bit (c : BitVec 32) : BitVec 32 := if c.getLsbD 0 then (c >>> 1) ^^^ 0xEDB88320 else c >>> 1

/-- One byte of CRC-32. -/
def crc32Byte (c : BitVec 32) (b : Byte) : BitVec 32 :=
  (List.range 8).foldl (fun a _ => crc32Bit a) (c ^^^ b.setWidth 32)

/-- CRC-32 of a byte sequence (R53). -/
def crc32 (bs : List Byte) : BitVec 32 := bs.foldl crc32Byte 0xFFFFFFFF ^^^ 0xFFFFFFFF

/-- One bit of the CRC-16 with polynomial 0x1021, most significant bit first. -/
def crc16Bit (c : BitVec 16) (b : Bool) : BitVec 16 :=
  let c' := c <<< 1
  if c.getLsbD 15 != b then c' ^^^ 0x1021 else c'

/-- CRC-16 of the bits of 16-bit words, most significant bit first, from the initial value `init`. -/
def crc16 (init : BitVec 16) (ws : List Half) : BitVec 16 :=
  ws.foldl (fun c w => (List.range 16).foldl (fun a i => crc16Bit a (w.getLsbD (15 - i))) c) init

/-- One byte of the CRC-8 with polynomial 0x07, most significant bit first (R373). -/
def crc8Byte (c b : BitVec 8) : BitVec 8 :=
  (List.range 8).foldl (fun a _ => if a.getLsbD 7 then (a <<< 1) ^^^ 0x07 else a <<< 1) (c ^^^ b)

/-- CRC-8 of a byte sequence, initial value 0 (R373). -/
def crc8 (bs : List Byte) : BitVec 8 := bs.foldl crc8Byte 0

end Sys2Proof.Machine
end

