-- ==== Sys2Proof/Machine/Fixed.lean ====
section
/-! DEFINITION. The number formats of R105 and their rounding and saturation (R106), and exact rational helpers. -/
namespace Sys2Proof.Machine

/-- Bring `x` into the range of a w-bit two's complement number. -/
def satInt (w : Nat) (x : Int) : Int := max (-(2 ^ (w - 1))) (min (2 ^ (w - 1) - 1) x)

/-- Add half of 2^k and shift right arithmetically by k: to nearest, ties towards +∞ (R106). -/
def roundShr (x : Int) (k : Nat) : Int := (x + 2 ^ (k - 1)) / 2 ^ k

/-- Saturate at the ends of `s12.52` (R106). -/
def sat64 (x : Int) : Int := satInt 64 x

/-- An `s12.52` value as a signal: rounded and saturated (R106). -/
def toSignal (x : Int) : Int := satInt 32 (roundShr x 28)

/-- The rounding to `s8.24` lost the value: it lay outside the signal range (R106). -/
def signalSat (x : Int) : Bool := roundShr x 28 != toSignal x

/-- A word from an integer, modulo 2^32. -/
def wordOf (x : Int) : Word := BitVec.ofInt 32 x

/-- The product of a coefficient and an `s12.52` value, brought to `s12.52` (R108). -/
def mulState (a : Int) (y : Int) : Int := roundShr (a * y) 28

/-- Round a rational to the nearest integer, ties towards +∞. DEDUCED: log 40. -/
def rround (q : Rat) : Int := (q + 1 / 2).floor

/-- A rational in units of 2^−24, rounded and saturated to a signal (R106). -/
def ratSignal (q : Rat) : Word := wordOf (satInt 32 (rround (q * 16777216)))

/-- A signal as a rational. -/
def signalRat (w : Word) : Rat := (w.toInt : Rat) / 16777216

/-- A number clamped between two others. -/
def clampI (lo hi x : Int) : Int := max lo (min hi x)

/-! Sine and cosine as integers: angles in turns of 2^64, values in units of 2^−60. The series is summed far past the
precision that any rounding of the manual keeps (R209, R309, R315). -/

/-- π in units of 2^−62. -/
def piFix : Int := 14488038916154245684

/-- Sine and cosine, in units of 2^−60, of `x` in units of 2^−60 (radians), |x| ≤ π/4, by their series. -/
def sinCosSmall (x : Int) : Int × Int :=
  let x2 := x * x / 2 ^ 60
  let go := (List.range 14).foldl (fun (a : Int × Int × Int × Int) (k : Nat) =>
      -- (sine sum, cosine sum, sine term, cosine term)
      let st := -(a.2.2.1 * x2 / 2 ^ 60) / (((2 * k + 2) * (2 * k + 3) : Nat) : Int)
      let ct := -(a.2.2.2 * x2 / 2 ^ 60) / (((2 * k + 1) * (2 * k + 2) : Nat) : Int)
      (a.1 + st, a.2.1 + ct, st, ct)) (x, 2 ^ 60, x, 2 ^ 60)
  (go.1, go.2.1)

/-- Cosine and sine, in units of 2^−60, of an angle in units of 2^−64 of a turn. -/
def cosSinTurn (a0 : Nat) : Int × Int :=
  let a : Nat := a0 % 2 ^ 64
  let q : Nat := (a + 2 ^ 61) / 2 ^ 62                 -- nearest quarter turn
  let d : Int := Int.ofNat a - Int.ofNat (q * 2 ^ 62)  -- within an eighth of a turn
  let x : Int := d * piFix / (2 ^ 65 : Int)            -- radians in 2^−60: d/2^64 × 2π × 2^60
  let (sn, cs) := sinCosSmall x
  match q % 4 with
  | 0 => (cs, sn)
  | 1 => (-sn, cs)
  | 2 => (-cs, -sn)
  | _ => (sn, -cs)

end Sys2Proof.Machine
end

