-- ==== Sys2Proof/Machine/Image.lean ====
section
/-! DEFINITION. The structure image: its layout and the checks of steps 1 to 6 of R55 (R47 to R79, R118, R460), each
failure with the code, step, section type and offset of R88. -/
namespace Sys2Proof.Machine

/-- The bytes of an image. -/
abbrev Bytes := Array Byte

/-- A rejection (R88). -/
structure ImgErr where
  code : Nat
  step : Nat
  sec  : Nat
  ofs  : Nat
deriving DecidableEq, Repr

/-- Fields of the image, little-endian (R47). -/
def u8 (a : Bytes) (i : Nat) : Nat := (a.getD i 0).toNat
def u16 (a : Bytes) (i : Nat) : Nat := u8 a i + 256 * u8 a (i + 1)
def u32 (a : Bytes) (i : Nat) : Nat := u16 a i + 65536 * u16 a (i + 2)
def s16 (a : Bytes) (i : Nat) : Int := (BitVec.ofNat 16 (u16 a i)).toInt
def w32 (a : Bytes) (i : Nat) : Word := BitVec.ofNat 32 (u32 a i)

/-- Pass, or reject with `e`. DEDUCED: log 17. -/
def need (b : Bool) (e : ImgErr) : Except ImgErr Unit := if b then .ok () else .error e

/-- Bytes `lo` to `hi` − 1 are 0 (R49). DEDUCED: log 17. -/
def zeros (a : Bytes) (step sec lo hi : Nat) : Except ImgErr Unit :=
  match (List.range (hi - lo)).find? fun i => u8 a (lo + i) != 0 with
  | some i => .error ⟨0x06, step, sec, lo + i⟩
  | none => .ok ()

/-- Run a check on each element in turn. -/
def each {α : Type} (l : List α) (f : α → Except ImgErr Unit) : Except ImgErr Unit :=
  match l with
  | [] => .ok ()
  | x :: t => match f x with
    | .ok _ => each t f
    | .error e => .error e

/-- Collect the results of a parser over a list. -/
def collect {α β : Type} (l : List α) (f : α → Except ImgErr β) : Except ImgErr (List β) :=
  match l with
  | [] => .ok []
  | x :: t => match f x with
    | .error e => .error e
    | .ok y => match collect t f with
      | .error e => .error e
      | .ok ys => .ok (y :: ys)

/-- A directory entry (R52). -/
structure DirEnt where
  type : Nat := 0
  ofs  : Nat := 0
  len  : Nat := 0
  crc  : Nat := 0
  at_  : Nat := 0
deriving DecidableEq, Repr

/-- Step 1: the header (R50, R51), in the order R55 lists its fields. DEDUCED: log 15. -/
def checkHeader (a : Bytes) (hwm : Nat) (sysId : Word) : Except ImgErr Unit := do
  need (u32 a 0 == 0x53544D49) ⟨0x01, 1, 0, 0⟩
  need (u16 a 4 == 2) ⟨0x02, 1, 0, 4⟩
  need (u32 a 0x3C == (crc32 ((a.toList.take 60))).toNat) ⟨0x03, 1, 0, 0x3C⟩
  let len := u32 a 8
  need (256 ≤ len && len ≤ 114688 && len % 8 == 0 && len ≤ hwm) ⟨0x04, 1, 0, 8⟩
  need (u16 a 0xE == sysId.toNat / 65536 && u16 a 0xC ≤ sysId.toNat % 65536) ⟨0x05, 1, 0, 0xC⟩
  need (u16 a 6 < 2) ⟨0x06, 1, 0, if u8 a 6 < 2 then 7 else 6⟩
  zeros a 1 0 0x1C 0x3C

/-- The end of the sections: the authentication block, or the end of the image. -/
def imgEnd (a : Bytes) : Nat := if u16 a 6 % 2 = 1 then u32 a 8 - 96 else u32 a 8

/-- Read the directory. -/
def dirEnts (a : Bytes) : List DirEnt := (List.range (u16 a 0x18)).map fun i =>
  let p := 64 + 16 * i
  { type := u16 a p, ofs := u32 a (p + 4), len := u32 a (p + 8), crc := u32 a (p + 12), at_ := p }

/-- The order and overlap rules of R52 along the directory, from the end of what precedes. -/
def checkOrder (fin : Nat) : Nat → List DirEnt → Except ImgErr Unit
  | _, [] => .ok ()
  | prev, d :: t => do
    need (d.ofs % 8 == 0 && prev ≤ d.ofs) ⟨0x07, 2, 0, d.at_ + 4⟩
    need (d.len % 8 == 0 && 8 ≤ d.len && d.ofs + d.len ≤ fin) ⟨0x07, 2, 0, d.at_ + 8⟩
    checkOrder fin (d.ofs + d.len) t

/-- The padding before, between and after the sections (R49). -/
def checkGaps (a : Bytes) (fin : Nat) : Nat → List DirEnt → Except ImgErr Unit
  | prev, [] => zeros a 2 0 prev fin
  | prev, d :: t => do
    zeros a 2 0 prev d.ofs
    checkGaps a fin (d.ofs + d.len) t

/-- The byte at `p` is that of an earlier place among `ps`: a name given twice. -/
def twice (a : Bytes) (ps : List Nat) (p : Nat) : Bool := ps.any fun q => decide (q < p) && u8 a q == u8 a p

/-- Step 2: the directory. -/
def checkDir (a : Bytes) : Except ImgErr (List DirEnt) := do
  need (1 ≤ u16 a 0x18 && u16 a 0x18 ≤ 32) ⟨0x07, 2, 0, 0x18⟩
  need (u16 a 0x1A == 64) ⟨0x07, 2, 0, 0x1A⟩
  let ds := dirEnts a
  each ds fun d => do
    need ((1 ≤ d.type && d.type ≤ 0xD) || 0x8000 ≤ d.type) ⟨0x0D, 2, 0, d.at_⟩
    need (0x8000 ≤ d.type || !ds.any fun e => decide (e.at_ < d.at_) && e.type == d.type) ⟨0x0D, 2, 0, d.at_⟩
    zeros a 2 0 (d.at_ + 2) (d.at_ + 4)
  let dirEnd := 64 + 16 * ds.length
  checkOrder (imgEnd a) dirEnd ds
  checkGaps a (imgEnd a) dirEnd ds
  return ds

/-- Step 3: the section CRCs, in directory order; the field that fails is the entry's `crc` (R88). DEDUCED: log 16. -/
def checkCrcs (a : Bytes) (ds : List DirEnt) : Except ImgErr Unit :=
  each ds fun d => need ((crc32 ((a.extract d.ofs (d.ofs + d.len)).toList)).toNat == d.crc) ⟨0x08, 3, d.type, d.at_ + 12⟩

/-- Step 4: authentication (R54, R87), with the public key of each slot that holds one. PRESUMED: log 14. -/
def checkAuth (a : Bytes) (required : Bool) (key : Nat → Option (Nat × Nat)) : Except ImgErr Unit :=
  if u16 a 6 % 2 = 0 then need (!required) ⟨0x09, 4, 0, 6⟩
  else do
    let p := u32 a 8 - 96
    zeros a 4 0 (p + 1) (p + 0x20)
    match (if u8 a p ≤ 3 then key (u8 a p) else none) with
    | none => .error ⟨0x0A, 4, 0, p⟩
    | some k =>
      let part := fun i n => beNat ((a.extract i (i + n)).toList)
      need (ecdsaVerify k (sha256 ((a.extract 0 p).toList)) (part (p + 0x20) 32) (part (p + 0x40) 32))
        ⟨0x0B, 4, 0, p + 0x20⟩

/-- A field of section `sec` lies in its range. -/
def inRange (sec ofs lo hi v : Nat) : Except ImgErr Unit := need (lo ≤ v && v ≤ hi) ⟨0x0C, 5, sec, ofs⟩

/-- The content of a section ends at `p`: it fits (`at_` is the item that does not), and the padding is 0 (R460). -/
def fits (sec fin p at_ : Nat) : Except ImgErr Unit := need (p ≤ fin) ⟨0x0C, 5, sec, at_⟩

/-- TIMEBASE (R58). -/
def parseTimebase (a : Bytes) (o n : Nat) (im : Img) : Except ImgErr Img := do
  fits 1 (o + n) (o + 16) o
  zeros a 5 1 (o + 16) (o + n)
  inRange 1 o 800 8000 (u16 a o)
  inRange 1 (o + 2) 50 1000 (u16 a (o + 2))
  inRange 1 (o + 4) 50 95 (u8 a (o + 4))
  inRange 1 (o + 5) 110 200 (u8 a (o + 5))
  inRange 1 (o + 6) 1 255 (u8 a (o + 6))
  inRange 1 (o + 7) 0 2 (u8 a (o + 7))
  need (-(u16 a o : Int) ≤ 2 * s16 a (o + 8) && 2 * s16 a (o + 8) ≤ (u16 a o : Int)) ⟨0x0C, 5, 1, o + 8⟩
  inRange 1 (o + 10) 0 1 (u8 a (o + 10))
  zeros a 5 1 (o + 11) (o + 16)
  return { im with strideClk := u16 a o, lapLen := u16 a (o + 2), commitPct := u8 a (o + 4), wdPct := u8 a (o + 5),
                   holdover := u8 a (o + 6), src := u8 a (o + 7), paceOfs := s16 a (o + 8), paceOut := u8 a (o + 10) }

/-- The record offsets of LOOPGRAPH, walking the records until one does not fit (R460). -/
def walkCtx (a : Bytes) (fin : Nat) : Nat → Nat → Except ImgErr (List Nat × Nat)
  | 0, p => .ok ([], p)
  | n + 1, p => do
    fits 2 fin (p + 24) p
    let q := p + 24 + 8 * (u8 a (p + 2) + u8 a (p + 3))
    fits 2 fin q p
    let r ← walkCtx a fin n q
    return (p :: r.1, r.2)

/-- A binding at `p` (R61). -/
def parseBinding (a : Bytes) (out : Bool) (p : Nat) : Except ImgErr Binding := do
  let k := u8 a p
  let i := u16 a (p + 2)
  need (if out then 0x11 ≤ k && k ≤ 0x14 else 1 ≤ k && k ≤ 6) ⟨0x0C, 5, 2, p⟩
  need (u8 a (p + 1) < 2) ⟨0x06, 5, 2, p + 1⟩
  need (u8 a (p + 1) == 0 || k == 2) ⟨0x0C, 5, 2, p + 1⟩
  let top := if k = 1 then 127 else if k = 2 then 65535 else if k = 3 then 23 else if k = 0x11 then 47
    else if k = 0x14 then 7 else 0
  inRange 2 (p + 2) 0 top i
  if out then need (u32 a (p + 4) == 0) ⟨0x0C, 5, 2, p + 4⟩
  return { kind := k, prev := u8 a (p + 1) == 1, idx := i, value := w32 a (p + 4) }

/-- A context record at `p` (R60). -/
def parseCtx (a : Bytes) (p : Nat) : Except ImgErr CtxRec := do
  inRange 2 p 0 2 (u8 a p)
  inRange 2 (p + 1) 1 16 (u8 a (p + 1))
  inRange 2 (p + 2) 1 8 (u8 a (p + 2))
  inRange 2 (p + 3) 1 4 (u8 a (p + 3))
  inRange 2 (p + 4) (2 * u8 a (p + 1)) 8000 (u16 a (p + 4))
  need (u16 a (p + 6) < 4) ⟨0x06, 5, 2, if u8 a (p + 6) < 4 then p + 7 else p + 6⟩
  need (u16 a (p + 6) != 2) ⟨0x0C, 5, 2, p + 6⟩
  need ((w32 a (p + 12)).slt (w32 a (p + 8))) ⟨0x0C, 5, 2, p + 12⟩
  need (u32 a (p + 16) % 4 == 0) ⟨0x0C, 5, 2, p + 16⟩
  zeros a 5 2 (p + 20) (p + 24)
  let nIn := u8 a (p + 2)
  let ins ← collect ((List.range nIn).map fun i => p + 24 + 8 * i) (parseBinding a false)
  let outs ← collect ((List.range (u8 a (p + 3))).map fun i => p + 24 + 8 * (nIn + i)) (parseBinding a true)
  return { cls := u8 a p, nSec := u8 a (p + 1), wc := u16 a (p + 4), hasB := u16 a (p + 6) % 2 == 1,
           startB := 2 ≤ u16 a (p + 6), clampHi := w32 a (p + 8), clampLo := w32 a (p + 12),
           coeffOff := u32 a (p + 16), ins := ins, outs := outs, ofs := p }

/-- The image offset of binding `i` of a context, inputs then outputs (R60). -/
def bindOfs (c : CtxRec) (i : Nat) : Nat := c.ofs + 24 + 8 * i

/-- The producers of a context's same-stride bindings (R62). -/
def producers (c : CtxRec) : List Nat := (c.ins.filter fun b => b.kind == 2 && !b.prev).map fun b => b.idx / 4

/-- One round of taking contexts all of whose producers are taken (those that do not exist count as taken). -/
def takeRound (cs : List CtxRec) (taken : List Nat) : List Nat :=
  (List.range cs.length).foldl (fun t i =>
    if t.contains i then t
    else if (producers (cs.getD i {})).all fun p => t.contains p || cs.length ≤ p then i :: t else t) taken

/-- The contexts that lie on, or only behind, a cycle of same-stride bindings: those no round takes (R62). -/
def untaken (cs : List CtxRec) : List Nat :=
  let taken := (List.range cs.length).foldl (fun t _ => takeRound cs t) []
  (List.range cs.length).filter fun i => !taken.contains i

/-- Context `i` reaches itself through same-stride bindings, within `n` steps from the set `from_`. -/
def reaches (cs : List CtxRec) (i : Nat) : Nat → List Nat → Bool
  | 0, _ => false
  | n + 1, from_ =>
    let next := (from_.flatMap fun c => producers (cs.getD c {})).eraseDups
    next.contains i || reaches cs i n (from_ ++ next).eraseDups

/-- The first binding, in ascending offset, that lies on a cycle (R62). DEDUCED: log 16. -/
def cycleOfs (cs : List CtxRec) : Option Nat :=
  let bad := untaken cs
  if bad.isEmpty then none
  else
    match bad.find? fun i => reaches cs i bad.length [i] with
    | none => none
    | some i =>
      let c := cs.getD i {}
      ((List.range c.ins.length).find? fun k =>
        let b := c.ins.getD k {}
        b.kind == 2 && !b.prev && (b.idx / 4 == i || reaches cs i bad.length [b.idx / 4])).map (bindOfs c)

/-- Auxiliary outputs named by more than one kind 0x14 binding: the second binding's `index` (R63). DEDUCED: log 15. -/
def auxTwice : List (Nat × Binding) → List Nat → Option Nat
  | [], _ => none
  | (o, b) :: t, seen =>
    if b.kind == 0x14 then (if seen.contains b.idx then some (o + 2) else auxTwice t (b.idx :: seen))
    else auxTwice t seen

/-- All bindings with their image offsets, ascending: inputs, outputs. -/
def inBinds (cs : List CtxRec) : List (Nat × Binding) :=
  cs.flatMap fun c => (List.range c.ins.length).map fun i => (bindOfs c i, c.ins.getD i {})
def outBinds (cs : List CtxRec) : List (Nat × Binding) :=
  cs.flatMap fun c => (List.range c.outs.length).map fun i => (bindOfs c (c.ins.length + i), c.outs.getD i {})

/-- LOOPGRAPH (R59 to R63). -/
def parseLoop (a : Bytes) (o n : Nat) (im : Img) : Except ImgErr Img := do
  fits 2 (o + n) (o + 8) o
  let w ← walkCtx a (o + n) (u16 a o) (o + 8)
  zeros a 5 2 w.2 (o + n)
  need (u16 a o ≤ 256) ⟨0x11, 5, 2, o⟩
  inRange 2 o 1 256 (u16 a o)
  inRange 2 (o + 2) 0 8 (u8 a (o + 2))
  zeros a 5 2 (o + 3) (o + 8)
  let cs ← collect w.1 (parseCtx a)
  match auxTwice (outBinds cs) [] with
  | some p => .error ⟨0x0C, 5, 2, p⟩
  | none => match cycleOfs cs with
    | some p => .error ⟨0x10, 5, 2, p⟩
    | none => .ok { im with ctxs := cs, spareEng := u8 a (o + 2), loopOfs := o }

/-- COEFF (R64): words, judged only by R77. -/
def parseCoeff (a : Bytes) (o n : Nat) (im : Img) : Except ImgErr Img :=
  .ok { im with coeff := (List.range (n / 4)).map fun i => w32 a (o + 4 * i), coeffLen := n }

/-- A phase record at `p` (R66). DEDUCED: log 119. -/
def parsePhase (a : Bytes) (p : Nat) : Except ImgErr PhaseRec := do
  let b := u8 a p
  need (b ≤ 23 || b == 255) ⟨0x0C, 5, 4, p⟩
  if b = 255 then
    zeros a 5 4 (p + 1) (p + 16)
    return {}
  else
    need (u8 a (p + 1) < 4) ⟨0x06, 5, 4, p + 1⟩
    inRange 4 (p + 2) 0 127 (u8 a (p + 2))
    inRange 4 (p + 3) 0 1 (u8 a (p + 3))
    inRange 4 (p + 6) 0 16000 (u16 a (p + 6))
    inRange 4 (p + 8) 0 16000 (u16 a (p + 8))
    inRange 4 (p + 10) 0 16000 (u16 a (p + 10))
    zeros a 5 4 (p + 12) (p + 16)
    return { bank := b, pol := u8 a (p + 1), csAin := u8 a (p + 2), minMode := u8 a (p + 3),
             tripMask := BitVec.ofNat 16 (u16 a (p + 4)), dtRise := u16 a (p + 6), dtFall := u16 a (p + 8),
             minPulse := u16 a (p + 10) }

/-- Phases assigned to bank `b`. -/
def asgCount (ph : List PhaseRec) (b : Nat) : Nat := (ph.filter (·.bank == b)).length

/-- A bank record at `p`, bank `b`, after the phases (R67). DEDUCED: log 16. -/
def parseBank (a : Bytes) (ph : List PhaseRec) (b p : Nat) : Except ImgErr BankRec := do
  let r := u8 a p
  need (r ≤ 23 || r == 255) ⟨0x0C, 5, 4, p⟩
  let na := asgCount ph b
  if r = 255 then
    need (na == 0) ⟨0x0C, 5, 4, p⟩
    zeros a 5 4 (p + 1) (p + 16)
    return {}
  else
    need (1 ≤ na) ⟨0x0C, 5, 4, p⟩
    inRange 4 (p + 1) 1 16 (u8 a (p + 1))
    inRange 4 (p + 2) 1 255 (u8 a (p + 2))
    inRange 4 (p + 3) (u8 a (p + 2)) na (u8 a (p + 3))
    inRange 4 (p + 4) 1 65535 (u16 a (p + 4))
    inRange 4 (p + 6) 1 65535 (u16 a (p + 6))
    inRange 4 (p + 8) 0 127 (u8 a (p + 8))
    inRange 4 (p + 9) 0 127 (u8 a (p + 9))
    let s := u8 a (p + 10)
    need (s == 255 || (s ≤ 127 && s / 8 + u8 a (p + 1) - 1 ≤ 15)) ⟨0x0C, 5, 4, p + 10⟩
    zeros a 5 4 (p + 11) (p + 16)
    return { ring := r, strings := u8 a (p + 1), phMin := u8 a (p + 2), phMax := u8 a (p + 3), vNom := u16 a (p + 4),
             iLim := u16 a (p + 6), vAin := u8 a (p + 8), iAin := u8 a (p + 9), strAin := s }

/-- R189: dead times and minimum pulse fit the carrier period. -/
def timFits (rise fall minp per : Nat) : Bool := rise + fall + 2 * minp ≤ 4 * per

/-- GROUPING (R65 to R67, R189). -/
def parseGroup (a : Bytes) (o n : Nat) (im : Img) : Except ImgErr Img := do
  fits 4 (o + n) (o + 1160) o
  zeros a 5 4 (o + 1160) (o + n)
  inRange 4 o 400 40000 (u16 a o)
  inRange 4 (o + 2) 0 1 (u8 a (o + 2))
  inRange 4 (o + 3) 0 (if u8 a (o + 2) = 1 then 2 else 0) (u8 a (o + 3))
  zeros a 5 4 (o + 4) (o + 8)
  let per := u16 a o
  let ph ← collect ((List.range 48).map fun i => o + 8 + 16 * i) fun p => do
    let r ← parsePhase a p
    need (r.bank == 255 || timFits r.dtRise r.dtFall r.minPulse per) ⟨0x0C, 5, 4, p + 6⟩
    return r
  let at_ := fun b => o + 776 + 16 * b
  let bk ← collect (List.range 24) fun b => do
    need (u8 a (at_ b) == 255 || !twice a ((List.range 24).map at_) (at_ b)) ⟨0x0C, 5, 4, at_ b⟩
    parseBank a ph b (at_ b)
  return { im with periodClk := per, carrier := u8 a (o + 2), reload := u8 a (o + 3), phases := ph, banks := bk,
                   groupOfs := o }

/-! Derived figures of a channel (R205 to R209). -/

/-- W of R205. -/
def chanW (c : ChanRec) : Nat := c.order * (c.ratio - 1) + 1

/-- d_f of R206, for sequence length `n`. -/
def chanDf (c : ChanRec) (n : Nat) : Nat := 8 * (n * chanW c + c.order + 7) + (if c.notch = 0 then 0 else 8)

/-- N_r of R207. -/
def roundsPerStride (S n fmax : Nat) : Nat := ((S - 1) / 8 - fmax) / n

/-- The channel is a stride channel (R207). -/
def isStrideChan (c : ChanRec) (n fmax S : Nat) : Bool :=
  chanW c ≤ roundsPerStride S n fmax && 72 + chanDf c n + 8 * fmax ≤ S - 2

/-- e of R209: strides between two results, 1 for a stride channel. A slow window that begins at a mark is complete in
stride k at the clock of its last round's results, and is published at the next boundary (R207). -/
def chanE (c : ChanRec) (n fmax S : Nat) : Nat :=
  if isStrideChan c n fmax S then 1
  else
    let nr := max 1 (roundsPerStride S n fmax)
    let k := (chanW c - 1) / nr
    let left := chanW c - k * nr
    let done := 72 + 8 * (n * left + fmax - 1) + 8 * (c.order + 8) + (if c.notch = 0 then 0 else 8)
    k + 1 + done / S

/-- The notch limit of R209: f_0 × T_r ≤ 1/8, with f_0 in 0.1 Hz and T_r = e × S clocks of 2.5 ns. -/
def notchOk (c : ChanRec) (n fmax S : Nat) : Bool := c.notch * (chanE c n fmax S * S) * 8 ≤ 10 * 400000000

/-- A lane entry at `p` (R68). -/
def parseLane (a : Bytes) (p : Nat) : Except ImgErr LaneRec := do
  let n := u8 a p
  inRange 5 p 1 8 n
  let mux := (List.range n).map fun i => u8 a (p + 1 + i)
  each (List.range n) fun i =>
    need (mux.getD i 0 ≤ 7 && !((mux.take i).contains (mux.getD i 0))) ⟨0x0C, 5, 5, p + 1 + i⟩
  zeros a 5 5 (p + 1 + n) (p + 16)
  return { n := n, mux := mux }

/-- A channel entry at `p` (R68), with the fetch slots each lane gives (R207). -/
def parseChan (a : Bytes) (lanes : List LaneRec) (S : Nat) (fmax : Nat → Nat) (p : Nat) : Except ImgErr ChanRec := do
  let ain := u8 a p
  inRange 5 p 0 127 ain
  let lane := lanes.getD (ain / 8) {}
  need (lane.mux.contains (ain % 8)) ⟨0x0C, 5, 5, p⟩
  inRange 5 (p + 1) 1 4 (u8 a (p + 1))
  inRange 5 (p + 2) 1 1024 (u16 a (p + 2))
  inRange 5 (p + 6) 0 3 (u8 a (p + 6))
  need (u8 a (p + 7) < 2) ⟨0x06, 5, 5, p + 7⟩
  need (-8192 ≤ s16 a (p + 8) && s16 a (p + 8) ≤ 8191) ⟨0x0C, 5, 5, p + 8⟩
  need (-8192 ≤ s16 a (p + 10) && s16 a (p + 10) ≤ 8191 && s16 a (p + 10) < s16 a (p + 8)) ⟨0x0C, 5, 5, p + 10⟩
  zeros a 5 5 (p + 12) (p + 16)
  let c : ChanRec := { ain := ain, order := u8 a (p + 1), ratio := u16 a (p + 2), notch := u16 a (p + 4),
                       pull := u8 a (p + 6), fast := u8 a (p + 7) == 1, flimHi := s16 a (p + 8),
                       flimLo := s16 a (p + 10), ofs := p }
  need (notchOk c lane.n (fmax (ain / 8)) S) ⟨0x0C, 5, 5, p + 4⟩
  return c

/-- ADCSEQ (R68, R205, R209). -/
def parseAdc (a : Bytes) (o n : Nat) (fmax : Nat → Nat) (im : Img) : Except ImgErr Img := do
  let cnt := u16 a o
  fits 5 (o + n) (o + 264) o
  fits 5 (o + n) (o + 264 + 16 * cnt) (o + 264 + 16 * ((n - 264) / 16))
  zeros a 5 5 (o + 264 + 16 * cnt) (o + n)
  inRange 5 o 1 128 cnt
  zeros a 5 5 (o + 2) (o + 8)
  let lanes ← collect ((List.range 16).map fun i => o + 8 + 16 * i) (parseLane a)
  let ps := (List.range cnt).map fun i => o + 264 + 16 * i
  let chans ← collect ps fun p => do
    need (!twice a ps p) ⟨0x0C, 5, 5, p⟩
    parseChan a lanes im.strideClk fmax p
  return { im with lanes := lanes, chans := chans }

/-- The offsets of the ring records (R460). -/
def walkRings (a : Bytes) (fin : Nat) : Nat → Nat → Except ImgErr (List Nat × Nat)
  | 0, p => .ok ([], p)
  | n + 1, p => do
    fits 6 fin (p + 16) p
    let q := p + 16 + 8 * u8 a (p + 6)
    fits 6 fin q p
    let r ← walkRings a fin n q
    return (p :: r.1, r.2)

/-- The run entries of a ring from node `from_` on (R69). -/
def parseRuns (a : Bytes) (nodes : Nat) : Nat → Nat → Nat → Except ImgErr (List RunRec)
  | 0, from_, p => do
    need (from_ == nodes) ⟨0x0C, 5, 6, p - 7⟩
    return []
  | n + 1, from_, p => do
    let r : RunRec := { first := u8 a p, last := u8 a (p + 1), cls := u8 a (p + 2), cells := u8 a (p + 3) }
    need (r.first == from_) ⟨0x0C, 5, 6, p⟩
    need (r.first ≤ r.last && r.last < nodes) ⟨0x0C, 5, 6, p + 1⟩
    inRange 6 (p + 2) 0 2 r.cls
    inRange 6 (p + 3) 1 12 r.cells
    zeros a 5 6 (p + 4) (p + 8)
    let t ← parseRuns a nodes n (r.last + 1) (p + 8)
    return r :: t

/-- A ring record at `p` (R69). -/
def parseRing (a : Bytes) (p : Nat) : Except ImgErr RingRec := do
  inRange 6 p 0 23 (u8 a p)
  inRange 6 (p + 1) 0 1 (u8 a (p + 1))
  inRange 6 (p + 2) 1 256 (u16 a (p + 2))
  inRange 6 (p + 4) 0 7 (u8 a (p + 4))
  inRange 6 (p + 5) 0 2 (u8 a (p + 5))
  inRange 6 (p + 6) 1 64 (u8 a (p + 6))
  zeros a 5 6 (p + 7) (p + 8)
  inRange 6 (p + 8) 0 1000 (u16 a (p + 8))
  zeros a 5 6 (p + 10) (p + 16)
  let runs ← parseRuns a (u16 a (p + 2)) (u8 a (p + 6)) 0 (p + 16)
  need (u8 a (p + 5) != 1 || runs.all (·.cls == 2)) ⟨0x0C, 5, 6, p + 5⟩
  return { ring := u8 a p, coupling := u8 a (p + 1), nodes := u16 a (p + 2), impK := u8 a (p + 4), demod := u8 a (p + 5),
           quiet := u16 a (p + 8), runs := runs, ofs := p }

/-- RINGMAP (R69). -/
def parseRings (a : Bytes) (o n : Nat) (im : Img) : Except ImgErr Img := do
  fits 6 (o + n) (o + 8) o
  let w ← walkRings a (o + n) (u8 a o) (o + 8)
  zeros a 5 6 w.2 (o + n)
  inRange 6 o 1 24 (u8 a o)
  zeros a 5 6 (o + 1) (o + 8)
  let rs ← collect w.1 fun p => do
    need (w.1.all fun q => decide (p ≤ q) || decide (u8 a q < u8 a p)) ⟨0x0C, 5, 6, p⟩
    parseRing a p
  return { im with hasRings := true, rings := rs }

/-- A limit set at `p` (R70). DEDUCED: log 16. -/
def parseSet (a : Bytes) (p : Nat) : Except ImgErr LimSet := do
  let v := fun i => (u16 a (p + 2 * i) : Int)
  let t := fun i => s16 a (p + 8 + 2 * i)
  each [0, 1, 2] fun i => need (v (i + 1) < v i) ⟨0x0C, 5, 7, p + 2 * i⟩
  each [0, 1, 2] fun i => need (t (i + 1) < t i) ⟨0x0C, 5, 7, p + 8 + 2 * i⟩
  zeros a 5 7 (p + 24) (p + 32)
  return { vHiHard := v 0, vHiSoft := v 1, vLoSoft := v 2, vLoHard := v 3, tHiHard := t 0, tHiSoft := t 1,
           tLoSoft := t 2, tLoHard := t 3, sumTol := v 8, wireThr := v 9, refTol := v 10, balMax := v 11 }

/-- An assignment at `p` (R70). -/
def parseAsg (a : Bytes) (sets : Nat) (p : Nat) : Except ImgErr AsgRec := do
  need (u8 a (p + 1) ≤ u8 a (p + 2)) ⟨0x0C, 5, 7, p + 2⟩
  need (u8 a (p + 3) < sets) ⟨0x0C, 5, 7, p + 3⟩
  zeros a 5 7 (p + 4) (p + 8)
  return { ring := u8 a p, first := u8 a (p + 1), last := u8 a (p + 2), set := u8 a (p + 3), ofs := p }

/-- POINTMAP (R70). -/
def parsePoints (a : Bytes) (o n : Nat) (im : Img) : Except ImgErr Img := do
  let ns := u8 a o
  let na := u8 a (o + 1)
  fits 7 (o + n) (o + 8) o
  each (List.range ns) fun i => fits 7 (o + n) (o + 8 + 32 * (i + 1)) (o + 8 + 32 * i)
  let q := o + 8 + 32 * ns
  each (List.range na) fun i => fits 7 (o + n) (q + 8 * (i + 1)) (q + 8 * i)
  zeros a 5 7 (q + 8 * na) (o + n)
  inRange 7 o 1 16 ns
  inRange 7 (o + 1) 1 255 na
  zeros a 5 7 (o + 2) (o + 8)
  let sets ← collect ((List.range ns).map fun i => o + 8 + 32 * i) (parseSet a)
  let asgs ← collect ((List.range na).map fun i => q + 8 * i) (parseAsg a ns)
  return { im with sets := sets, asgs := asgs }

/-- A fault table entry of source `i` at `p` (R71, R344). -/
def parseFlt (a : Bytes) (i p : Nat) : Except ImgErr FltRec := do
  need (i < 2 || u8 a p / 4 % 32 == 0) ⟨0x06, 5, 8, p⟩
  inRange 8 (p + 1) 1 255 (u8 a (p + 1))
  inRange 8 (p + 2) 1 65535 (u16 a (p + 2))
  zeros a 5 8 (p + 5) (p + 8)
  return { cls := u8 a p, thresh := u8 a (p + 1), window := u16 a (p + 2), react := u8 a (p + 4) }

/-- FAULTTAB (R71). -/
def parseFaults (a : Bytes) (o n : Nat) (im : Img) : Except ImgErr Img := do
  fits 8 (o + n) (o + 1032) o
  zeros a 5 8 (o + 1032) (o + n)
  inRange 8 o 0 3 (u8 a o)
  zeros a 5 8 (o + 1) (o + 8)
  let fs ← collect (List.range 128) fun i => parseFlt a i (o + 8 + 8 * i)
  return { im with faultn := u8 a o, flts := fs }

/-- BUDGET (R72). -/
def parseBudget (a : Bytes) (o n : Nat) (im : Img) : Except ImgErr Img := do
  fits 9 (o + n) (o + 32) o
  zeros a 5 9 (o + 32) (o + n)
  inRange 9 o 1000 15000 (u16 a o)
  inRange 9 (o + 2) 1 1000 (u16 a (o + 2))
  zeros a 5 9 (o + 10) (o + 12)
  zeros a 5 9 (o + 16) (o + 32)
  return { im with coreMa := u16 a o, coreDidt := u16 a (o + 2), gdPhase := u16 a (o + 4), gdTotal := u16 a (o + 6),
                   balRing := u16 a (o + 8), balTotal := u32 a (o + 12) }

/-- A rail entry at `p` (R73). -/
def parseRail (a : Bytes) (mode cnt i p : Nat) : Except ImgErr RailRec := do
  need (mode == 1 || u8 a p ≤ 15) ⟨0x0C, 5, 10, p⟩
  inRange 10 (p + 1) 0 15 (u8 a (p + 1))
  let dep := u16 a (p + 2)
  need (mode == 0 || (dep < 2 ^ cnt && !dep.testBit i)) ⟨0x0C, 5, 10, p + 2⟩
  inRange 10 (p + 4) 1 10000 (u16 a (p + 4))
  inRange 10 (p + 6) 1 10000 (u16 a (p + 6))
  need (u8 a (p + 8) ≤ 127 || u8 a (p + 8) == 255) ⟨0x0C, 5, 10, p + 8⟩
  inRange 10 (p + 9) 0 1 (u8 a (p + 9))
  need (-8192 ≤ s16 a (p + 10) && s16 a (p + 10) ≤ 8191) ⟨0x0C, 5, 10, p + 10⟩
  zeros a 5 10 (p + 12) (p + 16)
  return { slot := u8 a p, pgIn := u8 a (p + 1), depMask := BitVec.ofNat 16 dep, pgTo := u16 a (p + 4),
           fallTo := u16 a (p + 6), fallAin := u8 a (p + 8), onStuck := u8 a (p + 9), fallCode := u16 a (p + 10), ofs := p }

/-- Rails from which dependencies never end: those no round takes (R73). -/
def railCycle (rs : List RailRec) : Option RailRec :=
  let round := fun (t : List Nat) => (List.range rs.length).foldl (fun t i =>
    if t.contains i then t
    else if (bitsOf (rs.getD i {}).depMask).all fun j => t.contains j then i :: t else t) t
  let taken := (List.range rs.length).foldl (fun t _ => round t) []
  ((List.range rs.length).find? fun i => !taken.contains i).map fun i => rs.getD i {}

/-- RAILS (R73). -/
def parseRails (a : Bytes) (o n : Nat) (im : Img) : Except ImgErr Img := do
  fits 10 (o + n) (o + 264) o
  zeros a 5 10 (o + 264) (o + n)
  inRange 10 o 0 1 (u8 a o)
  inRange 10 (o + 1) 1 16 (u8 a (o + 1))
  zeros a 5 10 (o + 2) (o + 8)
  let cnt := u8 a (o + 1)
  let rs ← collect (List.range cnt) fun i => parseRail a (u8 a o) cnt i (o + 8 + 16 * i)
  zeros a 5 10 (o + 8 + 16 * cnt) (o + 264)
  match (if u8 a o = 1 then railCycle rs else none) with
  | some r => .error ⟨0x0C, 5, 10, r.ofs + 2⟩
  | none => .ok { im with railMode := u8 a o, rails := rs }

/-- HIVE (R74): with role 0 the device takes `size` 1 and `addr` 0. -/
def parseHive (a : Bytes) (o n : Nat) (im : Img) : Except ImgErr Img := do
  fits 11 (o + n) (o + 16) o
  zeros a 5 11 (o + 16) (o + n)
  inRange 11 o 0 2 (u8 a o)
  inRange 11 (o + 1) 0 15 (u8 a (o + 1))
  inRange 11 (o + 2) 2 16 (u8 a (o + 2))
  need (u8 a (o + 1) < u8 a (o + 2)) ⟨0x0C, 5, 11, o + 1⟩
  zeros a 5 11 (o + 3) (o + 4)
  inRange 11 (o + 4) 1 65535 (u16 a (o + 4))
  inRange 11 (o + 6) 1 65535 (u16 a (o + 6))
  zeros a 5 11 (o + 8) (o + 16)
  let alone := u8 a o = 0
  return { im with role := u8 a o, hAddr := if alone then 0 else u8 a (o + 1), hSize := if alone then 1 else u8 a (o + 2),
                   lossHold := u16 a (o + 4), lossRamp := u16 a (o + 6) }

/-- SHARE (R75). -/
def parseShare (a : Bytes) (o n : Nat) (im : Img) : Except ImgErr Img := do
  fits 12 (o + n) (o + 32) o
  zeros a 5 12 (o + 32) (o + n)
  need (u16 a (o + 2) ≤ u16 a o && u16 a o ≤ u16 a (o + 4)) ⟨0x0C, 5, 12, o⟩
  inRange 12 (o + 6) 1 65535 (u16 a (o + 6))
  inRange 12 (o + 8) 1 65535 (u16 a (o + 8))
  need (s16 a (o + 12) < s16 a (o + 14)) ⟨0x0C, 5, 12, o + 12⟩
  need (u8 a (o + 17) < u8 a (o + 16)) ⟨0x0C, 5, 12, o + 17⟩
  inRange 12 (o + 20) 1 4294967295 (u32 a (o + 20))
  zeros a 5 12 (o + 24) (o + 32)
  return { im with vSet := u16 a o, vLo := u16 a (o + 2), vHi := u16 a (o + 4), vSlew := u16 a (o + 6),
                   iBusMax := u16 a (o + 8), shareSlew := u16 a (o + 10), tDerLo := s16 a (o + 12),
                   tDerHi := s16 a (o + 14), phAdd := u8 a (o + 16), phShed := u8 a (o + 17),
                   excMax := u16 a (o + 18), hrRef := u32 a (o + 20) }

/-- A plausibility model at `p` (R76, R118). -/
def parseModel (a : Bytes) (im : Img) (p : Nat) : Except ImgErr PlausRec := do
  let c := im.ctxs.getD (u8 a p) {}
  let x := u8 a (p + 2)
  need (im.ctxs.isEmpty || (u8 a p < im.ctxs.length && c.cls == 0)) ⟨0x0C, 5, 13, p⟩
  need (im.ctxs.isEmpty || (u8 a (p + 1) < c.ins.length && (c.ins.getD (u8 a (p + 1)) {}).kind == 1)) ⟨0x0C, 5, 13, p + 1⟩
  need (x ≤ 2 && (x != 1 || im.ctxs.isEmpty || c.ins.any (·.kind == 3))) ⟨0x0C, 5, 13, p + 2⟩
  need (if x = 2 then im.chans.isEmpty || im.chans.any (·.ain == u8 a (p + 3)) else u8 a (p + 3) == 0) ⟨0x0C, 5, 13, p + 3⟩
  inRange 13 (p + 8) 1 65535 (u16 a (p + 8))
  need (if x = 0 then u16 a (p + 10) == 0 else u16 a (p + 10) != 0) ⟨0x0C, 5, 13, p + 10⟩
  inRange 13 (p + 12) 1 255 (u8 a (p + 12))
  need (u8 a (p + 13) < 2) ⟨0x06, 5, 13, p + 13⟩
  zeros a 5 13 (p + 14) (p + 16)
  return { ctx := u8 a p, fbSlot := u8 a (p + 1), xchk := x, xchkAin := u8 a (p + 3), ka := s16 a (p + 4),
           kb := s16 a (p + 6), rThr := u16 a (p + 8), xThr := u16 a (p + 10), cntLim := u8 a (p + 12),
           hard := u8 a (p + 13) == 1, ofs := p }

/-- PLAUS (R76, R118). -/
def parsePlaus (a : Bytes) (o n : Nat) (im : Img) : Except ImgErr Img := do
  let cnt := u8 a o
  fits 13 (o + n) (o + 8) o
  each (List.range cnt) fun i => fits 13 (o + n) (o + 8 + 16 * (i + 1)) (o + 8 + 16 * i)
  zeros a 5 13 (o + 8 + 16 * cnt) (o + n)
  inRange 13 o 1 64 cnt
  zeros a 5 13 (o + 1) (o + 8)
  let ps := (List.range cnt).map fun i => o + 8 + 16 * i
  let ms ← collect ps fun p => do
    need (!twice a ps p) ⟨0x0C, 5, 13, p⟩
    parseModel a im p
  return { im with plaus := ms }

/-- Step 5: every section present, in ascending order of type (R55). DEDUCED: log 17. -/
def parseSections (a : Bytes) (ds : List DirEnt) (fmax : Nat → Nat) : Except ImgErr Img :=
  (List.range 13).foldl (fun acc i =>
    match acc with
    | .error e => .error e
    | .ok im =>
      match ds.find? (·.type == i + 1) with
      | none => .ok im
      | some d =>
        match i with
        | 0 => parseTimebase a d.ofs d.len im
        | 1 => parseLoop a d.ofs d.len im
        | 2 => parseCoeff a d.ofs d.len im
        | 3 => parseGroup a d.ofs d.len im
        | 4 => parseAdc a d.ofs d.len fmax im
        | 5 => parseRings a d.ofs d.len im
        | 6 => parsePoints a d.ofs d.len im
        | 7 => parseFaults a d.ofs d.len im
        | 8 => parseBudget a d.ofs d.len im
        | 9 => parseRails a d.ofs d.len im
        | 10 => parseHive a d.ofs d.len im
        | 11 => parseShare a d.ofs d.len im
        | _ => parsePlaus a d.ofs d.len im)
    (.ok { id := w32 a 0x10, ver := w32 a 0x14 })

/-! ## Step 6: the rules across sections (R77) -/

/-- An item that a rule of R77 can find wrong, so that one statement of the rules serves the image (R55) and the register
state (R89). -/
inductive Item where
  | bind (c i : Nat)
  | ctx (c : Nat)
  | loop
  | phase (p : Nat)
  | bank (b : Nat)
  | chan (k : Nat)
  | lane (l : Nat)
  | ring (k : Nat)
  | asg (k : Nat)
  | rail (k : Nat)
  | timebase
deriving DecidableEq, Repr

/-- Where an item lies in the image: section type and offset (R88). DEDUCED: log 119. -/
def itemOfs (im : Img) (tbOfs : Nat) : Item → Nat × Nat
  | .bind c i => (2, bindOfs (im.ctxs.getD c {}) i)
  | .ctx c => (2, (im.ctxs.getD c {}).ofs)
  | .loop => (2, im.loopOfs)
  | .phase p => (4, im.groupOfs + 8 + 16 * p)
  | .bank b => (4, im.groupOfs + 776 + 16 * b)
  | .chan k => (5, (im.chans.getD k {}).ofs)
  | .lane _ => (5, 0)
  | .ring k => (6, (im.rings.getD k {}).ofs)
  | .asg k => (7, (im.asgs.getD k {}).ofs)
  | .rail k => (10, (im.rails.getD k {}).ofs)
  | .timebase => (1, tbOfs)

/-- Input bindings and output bindings of all contexts, as items. -/
def inItems (im : Img) : List (Item × Binding) :=
  (List.range im.ctxs.length).flatMap fun c =>
    let r := im.ctxs.getD c {}
    (List.range r.ins.length).map fun i => (.bind c i, r.ins.getD i {})
def outItems (im : Img) : List (Item × Binding) :=
  (List.range im.ctxs.length).flatMap fun c =>
    let r := im.ctxs.getD c {}
    (List.range r.outs.length).map fun i => (.bind c (r.ins.length + i), r.outs.getD i {})

/-- The analog inputs a used bank names (R67): voltage, current, strings. -/
def bankInputs (b : BankRec) : List Nat :=
  if b.ring == 255 then []
  else [b.vAin, b.iAin] ++ (if b.strAin == 255 then [] else (List.range b.strings).map fun s => b.strAin + 8 * s)

/-- Row 1: analog inputs named without a channel entry. -/
def badInputs (im : Img) : List Item :=
  let ok := fun a => im.chans.any (·.ain == a)
  ((inItems im).filter fun x => x.2.kind == 1 && !ok x.2.idx).map (·.1)
  ++ ((List.range im.phases.length).filter fun p =>
      let r := im.phases.getD p {}
      r.bank != 255 && !ok r.csAin).map .phase
  ++ ((List.range im.banks.length).filter fun b => !((bankInputs (im.banks.getD b {})).all ok)).map .bank
  ++ ((List.range im.rails.length).filter fun k =>
      let r := im.rails.getD k {}
      r.fallAin != 255 && !ok r.fallAin).map .rail

/-- Row 2: kind 0x11 bindings that name an unassigned phase or one named before, and assigned phases no binding names. -/
def badPhases (im : Img) : List Item :=
  let outs := (outItems im).filter fun x => x.2.kind == 0x11
  let dup := (List.range outs.length).filter fun k =>
    let x := outs.getD k (.loop, {})
    (im.phases.getD x.2.idx {}).bank == 255 || (outs.take k).any fun y => y.2.idx == x.2.idx
  (dup.map fun k => (outs.getD k (.loop, {})).1)
  ++ ((List.range im.phases.length).filter fun p =>
      (im.phases.getD p {}).bank != 255 && !outs.any fun x => x.2.idx == p).map .phase

/-- Row 3: kind 0x03 bindings that name an unused bank. -/
def badBanks (im : Img) : List Item :=
  ((inItems im).filter fun x => x.2.kind == 3 && (im.banks.getD x.2.idx {}).ring == 255).map (·.1)

/-- Row 4: kind 0x02 bindings that name no context or none of its output slots. -/
def badSlots (im : Img) : List Item :=
  ((inItems im).filter fun x => x.2.kind == 2 &&
    !(x.2.idx / 4 < im.ctxs.length && x.2.idx % 4 < (im.ctxs.getD (x.2.idx / 4) {}).outs.length)).map (·.1)

/-- Row 5: contexts whose coefficient sets do not lie inside COEFF (R64). -/
def badCoeff (im : Img) : List Item :=
  ((List.range im.ctxs.length).filter fun c =>
    let r := im.ctxs.getD c {}
    im.coeffLen < r.coeffOff + 20 * r.nSec * (if r.hasB then 2 else 1)).map .ctx

/-- Row 6: used banks and rings that do not belong together. -/
def badRings (im : Img) : List Item :=
  ((List.range im.banks.length).filter fun b =>
    let r := im.banks.getD b {}
    r.ring != 255 && !im.rings.any (·.ring == r.ring)).map .bank
  ++ ((List.range im.rings.length).filter fun k =>
      ((im.banks.filter fun b => b.ring == (im.rings.getD k {}).ring).length != 1)).map .ring

/-- Row 7: rings without complete limit-set assignments: every node exactly one (R70). DEDUCED: log 119. -/
def badAssign (im : Img) : List Item :=
  ((List.range im.rings.length).filter fun k =>
    let r := im.rings.getD k {}
    !(List.range r.nodes).all fun n =>
      (im.asgs.filter fun g => g.ring == r.ring && g.first ≤ n && n ≤ g.last).length == 1).map .ring

/-- Row 8: assignments that name no ring of RINGMAP or a node beyond it. -/
def badAsgs (im : Img) : List Item :=
  ((List.range im.asgs.length).filter fun k =>
    let g := im.asgs.getD k {}
    !im.rings.any fun r => r.ring == g.ring && g.last < r.nodes).map .asg

/-- Row 9: kind 0x12 outputs against the hive role (R63). -/
def badCmd (im : Img) : List Item :=
  let outs := (outItems im).filter fun x => x.2.kind == 0x12
  if im.role = 2 then outs.map (·.1)
  else if outs.isEmpty then [.loop]
  else
    -- the second binding, and any of a second context
    (outs.drop 1).map (·.1)

/-- Row 10: `src` against the hive role (R74). -/
def badSrc (im : Img) : List Item := if (im.role = 2) = (im.src = 2) then [] else [.timebase]

/-- Row 11: rails that name a power-good input named before. -/
def badPg (im : Img) : List Item :=
  ((List.range im.rails.length).filter fun k =>
    (im.rails.take k).any fun r => r.pgIn == (im.rails.getD k {}).pgIn).map .rail

/-- The rules of R77 in the order of its table. DEDUCED: log 15. -/
def crossRules (im : Img) : List (List Item) :=
  [badInputs im, badPhases im, badBanks im, badSlots im, badCoeff im, badRings im, badAssign im, badAsgs im, badCmd im,
   badSrc im, badPg im]

/-- The item of least offset. -/
def leastItem (loc : Item → Nat × Nat) : List Item → Option (Nat × Nat)
  | [] => none
  | x :: t =>
    match leastItem loc t with
    | none => some (loc x)
    | some y => some (if (loc x).2 ≤ y.2 then loc x else y)

/-- The first failing rule's first item. -/
def crossFail (im : Img) (loc : Item → Nat × Nat) : Option (Nat × Nat) :=
  (crossRules im).findSome? (leastItem loc)

/-- The required section types (R56): POINTMAP only beside RINGMAP. -/
def missing (ds : List DirEnt) : Option Nat :=
  let has := fun t => ds.any (·.type == t)
  [1, 2, 3, 4, 5, 7, 8, 9, 12].find? fun t => !has t && (t != 7 || has 6)

/-- Steps 1 to 6 of R55 over the first `hwm` bytes of the buffer. -/
def checkImage (a : Bytes) (hwm : Nat) (sysId : Word) (required : Bool) (key : Nat → Option (Nat × Nat))
    (fmax : Nat → Nat) : Except ImgErr Img := do
  checkHeader a hwm sysId
  let ds ← checkDir a
  checkCrcs a ds
  checkAuth a required key
  let im ← parseSections a ds fmax
  match missing ds with
  | some t => .error ⟨0x0E, 6, t, 64⟩
  | none =>
    let tb := ((ds.find? (·.type == 1)).map (·.ofs)).getD 0
    match crossFail im (itemOfs im tb) with
    | some (sec, ofs) => .error ⟨0x0F, 6, sec, ofs⟩
    | none => .ok im

end Sys2Proof.Machine
end

