-- ==== Sys2Proof/Machine/Pwm.lean ====
section
/-! DEFINITION. Pulse generation and trips (R179 to R201): carriers, compare sets, edges, dead time, trip latches. -/
namespace Sys2Proof.Machine

/-! ## Reaches (R196) -/

/-- The phases assigned to a bank. -/
def bankPhases (im : Img) (b : Nat) : List Nat :=
  (List.range 48).filter fun p => (im.phases.getD p {}).bank == b && b < 24

/-- The used banks. -/
def usedBanks (im : Img) : List Nat := (List.range 24).filter fun b => (im.banks.getD b {}).ring != 255

/-- The bank whose `ring` is r. -/
def ringBank (im : Img) (r : Nat) : Option Nat := (usedBanks im).find? fun b => (im.banks.getD b {}).ring == r

/-- The phases a fast-limit latch on input `a` reaches (R196). -/
def flimReach (im : Img) (a : Nat) : List Nat :=
  let own := (List.range 48).filter fun p => (im.phases.getD p {}).bank != 255 && (im.phases.getD p {}).csAin == a
  let bank := ((usedBanks im).filter fun b => (bankInputs (im.banks.getD b {})).contains a).flatMap (bankPhases im)
  let l := (List.range 48).filter fun p => own.contains p || bank.contains p
  if im.phases.isEmpty then [] else if l.isEmpty then List.range 48 else l

/-- The phases with bit `t` set in `trip_mask`. -/
def tripReach (im : Img) (t : Nat) : List Nat :=
  (List.range 48).filter fun p => (im.phases.getD p {}).bank != 255 && (im.phases.getD p {}).tripMask.getLsbD t

/-- The phases R124 names for a context: those of its kind 0x11 outputs, else of its kind 0x03 banks, else all. -/
def ctxPhases (im : Img) (c : CtxRec) : List Nat :=
  let outs := (c.outs.filter (·.kind == 0x11)).map (·.idx)
  let banks := (c.ins.filter (·.kind == 3)).map (·.idx)
  if !outs.isEmpty then outs
  else if !banks.isEmpty then (List.range 48).filter fun p => banks.contains (im.phases.getD p {}).bank
  else List.range 48

/-! ## Trip latches -/

/-- A phase is tripped while any of its cause latches is set (R196). -/
def tripped (p : PhaseCh) : Bool :=
  p.ext != 0 || !p.flim.isEmpty || p.ring || !p.plaus.isEmpty || p.wd || p.crit || p.react

/-- At least one phase is tripped. -/
def anyTrip (w : Pwm) : Bool := w.ph.toList.any tripped

/-- The trip level of phase `p`: H and L (R197). DEDUCED: log 103. -/
def tripLevel (r : RegFile) (p : Nat) : Bool × Bool :=
  let code := getF r ⟨R.PWM_TRIP_LVLn (p / 16), 2 * (p % 16), 2⟩
  (code == 2, code == 1)

/-- A tripped phase stands at its trip level, also where its code changes (R197). -/
def atTripLevel (r : RegFile) (p : Nat) (x : PhaseCh) : PhaseCh :=
  if tripped x then { x with h := (tripLevel r p).1, l := (tripLevel r p).2 } else x

/-- The outputs of a phase after its latches changed: to the trip levels in the clock in which it becomes tripped, a
running dead time cancelled (R198); inactive, outside RUN, when its last latch clears (R201). DEDUCED: log 103. -/
def settlePhase (r : RegFile) (running : Bool) (p : Nat) (old new : PhaseCh) : PhaseCh :=
  if tripped new then
    if tripped old then new
    else { new with h := (tripLevel r p).1, l := (tripLevel r p).2, rise := none, sw := false }
  else if tripped old && !running then { new with h := false, l := false }
  else new

/-- A rise of `any_trip` starts the count of every enabled stream with `stop_on_trip` that is not counting (R222). -/
def tripStreams (a : Acq) : Acq :=
  { a with strs := vmapI a.strs fun i x =>
      if flag a.r (F.ACQ_STRs_CFG_en i) && flag a.r (F.ACQ_STRs_CFG_stop_on_trip i) && x.left.isNone
      then { x with left := some (getF a.r (F.ACQ_STRs_CFG_post i)) } else x }

/-- Change the latches of every phase by `f`; the outputs follow, and a rise of `any_trip` raises its interrupt (R364) and
starts the streams' counts (R222). -/
def latchOp (f : Nat → PhaseCh → PhaseCh) (s : State) : State :=
  let w := { s.pwm with ph := vmapI s.pwm.ph fun p x => settlePhase s.pwm.r (opState s == 6) p x (f p x) }
  let rose := !anyTrip s.pwm && anyTrip w
  let s := { s with pwm := w }
  if rose then irq 4 { s with acq := tripStreams s.acq } else s

/-- Latch the phases of a list. -/
def latchOn (l : List Nat) (f : PhaseCh → PhaseCh) (s : State) : State :=
  latchOp (fun p x => if l.contains p then f x else x) s

/-- A fast-limit latch from input `a` in every phase it reaches (R196), with its event to the fast-limit source, whose sub
is the phase reached first (R199, R339). DEDUCED: log 54. -/
def flimLatch (a : Nat) (s : State) : State :=
  let l := flimReach s.img.str a
  raise 7 a (l.headD 255) (latchOn l (fun x => if x.flim.contains a then x else { x with flim := x.flim ++ [a] }) s)

/-! ## Compare sets -/

/-- Queue a set for a carrier's output (R190); nothing was waiting in this stride. -/
def queueSet (duty : Word) (tag : Nat) (c : Carr) : Carr := { c with queued := some ⟨duty, tag⟩ }

/-- The commit point latches the queued set towards the PWM (R31). -/
def commitSet (c : Carr) : Carr :=
  match c.queued with
  | some q => { c with queued := none, committed := some q }
  | none => c

/-- The boundary makes the committed set eligible (R35); a set still waiting is replaced (R16). DEDUCED: log 36. -/
def eligibleSet (c : Carr) : Carr :=
  match c.committed with
  | some q => { c with committed := none, eligible := some q }
  | none => c

/-- A set was replaced at the boundary before a reload took it. -/
def setLost (c : Carr) : Bool := c.committed.isSome && c.eligible.isSome

/-- A duty as it is used: within 0 and 1.0 (R185). -/
def usedDuty (d : Word) : Word := if d.slt 0 then 0 else if (0x01000000 : Word).slt d then 0x01000000 else d

/-- The nominal on-width w = round(d × P′), ties upward (R185). -/
def onWidth (d : Word) (pLen : Nat) : Nat := (d.toNat * pLen + 2 ^ 23) / 2 ^ 24

/-- The minimum-pulse filter (R188): the width, and what it counts (1: dropped, 2: stretched). -/
def minPulse (stretch : Bool) (rise fall minp pLen w : Nat) : Nat × Nat :=
  if w = 0 ∨ pLen ≤ w then (w, 0)
  else if (w : Int) - rise < minp then (if stretch then (minp + rise, 2) else (0, 1))
  else if (pLen : Int) - w - fall < minp then (if stretch then (pLen - minp - fall, 2) else (pLen, 1))
  else (w, 0)

/-- The counters of `PWM_CNT` and `duty_clip` for a set that was taken (R185, R188): a stride in which sets are clipped counts
once. DEDUCED: log 116. -/
def countSet (clipped : Bool) (kind : Nat) (w : Pwm) : Pwm :=
  let r := if clipped && !w.clipped then incF (setFlag w.r F.PWM_STAT_duty_clip) F.PWM_CNT_duty_clip_cnt 1
    else if clipped then setFlag w.r F.PWM_STAT_duty_clip else w.r
  let r := if kind = 1 then incF r F.PWM_CNT_min_drop_cnt 1
    else if kind = 2 then incF r F.PWM_CNT_min_stretch_cnt 1 else r
  { w with r := r, clipped := w.clipped || clipped }

/-- A reload event of a phase: it takes the eligible set whole, or keeps the set in force (R190); outside RUN the set is taken
and discarded (R194). A set's tag is not judged here, since R35 lets a reload take the set of an earlier stride.
DEDUCED: log 36. DEDUCED: log 111. -/
def reloadPhase (running : Bool) (w : Pwm) (p : Nat) (x : PhaseCh) : Pwm × PhaseCh :=
  match x.c.eligible with
  | none => (w, x)
  | some q =>
    if !running then (w, { x with c := { x.c with eligible := none } })
    else
      let d := usedDuty q.duty
      let stretch := flag w.r (F.PWM_PHn_MIN_min_mode p)
      let m := minPulse stretch x.dtRise x.dtFall x.minPulse x.c.pLen (onWidth d x.c.pLen)
      let w := countSet (d != q.duty) m.2 w
      ({ w with r := setF w.r (F.PWM_PH_DUTYn_duty p) d.toNat }, { x with c := { x.c with eligible := none, duty := d, w := m.1 } })

/-- A reload event of an auxiliary output: the bound context's eligible set or the host's pending duty, by `src` (R192,
R193); no dead time and no filter. DEDUCED: log 52. -/
def reloadAux (w : Pwm) (i : Nat) (x : AuxCh) : Pwm × AuxCh :=
  let src := getF w.r (F.PWM_AUX_CFGn_src i)
  let take := fun (d0 : Word) (x : AuxCh) =>
    let d := usedDuty d0
    (countSet (d != d0) 0 w, { x with c := { x.c with duty := d, w := onWidth d x.c.pLen } })
  if src = 1 then
    match x.c.eligible with
    | some q => take q.duty { x with c := { x.c with eligible := none } }
    | none => (w, x)
  else if src = 2 then
    match x.pending with
    | some d => take d { x with pending := none }
    | none => (w, x)
  else (w, x)

/-! ## Carrier events -/

/-- The angle move of a phase (R171): at most `slew`, the shorter way round, a difference of 32,768 forward. -/
def angleMove (slew angle target : Nat) : Int :=
  let d : Int := ((target + 65536 - angle % 65536) % 65536 : Nat)
  let d := if d ≤ 32768 then d else d - 65536
  clampI (-slew) slew d

/-- The length of the period that begins with an angle move of Δ (R181). -/
def movedPeriod (P : Nat) (delta : Int) : Nat := (P + rround ((delta * P : Int) / (65536 : Rat))).toNat

/-- Trigger a lane's fetch unit (R214, R215): refused beyond `fetch_max` fetches of the stride, merged into a pending one,
without effect on a lane that makes no conversions. -/
def fetchTrigger (l : Nat) (a : Acq) : Acq :=
  let x := vget a.lanes l {}
  if !x.running || getF a.r (F.ACQ_FETCH_CFGl_trig l) = 0 then a
  else if x.fetch then a
  else if getF a.r (F.ACQ_FETCH_CFGl_fetch_max l) ≤ x.fetches then { a with r := setFlag a.r F.ACQ_STAT_fetch_ref }
  else { a with lanes := vset a.lanes l { x with fetch := true } }

/-- A carrier event of phase `p` triggers the fetch units that select it: 2 or 4 at a period start, 3 or 4 at a centre. -/
def carrierFetch (p trig : Nat) (a : Acq) : Acq :=
  foldN 16 (fun a l =>
    let t := getF a.r (F.ACQ_FETCH_CFGl_trig l)
    if getF a.r (F.ACQ_FETCH_CFGl_phase l) = p ∧ (t = trig ∨ t = 4) then fetchTrigger l a else a) a

/-- Fast-limit latches in cut mode clear at a period start at which the last samples lie within limits (R199). -/
def cutRelease (r : RegFile) (beyond : Nat → Bool) (p : Nat) (x : PhaseCh) : PhaseCh :=
  if getMap r (R.PWM_FLIM_MODEn 0) p || x.flim.any beyond then x else { x with flim := [] }

/-- The incoming output of a phase rises after its dead time, at once when that is 0 (R187). -/
def armRise (hi : Bool) (dt : Nat) (x : PhaseCh) : PhaseCh :=
  if dt = 0 then (if hi then { x with h := true, rise := none } else { x with l := true, rise := none })
  else { x with rise := some hi }

/-- Both outputs inactive, switching nothing. -/
def idlePhase (x : PhaseCh) : PhaseCh := if tripped x then x else { x with sw := false, h := false, l := false, rise := none }

/-- The levels from which a phase begins to switch: those ahead of its first on-edge, L active, or H with w = P′ (R186, R187,
R201); a dead time where the other output was active. DEDUCED: log 103. -/
def startLevels (x : PhaseCh) : PhaseCh :=
  if x.c.w != 0 && decide (x.c.pLen ≤ x.c.w) then
    (if x.l then armRise true x.dtRise { x with l := false } else { x with h := true })
  else (if x.h then armRise false x.dtFall { x with h := false } else { x with l := true })

/-- The outputs of a phase at its period start: it starts switching in RUN when it is neither tripped nor parked (R201, R330); a
switching phase that RUN or placement has left goes inactive. DEDUCED: log 36, 103. -/
def startPhase (running unparked : Bool) (x : PhaseCh) : PhaseCh :=
  if running && unparked && !tripped x then (if x.sw then x else startLevels { x with sw := true, rise := none })
  else idlePhase x

/-- Take over the timing that a committed set gives, at the carrier's own period start (R184). -/
def adoptTiming (r : RegFile) (p : Nat) (x : PhaseCh) : PhaseCh :=
  { x with dtRise := getF r (F.PWM_PHn_TIM_dt_rise p), dtFall := getF r (F.PWM_PHn_TIM_dt_fall p),
           minPulse := getF r (F.PWM_PHn_MIN_min_pulse p), c := { x.c with perClk := getF r F.PWM_CARRIER_period_clk } }

/-- A period start of phase `p` (R180, R181, R183 to R188, R199, R201). -/
def phaseStart (p : Nat) (s : State) : State :=
  let x0 := vget s.pwm.ph p {}
  let st := vget s.plc.ph p {}
  let x := adoptTiming s.pwm.r p x0
  let P := 8 * x.c.perClk
  let d := if st.active then angleMove (getF s.plc.r F.PLC_ANG_CFG_ang_slew) st.angle st.target else 0
  let x := { x with c := { x.c with pLen := movedPeriod P d, past := false } }
  let plc := { s.plc with ph := vset s.plc.ph p { st with angle := ((st.angle + d) % 65536).toNat } }
  let (w, x) := if getF s.pwm.r F.PWM_CARRIER_reload = 1 then (s.pwm, x) else reloadPhase (opState s == 6) s.pwm p x
  let x := { x with c := { x.c with w1 := x.c.w, w2 := x.c.w } }
  let x := cutRelease w.r (fun a => (vget s.acq.chans a {}).beyond) p x
  let x := settlePhase w.r (opState s == 6) p x0 x
  let x := startPhase (opState s == 6) st.unparked x
  { s with pwm := { w with ph := vset s.pwm.ph p x }, plc := plc, acq := carrierFetch p 2 s.acq }

/-- A period centre of phase `p`: it reloads when `reload` selects it (R180), and the set in force then governs w₂. -/
def phaseCentre (p : Nat) (s : State) : State :=
  let x := vget s.pwm.ph p {}
  let (w, x) := if getF s.pwm.r F.PWM_CARRIER_reload = 0 then (s.pwm, x) else reloadPhase (opState s == 6) s.pwm p x
  let x := if flag s.pwm.r F.PWM_CARRIER_carrier then { x with c := { x.c with w2 := x.c.w } } else x
  { s with pwm := { w with ph := vset s.pwm.ph p { x with c := { x.c with past := true } } },
           acq := carrierFetch p 3 s.acq }

/-- A period start of auxiliary output `i` (R192). -/
def auxStart (i : Nat) (w : Pwm) : Pwm :=
  let x := vget w.aux i {}
  let per := getF w.r F.PWM_CARRIER_period_clk
  let x := { x with c := { x.c with perClk := per, pLen := 8 * per, past := false } }
  let (w, x) := if getF w.r F.PWM_CARRIER_reload = 1 then (w, x) else reloadAux w i x
  { w with aux := vset w.aux i { x with c := { x.c with w1 := x.c.w, w2 := x.c.w } } }

/-- A period centre of auxiliary output `i`. -/
def auxCentre (i : Nat) (w : Pwm) : Pwm :=
  let x := vget w.aux i {}
  let (w, x) := if getF w.r F.PWM_CARRIER_reload = 0 then (w, x) else reloadAux w i x
  let x := if flag w.r F.PWM_CARRIER_carrier then { x with c := { x.c with w2 := x.c.w } } else x
  { w with aux := vset w.aux i { x with c := { x.c with past := true } } }

/-- The reference carrier begins a period (R179). -/
def refStart (w : Pwm) : Pwm :=
  let per := getF w.r F.PWM_CARRIER_period_clk
  { w with refClk := per, refLen := 8 * per }

/-! ## Edges -/

/-- The period's on-edge and off-edge: with w = 0 there is no on-edge, with w = P′ no off-edge (R186). -/
def hasOn (c : Carr) : Bool := c.w1 != 0 || c.w2 != 0
def hasOff (c : Carr) : Bool := decide (c.w1 < c.pLen ∨ c.w2 < c.pLen)

/-- A nominal edge of a phase (R186, R187); an edge whose incoming output is already active moves nothing. -/
def phaseEdge (on : Bool) (x : PhaseCh) : PhaseCh :=
  if !x.sw || tripped x then x
  else if on then
    if !hasOn x.c || x.h then x else armRise true x.dtRise { x with l := false }
  else
    if !hasOff x.c || x.l then x else armRise false x.dtFall { x with h := false }

/-- The auxiliary output switches: ARMED, RUN or HOLD, a source selected, no hold under `trip_all` (R192, R194, R196). -/
def auxLive (s : State) (i : Nat) : Bool :=
  computing s && getF s.pwm.r (F.PWM_AUX_CFGn_src i) != 0 &&
    !(flag s.pwm.r (F.PWM_AUX_CFGn_trip_all i) && (s.pwm.auxWd || s.pwm.auxAll))

/-- A nominal edge of an auxiliary output: its active interval, which the pin shows while the output switches. -/
def auxEdge (on : Bool) (x : AuxCh) : AuxCh :=
  if (if on then hasOn x.c else hasOff x.c) then { x with on := on } else x

/-- The delayed rise of R187. -/
def deadTimeEnd (x : PhaseCh) : PhaseCh :=
  match x.rise with
  | none => x
  | some true => { x with h := true, rise := none }
  | some false => { x with l := true, rise := none }

/-! ## The level of the pins (R194) -/

/-- The pin levels of phase `p`, by `pol`; none: high impedance. DEDUCED: log 104. -/
def phasePins (s : State) (p : Nat) : Option (Bool × Bool) :=
  let x := vget s.pwm.ph p {}
  let pol := (s.img.str.phases.getD p {}).pol
  if !coreReady s || !getBit s.sys.r R.SYS_PWR_STAT 4 || ((opState s < 3 || !s.sys.built) && !(s.sys.built && tripped x)) then none
  else some (x.h != (pol % 2 == 1), x.l != (pol / 2 % 2 == 1))

/-- The pin level of auxiliary output `i`. DEDUCED: log 104. -/
def auxPin (s : State) (i : Nat) : Option Bool :=
  if !coreReady s || !getBit s.sys.r R.SYS_PWR_STAT 4 || opState s < 3 || !s.sys.built then none
  else some (((vget s.pwm.aux i {}).on && auxLive s i) != flag s.pwm.r (F.PWM_AUX_CFGn_pol i))

/-! ## Host writes with a row of their own -/

/-- A cause of phase `p`'s external and fast-limit latches still holds (R200). -/
def tripHolds (s : State) (p : Nat) : Bool :=
  ((s.img.str.phases.getD p {}).tripMask &&& BitVec.ofNat 16 (getF s.pwm.r F.PWM_TRIP_IN_filt)) != 0 ||
    (vget s.pwm.ph p {}).flim.any fun a => (vget s.acq.chans a {}).beyond

/-- A host clear of phase `p`'s bit in `PWM_TRIP_FLAGn` (R200). -/
def tripClearPhase (p : Nat) (s : State) : State :=
  if !tripped (vget s.pwm.ph p {}) then s
  else if tripHolds s p then
    { s with pwm := { s.pwm with r := setF (setFlag s.pwm.r F.PWM_STAT_trip_clr_refused) F.PWM_STAT_clr_phase p } }
  else latchOp (fun q x => if q = p then { x with ext := 0, flim := [] } else x) s

/-- A write of `PWM_TRIP_FLAGn`. -/
def tripClear (n : Nat) (mask : Word) (s : State) : State :=
  foldN 32 (fun s i => if mask.getLsbD i && 32 * n + i < 48 then tripClearPhase (32 * n + i) s else s) s

/-- A write of `PWM_AUX_CWORD` (R193): every masked output copies its staging duty to its pending set, all together. -/
def auxCword (mask : BitVec 8) (s : State) : State :=
  let take := fun i (x : AuxCh) =>
    if mask.getLsbD i then { x with pending := some (kvGet s.pwm.r (R.PWM_AUX_DUTYn i)) } else x
  { s with pwm := { s.pwm with aux := vmapI s.pwm.aux take } }

/-! ## The staged set (R184, R189) -/

/-- A register file with the writes of a captured set. -/
def overlay (r : RegFile) (ps : List Pend) : RegFile :=
  ps.foldl (fun r p => kvSet r p.ofs (putBits (kvGet r p.ofs) p.lo p.width p.val)) r

/-- The check of a captured PWM set: ranges, then the fit of every assigned phase (R94, R189). -/
def pwmJudge (im : Img) (r : RegFile) : Nat :=
  let per := getF r F.PWM_CARRIER_period_clk
  let tim := fun p => (getF r (F.PWM_PHn_TIM_dt_rise p), getF r (F.PWM_PHn_TIM_dt_fall p), getF r (F.PWM_PHn_MIN_min_pulse p))
  let out := (List.range 48).any fun p => 16000 < (tim p).1 || 16000 < (tim p).2.1 || 16000 < (tim p).2.2
  let unfit := (List.range 48).any fun p => (im.phases.getD p {}).bank != 255 &&
    4 * per < (tim p).1 + (tim p).2.1 + 2 * (tim p).2.2
  if !(400 ≤ per && per ≤ 40000) || out then 1 else if unfit then 3 else 0

/-! ## Trip inputs (R195, R196) -/

/-- Filtered input `t` asserts: its phases trip, and one event goes to source 8 (R195, R196, R339). -/
def tripAssert (t : Nat) (s : State) : State :=
  let r := putBit (putBit s.pwm.r R.PWM_TRIP_IN t true) R.PWM_TRIP_IN (16 + t) true
  let was := getBit s.pwm.r R.PWM_TRIP_IN (16 + t)
  let s := latchOn (tripReach s.img.str t) (fun x => { x with ext := x.ext ||| ofBits 16 [t] }) { s with pwm := { s.pwm with r := r } }
  if was then s else raise 8 t 255 s

/-- Filtered input `t` deasserts; the latches it set stay (R196). -/
def tripDeassert (t : Nat) (s : State) : State :=
  let r := putBit (putBit s.pwm.r R.PWM_TRIP_IN t false) R.PWM_TRIP_IN (16 + t) false
  { s with pwm := { s.pwm with r := r } }

/-- The latches that the asserted inputs hold under a new structure's `trip_mask` (R196). DEDUCED: log 54. -/
def tripRelatch (s : State) : State :=
  foldN 16 (fun s t =>
    if getBit s.pwm.r R.PWM_TRIP_IN (16 + t) then
      latchOn (tripReach s.img.str t) (fun x => { x with ext := x.ext ||| ofBits 16 [t] }) s
    else s) s

/-- An event of a carrier, which runs while strides run (R179, R192, R194). -/
def carrierEvent (start : Bool) (c : Carrier) (s : State) : State :=
  if !strides s then s
  else
    match c with
    | .ref => if start then { s with pwm := refStart s.pwm } else s
    | .phase p => if start then phaseStart p s else phaseCentre p s
    | .aux x => { s with pwm := if start then auxStart x s.pwm else auxCentre x s.pwm }

/-- A nominal edge is reached (R186, R192). -/
def compareEdge (c : Carrier) (on : Bool) (s : State) : State :=
  match c with
  | .ref => s
  | .phase p => if strides s then { s with pwm := { s.pwm with ph := vmod s.pwm.ph p (phaseEdge on) } } else s
  | .aux x => if strides s then { s with pwm := { s.pwm with aux := vmod s.pwm.aux x (auxEdge on) } } else s

/-! ## Commands -/

/-- CARRIER_PERIOD_START. -/
def execCarrierPeriodStart (c : Carrier) (s : State) : Host.Outcome State Fault Refusal := whenCore (carrierEvent true c) s
/-- CARRIER_PERIOD_CENTRE. -/
def execCarrierPeriodCentre (c : Carrier) (s : State) : Host.Outcome State Fault Refusal := whenCore (carrierEvent false c) s
/-- PWM_COMPARE_EDGE. -/
def execPwmCompareEdge (c : Carrier) (on : Bool) (s : State) : Host.Outcome State Fault Refusal := whenCore (compareEdge c on) s
/-- DEAD_TIME_EXPIRY. -/
def execDeadTimeExpiry (p : Fin 48) (s : State) : Host.Outcome State Fault Refusal :=
  whenCore (fun s => { s with pwm := { s.pwm with ph := vmod s.pwm.ph p deadTimeEnd } }) s
/-- TRIP_FILTER_ASSERT. -/
def execTripFilterAssert (t : Fin 16) (s : State) : Host.Outcome State Fault Refusal := whenCore (tripAssert t) s
/-- TRIP_FILTER_DEASSERT. -/
def execTripFilterDeassert (t : Fin 16) (s : State) : Host.Outcome State Fault Refusal := whenCore (tripDeassert t) s
/-- TRIP_CLEAR: a host write of `PWM_TRIP_FLAGn`. -/
def execTripClear (_path : Path) (n : Fin 2) (mask : Word) (s : State) : Host.Outcome State Fault Refusal :=
  whenCore (tripClear n mask) s
/-- AUX_CWORD: a host write of `PWM_AUX_CWORD`. -/
def execAuxCword (_path : Path) (mask : BitVec 8) (s : State) : Host.Outcome State Fault Refusal := whenCore (auxCword mask) s

end Sys2Proof.Machine
end

