-- ==== Sys2Proof/Machine/Acq.lean ====
section
/-! DEFINITION. Acquisition (R202 to R222): lanes and conversions, windows and filters, the notch, fast limits, urgent fetch,
the reference buffer, calibration, open-wire detection, records. -/
namespace Sys2Proof.Machine

/-! ## Channel figures -/

/-- The channel entry of input `a` as the registers hold it. -/
def chanOf (r : RegFile) (a : Nat) : ChanRec :=
  { ain := a, order := getF r (F.ACQ_CHn_FILT_order a), ratio := getF r (F.ACQ_CHn_FILT_ratio a),
    notch := getF r (F.ACQ_CHn_FILT_notch a), pull := getF r (F.ACQ_CHn_CFG_pull a),
    fast := flag r (F.ACQ_CHn_CFG_flim_en a), flimHi := getFI r (F.ACQ_CHn_FLIM_flim_hi a),
    flimLo := getFI r (F.ACQ_CHn_FLIM_flim_lo a), ofs := 0 }

/-- The sequence of lane `l` as `ACQ_SEQl` holds it. -/
def laneOf (r : RegFile) (l : Nat) : LaneRec :=
  let n := getF r (F.ACQ_SEQl_n l)
  { n := n, mux := (List.range n).map fun i => getF r ⟨R.ACQ_SEQl l, 3 * i, 3⟩ }

/-- f_max of R207: `fetch_max` of a lane whose fetch unit is on, else 0. -/
def fetchSlots (r : RegFile) (l : Nat) : Nat :=
  if getF r (F.ACQ_FETCH_CFGl_trig l) = 0 then 0 else getF r (F.ACQ_FETCH_CFGl_fetch_max l)

/-- The notch's constants c and r in units of 2^−28 (R209); the frequency is in 0.1 Hz, the period in clocks of 2.5 ns.
DESIGN CHOICE: log 53. -/
def notchConsts (notch period : Nat) : Int × Int :=
  let num := notch * period                       -- f_0 × T_r in units of 1 / (4 × 10^9)
  let (c60, _) := cosSinTurn (num * 2 ^ 64 / 4000000000)
  let r62 : Int := 2 ^ 62 - piFix * num / (16000000000 : Int)
  (roundShr c60 32, roundShr r62 34)

/-- The notch's coefficient set (R209): g formed exactly, each coefficient rounded to the nearest 2^−28. Where c rounds to 1,
g has no value: b0, b1 and b2 are then free values. -/
def notchCoef (notch period : Nat) : List Word :=
  let (ci, ri) := notchConsts notch period
  let c : Rat := ci / 268435456
  let r : Rat := ri / 268435456
  let q := fun (x : Rat) => wordOf (satInt 32 (rround (x * 268435456)))
  let den := [q (-(2 * r * c)), q (r * r)]
  if 2 - 2 * c = 0 then (List.range 3).map (Config.notchFree notch period) ++ den
  else
    let g := (1 - 2 * r * c + r * r) / (2 - 2 * c)
    [q g, q (-(2 * g * c)), q g] ++ den

/-- Work out whether a channel is slow, its d_f and its notch (R206, R207, R209). -/
def setupChan (S a : Nat) (q : Acq) : Acq :=
  let x := vget q.chans a {}
  if !x.present then q
  else
    let c := chanOf q.r a
    let n := getF q.r (F.ACQ_SEQl_n (a / 8))
    let fm := fetchSlots q.r (a / 8)
    let slow := n = 0 || !isStrideChan c n fm S
    let e := if n = 0 then 1 else chanE c n fm S
    let coef := if c.notch = 0 then [] else notchCoef c.notch (e * S)
    { q with chans := vset q.chans a { x with slow := slow, e := e, coef := coef },
             r := setF (setF q.r (F.ACQ_CHn_STAT_slow a) slow.toNat) (F.ACQ_CHn_STAT_d_f a) (min 8191 (chanDf c n)) }

/-- Work out every channel anew: at the build, and after an RW-F write in LOADED (R207). -/
def setupChans (S : Nat) (q : Acq) : Acq := foldN 128 (fun q a => setupChan S a q) q

/-- The input of a channel appears in its lane's sequence; where it does not, it makes no conversions (R89). -/
def inSequence (r : RegFile) (a : Nat) : Bool := (laneOf r (a / 8)).mux.contains (a % 8)

/-- Lane `l` is powered: its unit is awake (R331). -/
def lanePowered (s : State) (l : Nat) : Bool := s.bgt.on.getLsbD l

/-- Lane `l` converts: strides run, it is powered and not fenced (R202, R213). -/
def laneConverts (s : State) (l : Nat) : Bool := strides s && lanePowered s l && !s.flt.fLane.getLsbD l

/-! ## Records (R219 to R222) -/

/-- A record of R219. -/
def recordBits (val : Word) (ain kind : Nat) (ref ow clip gap : Bool) (clk stride : Nat) : BitVec 64 :=
  BitVec.ofNat 6 stride ++ BitVec.ofNat 13 clk ++ BitVec.ofBool gap ++ BitVec.ofBool clip ++ BitVec.ofBool ow ++
    BitVec.ofBool ref ++ BitVec.ofNat 2 kind ++ BitVec.ofNat 7 ain ++ val

/-- The capacity of a stream's region, in records (R221). -/
def regionCap (r : RegFile) (i : Nat) : Nat := 512 * getF r (F.ACQ_STRs_BUF_size i)

/-- Write a record at a stream's `wptr` in the sample buffer, low word first (R221). -/
def bufWrite (i : Nat) (v : BitVec 64) (q : Acq) : Acq :=
  let w := getF q.r (F.ACQ_STRs_WPTR_wptr i)
  let at_ := 4096 * getF q.r (F.ACQ_STRs_BUF_base i) + 8 * w
  { q with buf := q.buf.writeBytes at_ ((List.range 8).map fun k => v.extractLsb' (8 * k) 8),
           r := setF q.r (F.ACQ_STRs_WPTR_wptr i) ((w + 1) % max 1 (regionCap q.r i)) }

/-- The region of a stream is full (R221). -/
def regionFull (r : RegFile) (i : Nat) : Bool :=
  (getF r (F.ACQ_STRs_WPTR_wptr i) + 1) % max 1 (regionCap r i) == getF r (F.ACQ_STRs_RPTR_rptr i)

/-- Move what waits in queue 10 into the region while it has room (R220, R221). DEDUCED: log 56. -/
def drainStream (i : Nat) : List (BitVec 64) → Acq → Acq
  | [], q => { q with strs := vmod q.strs i fun x => { x with q := [] } }
  | v :: t, q =>
    if regionFull q.r i then { q with strs := vmod q.strs i fun x => { x with q := v :: t } }
    else drainStream i t (bufWrite i v q)

/-- A DMA ring's free entries, those waiting to be written counted as taken (R368). -/
def dmaRoom (h : Hst) (r : Nat) : Nat :=
  let size := 2 ^ getF h.r (F.HST_DMAr_CFG_size_log2 r)
  let used := (getF h.r (F.HST_DMAr_WPTR_wptr r) + size - getF h.r (F.HST_DMAr_RPTR_rptr r)) % size
  size - 1 - used - (vget h.dma r {}).q.length

/-- A ring accepts entries from source `src`: enabled, of that source, and the device may write (R363, R369). DEDUCED: log 55. -/
def dmaOpen (h : Hst) (r src : Nat) : Bool :=
  flag h.r (F.HST_DMAr_CFG_en r) && getF h.r (F.HST_DMAr_CFG_src r) == src && canPost h

/-- Entries of a DMA ring that waits hold this many credits of stream `i`. -/
def dmaHeld (h : Hst) (i : Nat) : Nat := (h.dma.toList.map fun d => (d.q.filter (·.1 == i)).length).sum

/-- A record for stream `i` finds a place: room in its DMA ring, in its region, or in queue 10; overwriting makes room
(R220, R221, R369). -/
def recordFits (i : Nat) (s : State) : Bool :=
  if flag s.acq.r (F.ACQ_STRs_CFG_dest i) then
    let ring := getF s.acq.r (F.ACQ_STRs_CFG_ring i)
    dmaOpen s.hst ring 1 && 0 < dmaRoom s.hst ring && dmaHeld s.hst i < 256
  else
    flag s.acq.r (F.ACQ_STRs_CFG_mode i) || ((vget s.acq.strs i {}).q.isEmpty && !regionFull s.acq.r i) ||
      (vget s.acq.strs i {}).q.length < 256

/-- A record is dropped (R220). DEDUCED: log 55. -/
def dropRecord (i : Nat) (s : State) : State :=
  let s := { s with acq := { s.acq with r := incF s.acq.r (F.ACQ_STRs_WPTR_lost i) 1,
                                         strs := vmod s.acq.strs i fun x => { x with gap := true } } }
  qOvr 10 0 1 s

/-- A record enters the stream's queue and goes on to its destination, or is dropped (R220, R221, R369). -/
def putRecord (i : Nat) (v : BitVec 64) (s : State) : State :=
  if flag s.acq.r (F.ACQ_STRs_CFG_dest i) then
    let ring := getF s.acq.r (F.ACQ_STRs_CFG_ring i)
    if recordFits i s then
      { s with hst := { s.hst with dma := vmod s.hst.dma ring fun d => { d with q := d.q ++ [(i, v)] } } }
    else
      dropRecord i { s with hst := { s.hst with r := incF s.hst.r (F.HST_DMAr_WPTR_lost ring) 1 } }
  else if flag s.acq.r (F.ACQ_STRs_CFG_mode i) then
    let q := if regionFull s.acq.r i then
        { s.acq with r := incF (setF s.acq.r (F.ACQ_STRs_RPTR_rptr i)
            ((getF s.acq.r (F.ACQ_STRs_RPTR_rptr i) + 1) % max 1 (regionCap s.acq.r i))) (F.ACQ_STRs_WPTR_lost i) 1 }
      else s.acq
    { s with acq := bufWrite i v q }
  else
    let x := vget s.acq.strs i {}
    if x.q.isEmpty && !regionFull s.acq.r i then { s with acq := bufWrite i v s.acq }
    else if recordFits i s then
      { s with acq := { s.acq with strs := vmod s.acq.strs i fun x => { x with q := x.q ++ [v] } } }
    else dropRecord i s

/-- A stream stops after its post-trip records (R222). -/
def stopStream (i : Nat) (s : State) : State :=
  irq 7 { s with acq := { s.acq with r := setFlag (setF s.acq.r (F.ACQ_STRs_CFG_en i) 0) (F.ACQ_STRs_CFG_trip_stop i),
                                      strs := vmod s.acq.strs i fun x => { x with left := none } } }

/-- A channel's record (R219): the stride's marker first, then the record, counted after a trip where it is written (R222). -/
def record (ain kind : Nat) (val : Word) (ref ow clip : Bool) (clk stride : Nat) (s : State) : State :=
  let i := getF s.acq.r (F.ACQ_CHn_CFG_stream ain)
  let x := vget s.acq.strs i {}
  if !flag s.acq.r (F.ACQ_STRs_CFG_en i) || x.left == some 0 then s
  else
    let s := if x.marked then s
      else putRecord i (recordBits (BitVec.ofNat 32 (strideCnt s)) 0 3 false false false x.gap 0 (strideCnt s)) s
    let gap := if x.marked then x.gap else false
    let s := { s with acq := { s.acq with strs := vmod s.acq.strs i fun x => { x with marked := true, gap := false } } }
    let fits := recordFits i s
    let s := putRecord i (recordBits val ain kind ref ow clip gap clk stride) s
    if fits then { s with acq := { s.acq with strs := vmod s.acq.strs i fun x => { x with left := x.left.map (· - 1) } } }
    else s

/-! ## The filter (R205, R208, R209) -/

/-- Sums of `n` consecutive values. -/
def boxSum (n : Nat) (l : List Int) : List Int :=
  let ps := l.foldl (fun (a : List Int × Int) x => ((a.2 + x) :: a.1, a.2 + x)) ([0], 0)
  let p := ps.1.reverse
  (p.drop n).zipWith (· - ·) p

/-- F in units of 2^−16 code (R205). -/
def filtered (order ratio : Nat) (codes : List Int) : Int :=
  let s := ((List.range order).foldl (fun l _ => boxSum ratio l) codes).headD 0
  let d : Int := (ratio : Int) ^ order
  (s * 65536 * 2 + d) / (2 * d)

/-- One step of the notch (R209) in the arithmetic of R108: output, new states. -/
def notchStep (coef : List Word) (s1 s2 x : Int) : Int × Int × Int :=
  let b := fun i => (coef.getD i 0).toInt
  let y := sat64 (b 0 * x + s1)
  (toSignal y, sat64 (b 1 * x - mulState (b 3) y + s2), sat64 (b 2 * x - mulState (b 4) y))

/-- The notch's states as if the input had always been `x` (R209). DESIGN CHOICE: log 53. -/
def notchPrime (coef : List Word) (x : Int) : Int × Int :=
  let b := fun i => (coef.getD i 0).toInt
  let den := 268435456 + b 3 + b 4
  let y : Int := if den = 0 then x * 268435456 else rround (((b 0 + b 1 + b 2) * x * 268435456 : Int) / (den : Rat))
  let s2 := sat64 (b 2 * x - mulState (b 4) y)
  (sat64 (b 1 * x - mulState (b 3) y + s2), s2)

/-- The result of a channel's complete window: F, the result with its flags, the channel with its notch advanced. -/
def chanResult (s : State) (a : Nat) : Int × Res × Chan :=
  let x := vget s.acq.chans a {}
  let c := chanOf s.acq.r a
  let f := filtered c.order c.ratio (x.win.map (·.code))
  let v0 := roundShr ((f - (kvGet s.acq.r (R.ACQ_CHn_CAL_OFS a)).toInt) * (kvGet s.acq.r (R.ACQ_CHn_CAL_GAIN a)).toInt) 20
  let v := satInt 32 v0
  let st := if x.primed || x.coef.isEmpty then (x.s1, x.s2) else notchPrime x.coef v
  let n := if x.coef.isEmpty then (v, x.s1, x.s2) else notchStep x.coef st.1 st.2 v
  let flags : BitVec 5 := BitVec.ofBool (v != v0) ++ BitVec.ofBool x.calDef ++
    BitVec.ofBool (x.win.any fun w => w.code == -8192 || w.code == 8191) ++ BitVec.ofBool (x.win.any (·.ow)) ++
    BitVec.ofBool (x.win.any (·.ref))
  (f, ⟨wordOf n.1, flags⟩, { x with win := [], s1 := n.2.1, s2 := n.2.2, primed := true, lastF := f })

/-! ## Queue 0 and what reads a result -/

/-- Remove the oldest entry of a channel. -/
def q0Drop (ain : Nat) : List Q0Entry → List Q0Entry
  | [] => []
  | e :: t => if e.ain == ain then t else e :: q0Drop ain t

/-- A result enters queue 0; without credit it replaces the oldest unread entry of its channel, and is itself lost where
there is none (R16). DEDUCED: log 50. DEDUCED: log 113. -/
def q0Put (e : Q0Entry) (s : State) : State :=
  let q := s.acq.q0
  if q.length < 512 then { s with acq := { s.acq with q0 := q ++ [e] } }
  else if q.any (·.ain == e.ain) then qOvr 0 0 1 { s with acq := { s.acq with q0 := q0Drop e.ain q ++ [e] } }
  else qOvr 0 0 1 s

/-- The open-wire test has channel `a` in a phase from `lo` to `hi` (R218). -/
def owPhase (s : State) (a lo hi : Nat) : Bool :=
  match s.acq.ow with
  | some t => lo ≤ t.phase && t.phase ≤ hi && t.chans.any (·.ain == a)
  | none => false

/-- A placed context has an input binding on channel `a`. DEDUCED: log 113. -/
def q0Wanted (s : State) (a : Nat) : Bool :=
  (List.range s.cea.ctxs.length).any fun c =>
    (s.plc.pl.ctx.getD c {}).placed && (s.cea.ctxs.getD c {}).cfg.ins.any fun b => b.kind == 1 && b.idx == a

/-- A running capture averages the result's F (R217). -/
def calTake (a : Nat) (f : Int) (q : Acq) : Acq :=
  match q.cal with
  | none => q
  | some c =>
    if c.ain ≠ a ∨ c.left = 0 then q
    else { q with cal := some { c with left := c.left - 1, sum := c.sum + f },
                  r := setF q.r F.ACQ_CAL_STAT_left (c.left - 1) }

/-- A running open-wire test averages F in its phases 1 and 3 (R218). -/
def owTake (a : Nat) (f : Int) (q : Acq) : Acq :=
  match q.ow with
  | none => q
  | some t =>
    let upd := fun (c : OwChan) =>
      if c.ain ≠ a then c
      else if t.phase = 1 ∧ c.n1 < t.m then { c with n1 := c.n1 + 1, sum1 := c.sum1 + f }
      else if t.phase = 3 ∧ c.n2 < t.m then { c with n2 := c.n2 + 1, sum2 := c.sum2 + f } else c
    { q with ow := some { t with chans := t.chans.map upd } }

/-- A channel's result becomes readable: registers, queue 0, captures, the open-wire test, its record (R206, R210, R219).
Published in phases 2 to 4 of the open-wire test it carries `ow` (R218). An entry that no placed binding is to read has
its credit back at once (R16). DEDUCED: log 113. -/
def publish (a : Nat) (f : Int) (res0 : Res) (s : State) : State :=
  let res : Res := { res0 with flags := if owPhase s a 2 4 then res0.flags ||| 2 else res0.flags }
  let r := setF (kvSet s.acq.r (R.ACQ_CHn_RES a) res.val) (F.ACQ_CHn_STAT_flags a) res.flags.toNat
  let q := owTake a f (calTake a f { s.acq with r := r })
  let s := { s with acq := { q with chans := vmod q.chans a fun x => { x with resAt := some (strideCnt s) } } }
  let s := if q0Wanted s a then q0Put ⟨a, res, strideTag s⟩ s else s
  let rec_ := getF s.acq.r (F.ACQ_CHn_CFG_rec a)
  if rec_ = 1 ∨ rec_ = 3 then
    record a 1 res.val (res.flags.getLsbD 0) (res.flags.getLsbD 1) (res.flags.getLsbD 2) 0 (strideCnt s) s
  else s

/-- The window of a channel is complete (R205). -/
def windowFull (s : State) (a : Nat) : Bool :=
  let x := vget s.acq.chans a {}
  x.present && chanW (chanOf s.acq.r a) ≤ x.win.length && !x.win.isEmpty

/-- The round of the window's last code is full: its lane has made all its conversions (R204). -/
def roundFull (s : State) (a : Nat) : Bool :=
  let w := (vget s.acq.chans a {}).win.getLastD {}
  w.stride != strideCnt s || w.round < (vget s.acq.lanes (a / 8) {}).seqCnt / max 1 (getF s.acq.r (F.ACQ_SEQl_n (a / 8)))

/-- CHANNEL_RESULT: a stride channel's result is written to queue 0; a slow channel's waits for its boundary (R206, R207). -/
def channelResult (a : Nat) (s : State) : State :=
  if !strides s || !windowFull s a || !roundFull s a || s.flt.fLane.getLsbD (a / 8) then s
  else
    let (f, res, x) := chanResult s a
    if x.slow then { s with acq := { s.acq with chans := vset s.acq.chans a { x with ready := some (res, f) } } }
    else publish a f res { s with acq := { s.acq with chans := vset s.acq.chans a x } }

/-! ## Conversions -/

/-- A conversion period begins in lane `l`: an urgent fetch where one waits, else the sequence position (R202, R214). The
sample mark's period is never displaced, and a stride of n clocks has floor(n / 8) periods (R29). -/
def convertLane (s : State) (l : Nat) (x : Lane) : Lane :=
  let seq := laneOf s.acq.r l
  if !x.running || seq.n = 0 || s.tbs.len / 8 ≤ x.period then x
  else if x.fetch && x.period ≠ 0 then
    let c : Conv := { ain := 8 * l + getF s.acq.r (F.ACQ_FETCH_CFGl_mux l), fetch := true, late := x.late,
                      clk := 8 * x.period, stride := strideCnt s }
    { x with period := x.period + 1, fetches := x.fetches + 1, fetch := false, late := false, pipe := x.pipe ++ [c] }
  else
    let c : Conv := { ain := 8 * l + seq.mux.getD (x.seqCnt % seq.n) 0, round := x.seqCnt / seq.n,
                      clk := 8 * x.period, stride := strideCnt s }
    { x with period := x.period + 1, seqCnt := x.seqCnt + 1, late := x.fetch, pipe := x.pipe ++ [c] }

/-- ADC_CONVERSION: a conversion period begins in every lane that converts (R202). -/
def adcConversion (s : State) : State :=
  if !strides s then s else { s with acq := { s.acq with lanes := vmapI s.acq.lanes (convertLane s) } }

/-- The fast limit judges a code of a channel (R212): it latches where the code is beyond a limit. The event is sent when
the latch is set where it was not. DEDUCED: log 54. -/
def judgeCode (a : Nat) (code : Int) (s : State) : State :=
  let c := chanOf s.acq.r a
  if !c.fast then s
  else
    let out : Bool := c.flimHi < code || code < c.flimLo
    let s := { s with acq := { s.acq with chans := vmod s.acq.chans a fun x => { x with beyond := out } } }
    if out && (flimReach s.img.str a).any fun p => !(vget s.pwm.ph p {}).flim.contains a then flimLatch a s else s

/-- The clock, from the mark of the conversion's stride, at which a window whose last code is that of conversion `c` has its
result: the round's last conversion has left the lane, and the filter is through (R206). `rest` is what follows `c` in its
lane. -/
def resultClk (s : State) (c : Conv) (rest : List Conv) : Nat :=
  let k := chanOf s.acq.r c.ain
  let seq := laneOf s.acq.r (c.ain / 8)
  let last := match rest.reverse.find? fun d => !d.fetch && d.stride == c.stride && d.round == c.round with
    | some d => d
    | none => c
  let more := seq.n - 1 - seq.mux.findIdx (· == last.ain % 8)
  72 + last.clk + 8 * more + 8 * (k.order + 8) + (if k.notch = 0 then 0 else 8)

/-- A sequence code joins its channel's window, one from each full round (R205, R207). -/
def windowAdd (s : State) (c : Conv) (rest : List Conv) (code : Int) (x : Chan) : Chan :=
  let W := chanW (chanOf s.acq.r c.ain)
  if c.partialRound || strideAge s x.winFrom < strideAge s c.stride || x.ready.isSome || W ≤ x.win.length ||
      (!x.slow && (c.stride != strideCnt s || W ≤ c.round)) then x
  else { x with win := x.win ++ [{ stride := c.stride, round := c.round, code := code,
                                   ref := !flag s.acq.r F.ACQ_STAT_ref_ready, ow := owPhase s c.ain 2 3 }],
                doneAt := (c.stride, resultClk s c rest) }

/-- The code of conversion `c` is judged, shown and recorded (R203, R212, R215, R219); `rest` follows it in its lane. -/
def takeCode (c : Conv) (rest : List Conv) (code : BitVec 14) (s : State) : State :=
  let a := c.ain
  let l := a / 8
  let v := code.toInt
  let s := if c.fetch then
      let r := setF (setF (setF (setFlag s.acq.r (F.ACQ_FETCH_RESl_valid l)) (F.ACQ_FETCH_RESl_late l) c.late.toNat)
        (F.ACQ_FETCH_RESl_clock l) c.clk) (F.ACQ_FETCH_RESl_code l) (v % 65536).toNat
      { s with acq := { s.acq with r := r } }
    else s
  if !(vget s.acq.chans a {}).present then s
  else
    let s := { s with acq := { s.acq with chans := vmod s.acq.chans a fun x => { x with lastRaw := some v } } }
    let s := judgeCode a v s
    let s := if c.fetch then s
      else { s with acq := { s.acq with chans := vmod s.acq.chans a (windowAdd s c rest v) } }
    if 2 ≤ getF s.acq.r (F.ACQ_CHn_CFG_rec a) then
      record a (if c.fetch then 2 else 0) (wordOf v) (!flag s.acq.r F.ACQ_STAT_ref_ready) (owPhase s a 2 3)
        (v == -8192 || v == 8191) c.clk c.stride s
    else s

/-- RAW_CODE_OUT: the oldest conversion of lane `l` leaves it (R203). A fenced lane delivers nothing (R213). -/
def rawCodeOut (l : Nat) (code : BitVec 14) (s : State) : State :=
  match (vget s.acq.lanes l {}).pipe with
  | [] => s
  | c :: t =>
    let s := { s with acq := { s.acq with lanes := vmod s.acq.lanes l fun x => { x with pipe := t } } }
    if s.flt.fLane.getLsbD l then s else takeCode c t code s

/-! ## The stride boundary -/

/-- The result of a slow channel's window was complete before the boundary that begins stride `strideCnt s` (R207). -/
def slowDone (s : State) (x : Chan) : Bool := x.doneAt.2 < strideAge s x.doneAt.1 * strideLen s

/-- A slow channel whose window's result is complete publishes at the boundary (R207). Its record comes ahead of those of
codes that leave their lanes in that clock. DESIGN CHOICE: log 114. -/
def slowPublish (a : Nat) (s : State) : State :=
  let x := vget s.acq.chans a {}
  if !x.present || !x.slow || !slowDone s x then s
  else
    let s := if x.ready.isNone && windowFull s a then channelResult a s else s
    match (vget s.acq.chans a {}).ready with
    | none => s
    | some (res, f) =>
      publish a f res { s with acq := { s.acq with chans := vmod s.acq.chans a fun x =>
        { x with ready := none, winFrom := strideCnt s } } }

/-- The end of the old stride in a lane: conversions of its partial round count for no window (R204). -/
def laneEnd (n : Nat) (x : Lane) : Lane :=
  if n = 0 then x
  else
    let full := x.seqCnt / n
    { x with pipe := x.pipe.map fun c => if !c.fetch && full ≤ c.round then { c with partialRound := true } else c }

/-- The channel at the boundary: codes of the old stride's partial round leave a slow window (R204); a stride channel's
window begins anew (R205); a lane that did not convert ends a slow window (R207). -/
def chanEnd (old n seqCnt : Nat) (ran runs released : Bool) (x : Chan) : Chan :=
  let x := if released then { x with primed := false } else x
  if !x.slow then { x with win := [], winFrom := old + 1 }
  else if !ran || !runs then { x with win := [], winFrom := old + 1, ready := none }
  else if n = 0 then x
  else { x with win := x.win.filter fun w => !(w.stride == old && seqCnt / n ≤ w.round) }

/-- A channel with `flim_en` set in a fenced lane counts its last raw sample as beyond limits; the latches of the phases it
reaches are set where it did not count so before, or where its lane is newly fenced (R213); `was` are the lanes fenced
before. -/
def fencedBeyond (was : BitVec 16) (s : State) : State :=
  foldN 128 (fun s a =>
    let x := vget s.acq.chans a {}
    if s.flt.fLane.getLsbD (a / 8) && x.present && (chanOf s.acq.r a).fast && (!x.beyond || !was.getLsbD (a / 8)) then
      flimLatch a { s with acq := { s.acq with chans := vmod s.acq.chans a fun x => { x with beyond := true } } }
    else s) s

/-- The lanes and channels at the boundary that begins stride `strideCnt s`: fences and releases, windows, publications of
slow channels, the mark (R202, R204, R207, R213). `was` are the lanes fenced before it, `old` the stride that ends. -/
def acqBoundary (was : BitVec 16) (old : Nat) (s : State) : State :=
  let now := s.flt.fLane
  let q := s.acq
  let chans := vmapI q.chans fun a x =>
    let l := a / 8
    let ln := vget q.lanes l {}
    chanEnd old (getF q.r (F.ACQ_SEQl_n l)) ln.seqCnt ln.running (laneConverts s l) (was.getLsbD l && !now.getLsbD l) x
  let lanes := vmapI q.lanes fun l x =>
    { laneEnd (getF q.r (F.ACQ_SEQl_n l)) x with
      period := 0, seqCnt := 0, fetches := 0, running := laneConverts s l,
      fetch := x.fetch && laneConverts s l, late := false }
  let s := { s with acq := { q with chans := chans, lanes := lanes, strs := q.strs.map fun x => { x with marked := false } } }
  fencedBeyond was (foldN 128 (fun s a => slowPublish a s) s)

/-- Each lane's reference check, once per stride (R213): `bad` are the lanes beyond ±0.5 %. -/
def laneRefCheck (bad : BitVec 16) (s : State) : State :=
  foldN 16 (fun s l => if bad.getLsbD l && lanePowered s l then raise (48 + l) l 255 s else s) s

/-! ## Host commands -/

/-- A write of `ACQ_FETCH_GO` (R214). -/
def fetchGo (lanes : BitVec 16) (s : State) : State :=
  { s with acq := foldN 16 (fun q l => if lanes.getLsbD l then fetchTrigger l q else q) s.acq }

/-- A write of `ACQ_REF.en` (R216): in IDLE and LOADED it applies, in COLD and SERVICE it sets `cfg_err`, elsewhere it is
ignored (R91). -/
def refEnable (en : Bool) (s : State) : State :=
  if opState s = 3 ∨ opState s = 4 then
    let r := setF s.acq.r F.ACQ_REF_en en.toNat
    { s with acq := { s.acq with r := if en then r else setF r F.ACQ_STAT_ref_ready 0 } }
  else if opState s < 3 then cfgErr 7 s
  else if flag s.acq.r F.ACQ_REF_en = en then s
  else wrIgnored 7 R.ACQ_REF s

/-- The reference buffer's timer expires (R216). -/
def refReady (s : State) : State :=
  if flag s.acq.r F.ACQ_REF_en then { s with acq := { s.acq with r := setFlag s.acq.r F.ACQ_STAT_ref_ready } } else s

/-- End a calibration with an error: `refused`, the code, the interrupt (R217, R364). -/
def calRefuse (err : Nat) (s : State) : State :=
  irq 7 { s with acq := { s.acq with r := setF (setFlag s.acq.r F.ACQ_CAL_STAT_refused) F.ACQ_CAL_STAT_err err } }

/-- A calibration command with `step` 1 or 2 (R217). -/
def calStart (full : Bool) (ain count : Nat) (s : State) : State :=
  if count = 0 then cfgErr 7 s
  else if opState s ≠ 4 then calRefuse 1 s
  else if !flag s.acq.r F.ACQ_STAT_ref_ready then calRefuse 2 s
  else if !(vget s.acq.chans ain {}).present then calRefuse 3 s
  else if s.acq.cal.isSome then calRefuse 4 s
  else
    { s with acq := { s.acq with cal := some { ain := ain, full := full, count := count, left := count },
                                  r := setF (setF (setFlag s.acq.r F.ACQ_CAL_STAT_busy) F.ACQ_CAL_STAT_left count)
                                    F.ACQ_CAL_STAT_err 0 } }

/-- The capture in progress is aborted (R217). -/
def calAbort (s : State) : State :=
  if s.acq.cal.isNone then s
  else calRefuse 7 { s with acq := { s.acq with cal := none, r := setF (setF s.acq.r F.ACQ_CAL_STAT_busy 0) F.ACQ_CAL_STAT_left 0 } }

/-- A capture that has averaged its results writes its value, or reports an error (R217). -/
def calComplete (s : State) : State :=
  match s.acq.cal with
  | none => s
  | some c =>
    if c.left ≠ 0 then s
    else
      let mean : Int := (2 * c.sum + c.count) / (2 * c.count)
      let s := { s with acq := { s.acq with cal := none, r := setF s.acq.r F.ACQ_CAL_STAT_busy 0 } }
      let finish := fun (q : Acq) =>
        irq 7 { s with acq := { q with r := setF (setFlag q.r F.ACQ_CAL_STAT_done) F.ACQ_CAL_STAT_err 0 } }
      if !c.full then finish { s.acq with r := kvSet s.acq.r (R.ACQ_CHn_CAL_OFS c.ain) (wordOf mean) }
      else
        let span := mean - (kvGet s.acq.r (R.ACQ_CHn_CAL_OFS c.ain)).toInt
        let gain := rround (((kvGet s.acq.r R.ACQ_CAL_FS).toInt * 1048576 : Int) / (span : Rat))
        if span.natAbs < 256 * 65536 then calRefuse 5 s
        else if gain ≠ satInt 32 gain then calRefuse 6 s
        else finish { s.acq with r := kvSet s.acq.r (R.ACQ_CHn_CAL_GAIN c.ain) (wordOf gain),
                                 chans := vmod s.acq.chans c.ain fun x => { x with calDef := false } }

/-- The channels in `ACQ_OW_MASKn`. -/
def owMasked (r : RegFile) : List Nat := (List.range 128).filter fun a => getMap r (R.ACQ_OW_MASKn 0) a

/-- Input `a` is the input of a kind 0x01 binding of a critical or normal context (R218). -/
def boundCritical (im : Img) (a : Nat) : Bool := im.ctxs.any fun c => c.cls ≤ 1 && c.ins.any fun b => b.kind == 1 && b.idx == a

/-- A start of an open-wire test (R218). -/
def owStart (s : State) : State :=
  let r := s.acq.r
  let as := owMasked r
  if s.acq.ow.isSome || (as.any fun a => getF r (F.ACQ_CHn_CFG_pull a) == 0) ||
      getF r F.ACQ_OW_CFG_ow_thr = 0 || getF r F.ACQ_OW_CFG_settle = 0 || getF r F.ACQ_OW_CFG_m = 0 ||
      (computing s && as.any (boundCritical s.img.str)) then
    { s with acq := { s.acq with r := setFlag r F.ACQ_OW_STAT_refused } }
  else
    { s with acq := { s.acq with
        ow := some { phase := 1, m := getF r F.ACQ_OW_CFG_m, settle := getF r F.ACQ_OW_CFG_settle,
                     thr := getF r F.ACQ_OW_CFG_ow_thr, chans := as.map fun a => { ain := a } },
        r := setF r F.ACQ_OW_STAT_phase 1 } }

/-- The test ends with the pulls off and no channel judged (R218). -/
def owAbort (s : State) : State :=
  if s.acq.ow.isNone then s
  else { s with acq := { s.acq with ow := none, r := setF s.acq.r F.ACQ_OW_STAT_phase 0 } }

/-- A tested channel is open: its two means differ by more than the threshold (R218). -/
def owOpen (thr : Nat) (c : OwChan) : Bool :=
  decide ((thr : Int) * 65536 * c.n1 * c.n2 < ((c.sum2 * c.n1 - c.sum1 * c.n2).natAbs : Int))

/-- The open-wire test ends and judges its channels (R218). -/
def owJudge (t : OwTest) (s : State) : State :=
  let found := (t.chans.filter (owOpen t.thr)).map (·.ain)
  let r := found.foldl (fun r a => putMap r (R.ACQ_OW_OPENn 0) a true) (setF s.acq.r F.ACQ_OW_STAT_phase 0)
  let r := setFlag (if found.isEmpty then r else setFlag r F.ACQ_OW_STAT_open_found) F.ACQ_OW_STAT_done
  irq 7 (found.foldl (fun s a => raise 21 a 255 s) { s with acq := { s.acq with ow := none, r := r } })

/-- A phase of the open-wire test ends: by averaging in phases 1 and 3, by its settling in 2 and 4 (R218). -/
def owPhaseComplete (s : State) : State :=
  match s.acq.ow with
  | none => s
  | some t =>
    let done := if t.phase = 1 then t.chans.all fun c => t.m ≤ c.n1
      else if t.phase = 3 then t.chans.all fun c => t.m ≤ c.n2
      else t.settle ≤ t.waited
    if !done then s
    else if t.phase = 4 then owJudge t s
    else { s with acq := { s.acq with ow := some { t with phase := t.phase + 1, waited := 0 },
                                       r := setF s.acq.r F.ACQ_OW_STAT_phase (t.phase + 1) } }

/-- One stride of settling passes (R218). -/
def owStride (q : Acq) : Acq :=
  { q with ow := q.ow.map fun t => if t.phase = 2 ∨ t.phase = 4 then { t with waited := t.waited + 1 } else t }

/-- STREAM_TRIP_STOP: the post-trip records of a stream are written (R222). -/
def streamTripStop (i : Nat) (s : State) : State :=
  if (vget s.acq.strs i {}).left = some 0 then stopStream i s else s

/-- The region of stream `i` overlaps another enabled internal region (R221). -/
def streamsOverlap (r : RegFile) (i : Nat) : Bool :=
  let reg := fun j => (getF r (F.ACQ_STRs_BUF_base j), getF r (F.ACQ_STRs_BUF_size j))
  !flag r (F.ACQ_STRs_CFG_dest i) && (List.range 4).any fun j =>
    j != i && flag r (F.ACQ_STRs_CFG_en j) && !flag r (F.ACQ_STRs_CFG_dest j) &&
      (reg i).1 < (reg j).1 + (reg j).2 && (reg j).1 < (reg i).1 + (reg i).2

/-- The check of a captured ACQ set (R212). -/
def acqJudge (q : Acq) (r : RegFile) : Nat :=
  let as := (List.range 128).filter fun a => (vget q.chans a {}).present
  let lim := fun a => (getFI r (F.ACQ_CHn_FLIM_flim_hi a), getFI r (F.ACQ_CHn_FLIM_flim_lo a))
  if as.any fun a => (lim a).1 < -8192 || 8191 < (lim a).1 || (lim a).2 < -8192 || 8191 < (lim a).2 then 1
  else if as.any fun a => (lim a).1 ≤ (lim a).2 then 2 else 0

/-! ## Commands -/

/-- ADC_CONVERSION. -/
def execAdcConversion (s : State) : Host.Outcome State Fault Refusal := whenCore adcConversion s
/-- RAW_CODE_OUT. -/
def execRawCodeOut (lane : Fin 16) (code : BitVec 14) (s : State) : Host.Outcome State Fault Refusal :=
  whenCore (rawCodeOut lane code) s
/-- CHANNEL_RESULT. -/
def execChannelResult (ain : Fin 128) (s : State) : Host.Outcome State Fault Refusal := whenCore (channelResult ain) s
/-- FETCH_GO: a host write of `ACQ_FETCH_GO`. -/
def execFetchGo (_path : Path) (lanes : BitVec 16) (s : State) : Host.Outcome State Fault Refusal := whenCore (fetchGo lanes) s
/-- REF_ENABLE: a host write of `ACQ_REF`. -/
def execRefEnable (_path : Path) (en : Bool) (s : State) : Host.Outcome State Fault Refusal := whenCore (refEnable en) s
/-- REF_READY. -/
def execRefReady (s : State) : Host.Outcome State Fault Refusal := whenCore refReady s
/-- CAL_ZERO: a host write of `ACQ_CAL_CMD` with `step` 1. -/
def execCalZero (_path : Path) (ain : Fin 128) (count : BitVec 16) (s : State) : Host.Outcome State Fault Refusal :=
  whenCore (calStart false ain count.toNat) s
/-- CAL_FULL_SCALE: the same with `step` 2. -/
def execCalFullScale (_path : Path) (ain : Fin 128) (count : BitVec 16) (s : State) : Host.Outcome State Fault Refusal :=
  whenCore (calStart true ain count.toNat) s
/-- CAL_ABORT: the same with `step` 3. -/
def execCalAbort (_path : Path) (s : State) : Host.Outcome State Fault Refusal := whenCore calAbort s
/-- CAL_CAPTURE_COMPLETE. -/
def execCalCaptureComplete (s : State) : Host.Outcome State Fault Refusal := whenCore calComplete s
/-- OW_START: a host write of `ACQ_OW_CMD.start`. -/
def execOwStart (_path : Path) (s : State) : Host.Outcome State Fault Refusal := whenCore owStart s
/-- OW_ABORT: a host write of `ACQ_OW_CMD.abort`. -/
def execOwAbort (_path : Path) (s : State) : Host.Outcome State Fault Refusal := whenCore owAbort s
/-- OW_PHASE_COMPLETE. -/
def execOwPhaseComplete (s : State) : Host.Outcome State Fault Refusal := whenCore owPhaseComplete s
/-- STREAM_TRIP_STOP. -/
def execStreamTripStop (str : Fin 4) (s : State) : Host.Outcome State Fault Refusal := whenCore (streamTripStop str) s

end Sys2Proof.Machine
end

