-- ==== Sys2Proof/Machine/Seq.lean ====
section
/-! DEFINITION. The rail sequencer (R408 to R414). -/
namespace Sys2Proof.Machine

/-- The rail that the registers describe (R410). -/
def railOf (r : RegFile) (n : Nat) : RailRec :=
  { slot := getF r (F.SEQ_RAILn_A_slot n), pgIn := getF r (F.SEQ_RAILn_A_pg_in n),
    depMask := BitVec.ofNat 16 (getF r (F.SEQ_RAILn_A_dep_mask n)), pgTo := getF r (F.SEQ_RAILn_B_pg_timeout n),
    fallTo := getF r (F.SEQ_RAILn_B_fall_timeout n), fallAin := getF r (F.SEQ_RAILn_C_fall_ain n),
    onStuck := getF r (F.SEQ_RAILn_C_on_stuck n), fallCode := getF r (F.SEQ_RAILn_C_fall_code n) }

/-- The table in the registers. -/
def railTable (r : RegFile) : List RailRec := (List.range (getF r F.SEQ_CFG_count)).map (railOf r)

/-- The table may be copied (R410): `count`, the rules of R73, and those of R77: distinct `pg_in`, and a channel entry for
every input that a `fall_ain` names. DEDUCED: log 93. -/
def tableOk (s : State) : Bool :=
  let r := s.seq.r
  let n := getF r F.SEQ_CFG_count
  let t := railTable r
  let dep := flag r F.SEQ_CFG_mode
  1 ≤ n && n ≤ 16 &&
    (t.all fun x => 1 ≤ x.pgTo && x.pgTo ≤ 10000 && 1 ≤ x.fallTo && x.fallTo ≤ 10000 &&
      (x.fallAin == 255 || (vget s.acq.chans x.fallAin {}).present) &&
      (let c := (BitVec.ofNat 16 x.fallCode).toInt; -8192 ≤ c && c ≤ 8191)) &&
    ((List.range n).all fun i => !((t.take i).map (·.pgIn)).contains (t.getD i {}).pgIn) &&
    (!dep || (((List.range n).all fun i => (t.getD i {}).depMask.toNat < 2 ^ n && !(t.getD i {}).depMask.getLsbD i) &&
      (railCycle t).isNone))

/-- The sequencer's state. -/
def seqState (q : Seq) : Nat := getF q.r F.SEQ_STAT_state

/-- Rail j follows rail i (R411). -/
def follows (q : Seq) (j i : Nat) : Bool :=
  if q.dep then (q.rails.getD j {}).cfg.depMask.getLsbD i
  else (q.rails.getD i {}).cfg.slot < (q.rails.getD j {}).cfg.slot

/-- A rail is good (R408). -/
def railGood (x : SeqRail) : Bool := 4 ≤ x.goodCnt

/-- The condition to enable rail j in power-up (R411). -/
def upCond (q : Seq) (j : Nat) : Bool :=
  (List.range q.rails.length).all fun i => !follows q j i || railGood (q.rails.getD i {})

/-- The condition to disable rail j in power-down (R411). -/
def downCond (q : Seq) (j : Nat) : Bool :=
  (List.range q.rails.length).all fun i =>
    let x := q.rails.getD i {}
    !(x.inDown && follows q i j) || x.fallen

/-- Ticks since a condition became true. -/
def age (cond : Bool) (w : Option Nat) : Option Nat :=
  if cond then some (match w with
    | some n => n + 1
    | none => 0) else none

/-- The gap of an action has passed. DEDUCED: log 93. -/
def gapOver (gap : Nat) (w : Option Nat) : Bool :=
  match w with
  | some n => gap ≤ n
  | none => false

/-- Set the sequencer's state; OFF, ON and HELD raise the board's cause. -/
def setSeqState (st : Nat) (s : State) : State :=
  let s := { s with seq := { s.seq with r := setF s.seq.r F.SEQ_STAT_state st, fin := none } }
  if st = 0 ∨ st = 2 ∨ st = 4 then irq 12 s else s

/-- Send an event of rail `i` to source 27, a flag set with it (R412, R413). -/
def railEvent (i : Nat) (s : State) : State :=
  raise 27 255 i { s with seq := { s.seq with r := setF s.seq.r F.SEQ_STAT_last_rail i } }

/-- Start a power-down from the rails enabled (R411, R413): conditions already true count as met. -/
def startDown (s : State) : State :=
  let q0 := s.seq
  let mark (x : SeqRail) : SeqRail := { x with inDown := x.en, fallen := false, stuck := false, wait := none }
  let q1 : Seq := { q0 with rails := q0.rails.map mark }
  let met (j : Nat) (x : SeqRail) : SeqRail := if downCond q1 j then { x with wait := some q1.gap } else x
  let rails := q1.rails.mapIdx met
  let s := setSeqState 3 { s with seq := { q1 with rails := rails } }
  { s with seq := { s.seq with fin := if rails.any (·.inDown) then none else some q1.gap } }

/-- An on command in OFF: copy the table and start the power-up, or refuse it (R410). -/
def startUp (s : State) : State :=
  let r := s.seq.r
  if !tableOk s then irq 12 { s with seq := { s.seq with r := setFlag r F.SEQ_STAT_bad_table } }
  else
    let gap := getF r F.SEQ_CFG_gap
    let q := { s.seq with dep := flag r F.SEQ_CFG_mode, gap := gap, rails := (railTable r).map fun c => { cfg := c } }
    let rails := q.rails.mapIdx fun j x => if upCond q j then { x with wait := some gap } else x
    setSeqState 1 { s with seq := { q with rails := rails } }

/-- SEQ_ON (R410, R413). DEDUCED: log 93. -/
def seqOn (s : State) : State :=
  match seqState s.seq with
  | 0 => startUp { s with seq := { s.seq with r := setF s.seq.r F.SEQ_STAT_on_pending 0 } }
  | 3 => { s with seq := { s.seq with r := setFlag s.seq.r F.SEQ_STAT_on_pending } }
  | 4 => irq 12 { s with seq := { s.seq with r := setFlag s.seq.r F.SEQ_STAT_cmd_refused } }
  | _ => s

/-- SEQ_OFF (R413). -/
def seqOff (s : State) : State :=
  match seqState s.seq with
  | 1 => startDown s
  | 2 => startDown s
  | 4 =>
    let s := setSeqState 3 s
    { s with seq := { s.seq with rails := s.seq.rails.map fun x => if x.stuck then { x with stuck := false, downAge := 0 } else x } }
  | _ => { s with seq := { s.seq with r := setF s.seq.r F.SEQ_STAT_on_pending 0 } }

/-- The fall test of a rail, and whether its power-good input stands in for its analog input (R408). -/
def fallTest (s : State) (pg : BitVec 16) (c : RailRec) : Bool × Bool :=
  let low := !pg.getLsbD c.pgIn
  if c.fallAin = 255 then (low, false)
  else
    let x := vget s.acq.chans c.fallAin {}
    match (if x.present && (vget s.acq.lanes (c.fallAin / 8) {}).running then x.lastRaw else none) with
    | some v => (v ≤ (BitVec.ofNat 16 c.fallCode).toInt, false)
    | none => (low, true)

/-- Sample one rail at a tick (R408). -/
def sampleRail (s : State) (pg : BitVec 16) (x : SeqRail) : SeqRail :=
  let cnt := if pg.getLsbD x.cfg.pgIn then min 4 (x.goodCnt + 1) else 0
  let met := (fallTest s pg x.cfg).1
  { x with goodCnt := cnt, goodSince := x.goodSince || (x.en && cnt == 4),
           fallCnt := if !met || (x.en && !x.goodSince) then 0 else min 4 (x.fallCnt + 1),
           upAge := if x.en then x.upAge + 1 else x.upAge,
           downAge := if !x.en && x.inDown then x.downAge + 1 else x.downAge }

/-- The rails that were good before a tick and are not after it. -/
def goneBad (old new : List SeqRail) : List Nat :=
  (List.range new.length).filter fun i => railGood (old.getD i {}) && !railGood (new.getD i {})

/-- Power-up fails at the rails `l` (R412). -/
def powerUpFail (l : List Nat) (s : State) : State :=
  let s := l.foldl (fun s i => railEvent i s) { s with seq := { s.seq with r := setFlag s.seq.r F.SEQ_STAT_pu_fail } }
  startDown (irq 12 s)

/-- The actions of a power-up tick (R411). -/
def upActions (s : State) : State :=
  let q := s.seq
  let act := fun j (x : SeqRail) =>
    if x.en then x
    else
      let w := age (upCond q j) x.wait
      if gapOver q.gap w then { x with en := true, wait := none, upAge := 0, goodSince := railGood x, fallCnt := 0 }
      else { x with wait := w }
  let fin := age (q.rails.all railGood) q.fin
  let s := { s with seq := { q with rails := q.rails.mapIdx act, fin := fin } }
  if gapOver q.gap fin then setSeqState 2 s else s

/-- The rails that count as fallen from this tick on (R408, R413). -/
def newFallen (q : Seq) : List Nat :=
  (List.range q.rails.length).filter fun i =>
    let x := q.rails.getD i {}
    x.inDown && !x.fallen && 4 ≤ x.fallCnt

/-- A rail falls: out of order while its enable is still high (R413). -/
def railFalls (s : State) (i : Nat) : State :=
  let x := s.seq.rails.getD i {}
  let s := { s with seq := { s.seq with rails := s.seq.rails.set i { x with fallen := true } } }
  if !x.en then s
  else irq 12 (railEvent i { s with seq := { s.seq with r := putBit s.seq.r R.SEQ_FLAGS (16 + i) true } })

/-- The actions of a power-down tick (R411). -/
def downActions (pg : BitVec 16) (s : State) : State :=
  let s := (newFallen s.seq).foldl railFalls s
  let q := s.seq
  let act := fun j (x : SeqRail) =>
    if !x.en then x
    else
      let w := age (downCond q j) x.wait
      if gapOver q.gap w then
        { x with en := false, wait := none, downAge := 0,
                 fallCnt := if x.goodSince then x.fallCnt else if (fallTest s pg x.cfg).1 then 1 else 0 }
      else { x with wait := w }
  let fin := age (q.rails.all fun x => !x.inDown || x.fallen) q.fin
  let rails := q.rails.mapIdx act
  if gapOver q.gap fin then setSeqState 0 { s with seq := { q with rails := rails.map fun x => { x with en := false } } }
  else { s with seq := { q with rails := rails, fin := fin } }

/-- The rails that stop being good while the state is ON (R412). -/
def railLost (s : State) (i : Nat) : State :=
  irq 12 (railEvent i { s with seq := { s.seq with r := putBit s.seq.r R.SEQ_FLAGS i true } })

/-- SEQ_TICK: the rails are sampled at `pg`, and every action whose gap has passed is taken (R408, R411 to R413). -/
def seqTick (pg : BitVec 16) (s : State) : State :=
  if !s.sys.up then s
  else
    let s := if seqState s.seq = 0 ∧ flag s.seq.r F.SEQ_STAT_on_pending then seqOn s else s
    let old := s.seq.rails
    let rails := old.map (sampleRail s pg)
    let sub := rails.any fun x => (fallTest s pg x.cfg).2
    let s := { s with seq := { s.seq with rails := rails, r := setF s.seq.r F.SEQ_STAT_fall_src sub.toNat } }
    let bad := goneBad old rails
    match seqState s.seq with
    | 1 => if bad.isEmpty then upActions s else powerUpFail bad s
    | 2 => bad.foldl railLost s
    | 3 => downActions pg s
    | _ => s

/-- PG_TIMEOUT: a rail not good within `pg_timeout` of its enable (R412). -/
def pgTimeout (i : Nat) (s : State) : State :=
  let x := s.seq.rails.getD i {}
  if seqState s.seq = 1 ∧ x.en ∧ ¬ x.goodSince ∧ 100 * x.cfg.pgTo ≤ x.upAge then powerUpFail [i] s else s

/-- FALL_TIMEOUT: a rail not fallen within `fall_timeout` of its enable going low (R413). -/
def fallTimeout (i : Nat) (s : State) : State :=
  let x := s.seq.rails.getD i {}
  if seqState s.seq ≠ 3 ∨ x.en ∨ ¬ x.inDown ∨ x.fallen ∨ x.downAge < 100 * x.cfg.fallTo then s
  else if x.cfg.onStuck = 0 then
    let r := setFlag s.seq.r F.SEQ_STAT_stuck
    setSeqState 4 (railEvent i { s with seq := { s.seq with r := r, rails := s.seq.rails.set i { x with stuck := true } } })
  else railEvent i { s with seq := { s.seq with rails := s.seq.rails.set i { x with fallen := true } } }

/-- A clear of source 27 is refused (R414). -/
def railHolds (q : Seq) : Bool := seqState q == 2 && q.rails.any fun x => x.en && !railGood x

/-- `SEQ_RAILS` shows the enables and what is good. -/
def seqRails (q : Seq) : Word :=
  let l := (List.range 16).filter fun i => railGood (q.rails.getD i {})
  let e := (List.range 16).filter fun i => (q.rails.getD i {}).en
  ofBits 32 (l ++ e.map (· + 16))

/-! ## Commands -/

/-- SEQ_ON: a host write of `SEQ_CMD` 1. -/
def execSeqOn (_path : Path) (s : State) : Host.Outcome State Fault Refusal := whenUp seqOn s
/-- SEQ_OFF: a host write of `SEQ_CMD` 2. -/
def execSeqOff (_path : Path) (s : State) : Host.Outcome State Fault Refusal := whenUp seqOff s
/-- SEQ_TICK. -/
def execSeqTick (pg : BitVec 16) (s : State) : Host.Outcome State Fault Refusal := whenUp (seqTick pg) s
/-- PG_TIMEOUT. -/
def execPgTimeout (rail : Fin 16) (s : State) : Host.Outcome State Fault Refusal := whenUp (pgTimeout rail) s
/-- FALL_TIMEOUT. -/
def execFallTimeout (rail : Fin 16) (s : State) : Host.Outcome State Fault Refusal := whenUp (fallTimeout rail) s

end Sys2Proof.Machine
end

