-- ==== Sys2Proof/Machine/Nvm.lean ====
section
/-! DEFINITION. The nonvolatile store (R427 to R440): its regions, tally counters, passwords and locks, host commands. -/
namespace Sys2Proof.Machine

/-! ## Layout (R427, R428) -/

def nvmSlot (n : Nat) : Nat := 0x1C000 * n
def nvmLog (i : Nat) : Nat := 0x38000 + 16 * i
def nvmCtl : Nat := 0x3C000
def nvmKey (k : Nat) : Nat := 0x3C040 + 64 * k
def nvmPw : Nat := 0x3C140
def nvmIdent : Nat := 0x3C180
def nvmCal : Nat := 0x3C200
def nvmCtr (n i : Nat) : Nat := 0x3C600 + 512 * n + 8 * i
def nvmUser : Nat := 0x3D600

/-- The little-endian 32-bit word at `a`. -/
def nvmWord (m : Memory) (a : Nat) : Nat :=
  (m.read a).toNat + 256 * (m.read (a + 1)).toNat + 65536 * (m.read (a + 2)).toNat + 16777216 * (m.read (a + 3)).toNat

/-- The active slot, and whether a slot holds a valid copy (R428). -/
def nvmActive (m : Memory) : Nat := if m.read nvmCtl = 1 then 1 else 0
def nvmValid (m : Memory) (slot : Nat) : Bool := m.read (nvmCtl + 1 + slot) == 0xA5

/-- Authentication is required of every image (R428, R87). -/
def nvmAuthReq (m : Memory) : Bool := m.read (nvmCtl + 3) == 0x5A

/-- The public key of slot `k`; none where the slot is empty (R429). -/
def nvmKeyOf (m : Memory) (k : Nat) : Option (Nat × Nat) :=
  let b := m.readBytes (nvmKey k) 64
  if 3 < k ∨ b.all (· == 0) then none else some (beNat (b.take 32), beNat (b.drop 32))

/-- The store holds an identity: the count of its VDOs (R430). -/
def nvmIdCount (m : Memory) : Nat :=
  let n := (m.read nvmIdent).toNat
  if 1 ≤ n ∧ n ≤ 6 then n else 0

/-- The region of an address that the host may read and write: reads always, with the read lock open, never; writes with
the write lock open (R427). -/
def hostReads (rdOpen : Bool) (a : Nat) : Bool :=
  if nvmPw ≤ a ∧ a < nvmPw + 64 then false
  else if (nvmCal ≤ a ∧ a < nvmCal + 1024) ∨ nvmUser ≤ a then rdOpen else true

/-- The address lies in a gated region, where a read under a closed lock is refused (R438). -/
def readGated (a : Nat) : Bool := (nvmCal ≤ a ∧ a < nvmCal + 1024) ∨ nvmUser ≤ a

/-- The host may write the byte, given the write lock is open (R427). -/
def hostWrites (a : Nat) : Bool :=
  a == nvmCtl + 3 || (nvmKey 0 ≤ a && a < nvmPw) || (nvmIdent ≤ a && a < nvmCal + 1024) || (nvmUser ≤ a && a < 0x40000)

/-! ## Tally counters (R435) -/

/-- The value that cell `i` of counter `n` holds, if the cell is valid. -/
def ctrCell (m : Memory) (n i : Nat) : Option Nat :=
  let u := nvmWord m (nvmCtr n i)
  if nvmWord m (nvmCtr n i + 4) = 4294967295 - u ∧ u % 64 = i then some u else none

/-- The value of counter `n`. -/
def ctrValue (m : Memory) (n : Nat) : Nat :=
  (List.range 64).foldl (fun v i => match ctrCell m n i with
    | some u => max v u
    | none => v) 0

/-- The bytes, in order, of an increment of counter `n`. -/
def ctrBytes (m : Memory) (n : Nat) : List (Nat × Byte) :=
  let v := ctrValue m n + 1
  let a := nvmCtr n (v % 64)
  let w := wordBytes (BitVec.ofNat 32 v) ++ wordBytes (BitVec.ofNat 32 (4294967295 - v))
  (List.range 8).map fun i => (a + i, w.getD i 0)

/-- Write bytes in order. -/
def putBytes (m : Memory) (l : List (Nat × Byte)) : Memory := l.foldl (fun m p => m.write p.1 p.2) m

/-- The counter can be incremented. -/
def ctrCan (m : Memory) (n : Nat) : Bool := ctrValue m n < 4294967295

/-- Increment counter `n`, where it is not saturated (R435). -/
def ctrIncr (m : Memory) (n : Nat) : Memory := if ctrCan m n then putBytes m (ctrBytes m n) else m

/-! ## Passwords (R436): two copies and a selector byte each -/

/-- The place of copy `c` of the read (0) or write (1) password, and of its selector. -/
def pwAddr (write : Bool) (c : Nat) : Nat := nvmPw + 16 * write.toNat + 8 * c
def pwSel (write : Bool) : Nat := nvmPw + 32 + write.toNat

/-- The selected copy. -/
def pwCopy (m : Memory) (write : Bool) : Nat := if m.read (pwSel write) = 1 then 1 else 0

/-- The password in force. -/
def password (m : Memory) (write : Bool) : BitVec 64 :=
  let a := pwAddr write (pwCopy m write)
  BitVec.ofNat 64 (nvmWord m a + 4294967296 * nvmWord m (a + 4))

/-- The bytes, in order, that set a password: the copy that is not selected, then the selector. -/
def pwBytes (m : Memory) (write : Bool) (v : BitVec 64) : List (Nat × Byte) :=
  let c := 1 - pwCopy m write
  ((List.range 8).map fun i => (pwAddr write c + i, v.extractLsb' (8 * i) 8)) ++ [(pwSel write, BitVec.ofNat 8 c)]

/-! ## Commands -/

/-- End a command with `done`, or refuse one with its code (R440). -/
def nvmDone (s : State) : State := irq 13 { s with nvm := { s.nvm with r := setFlag s.nvm.r F.NVM_STAT_done } }
def nvmRefuse (err : Nat) (s : State) : State :=
  irq 13 { s with nvm := { s.nvm with r := setF (setFlag s.nvm.r F.NVM_STAT_refused) F.NVM_STAT_err err } }

/-- A store of the loader runs. -/
def storeRuns (s : State) : Bool :=
  match s.img.job with
  | some (.store _) => true
  | _ => false

/-- A host command is queued for the write engine. -/
def nvmQueue (c : NvmCmd) (s : State) : State :=
  { s with nvm := { s.nvm with cmds := s.nvm.cmds ++ [c], r := setFlag s.nvm.r F.NVM_STAT_busy } }

/-- The password registers, and their clearing (R437). -/
def pwArg (s : State) : BitVec 64 := kvGet s.nvm.r R.NVM_PW_HI ++ kvGet s.nvm.r R.NVM_PW_LO
def pwWipe (s : State) : State :=
  { s with nvm := { s.nvm with r := kvSet (kvSet s.nvm.r R.NVM_PW_LO 0) R.NVM_PW_HI 0 } }

/-- The bytes that a page write command names: store address and byte (R433). -/
def pageBytes (r : RegFile) : List (Nat × Byte) :=
  let base := 64 * getF r F.NVM_ADDR_page
  ((List.range 64).filter fun i => getMap r R.NVM_MASK_LO i).map fun i =>
    (base + i, (kvGet r (R.NVM_BUFn (i / 4))).extractLsb' (8 * (i % 4)) 8)

/-- Command 1 (R433, R434). DEDUCED: log 96. -/
def nvmWritePage (s : State) : State :=
  let l := pageBytes s.nvm.r
  if l.any fun p => !hostWrites p.1 then nvmRefuse 2 s
  else if !flag s.nvm.r F.NVM_STAT_wr_unlocked then nvmRefuse 1 s
  else if !s.nvm.cmds.isEmpty || storeRuns s then nvmRefuse 3 s
  else if l.isEmpty then nvmRefuse 7 s
  else nvmQueue (.writePage l) s

/-- Commands 2 and 3: compare the password (R437). DEDUCED: log 96. -/
def nvmUnlock (write : Bool) (s : State) : State :=
  let f := if write then F.NVM_STAT_wr_unlocked else F.NVM_STAT_rd_unlocked
  let ok := pwArg s == password s.nvm.mem write
  let s := pwWipe s
  if flag s.nvm.r F.NVM_STAT_pw_backoff then nvmRefuse 5 s
  else if ok then nvmDone { s with nvm := { s.nvm with fails := 0, r := setFlag s.nvm.r f } }
  else
    let n := s.nvm.fails + 1
    let r := if 4 ≤ n then setFlag s.nvm.r F.NVM_STAT_pw_backoff else s.nvm.r
    raise 30 255 255 (nvmRefuse 4 { s with nvm := { s.nvm with fails := n, mem := ctrIncr s.nvm.mem 3, r := r } })

/-- Close both locks, except one whose password is 0 (R436, R437). -/
def closeLocks (n : Nvm) : Nvm :=
  let r := if password n.mem false = 0 then setFlag n.r F.NVM_STAT_rd_unlocked else setF n.r F.NVM_STAT_rd_unlocked 0
  { n with r := if password n.mem true = 0 then setFlag r F.NVM_STAT_wr_unlocked else setF r F.NVM_STAT_wr_unlocked 0 }

/-- Command 4: at once, or when a page write that runs is complete (R439). -/
def nvmLock (s : State) : State :=
  if s.nvm.cmds.isEmpty then nvmDone { s with nvm := closeLocks s.nvm } else nvmQueue .lock s

/-- Commands 5 and 6 (R436). -/
def nvmSetPw (write : Bool) (s : State) : State :=
  let v := pwArg s
  let rd := flag s.nvm.r F.NVM_STAT_rd_unlocked
  let s := pwWipe s
  if !flag s.nvm.r F.NVM_STAT_wr_unlocked || (!write && !rd) then nvmRefuse 1 s
  else if !s.nvm.cmds.isEmpty || storeRuns s then nvmRefuse 3 s
  else nvmQueue (.setPw write v) s

/-- Command 7 (R435). -/
def nvmIncr (c : Nat) (s : State) : State :=
  if c < 4 ∨ 7 < c then nvmRefuse 7 s
  else if !ctrCan s.nvm.mem c then nvmRefuse 6 s
  else nvmQueue (.incr c) s

/-- The bytes, in order, that a command writes. -/
def nvmCmdBytes (m : Memory) : NvmCmd → List (Nat × Byte)
  | .writePage l => l
  | .lock => []
  | .setPw w v => pwBytes m w v
  | .incr c => if ctrCan m c then ctrBytes m c else []

/-- NVM_COMMAND_COMPLETE: the oldest host command ends (R440). -/
def nvmComplete (s : State) : State :=
  match s.nvm.cmds with
  | [] => s
  | c :: t =>
    let r := if t.isEmpty then setF s.nvm.r F.NVM_STAT_busy 0 else s.nvm.r
    let n := { s.nvm with cmds := t, r := r, mem := putBytes s.nvm.mem (nvmCmdBytes s.nvm.mem c) }
    match c with
    | .lock => nvmDone { s with nvm := closeLocks n }
    | .incr k => if ctrCan s.nvm.mem k then nvmDone { s with nvm := n } else nvmRefuse 6 { s with nvm := n }
    | _ => nvmDone { s with nvm := n }

/-- PW_BACKOFF_END (R437). DESIGN CHOICE: log 11. -/
def pwBackoffEnd (s : State) : State :=
  { s with nvm := { s.nvm with fails := 0, r := setF s.nvm.r F.NVM_STAT_pw_backoff 0 } }

/-- The `seq` of entry `i` of the log, where the entry is valid. -/
def nvmLogSeq (m : Memory) (i : Nat) : Option Nat :=
  if m.read (nvmLog i + 11) = 0x5A then some (nvmWord m (nvmLog i + 12)) else none

/-- The index after the valid log entry with the highest `seq` (R432); of several with it, which one happening left, after the last in
the log's order. DEDUCED: log 97. -/
def nvmLogNext (m : Memory) : Nat :=
  let best := (List.range 1024).foldl (fun (a : Option Nat) i =>
    match a, nvmLogSeq m i with
    | some x, some q => some (max x q)
    | none, q => q
    | a, none => a) none
  if best.isNone then 0
  else match (List.range 1024).find? fun i => nvmLogSeq m i == best && nvmLogSeq m ((i + 1) % 1024) != best with
    | some i => (i + 1) % 1024
    | none => 0

/-- The power-up scan (R432): the log's position and `seq`, counter 1, `ready`. -/
def nvmScan (s : State) : State :=
  if !s.sys.up || flag s.nvm.r F.NVM_STAT_ready then s
  else
    let m := s.nvm.mem
    let fr := setF (setF s.flt.r F.FLT_SEQ_seq (ctrValue m 0)) F.FLT_NVLOG_STAT_next (nvmLogNext m)
    { s with nvm := { s.nvm with mem := ctrIncr m 1, r := setFlag s.nvm.r F.NVM_STAT_ready },
             flt := { s.flt with r := fr } }

/-- The store's registers at a reset; its memory stays (R436, R437). -/
def nvmReset (n : Nvm) : Nvm := closeLocks { mem := n.mem }

/-- A host write of `NVM_CMD` (R433, R435 to R437); commands 8 to 15 are refused with `err` 7. -/
def nvmCmdWrite (val : Word) (s : State) : State :=
  match val.toNat % 16 with
  | 0 => s
  | 1 => nvmWritePage s
  | 2 => nvmUnlock false s
  | 3 => nvmUnlock true s
  | 4 => nvmLock s
  | 5 => nvmSetPw false s
  | 6 => nvmSetPw true s
  | 7 => nvmIncr (val.toNat / 256 % 8) s
  | _ => nvmRefuse 7 s

/-- The store as a window read finds it: of the bytes that a host command is writing, any number of them, in order, reads new (R433).
DESIGN CHOICE: log 21. -/
def nvmSeen (s : State) : Memory × State :=
  match s.nvm.cmds with
  | [] => (s.nvm.mem, s)
  | c :: _ =>
    let l := nvmCmdBytes s.nvm.mem c
    let (w, s1) := drawFree s
    (putBytes s.nvm.mem (l.take (w.toNat % (l.length + 1))), s1)

/-- The byte that the host reads at store address `a` of what it sees of the store (R427, R438). -/
def nvmHostByte (s : State) (m : Memory) (a : Nat) : Byte :=
  if hostReads (flag s.nvm.r F.NVM_STAT_rd_unlocked) a then m.read a else 0

/-- The store address that the window shows at block offset `ofs`. -/
def nvmWinAddr (s : State) (ofs : Nat) : Nat := getF s.nvm.r F.NVM_WIN_PAGE_page * 0x8000 + (ofs - 0x8000)

/-- A read of the window: the word it shows; under a closed read lock the read is refused (R433, R438). DEDUCED: log 97. -/
def nvmWinRead (ofs : Nat) (s : State) : Word × State :=
  let a := nvmWinAddr s ofs
  let (m, s1) := nvmSeen s
  let b := nvmHostByte s m
  (le32 (b a) (b (a + 1)) (b (a + 2)) (b (a + 3)),
    if readGated a && !flag s.nvm.r F.NVM_STAT_rd_unlocked then nvmRefuse 1 s1 else s1)

/-! ## Commands -/

/-- NVM_WRITE_PAGE: a host write of `NVM_CMD` 1. -/
def execNvmWritePage (_path : Path) (s : State) : Host.Outcome State Fault Refusal := whenUp nvmWritePage s
/-- NVM_UNLOCK_READ: command 2. -/
def execNvmUnlockRead (_path : Path) (s : State) : Host.Outcome State Fault Refusal := whenUp (nvmUnlock false) s
/-- NVM_UNLOCK_WRITE: command 3. -/
def execNvmUnlockWrite (_path : Path) (s : State) : Host.Outcome State Fault Refusal := whenUp (nvmUnlock true) s
/-- NVM_LOCK: command 4. -/
def execNvmLock (_path : Path) (s : State) : Host.Outcome State Fault Refusal := whenUp nvmLock s
/-- NVM_SET_READ_PASSWORD: command 5. -/
def execNvmSetReadPassword (_path : Path) (s : State) : Host.Outcome State Fault Refusal := whenUp (nvmSetPw false) s
/-- NVM_SET_WRITE_PASSWORD: command 6. -/
def execNvmSetWritePassword (_path : Path) (s : State) : Host.Outcome State Fault Refusal := whenUp (nvmSetPw true) s
/-- NVM_INCREMENT: command 7. -/
def execNvmIncrement (_path : Path) (ctr : Fin 8) (s : State) : Host.Outcome State Fault Refusal := whenUp (nvmIncr ctr) s
/-- NVM_COMMAND_COMPLETE. -/
def execNvmCommandComplete (s : State) : Host.Outcome State Fault Refusal := whenUp nvmComplete s
/-- PW_BACKOFF_END. -/
def execPwBackoffEnd (s : State) : Host.Outcome State Fault Refusal := whenUp pwBackoffEnd s
/-- NVM_POWER_UP_SCAN. -/
def execNvmPowerUpScan (s : State) : Host.Outcome State Fault Refusal := whenUp nvmScan s

end Sys2Proof.Machine
end

