-- ==== Sys2Proof/Machine/Placement.lean ====
section
/-! DEFINITION. Context placement (R127 to R145): the placement order, the assignment, the bounds, the packing check,
re-placement and the loss analysis. `df` gives the nominal d_f of an analog input (R206), `C` the commit clock. -/
namespace Sys2Proof.Machine

/-- The place of context `c`. -/
def Placement.at_ (p : Placement) (c : Nat) : Place := p.ctx.getD c {}

/-- Change the place of context `c`. -/
def Placement.put (p : Placement) (c : Nat) (f : Place → Place) : Placement := { p with ctx := p.ctx.modify c f }

/-- Take the lowest-numbered context of class `cls` whose same-stride producers have all been taken, `n` times. -/
def orderClass (cs : List CtxRec) (cls : Nat) : Nat → List Nat → List Nat
  | 0, taken => taken
  | n + 1, taken =>
    match (List.range cs.length).find? fun c =>
      let r := cs.getD c {}
      r.cls == cls && !taken.contains c && (producers r).all fun q => taken.contains q with
    | some c => orderClass cs cls n (taken ++ [c])
    | none => taken

/-- The placement order (R132). -/
def placeOrder (cs : List CtxRec) : List Nat :=
  [0, 1, 2].foldl (fun t cls => orderClass cs cls cs.length t) []

/-- The estimated ready clock of a context (R133). -/
def estReady (cs : List CtxRec) (df : Nat → Nat) (p : Placement) (c : Nat) : Nat :=
  (cs.getD c {}).ins.foldl (fun r b =>
    if b.kind == 1 then max r (72 + df b.idx)
    else if b.kind == 2 && !b.prev then max r ((p.at_ (b.idx / 4)).estDone + 2) else r) 64

/-- Engine `e` comes before engine `e'` for a context ready at `r` with `wc` clocks: completion, load, number (R133). -/
def engBefore (p : Placement) (r wc e e' : Nat) : Bool :=
  let k := fun e => max (vget p.free e 64) r + wc - 1
  k e < k e' || (k e == k e' && (vget p.load e 0 < vget p.load e' 0 || (vget p.load e 0 == vget p.load e' 0 && e < e')))

/-- Assign context `c` to one of the engines (R133). -/
def assignCtx (cs : List CtxRec) (df : Nat → Nat) (engines : List Nat) (p : Placement) (c : Nat) : Placement :=
  match engines with
  | [] => p
  | e0 :: t =>
    let r := estReady cs df p c
    let wc := (cs.getD c {}).wc
    let e := t.foldl (fun b e => if engBefore p r wc e b then e else b) e0
    let start := max (vget p.free e 64) r
    { (p.put c fun x => { x with engine := e, placed := true, estDone := start + wc - 1 }) with
      run := vmod p.run e fun l => l ++ [c], free := vset p.free e (start + wc), load := vmod p.load e fun l => l + wc }

/-- The position of `c` in its engine's run list. -/
def runPos (p : Placement) (c : Nat) : Nat := (vget p.run (p.at_ c).engine []).findIdx (· == c)

/-- The latest completion bound of a placed context, given its producers' bounds (R134). -/
def boundOf (cs : List CtxRec) (df : Nat → Nat) (p : Placement) (c : Nat) : Nat :=
  let r := cs.getD c {}
  let rb := r.ins.foldl (fun a b =>
    if b.kind == 1 then max a (72 + df b.idx)
    else if b.kind == 2 && !b.prev && (p.at_ (b.idx / 4)).placed then max a ((p.at_ (b.idx / 4)).bound + 2) else a) 64
  let lst := vget p.run (p.at_ c).engine []
  let i := runPos p c
  let wc := fun x => (cs.getD x {}).wc
  rb + ((lst.take i).map wc).sum + (lst.drop (i + 1)).foldl (fun m x => max m (wc x)) 0 + r.wc - 1

/-- Evaluate every bound, in placement order (R134); a context that is not placed has bound 0. -/
def allBounds (cs : List CtxRec) (df : Nat → Nat) (order : List Nat) (p : Placement) : Placement :=
  order.foldl (fun p c => p.put c fun x => { x with bound := if x.placed then boundOf cs df p c else 0 }) p

/-- The highest-numbered `n` engines of `live` (R131). -/
def topEngines (live : BitVec 16) (n : Nat) : BitVec 16 := ofBits 16 ((bitsOf live).reverse.take n)

/-- What the packing check found (R135): reason 0 means passed. -/
structure PackResult where
  reason : Nat := 0
  ctx    : Nat := 0
  engine : Nat := 0
  bound  : Nat := 0
  /-- The binding that breaks R130. -/
  bind   : Nat := 0
  pl     : Placement := {}

/-- The first binding of a context that reads a less critical class in the same stride (R130). -/
def classBreak (cs : List CtxRec) (c : Nat) : Option Nat :=
  let r := cs.getD c {}
  (List.range r.ins.length).find? fun i =>
    let b := r.ins.getD i {}
    b.kind == 2 && !b.prev && r.cls < (cs.getD (b.idx / 4) {}).cls

/-- The packing check, and the placement it makes (R131 to R135). -/
def packCheck (cs : List CtxRec) (df : Nat → Nat) (C : Nat) (live : BitVec 16) (spares : Nat) : PackResult :=
  match (List.range cs.length).find? fun c => (classBreak cs c).isSome with
  | some c => { reason := 3, ctx := c, bind := (classBreak cs c).getD 0 }
  | none =>
    let sp := topEngines live spares
    let engines := bitsOf (live &&& ~~~sp)
    if engines.isEmpty then { reason := 4 }
    else
      let order := placeOrder cs
      let p0 : Placement := { ctx := List.replicate cs.length {}, live := live, spare := sp }
      let p := allBounds cs df order (order.foldl (assignCtx cs df engines) p0)
      match (List.range cs.length).find? fun c => (cs.getD c {}).cls ≤ 1 && C - 1 < (p.at_ c).bound with
      | some c => { reason := (cs.getD c {}).cls + 1, ctx := c, engine := (p.at_ c).engine, bound := (p.at_ c).bound, pl := p }
      | none => { pl := p }

/-- Take a context off its engine (R139). -/
def benchCtx (cs : List CtxRec) (p : Placement) (c : Nat) : Placement :=
  if (p.at_ c).placed then
    let e := (p.at_ c).engine
    { (p.put c fun x => { x with placed := false, bound := 0 }) with
      run := vmod p.run e fun l => l.filter (· != c), load := vmod p.load e fun l => l - (cs.getD c {}).wc }
  else p

/-- Every placed context from which one of `from_` is reached through same-stride bindings (R139). -/
def upstreamOf (cs : List CtxRec) (p : Placement) : Nat → List Nat → List Nat
  | 0, acc => acc
  | n + 1, acc =>
    let next := (acc.flatMap fun c => producers (cs.getD c {})).filter fun c => !acc.contains c
    if next.isEmpty then acc else upstreamOf cs p n (acc ++ next.eraseDups)

/-- Bench contexts until the bounds fit (R139): the least critical class of the pool goes first, its last context in
placement order; where only critical contexts are left, the failing context itself. -/
def benchLoop (cs : List CtxRec) (df : Nat → Nat) (C : Nat) (order : List Nat) : Nat → Placement → Placement
  | 0, p => p
  | n + 1, p =>
    let p := allBounds cs df order p
    match order.find? fun c => (p.at_ c).placed && (cs.getD c {}).cls != 2 && C - 1 < (p.at_ c).bound with
    | none => p
    | some f =>
      let ups := (upstreamOf cs p cs.length [f]).filter fun c => c != f && (p.at_ c).placed
      let engs := (p.at_ f).engine :: ups.map fun c => (p.at_ c).engine
      let pool := order.filter fun c => (p.at_ c).placed && engs.contains (p.at_ c).engine
      let worst := pool.foldl (fun m c => max m (cs.getD c {}).cls) 0
      if worst = 0 then benchLoop cs df C order n (benchCtx cs p f)
      else
        match (pool.filter fun c => (cs.getD c {}).cls == worst).getLast? with
        | some c => benchLoop cs df C order n (benchCtx cs p c)
        | none => p

/-- Re-placement (R139): engines of `live` take the contexts of engines that are not live and the benched contexts that
are not fenced. -/
def replaceCtxs (cs : List CtxRec) (df : Nat → Nat) (C : Nat) (fCtx : Nat → Bool) (live : BitVec 16) (p : Placement) :
    Placement :=
  let order := placeOrder cs
  let lost := fun c => (p.at_ c).placed && !live.getLsbD (p.at_ c).engine
  let displaced := order.filter fun c => lost c || (!(p.at_ c).placed && !fCtx c)
  -- engines no longer live are emptied; an engine that rejoins starts empty (R139)
  let fresh := fun e => !live.getLsbD e || !p.live.getLsbD e
  let p1 : Placement := { p with
    ctx := p.ctx.mapIdx fun c x => if lost c then { x with placed := false, bound := 0 } else x
    run := vmapI p.run fun e l => if fresh e then [] else l
    free := vmapI p.free fun e x => if fresh e then 64 else x
    load := vmapI p.load fun e x => if fresh e then 0 else x
    live := live, spare := 0 }
  let p2 := displaced.foldl (assignCtx cs df (bitsOf live)) p1
  benchLoop cs df C order (cs.length + 1) p2

/-- The contexts that are benched: those with a place that are not placed. -/
def benchedOf (p : Placement) : List Nat := (List.range p.ctx.length).filter fun c => !(p.at_ c).placed

/-- The single-engine-loss analysis (R136): the engines whose loss would bench a context, or a critical one. -/
def lossOf (cs : List CtxRec) (df : Nat → Nat) (C : Nat) (fCtx : Nat → Bool) (p : Placement) : BitVec 16 × BitVec 16 :=
  let old := benchedOf p
  let res := (bitsOf (p.live &&& ~~~p.spare)).map fun e =>
    let q := replaceCtxs cs df C fCtx (p.live &&& ~~~((1 : BitVec 16) <<< e)) p
    let new := (benchedOf q).filter fun c => !old.contains c
    (e, !new.isEmpty, new.any fun c => (cs.getD c {}).cls == 0)
  (ofBits 16 ((res.filter (·.2.1)).map (·.1)), ofBits 16 ((res.filter (·.2.2)).map (·.1)))

/-- A placed background context has a bound beyond C − 1 (R135). -/
def bgOver (cs : List CtxRec) (C : Nat) (p : Placement) : Bool :=
  (List.range cs.length).any fun c => (cs.getD c {}).cls == 2 && (p.at_ c).placed && C - 1 < (p.at_ c).bound

end Sys2Proof.Machine
end

