-- ==== Sys2Proof/Machine/Cea.lean ====
section
/-! DEFINITION. Control engines and contexts (R99 to R126): readiness, start, the arithmetic of the sections, completion,
aborts, bank swaps, the plausibility supervisor, the snapshot and the context window. -/
namespace Sys2Proof.Machine

/-- Context `c`, an empty one beyond the last. -/
def ctxAt (s : State) (c : Nat) : Ctx := s.cea.ctxs.getD c {}

/-- Change context `c`. -/
def modCtx (c : Nat) (f : Ctx → Ctx) (x : Cea) : Cea := { x with ctxs := x.ctxs.modify c f }

/-- The bank in force of context `c`: true for B (`CEA_BANK_SELn`). -/
def bankSel (x : Cea) (c : Nat) : Bool := getMap x.r (R.CEA_BANK_SELn 0) c

/-- The coefficient words of the bank in force. -/
def bankWords (x : Cea) (c : Nat) : List Word :=
  let k := x.ctxs.getD c {}
  if bankSel x c then k.bankB else k.bankA

/-! ## Inputs (R101, R107, R167) -/

/-- The bus voltage command that kind 0x05 bindings read, in volts: a follower's V_cmd, else the slewed command (R152). -/
def vCmdOwn (s : State) : Rat := (s.bus.slew : Rat) / 1000
def vCmd (s : State) : Rat :=
  match s.bus.vEntry with
  | some v => if getF s.bus.r F.BUS_HIVE_STAT_loss_state = 0 then vCmdOwn s else (v : Rat) / 10
  | none => vCmdOwn s
def vBinding (s : State) : Rat := if s.img.str.role = 2 then vCmd s else vCmdOwn s

/-- Channel `a` delivers a result for this stride's mark (R101): a stride channel whose lane converts. -/
def resultDue (s : State) (a : Nat) : Bool :=
  let x := vget s.acq.chans a {}
  x.present && !x.slow && (vget s.acq.lanes (a / 8) {}).running && inSequence s.acq.r a

/-- The result of channel `a` for this stride is readable. -/
def resultHere (s : State) (a : Nat) : Bool := (vget s.acq.chans a {}).resAt == some (strideCnt s)

/-- Producer `p` will not run in this stride: benched, or on a fenced engine (R101). -/
def wontRun (s : State) (p : Nat) : Bool :=
  !(s.plc.pl.at_ p).placed || s.flt.fEng.getLsbD (s.plc.pl.at_ p).engine

/-- An input binding of a context on engine `e` is ready (R101, R102). -/
def bindReady (s : State) (e : Nat) (b : Binding) : Bool :=
  if b.kind = 1 then resultHere s b.idx || !resultDue s b.idx
  else if b.kind = 2 ∧ ¬ b.prev then
    let p := b.idx / 4
    let x := ctxAt s p
    if x.completed then
      x.doneClk + 2 ≤ s.tbs.clock || ((vget s.cea.eng e {}).lastDone == some p && x.doneClk + 1 ≤ s.tbs.clock)
    else x.parAbort || wontRun s p
  else true

/-- The queue 0 entry of channel `a` for this stride. -/
def q0Now (s : State) (a : Nat) : Option Q0Entry := s.acq.q0.find? fun x => x.ain == a && x.tag == strideTag s

/-- The queue 2 set of this stride. -/
def refsNow (s : State) : Option RefSet := s.plc.q2.find? fun x => x.tag == strideTag s

/-- What an input binding reads, and whether it is a previous value (R101, R117). DEDUCED: log 48. -/
def bindRead (s : State) (held : Word) (b : Binding) : Word × Bool :=
  if b.kind = 1 then
    match q0Now s b.idx with
    | some x => (x.res.val, false)
    | none => (held, true)
  else if b.kind = 2 then
    let x := ctxAt s (b.idx / 4)
    if b.prev then (x.pubPrev, false) else (x.pub, !x.completed)
  else if b.kind = 3 then
    match refsNow s with
    | some q => (q.refs.getD b.idx 0, false)
    | none => (held, true)
  else if b.kind = 4 then (s.bus.c, false)
  else if b.kind = 5 then (ratSignal (vBinding s / 1000), false)
  else (b.value, false)

/-- The fraction of a phase in the stride in progress (R166). DEDUCED: log 49. -/
def phaseFrac (s : State) (p : Nat) : Rat :=
  let x := vget s.plc.ph p {}
  let n := (vget s.plc.banks (s.img.str.phases.getD p {}).bank {}).rampLen
  if n = 0 then x.f1 else x.f0 + (x.f1 - x.f0) * (min (strideInLap s) n : Nat) / n

/-- The factor of R167 on v_0. DEDUCED: log 49. -/
def v0Factor (s : State) (c : CtxRec) : Rat :=
  let outs := c.outs.filter (·.kind == 0x11)
  let k := (c.ins.headD {}).kind
  if outs.isEmpty || !(k == 2 || k == 3) then 1
  else outs.foldl (fun a b => a + phaseFrac s b.idx) 0

/-- v_i in `s12.52`: scale × input, or the constant (R107). -/
def scaled (b : Binding) (x : Word) : Int := if b.kind = 6 then x.toInt * 2 ^ 28 else b.value.toInt * x.toInt

/-- The inputs of a context: values read, scaled values, stale bits (R107, R117, R167). -/
def readInputs (s : State) (x : Ctx) : List Word × List Int × BitVec 8 :=
  let n := x.cfg.ins.length
  let rd := (List.range n).map fun i => bindRead s (x.held.getD i 0) (x.cfg.ins.getD i {})
  let v := (List.range n).map fun i =>
    let y := scaled (x.cfg.ins.getD i {}) (rd.getD i (0, false)).1
    if i = 0 then (let f := v0Factor s x.cfg; if f = 1 then y else rround ((y : Rat) * f)) else y
  (rd.map (·.1), v, ofBits 8 ((List.range n).filter fun i => (rd.getD i (0, false)).2))

/-! ## Starting (R100, R116) -/

/-- The window offsets of the words an engine fetches for a context (R116): the bank in force, clamps, bindings. -/
def fetchedWords (x : Cea) (c : Nat) : List Nat :=
  let k := x.ctxs.getD c {}
  let bank := if bankSel x c then 0x140 else 0
  ((List.range (5 * k.cfg.nSec)).map fun i => bank + 4 * i) ++ [0x380, 0x384] ++
    ((List.range (2 * (k.cfg.ins.length + k.cfg.outs.length))).map fun i => 0x400 + 4 * i)

/-- The context that engine `e` would start: the earliest of its run list that is ready and has not run (R100). -/
def nextReady (s : State) (e : Nat) : Option Nat :=
  (vget s.plc.pl.run e []).find? fun c =>
    let x := ctxAt s c
    !x.started && !x.parAbort && x.cfg.ins.all (bindReady s e)

/-- Engine `e` may start a context now: contexts compute, the commit point has not passed, it is live and free, and in a
re-placement stride clock 64 is reached (R100, R104, R137). -/
def engineFree (s : State) (e : Nat) : Bool :=
  let x := vget s.cea.eng e {}
  computing s && !s.tbs.committed && !s.flt.fEng.getLsbD e && x.run.isNone && x.freeClk ≤ s.tbs.clock &&
    s.tbs.clock < commitClk s && (!s.tbs.replStride || 64 ≤ s.tbs.clock)

/-- Every placed context with a binding on channel `a` has read in this stride, or will not. -/
def allRead (s : State) (a : Nat) : Bool :=
  (List.range s.cea.ctxs.length).all fun c =>
    let x := ctxAt s c
    !(s.plc.pl.at_ c).placed || x.started || x.parAbort || !x.cfg.ins.any fun b => b.kind == 1 && b.idx == a

/-- The bindings read the queue 0 entries of the channels `ains` (R15, R16): older entries are stale, and the credit of this
stride's entry returns with its last read. DEDUCED: log 50. -/
def q0Read (ains : List Nat) (s : State) : State :=
  let old := (s.acq.q0.filter fun e => ains.contains e.ain && e.tag != strideTag s).length
  let keep := fun (e : Q0Entry) => !ains.contains e.ain || (e.tag == strideTag s && !allRead s e.ain)
  let s := { s with acq := { s.acq with q0 := s.acq.q0.filter keep } }
  if old = 0 then s else qStale 0 0 old s

/-- Every placed context with a bank reference has read this stride's set: it leaves queue 2, and older ones are stale
(R15, R16). -/
def q2Read (s : State) : State :=
  let users := (List.range s.cea.ctxs.length).filter fun c =>
    (s.plc.pl.at_ c).placed && (ctxAt s c).cfg.ins.any (·.kind == 3)
  let old := (s.plc.q2.filter fun x => x.tag != strideTag s).length
  let allRead := users.all fun c => (ctxAt s c).started || (ctxAt s c).parAbort
  let s := { s with plc := { s.plc with q2 := s.plc.q2.filter fun x => x.tag == strideTag s && !allRead } }
  if old = 0 then s else qStale 2 0 old s

/-- A parity failure aborts the context in the clock in which it would have started (R116). -/
def parityAbort (e c : Nat) (s : State) : State :=
  let r := setF (setFlag s.cea.r F.CEA_STAT_par_err) F.CEA_STAT_par_ctx c
  let cea := modCtx c (fun x => { x with parAbort := true }) { s.cea with r := r }
  raise 3 c 255 { s with cea := { cea with eng := vmod cea.eng e fun x => { x with freeClk := s.tbs.clock + 1 } } }

/-- Context `c` starts on engine `e` (R99, R107). -/
def startCtx (e c : Nat) (s : State) : State :=
  let k := ctxAt s c
  let (held, v, stale) := readInputs s k
  let clk := s.tbs.clock
  let cea := modCtx c (fun x => { x with started := true, startClk := clk, held := held, v := v, stale := stale }) s.cea
  let s1 := { s with cea := { cea with eng := vmod cea.eng e fun x =>
    { x with run := some c, freeClk := clk + 2 * k.cfg.nSec } } }
  let ains := (k.cfg.ins.filter (·.kind == 1)).map (·.idx)
  let s2 := q0Read ains s1
  if k.cfg.ins.any (·.kind == 3) then q2Read s2 else s2

/-- CONTEXT_START: engine `e`, if it is free, starts its next ready context; words newly failing parity are `bad`.
DESIGN CHOICE: log 102. -/
def contextStart (e : Nat) (bad : List Nat) (s : State) : State :=
  if !engineFree s e then s
  else
    match nextReady s e with
    | none => s
    | some c =>
      let cea := modCtx c (fun x => { x with parBad := x.parBad ++ bad.filter fun w => !x.parBad.contains w }) s.cea
      let s := { s with cea := cea }
      if (fetchedWords cea c).any fun w => (ctxAt s c).parBad.contains w then parityAbort e c s
      else startCtx e c s

/-! ## What a context computes (R107 to R112) -/

/-- x_0 = round(v_0 − v_1 − … − v_(M−1)) (R107). DEDUCED: log 49. DEDUCED: log 121. -/
def inputStage : List Int → Int
  | [] => 0
  | v :: t => toSignal (sat64 (t.foldl (· - ·) v))

/-- The output of a section in `s12.52` (R108). -/
def secOut (k : List Word) (x s1 : Int) : Int := sat64 ((k.getD 0 0).toInt * x + s1)

/-- The new states of a section, with `yu` fed back (R108). -/
def secStates (k : List Word) (x s2 yu : Int) : Int × Int :=
  (sat64 ((k.getD 1 0).toInt * x - mulState (k.getD 3 0).toInt yu + s2),
   sat64 ((k.getD 2 0).toInt * x - mulState (k.getD 4 0).toInt yu))

/-- What a context's cascade gives: input of the last section, unclamped output, new states, a saturated output seen. -/
structure CascadeOut where
  xLast : Int := 0
  u     : Int := 0
  s1    : List (BitVec 64) := []
  s2    : List (BitVec 64) := []
  sat   : Bool := false
deriving DecidableEq, Repr

/-- The sections from `j` on, `n` of them, with the last one's anti-windup (R108 to R110). -/
def cascade (coef : List Word) (s1 s2 : List (BitVec 64)) (hi lo : Int) : Nat → Nat → Int → CascadeOut
  | 0, _, x => { u := x }
  | n + 1, j, x =>
    let k := (coef.drop (5 * j)).take 5
    let a := (s1.getD j 0).toInt
    let b := (s2.getD j 0).toInt
    let y := secOut k x a
    let out := toSignal y
    let yu := if n = 0 then (if hi < out then hi * 2 ^ 28 else if out < lo then lo * 2 ^ 28 else y) else y
    let st := secStates k x b yu
    let rest := cascade coef s1 s2 hi lo n (j + 1) out
    { xLast := if n = 0 then x else rest.xLast, u := rest.u, s1 := BitVec.ofInt 64 st.1 :: rest.s1,
      s2 := BitVec.ofInt 64 st.2 :: rest.s2, sat := signalSat y || rest.sat }

/-- The clamp of R109. -/
def clampOut (hi lo u : Int) : Int := min (max u lo) hi

/-- The clamp flag of R111. -/
def newSat (hi lo u : Int) (old : Bool) : Bool := if hi < u || u < lo then true else if lo < u && u < hi then false else old

/-- The context after its completion (R108 to R111, R114). -/
def completeCtx (coef : List Word) (x : Ctx) : Ctx :=
  let hi := x.clampHi.toInt
  let lo := x.clampLo.toInt
  let o := cascade coef x.s1 x.s2 hi lo x.cfg.nSec 0 (inputStage x.v)
  { x with s1 := o.s1, s2 := o.s2, u := wordOf o.u, pub := wordOf (clampOut hi lo o.u), xLast := wordOf o.xLast,
           sat := newSat hi lo o.u x.sat, secSat := x.secSat || o.sat, completed := true, ranArmed := true,
           doneClk := x.startClk + 2 * x.cfg.nSec - 1 }

/-- One output binding of a completed context (R112). DEDUCED: log 52, 107. -/
def driveOut (pub : Word) (b : Binding) (s : State) : State :=
  if b.kind = 0x11 then
    { s with pwm := { s.pwm with ph := vmod s.pwm.ph b.idx fun x => { x with c := queueSet pub (strideTag s) x.c } } }
  else if b.kind = 0x12 then { s with bus := { s.bus with pubCmd := some pub } }
  else if b.kind = 0x14 then
    { s with pwm := { s.pwm with aux := vmod s.pwm.aux b.idx fun x => { x with c := queueSet pub (strideTag s) x.c } } }
  else s

/-- The maps of a completion: `sat` and the stale map (R111, R117). -/
def completeMaps (c : Nat) (x : Ctx) (r : RegFile) : RegFile :=
  let r := putMap r (R.CEA_SAT_MAPn 0) c x.sat
  if x.stale = 0 then r else putMap r (R.CEA_STALE_MAPn 0) c true

/-- Context `c` completes on engine `e`. DEDUCED: log 107. -/
def finishCtx (e c : Nat) (s : State) : State :=
  let x := completeCtx (bankWords s.cea c) (ctxAt s c)
  let cea := { modCtx c (fun _ => x) s.cea with r := completeMaps c x s.cea.r }
  let s1 := { s with cea := { cea with eng := vmod cea.eng e fun g => { g with run := none, lastDone := some c } } }
  x.cfg.outs.foldl (fun s b => driveOut x.pub b s) s1

/-- The last clock of context `c`, which has started (R99). -/
def lastClk (s : State) (c : Nat) : Nat := (ctxAt s c).startClk + 2 * (ctxAt s c).cfg.nSec - 1

/-- CONTEXT_COMPLETE: the context that runs on engine `e` completes in its last clock, if that lies before the commit point
(R32, R99, R112). -/
def contextComplete (e : Nat) (s : State) : State :=
  let g := vget s.cea.eng e {}
  match g.run with
  | some c =>
    if g.aborting || decide (commitClk s ≤ lastClk s c) then s
    else finishCtx e c { s with tbs := { s.tbs with clock := max s.tbs.clock (lastClk s c) } }
  | none => s

/-! ## The commit point: overruns (R32, R33, R103) -/

/-- The context has to be aborted at the commit point: placed on a live engine, neither completed nor aborted on parity. -/
def unfinished (s : State) (c : Nat) : Bool :=
  let x := ctxAt s c
  !wontRun s c && !x.completed && !x.parAbort

/-- Context `c` overruns (R33, R103). -/
def overrunCtx (c : Nat) (s : State) : State :=
  let up := (producers (ctxAt s c).cfg).any fun p => unfinished s p
  let r := putMap s.tbs.r (R.TBS_OVR_MAPn 0) c true
  let r := setF (incF r F.TBS_OVR_CNT_ovr_total 1) F.TBS_OVR_CNT_last_ctx c
  raise 2 c 255 { s with tbs := { s.tbs with r := r },
                         cea := modCtx c (fun x => { x with overrun := true, upstream := up }) s.cea }

/-- Every unfinished context is aborted, ascending, and counted (R33). -/
def abortAll (s : State) : State :=
  let l := (List.range s.cea.ctxs.length).filter (unfinished s)
  let s := l.foldl (fun s c => overrunCtx c s) s
  { s with cea := { s.cea with eng := s.cea.eng.map fun g => if g.run.isSome then { g with aborting := true } else g } }

/-- ENGINE_ABORT_TIMEOUT: engine `e` has not acknowledged its abort by C + 64, which may lie beyond the stride (R34). -/
def engineAbortTimeout (e : Nat) (s : State) : State :=
  let g := vget s.cea.eng e {}
  if !g.aborting && g.lateCtx.isNone then s
  else
    raise (32 + e) e ((if g.aborting then g.run else g.lateCtx).getD 255)
      { s with cea := { s.cea with r := putBit s.cea.r R.CEA_ENG_STAT e true,
                                   eng := vset s.cea.eng e { g with aborting := false, lateCtx := none } } }

/-! ## The plausibility supervisor (R118 to R124) -/

/-- The context checked on engine `e` (R122): its run-list position and number. -/
def shadowPick (s : State) (e : Nat) : Option (Nat × Nat) :=
  let l := vget s.plc.pl.run e []
  let from_ := match (vget s.cea.eng e {}).chkPos with
    | some p => p + 1
    | none => 0
  ((List.range l.length).map fun i => (from_ + i) % l.length).findSome? fun i =>
    let c := l.getD i 0
    let x := ctxAt s c
    if x.cfg.cls == 0 && x.completed then some (i, c) else none

/-- The section check of one engine: `bad` says whether its arithmetic differed (R122). -/
def shadowCheck (bad : BitVec 16) (s : State) (e : Nat) : State :=
  if s.flt.fEng.getLsbD e then s
  else
    match shadowPick s e with
    | none => s
    | some (i, c) =>
      let s := { s with cea := { s.cea with eng := vmod s.cea.eng e fun g => { g with chkPos := some i } } }
      if !bad.getLsbD e then s
      else
        let r := setF (putBit s.cea.r R.CEA_SHADOW_STAT e true) F.CEA_SHADOW_STAT_last_ctx c
        let eng := vmod s.cea.eng e fun g => { g with mmLap := some s.tbs.lap }
        raise (32 + e) e c { s with cea := { s.cea with r := r, eng := eng } }

/-- f_k of a model (R119). -/
def modelF (x : Ctx) (m : PlausRec) : Int := toSignal (x.v.getD m.fbSlot 0)

/-- d_k of a model in units of 2^−24 (R119). -/
def modelD (s : State) (x : Ctx) (m : PlausRec) : Int :=
  let res := fun a => (kvGet s.acq.r (R.ACQ_CHn_RES a)).toInt
  let f := modelF x m
  if m.xchk = 1 then
    let b := ((x.cfg.ins.find? (·.kind == 3)).map (·.idx)).getD 255
    (f - ((bankPhases s.img.str b).map fun p => res (s.img.str.phases.getD p {}).csAin).sum).natAbs
  else if m.xchk = 2 then
    (f - toSignal ((x.cfg.ins.getD m.fbSlot {}).value.toInt * res m.xchkAin)).natAbs
  else 0

/-- r_k of a model, times 16384, in units of 2^−24 (R119). -/
def modelR (m : PlausRec) (st : Model) (f : Int) : Int :=
  f * 16384 - (m.ka * st.fPrev.toInt + m.kb * st.pPrev.toInt)

/-- The model is evaluated in this stride (R121). -/
def evaluated (s : State) (x : Ctx) (m : PlausRec) : Bool :=
  x.completed && x.donePrev && !x.stale.getLsbD m.fbSlot && !x.stalePrev.getLsbD m.fbSlot && !wontRun s m.ctx

/-- Where a firing goes (R123): attribution code, source, unit. -/
def modelCause (s : State) (m : PlausRec) (d : Int) : Nat × Nat × Nat :=
  let e := (s.plc.pl.at_ m.ctx).engine
  let mm : Bool := match (vget s.cea.eng e {}).mmLap with
    | some l => decide (s.tbs.lap ≤ l + 1)
    | none => false
  if mm then (3, 32 + e, e)
  else if m.xchk ≠ 0 ∧ (m.xThr : Int) * 256 < d then (1, 5, m.ctx)
  else (2, 6, m.ctx)

/-- Model `i` fires (R120, R123, R124). -/
def fireModel (i : Nat) (m : PlausRec) (x : Ctx) (d : Int) (s : State) : State :=
  let (attr, src, unit) := modelCause s m d
  let upd := fun (st : Model) =>
    { st with count := 0, fired := true, fireCnt := min 255 (st.fireCnt + 1), lastAttr := attr,
              hardDone := st.hardDone || m.hard }
  let s := raise src unit (if attr = 3 then m.ctx else i) { s with cea := { s.cea with models := s.cea.models.modify i upd } }
  if m.hard then
    latchOn (ctxPhases s.img.str x.cfg)
      (fun p => if p.plaus.contains src then p else { p with plaus := p.plaus ++ [src] }) s
  else s

/-- Model `i` after the commit point (R119 to R121). -/
def evalModel (s : State) (i : Nat) : State :=
  let m := s.img.str.plaus.getD i {}
  let st := s.cea.models.getD i {}
  let x := ctxAt s m.ctx
  let f := modelF x m
  let keep := fun (st : Model) => if x.completed then { st with fPrev := wordOf f, pPrev := x.pub } else st
  if !evaluated s x m then { s with cea := { s.cea with models := s.cea.models.modify i keep } }
  else
    let r := modelR m st f
    let d := modelD s x m
    let above : Bool := decide ((m.rThr : Int) * 256 * 16384 < (r.natAbs : Int))
    let cnt := if above then st.count + 1 else st.count - 1
    let res := clampI (-32767) 32767 ((2 * r + 4194304) / 8388608)
    let xd := min 65535 ((d + 128) / 256)
    let upd := fun (st : Model) =>
      keep { st with count := cnt, res := BitVec.ofInt 16 res, xdiff := BitVec.ofInt 16 xd }
    let s := { s with cea := { s.cea with models := s.cea.models.modify i upd } }
    if above && m.cntLim ≤ cnt then fireModel i m x d s else s

/-! ## The snapshot and the context window (R125, R126) -/

/-- `CEA_CTX_STATUS` of context `c`. -/
def ctxStatus (s : State) (c : Nat) : Word :=
  let x := ctxAt s c
  let p := s.plc.pl.at_ c
  let b := fun (v : Bool) (i : Nat) => (BitVec.ofNat 32 v.toNat) <<< i
  BitVec.ofNat 32 (x.cfg.cls * 2 ^ 30 + p.engine * 2 ^ 26 + x.stale.toNat * 2 ^ 16 + x.cfg.nSec * 32 +
    (x.cfg.outs.length - 1) * 4) ||| b p.placed 25 ||| b (bankSel s.cea c) 24 ||| b x.completed 15 ||| b x.overrun 14 |||
    b x.upstream 13 ||| b x.parAbort 12 ||| b x.sat 11 ||| b x.secSat 10

/-- `CEA_CTX_TIMING` of context `c`. -/
def ctxTiming (x : Ctx) : Word :=
  BitVec.ofNat 32 ((if x.completed then x.doneClk else 0) * 65536 + (if x.started then x.startClk else 0))

/-- The four state words of section `j`. -/
def stateWords (x : Ctx) (j : Nat) : List Word :=
  let a := x.s1.getD j 0
  let b := x.s2.getD j 0
  [a.setWidth 32, (a >>> 32).setWidth 32, b.setWidth 32, (b >>> 32).setWidth 32]

/-- The snapshot fields of context `c`, by window offset. -/
def snapOf (s : State) (c : Nat) : RegFile :=
  let x := ctxAt s c
  let words := ((List.range 16).flatMap (stateWords x)) ++ [0, 0, x.pub, x.u] ++
    ((List.range 8).map fun i => wordOf (toSignal (x.v.getD i 0))) ++
    [if x.ranArmed then x.xLast else 0, ctxStatus s c, ctxTiming x, BitVec.ofNat 32 (strideCnt s)]
  (List.range words.length).foldl (fun r i => kvSet r (0x280 + 4 * i) (words.getD i 0)) []

/-- A write of `CEA_SNAP.req` (R125). -/
def snapRequest (s : State) : State :=
  if s.cea.snapReq.isSome then s
  else { s with cea := { s.cea with snapReq := some (getF s.cea.r F.CEA_WIN_SEL_ctx) } }

/-- The capture at a commit point (R125). -/
def snapCapture (s : State) : State :=
  match s.cea.snapReq with
  | none => s
  | some c =>
    { s with cea := { s.cea with snapReq := none, snap := snapOf s c,
                                 r := setFlag (setF s.cea.r F.CEA_SNAP_snap_ctx c) F.CEA_SNAP_done } }

/-- A binding's two words (R61). -/
def bindWords (b : Binding) : List Word :=
  [BitVec.ofNat 32 (b.kind + 256 * b.prev.toNat + 65536 * b.idx), b.value]

/-- A read of the context window at `ofs` (R125): live words and the snapshot. -/
def winRead (s : State) (ofs : Nat) : Word :=
  let c := getF s.cea.r F.CEA_WIN_SEL_ctx
  let x := ctxAt s c
  if s.cea.ctxs.length ≤ c ∨ ofs % 4 ≠ 0 then 0
  else if ofs < 0x140 then x.bankA.getD (ofs / 4) 0
  else if ofs < 0x280 then x.bankB.getD ((ofs - 0x140) / 4) 0
  else if ofs = 0x380 then x.clampHi
  else if ofs = 0x384 then x.clampLo
  else if ofs < 0x3C0 then kvGet s.cea.snap ofs
  else if 0x400 ≤ ofs ∧ ofs < 0x460 then ((x.cfg.ins ++ x.cfg.outs).flatMap bindWords).getD ((ofs - 0x400) / 4) 0
  else 0

/-- A coefficient word of context `c` is written: the new parity holds (R113). -/
def putCoef (c ofs : Nat) (val : Word) (x : Cea) : Cea :=
  modCtx c (fun k =>
    let k := { k with parBad := k.parBad.filter (· != ofs) }
    if ofs < 0x140 then { k with bankA := k.bankA.set (ofs / 4) val }
    else { k with bankB := k.bankB.set ((ofs - 0x140) / 4) val }) x

/-- CONTEXT_COEFF_WRITE: a host write of a coefficient word of the selected context (R113); one that would change nothing sets
no flag (R91). DEDUCED: log 51. -/
def coeffWrite (ofs : Nat) (val : Word) (s : State) : State :=
  let c := getF s.cea.r F.CEA_WIN_SEL_ctx
  let x := ctxAt s c
  let i := if ofs < 0x140 then ofs / 4 else (ofs - 0x140) / 4
  if s.cea.ctxs.length ≤ c ∨ ofs % 4 ≠ 0 ∨ 0x280 ≤ ofs ∨ 5 * x.cfg.nSec ≤ i then s
  else if ofs < 0x140 then
    if computing s then (if x.bankA.getD i 0 = val then s else wrIgnored 4 (0x8000 + ofs) s)
    else { s with cea := putCoef c ofs val s.cea }
  else if bankSel s.cea c then (if x.bankB.getD i 0 = val then s else wrIgnored 4 (0x8000 + ofs) s)
  else if strides s then
    { s with cea := { modCtx c (fun k => { k with parBad := k.parBad.filter (· != ofs) }) s.cea with
        live := s.cea.live ++ [{ sel := c, ofs := 0x8000 + ofs, lo := 0, width := 32, val := val.toNat }] } }
  else { s with cea := putCoef c ofs val s.cea }

/-- CONTEXT_STATE_WRITE: a host write of a state word of the selected context (R126): the low word waits for the high word,
and the snapshot shows the written word at once. DEDUCED: log 51. -/
def stateWrite (ofs : Nat) (val : Word) (s : State) : State :=
  let c := getF s.cea.r F.CEA_WIN_SEL_ctx
  let x := ctxAt s c
  let i := (ofs - 0x280) / 4
  let j := i / 4
  if s.cea.ctxs.length ≤ c ∨ ofs % 4 ≠ 0 ∨ ofs < 0x280 ∨ 0x380 ≤ ofs ∨ x.cfg.nSec ≤ j then s
  else if computing s then
    if (stateWords x j).getD (i % 4) 0 = val then s else wrIgnored 4 (0x8000 + ofs) s
  else
    let key := i / 2
    let upd := fun (k : Ctx) =>
      if i % 2 = 0 then { k with lowWr := (key, val) :: k.lowWr.filter (·.1 != key) }
      else
        let low := ((k.lowWr.find? (·.1 == key)).map (·.2)).getD ((stateWords k j).getD (i % 4 - 1) 0)
        let k := { k with lowWr := k.lowWr.filter (·.1 != key) }
        if i % 4 = 1 then { k with s1 := k.s1.set j (val ++ low) } else { k with s2 := k.s2.set j (val ++ low) }
    { s with cea := { modCtx c upd s.cea with snap := kvSet s.cea.snap ofs val } }

/-- A write of `CEA_CTX_STATUS` in the window: 1 to `sec_sat` clears it, for the context selected and in the snapshot.
DEDUCED: log 51. -/
def statusWrite (val : Word) (s : State) : State :=
  let c := getF s.cea.r F.CEA_WIN_SEL_ctx
  if s.cea.ctxs.length ≤ c ∨ ¬ val.getLsbD 10 then s
  else
    { s with cea := { modCtx c (fun x => { x with secSat := false }) s.cea with
        snap := kvSet s.cea.snap 0x3B4 (putBits (kvGet s.cea.snap 0x3B4) 10 1 0) } }

/-! ## Boundary work (R114, R115) -/

/-- The states of the last section after a change of bank (R114). -/
def swapStates (coef : List Word) (x : Ctx) : Ctx :=
  let j := x.cfg.nSec - 1
  let k := (coef.drop (5 * j)).take 5
  let xl := if x.ranArmed then x.xLast.toInt else 0
  let yc := (if x.ranArmed then x.pub.toInt else 0) * 2 ^ 28
  { x with s1 := x.s1.set j (BitVec.ofInt 64 (sat64 (yc - (k.getD 0 0).toInt * xl))),
           s2 := x.s2.set j (BitVec.ofInt 64 (sat64 ((k.getD 2 0).toInt * xl - mulState (k.getD 4 0).toInt yc))) }

/-- Select the banks of `CEA_BANK_SELn` register `n` by `val`: a context whose bank changes has its states set (R114). -/
def selectBanks (n : Nat) (val : Word) (x : Cea) : Cea :=
  let old := kvGet x.r (R.CEA_BANK_SELn n)
  let x := { x with r := kvSet x.r (R.CEA_BANK_SELn n) val }
  foldN 32 (fun x i =>
    if old.getLsbD i = val.getLsbD i then x
    else modCtx (32 * n + i) (swapStates (bankWords x (32 * n + i))) x) x

/-- The last of the pending writes of each word (R8). -/
def lastWrites : List Pend → List Pend
  | [] => []
  | p :: ps => if ps.any fun q => q.ofs == p.ofs && q.sel == p.sel then lastWrites ps else p :: lastWrites ps

/-- Apply live writes of CEA: coefficients first, then selections (R114), of each word the last write (R8). -/
def ceaLive (ps : List Pend) (x : Cea) : Cea :=
  let ps := lastWrites ps
  let x := (ps.filter fun p => 0x8000 ≤ p.ofs).foldl
    (fun x p => putCoef p.sel (p.ofs - 0x8000) (BitVec.ofNat 32 p.val) x) x
  (ps.filter fun p => p.ofs < 0x8000).foldl
    (fun x p => selectBanks ((p.ofs - R.CEA_BANK_SELn 0) / 4) (BitVec.ofNat 32 p.val) x) x

/-- The clamps a captured set would give: (`clamp_hi`, `clamp_lo`) of context `c`. -/
def stagedClamps (ps : List Pend) (x : Cea) (c : Nat) : Word × Word :=
  ps.foldl (fun a p =>
    if p.sel ≠ c then a
    else if p.ofs = 0x8380 then (BitVec.ofNat 32 p.val, a.2) else (a.1, BitVec.ofNat 32 p.val))
    ((x.ctxs.getD c {}).clampHi, (x.ctxs.getD c {}).clampLo)

/-- The check of a captured CEA set (R115). -/
def ceaJudge (ps : List Pend) (x : Cea) : Nat :=
  let bad := (List.range x.ctxs.length).any fun c => (stagedClamps ps x c).1.sle (stagedClamps ps x c).2
  if bad then 2 else 0

/-- An accepted CEA set writes the clamps of every context afresh (R115, R116). -/
def ceaApply (ps : List Pend) (x : Cea) : Cea :=
  { x with ctxs := x.ctxs.mapIdx fun c k =>
      { k with clampHi := (stagedClamps ps x c).1, clampLo := (stagedClamps ps x c).2,
               parBad := k.parBad.filter fun w => w != 0x380 && w != 0x384 } }

/-- The contexts and engines at a stride boundary: nothing has run, the published values become those of the previous
stride (R61, R100); `late` says that C + 64 of the stride that ended lies beyond it (R34). -/
def ceaBoundary (late : Bool) (x : Cea) : Cea :=
  { x with
    ctxs := x.ctxs.map fun k => { k with pubPrev := k.pub, donePrev := k.completed, stalePrev := k.stale, started := false,
                                         completed := false, overrun := false, upstream := false, parAbort := false,
                                         startClk := 0, doneClk := 0, stale := 0 }
    eng := x.eng.map fun g =>
      { g with run := none, freeClk := 0, lastDone := none, aborting := false,
               lateCtx := if late && g.aborting then g.run else none } }

/-- Entry to ARMED (R104, R114, R120). -/
def ceaArm (x : Cea) : Cea :=
  { x with ctxs := x.ctxs.map fun k => { k with ranArmed := false, completed := false, donePrev := false, pubPrev := k.pub }
           models := x.models.map fun m => { m with count := 0 } }

/-- A context as the build makes it from its record (R60, R64, R84). -/
def buildCtx (im : Img) (c : CtxRec) : Ctx :=
  let n := 5 * c.nSec
  let a := (im.coeff.drop (c.coeffOff / 4)).take n
  let b := if c.hasB then (im.coeff.drop (c.coeffOff / 4 + n)).take n else a
  { cfg := c, bankA := a, bankB := b, s1 := List.replicate c.nSec 0, s2 := List.replicate c.nSec 0,
    clampHi := c.clampHi, clampLo := c.clampLo, held := List.replicate c.ins.length 0 }

/-- The search of the supervisor starts from the first position of each run list again (R122). -/
def checkAfresh (x : Cea) : Cea := { x with eng := x.eng.map fun g => { g with chkPos := none } }

/-- CEA as the build makes it (R84): bank selections from `ctx_flags` bit 1, no clamp flag set (R111); a capture that was asked
for still waits (R125). -/
def buildCea (im : Img) (x : Cea) : Cea :=
  let r := (List.range 256).foldl (fun r c => putMap r (R.CEA_BANK_SELn 0) c (im.ctxs.getD c {}).startB) x.r
  let r := foldN 8 (fun r n => kvSet r (R.CEA_SAT_MAPn n) 0) r
  { x with r := r, live := [], st := {}, ctxs := im.ctxs.map (buildCtx im), eng := Vector.replicate 16 {},
           models := im.plaus.map fun _ => {} }

/-! ## Placement in force: where R139 and R142 act -/

/-- The nominal d_f of an input as the channels stand (R206). -/
def dfOf (s : State) (a : Nat) : Nat := chanDf (chanOf s.acq.r a) (getF s.acq.r (F.ACQ_SEQl_n (a / 8)))

/-! ## Commands -/

/-- CONTEXT_START: engine `e` starts its next ready context; `bad` are words whose parity fails. -/
def execContextStart (e : Fin 16) (bad : List Nat) (s : State) : Host.Outcome State Fault Refusal := whenCore (contextStart e bad) s
/-- CONTEXT_COMPLETE. -/
def execContextComplete (e : Fin 16) (s : State) : Host.Outcome State Fault Refusal := whenCore (contextComplete e) s
/-- CONTEXT_COEFF_WRITE: a host write of a coefficient word at window offset `ofs`. -/
def execContextCoeffWrite (_path : Path) (ofs : Nat) (val : Word) (s : State) : Host.Outcome State Fault Refusal :=
  whenCore (coeffWrite ofs val) s
/-- CONTEXT_STATE_WRITE: a host write of a state word at window offset `ofs`. -/
def execContextStateWrite (_path : Path) (ofs : Nat) (val : Word) (s : State) : Host.Outcome State Fault Refusal :=
  whenCore (stateWrite ofs val) s
/-- SNAPSHOT_REQUEST: a host write of `CEA_SNAP.req`. -/
def execSnapshotRequest (_path : Path) (s : State) : Host.Outcome State Fault Refusal := whenCore snapRequest s

end Sys2Proof.Machine
end

