-- ==== Sys2Proof/Machine/Share.lean ====
section
/-! DEFINITION. The bus voltage command, the total current command and the share unit (R146 to R178). -/
namespace Sys2Proof.Machine

/-- The magnitude of a rational. -/
def ratAbs (q : Rat) : Rat := if q < 0 then -q else q

/-! ## The bus voltage command (R149, R150, R174) -/

/-- The target in force becomes `v` (0.1 V). -/
def putTarget (v : Nat) (b : Bus) : Bus :=
  { b with tgt := v, tgtNext := none, r := setF b.r F.BUS_VCMD_STAT_target v }

/-- A target from source `src` (0: port A, 1: host): refused on a follower, ignored where the source is not selected,
refused out of range; it waits for the boundary while strides run (R149, R150). The flag says whether it was refused. -/
def voltageTarget (src v : Nat) (s : State) : State × Bool :=
  let r := s.bus.r
  let reject := fun (flagged : Bool) =>
    let r := incF r F.BUS_CNT_vcmd_rej_cnt 1
    { s with bus := { s.bus with r := if flagged then setFlag r F.BUS_STAT_vcmd_rej else r } }
  if s.img.str.role = 2 then (reject true, true)
  else if getF r F.BUS_VCMD_CFG_vsrc ≠ src then (reject false, true)
  else if getF r F.BUS_VLIM_v_lo ≤ v ∧ v ≤ getF r F.BUS_VLIM_v_hi then
    if strides s then ({ s with bus := { s.bus with tgtNext := some v } }, false)
    else ({ s with bus := putTarget v s.bus }, false)
  else (reject true, true)

/-- A host write of `BUS_VCMD_HOST` (R149). -/
def hostTarget (v : Nat) (s : State) : State :=
  let (s1, refused) := voltageTarget 1 v s
  if refused then s1
  else if strides s then
    { s1 with bus := { s1.bus with live := s1.bus.live ++ [{ ofs := R.BUS_VCMD_HOST, lo := 0, width := 16, val := v }] } }
  else { s1 with bus := { s1.bus with r := setF s1.bus.r F.BUS_VCMD_HOST_target v } }

/-- The slewed command after one boundary, in mV (R150). -/
def slewStep (tgt slew step : Nat) : Nat :=
  let t := 100 * tgt
  if slew ≤ t then min t (slew + step) else max t (slew - step)

/-- The target that waits applies, and the slewed command moves (R150); its register shows whole 0.1 V. DEDUCED: log 40. -/
def busSlew (b : Bus) : Bus :=
  let b := match b.tgtNext with
    | some v => putTarget v b
    | none => b
  let m := slewStep b.tgt b.slew (getF b.r F.BUS_VSLEW_v_slew)
  { b with slew := m, r := setF b.r F.BUS_VCMD_STAT_slewed (m / 100) }

/-- The check of a captured BUS set (R94, R151). -/
def busJudge (b : Bus) (r : RegFile) : Nat :=
  let lo := getF r F.BUS_VLIM_v_lo
  let hi := getF r F.BUS_VLIM_v_hi
  if getF r F.BUS_VSLEW_v_slew = 0 then 1
  else if hi < lo then 2
  else if b.tgt < lo ∨ hi < b.tgt ∨ b.slew < 100 * lo ∨ 100 * hi < b.slew then 4 else 0

/-! ## The total current command (R147, R152, R175, R176) -/

/-- The bound on |c| in units of 2^−24: 1.0, or `deg_c` / 256 under degrade (R147, R348). -/
def cBound (s : State) : Int :=
  if s.plc.cLim then (getF s.flt.r F.FLT_CFG_deg_c : Int) * 65536 else 16777216

/-- c limited to ±1.0 and under degrade, with its counts (R147, R348). DEDUCED: log 39, 108. -/
def limitC (c : Word) (s : State) : Word × State :=
  let a := clampI (-16777216) 16777216 c.toInt
  let b := clampI (-(min 16777216 (cBound s))) (min 16777216 (cBound s)) a
  let r := s.bus.r
  let r := if a = c.toInt then r else setFlag r F.BUS_STAT_c_clip
  let r := if b = c.toInt then r else incF r F.BUS_CNT_c_clip_cnt 1
  (wordOf b, { s with bus := { s.bus with r := r } })

/-- c at m missing boundaries, and `loss_state` (R176). DEDUCED: log 40. -/
def lossOfM (cHeld : Word) (m hold ramp : Nat) : Word × Nat :=
  if m = 0 then (cHeld, 1)
  else if m ≤ hold then (cHeld, 2)
  else if m < hold + ramp then
    (wordOf (rround ((cHeld.toInt * (ramp - (m - hold) : Nat) : Int) / (ramp : Rat))), 3)
  else (0, 4)

/-- Act on m (R176): c in force, `loss_state`, and the leader-lost fault where state 4 is reached. DEDUCED: log 33. -/
def settleLoss (s : State) : State :=
  let old := getF s.bus.r F.BUS_HIVE_STAT_loss_state
  let (c, st) := lossOfM s.bus.cHeld s.bus.m (getF s.bus.r F.BUS_LOSS_CFG_loss_hold) (getF s.bus.r F.BUS_LOSS_CFG_loss_ramp)
  let r := setF (setF (kvSet s.bus.r R.BUS_CMD c) F.BUS_HIVE_STAT_loss_state st) F.BUS_HIVE_STAT_miss (min s.bus.m 65535)
  let r := if st = 4 then setFlag r F.BUS_STAT_leader_lost else r
  let s := { s with bus := { s.bus with r := r, c := c } }
  if st = 4 ∧ old ≠ 4 then raise 23 255 255 s else s

/-- One more missing boundary (R175). DEDUCED: log 39. -/
def missBoundary (s : State) : State :=
  let (c, s) := limitC s.bus.cHeld s
  settleLoss { s with bus := { s.bus with m := s.bus.m + 1, cHeld := c } }

/-- An entry applies (R152, R176). -/
def applyEntry (e : Q1Entry) (s : State) : State :=
  let (c, s) := limitC e.c s
  settleLoss { s with bus := { s.bus with m := 0, cHeld := c, vEntry := some e.v } }

/-- Step 4 of R24: the entry of the stride that ended, with tag `old`, is applied; an entry of another tag is stale.
DEDUCED: log 108. -/
def applyCommand (old : Nat) (s : State) : State :=
  let q := s.bus.q1
  let stale := (q.filter fun e => e.tag != old).length
  let s := { s with bus := { s.bus with q1 := [], gotCmd := false, gotPrev := s.bus.gotCmd } }
  let s := if stale = 0 then s else qStale 1 0 stale s
  let st := getF s.bus.r F.BUS_HIVE_STAT_loss_state
  match (q.filter fun e => e.tag == old).getLast? with
  | some e =>
    if st < 3 then applyEntry e s
    else missBoundary { s with bus := { s.bus with r := incF s.bus.r F.BUS_CNT_ign_cnt 1 } }
  | none => if st = 0 then s else missBoundary s

/-- An entry goes to queue 1; without credit it replaces the oldest (R16). -/
def q1Put (e : Q1Entry) (s : State) : State :=
  if s.bus.q1.length < 4 then { s with bus := { s.bus with q1 := s.bus.q1 ++ [e] } }
  else qOvr 1 0 1 { s with bus := { s.bus with q1 := s.bus.q1.drop 1 ++ [e] } }

/-- The host clears `leader_lost`: in state 4 the device returns to state 0 (R176). -/
def clearLeaderLost (s : State) : State :=
  let r := setF s.bus.r F.BUS_STAT_leader_lost 0
  if getF r F.BUS_HIVE_STAT_loss_state = 4 then
    { s with bus := { s.bus with r := setF (setF (kvSet r R.BUS_CMD 0) F.BUS_HIVE_STAT_loss_state 0) F.BUS_HIVE_STAT_miss 0,
                                 c := 0, cHeld := 0, m := 0, vEntry := none } }
  else { s with bus := { s.bus with r := r } }

/-- c is held at 0 and no entry has been applied (R148, R172, R175). -/
def resetCommand (s : State) : State :=
  { s with bus := { s.bus with r := setF (setF (kvSet s.bus.r R.BUS_CMD 0) F.BUS_HIVE_STAT_loss_state 0) F.BUS_HIVE_STAT_miss 0,
                               c := 0, cHeld := 0, m := 0, vEntry := none, gotCmd := false } }

/-- Change every bank's, every phase's state in the share unit. -/
def mapBanks (f : Nat → BankSt → BankSt) (s : State) : State := { s with plc := { s.plc with banks := vmapI s.plc.banks f } }
def mapPh (f : Nat → PhaseSt → PhaseSt) (s : State) : State := { s with plc := { s.plc with ph := vmapI s.plc.ph f } }

/-! ## Weights (R153 to R156) -/

/-- A figure goes to queue 7; without credit it replaces the oldest of its bank and direction (R16, R153). -/
def q7Put (f : Figure) (s : State) : State :=
  let same := s.plc.q7.filter fun x => x.bank == f.bank && x.chg == f.chg
  if same.isEmpty then { s with plc := { s.plc with q7 := s.plc.q7 ++ [f] } }
  else qOvr 7 0 1 { s with plc := { s.plc with q7 := s.plc.q7.filter (fun x => !(x.bank == f.bank && x.chg == f.chg)) ++ [f] } }

/-- The share unit reads the figures of queue 7 (R154): only a valid figure counts. DEDUCED: log 37. -/
def takeFigures (p : Plc) : Plc :=
  let put := fun (v : Vector BankSt 24) (f : Figure) =>
    if !f.valid then v
    else vmod v f.bank fun b => if f.chg then { b with figC := some f, gotC := true } else { b with figD := some f, gotD := true }
  { p with q7 := [], banks := p.q7.foldl put p.banks }

/-- The weight of R155, in units of 2^−16. DEDUCED: log 37. -/
def weightOf (r : RegFile) (H T : Int) : Nat :=
  let hr := getF r F.PLC_HR_REF_hr_ref
  let lo := getFI r F.PLC_TDER_t_der_lo
  let hi := getFI r F.PLC_TDER_t_der_hi
  let h : Nat := if H ≤ 0 then 0 else min 65536 (65536 * H.toNat / hr)
  let tf : Nat :=
    if lo < hi then
      if T ≤ lo then 65536 else if hi ≤ T then 0 else 65536 * (hi - T).toNat / (hi - lo).toNat
    else if T < hi then 65536 else 0
  h * tf / 65536

/-- The banks that degrade holds at weight 0: those that an active source's reaction reaches (R348). -/
def degradeReach (f : Flt) : BitVec 24 :=
  f.src.toList.foldl (fun a x => if x.active && x.applied.testBit 3 && !x.degAll then a ||| x.degBk else a) 0

/-- The bank has had no valid figure for 4 laps, and none in this one (R154). -/
def bankLost (b : BankSt) : Bool := decide (4 ≤ b.missLaps) && !b.gotD && !b.gotC

/-- The weight of a bank in one direction: 0 with no figure, while lost, and where `zero` says so (R154 to R156, R348). -/
def bankWeight (r : RegFile) (zero : Bool) (b : BankSt) (f : Option Figure) : Nat :=
  match f with
  | some x => if bankLost b || zero then 0 else weightOf r x.h x.t
  | none => 0

/-- A lap's planning looks at what arrived (R154). DEDUCED: log 37. -/
def countLap (b : BankSt) : BankSt :=
  { b with missLaps := if b.gotD || b.gotC then 0 else min 255 (b.missLaps + 1), gotD := false, gotC := false }

/-! ## Phases and eligibility (R156, R163) -/

/-- The eligible phases of a bank. -/
def eligPhases (s : State) (b : Nat) : List Nat := (bankPhases s.img.str b).filter fun p => !(vget s.plc.ph p {}).safe

/-- The active phases of a bank, ascending. -/
def actPhases (s : State) (b : Nat) : List Nat := (bankPhases s.img.str b).filter fun p => (vget s.plc.ph p {}).active

/-- The envelope of a bank: `hi` and `lo` (R163). -/
def envHi (s : State) (b : Nat) : Nat := min (getF s.plc.r (F.PLC_BANK_CFGn_ph_max b)) (eligPhases s b).length
def envLo (s : State) (b : Nat) : Nat := min (getF s.plc.r (F.PLC_BANK_CFGn_ph_min b)) (envHi s b)

/-- The bank is eligible for current (R156). -/
def bankElig (s : State) (b : Nat) : Bool :=
  (usedBanks s.img.str).contains b && !(vget s.plc.banks b {}).safe && !(eligPhases s b).isEmpty

/-- `i_lim` of a bank in A, phases assigned, rated voltage in V. DEDUCED: log 39. -/
def iLim (s : State) (b : Nat) : Rat := (getF s.plc.r (F.PLC_BANK_CFGn_i_lim b) : Rat) / 10
def nAsg (s : State) (b : Nat) : Nat := (bankPhases s.img.str b).length
def vNom (s : State) (b : Nat) : Rat := ((s.img.str.banks.getD b {}).vNom : Rat) / 10

/-- `i_bus_max` in A. -/
def iBusMax (s : State) : Rat := getF s.bus.r F.BUS_IMAX_i_bus_max

/-! ## Planning the shares (R157, R158) -/

/-- The cap of a bank in ppm for the planning current and voltage command (R157); free where the voltage is 0.
DESIGN CHOICE: log 38. -/
def capOf (s : State) (iPlan v : Rat) (b : Nat) : Nat :=
  if v = 0 then (Config.capFree b (kvGet s.plc.r (R.PLC_BANK_CFGn b)) iPlan).toNat
  else (1000000 * (iLim s b * getF s.plc.r (F.PLC_BANK_CFGn_ph_max b) / nAsg s b) * vNom s b / (v * iPlan)).floor.toNat

/-- A state of the water-fill: the shares, the banks still free, the ppm left for them. -/
structure Fill where
  share : List Nat
  free  : List Nat
  rest  : Nat

/-- The passes of the water-fill that are left (R158). -/
def fillPasses (w cap : Nat → Nat) : Nat → Fill → Fill
  | 0, f => f
  | n + 1, f =>
    let W := (f.free.map w).sum
    if W = 0 then f
    else
      let trial := fun b => f.rest * w b / W
      let above := f.free.filter fun b => cap b < trial b
      if above.isEmpty || n == 0 then { f with share := f.free.foldl (fun l b => l.set b (min (trial b) (cap b))) f.share }
      else fillPasses w cap n { share := above.foldl (fun l b => l.set b (cap b)) f.share,
                                free := f.free.filter fun b => !above.contains b, rest := f.rest - (above.map cap).sum }

/-- The water-fill of R158: the shares in ppm by bank, and what is left. -/
def waterFill (banks : List Nat) (w cap : Nat → Nat) : List Nat × Nat :=
  let f := fillPasses w cap 3 { share := List.replicate 24 0, free := banks.filter fun b => 0 < w b, rest := 1000000 }
  f.free.foldl (fun (a : List Nat × Nat) b =>
    let add := min a.2 (cap b - a.1.getD b 0)
    (a.1.set b (a.1.getD b 0 + add), a.2 - add)) (f.share, 1000000 - f.share.sum)

/-- The targets of one direction with `blocked` and `short` (R158). -/
def fillDir (s : State) (chg : Bool) : List Nat × Bool × Bool :=
  let w := fun b => let x := vget s.plc.banks b {}; if chg then x.wtC else x.wtD
  let cap := fun b => (vget s.plc.banks b {}).cap
  let bs := (List.range 24).filter (bankElig s)
  let f := waterFill bs w cap
  (f.1, bs.all fun b => w b == 0, 0 < f.2)

/-- Weights and caps of a planning stride (R155 to R157). -/
def planWeights (iPlan v : Rat) (s : State) : State :=
  let deg := degradeReach s.flt
  let upd := fun b (x : BankSt) =>
    let d := deg.getLsbD b || !bankElig s b
    { x with wtD := bankWeight s.plc.r d x x.figD, wtC := bankWeight s.plc.r d x x.figC,
             cap := if (usedBanks s.img.str).contains b then capOf s iPlan v b else 0 }
  { s with plc := { s.plc with banks := vmapI s.plc.banks upd } }

/-- I_plan of R157. DEDUCED: log 39. -/
def planCurrent (s : State) : Rat := max (ratAbs (signalRat s.bus.c)) (1 / 64) * iBusMax s

/-- Change both directions. -/
def bothDirs (f : Bool → ShareDir → ShareDir) (p : Plc) : Plc := { p with dis := f false p.dis, chg := f true p.chg }

/-! ## Planning the counts (R164, R165, R337) -/

/-- The count of a bank for the next lap, whether the add or shed test gave it, and whether the add test did (R164). -/
def planCount (s : State) (b : Nat) : Nat × Bool × Bool :=
  let n := (actPhases s b).length
  let hi := envHi s b
  let lo := envLo s b
  let add := getF s.plc.r F.PLC_PHASE_CFG_ph_add
  let shed := getF s.plc.r F.PLC_PHASE_CFG_ph_shed
  if n < lo || hi < n then (min (max n lo) hi, false, false)
  else if (vget s.plc.banks b {}).hold || add ≤ shed then (n, false, false)
  else
    let t := ((if s.bus.c.toInt < 0 then s.plc.chg else s.plc.dis).plan.getD ([], false, false)).1
    let i := ratAbs (signalRat s.bus.c) * iBusMax s * (t.getD b 0) / 1000000 * vCmd s / vNom s b
    let iPh := iLim s b / nAsg s b
    if n < hi && add * iPh / 100 < i / n then (n + 1, true, true)
    else if lo < n && i / (n - 1 : Nat) < shed * iPh / 100 then (n - 1, true, false)
    else (n, false, false)

/-- The gate-drive review of the adds: banks in ascending order, use so far, adds denied (R337). -/
def gdReview (perPhase total : Nat) (s : State) : List Nat → Vector BankSt 24 → Nat → Nat → Vector BankSt 24 × Nat × Nat
  | [], v, use, denied => (v, use, denied)
  | b :: t, v, use, denied =>
    let x := vget v b {}
    if !x.addReq then gdReview perPhase total s t v use denied
    else if use + perPhase * x.nNew ≤ total then gdReview perPhase total s t v (use + perPhase * x.nNew) denied
    else
      let n := (actPhases s b).length
      gdReview perPhase total s t (vset v b { x with nNew := n, byTest := false, addReq := false }) (use + perPhase * n) (denied + 1)

/-- The gate-drive budget over the decided counts (R337). -/
def gateDriveGrant (s : State) : State :=
  let per := getF s.bgt.r F.BGT_GD_CFG_gd_ma_phase
  let total := getF s.bgt.r F.BGT_GD_CFG_gd_ma_total
  if total = 0 then s
  else
    let use0 := per * (((List.range 24).filter fun b => !(vget s.plc.banks b {}).addReq).map fun b => (vget s.plc.banks b {}).nNew).sum
    let (v, use, denied) := gdReview per total s (List.range 24) s.plc.banks use0 0
    let r := incF s.bgt.r F.BGT_GD_STAT_adds_denied denied
    { s with plc := { s.plc with banks := v }, bgt := { s.bgt with r := setF r F.BGT_STAT_gd_over (decide (total < use)).toNat } }

/-- Gate-drive use of the counts in force, in mA. -/
def gdUse (s : State) : Nat :=
  getF s.bgt.r F.BGT_GD_CFG_gd_ma_phase * ((List.range 24).map fun b => (actPhases s b).length).sum

/-- CURRENT_PLACEMENT: the planning of stride L − 1 (R22, R154 to R158, R164, R337). In LOADED the share unit only
reads the figures (R154). -/
def currentPlacement (s : State) : State :=
  if !strides s || strideInLap s + 1 ≠ lapLen s || s.plc.planned then s
  else
    let s := { s with plc := takeFigures s.plc }
    let s := { s with plc := { s.plc with banks := s.plc.banks.map countLap, planned := true } }
    if !computing s then s else
    let s := planWeights (planCurrent s) (vCmd s) s
    let s := { s with plc := bothDirs (fun chg d => { d with plan := some (fillDir s chg) }) s.plc }
    let banks := vmapI s.plc.banks fun b x =>
      let c := planCount s b
      { x with nNew := c.1, byTest := c.2.1, addReq := c.2.2, hold := false }
    gateDriveGrant { s with plc := { s.plc with banks := banks } }

/-! ## Slewing (R159, R160) -/

/-- The share in force in stride j, in ppm, exact. -/
def shareAt (d : ShareDir) (j b : Nat) : Rat :=
  let t : Rat := d.target.getD b 0
  let a : Rat := d.start.getD b 0
  if d.n = 0 then t else a + (t - a) * (min j d.n : Nat) / d.n

/-- A start vector in whole ppm: rounded down bank by bank, the loss given to the largest fractional parts, the lower bank
first on a tie (R159). -/
def wholePpm (v : List Rat) : List Nat :=
  let fl := v.map fun x => x.floor.toNat
  let extra := (rround v.sum).toNat - fl.sum
  let fr := fun (b : Nat) => v.getD b 0 - (fl.getD b 0 : Nat)
  let order := (List.range v.length).mergeSort fun a b => decide (fr b < fr a) || (decide (fr a = fr b) && decide (a ≤ b))
  let up := order.take extra
  fl.mapIdx fun b x => if up.contains b then x + 1 else x

/-- N of R159. -/
def slewStrides (slew : Nat) (start target : List Nat) : Nat :=
  let d := (List.range 24).foldl (fun m b => max m (max (target.getD b 0) (start.getD b 0) - min (target.getD b 0) (start.getD b 0))) 0
  if slew = 0 then 0 else (d + slew - 1) / slew

/-- The lap boundary restarts a direction's slew towards its planned targets (R159); `len` is the length of the lap that
ended. -/
def restartSlew (slew len : Nat) (d : ShareDir) : ShareDir :=
  let start := wholePpm ((List.range 24).map (shareAt d len))
  let p := d.plan.getD (d.target, d.blocked, d.short)
  { start := start, target := p.1, n := slewStrides slew start p.1, blocked := p.2.1, short := p.2.2, plan := none }

/-- The shares jump to a new water-fill without slew (R162, R172). -/
def jumpShares (s : State) : State :=
  let put := fun (chg : Bool) (_ : ShareDir) =>
    let f := fillDir s chg
    ({ start := f.1, target := f.1, n := 0, blocked := f.2.1, short := f.2.2, plan := none } : ShareDir)
  { s with plc := bothDirs put s.plc }

/-- The largest phase fraction of a bank in the stride in progress. -/
def maxFrac (s : State) (b : Nat) : Rat := ((bankPhases s.img.str b).map (phaseFrac s)).foldl max 0

/-- A bank's reference and whether it was clipped (R160, R161), with the excitation `exc` in A. -/
def bankRef (exc : Rat) (s : State) (b : Nat) : Word × Bool :=
  if !bankElig s b then (0, false)
  else
    let d := if s.bus.c.toInt < 0 then s.plc.chg else s.plc.dis
    let lim := iLim s b
    let top := (getF s.plc.r F.PLC_EXC_MAX_exc_max : Rat) / 1000 * lim
    let e := max (-top) (min top exc)
    let i := signalRat s.bus.c * iBusMax s * shareAt d (strideInLap s) b / 1000000 * vCmd s / vNom s b + e
    let f := maxFrac s b
    let cap := if f = 0 then lim else min lim (lim / nAsg s b / f)
    if cap < ratAbs i then (ratSignal ((if i < 0 then -cap else cap) / 500), true) else (ratSignal (i / 500), false)

/-- A set of references goes to queue 2; without credit it replaces the older (R16). -/
def q2Put (x : RefSet) (s : State) : State :=
  if s.plc.q2.length < 2 then { s with plc := { s.plc with q2 := s.plc.q2 ++ [x] } }
  else qOvr 2 0 1 { s with plc := { s.plc with q2 := s.plc.q2.drop (s.plc.q2.length - 1) ++ [x] } }

/-- Step 6 of R24: the bank references of the stride that begins (R160); `exc` gives each bank's excitation. -/
def shareStep (exc : Nat → Rat) (s : State) : State :=
  let refs := (List.range 24).map fun b => bankRef (exc b) s b
  let banks := vmapI s.plc.banks fun b x => { x with ref := (refs.getD b (0, false)).1, excClip := (refs.getD b (0, false)).2 }
  let r := if refs.any (·.2) then setFlag s.plc.r F.PLC_SHARE_STAT_ref_clip else s.plc.r
  q2Put { refs := refs.map (·.1), tag := strideTag s } { s with plc := { s.plc with r := r, banks := banks } }

/-! ## Phases at boundaries (R162, R163, R166, R169 to R172) -/

/-- Give the active phases of a bank equal fractions at once (R169, R172). -/
def equalFracs (b : Nat) (s : State) : State :=
  let act := actPhases s b
  let f : Rat := 1 / (act.length : Rat)
  let ph := vmapI s.plc.ph fun p x =>
    if (s.img.str.phases.getD p {}).bank ≠ b then x
    else if act.contains p then { x with f0 := f, f1 := f } else { x with f0 := 0, f1 := 0 }
  { s with plc := { s.plc with ph := ph, banks := vmod s.plc.banks b fun x => { x with rampLen := 0 } } }

/-- Phase `p` is made safe: it leaves the active set, and its bank's other phases take equal fractions (R169). -/
def safePhase (s : State) (p : Nat) : State :=
  let x := vget s.plc.ph p {}
  if x.safe then s
  else
    let s1 := { s with plc := { s.plc with ph := vset s.plc.ph p { x with safe := true, active := false, unparked := false } } }
    let b := (s.img.str.phases.getD p {}).bank
    if b < 24 then equalFracs b s1 else s1

/-- The phases and banks that reactions in force make safe (R345, R346): safe phase, safe bank, safe all. -/
def safePhases (f : Flt) : BitVec 48 :=
  f.src.toList.foldl (fun a x => if x.active && x.applied.testBit 4 then a ||| x.safePh else a) 0
def safeBanks (f : Flt) : BitVec 24 :=
  f.src.toList.foldl (fun a x =>
    if x.active && x.applied.testBit 6 then BitVec.allOnes 24
    else if x.active && x.applied.testBit 5 then a ||| x.safeBk else a) 0

/-- Step 1 of R24 in the share unit: safe phases and banks leave, with weight 0, and where a bank is lost the shares jump (R156,
R162, R169). -/
def shareSafe (s : State) : State :=
  let before := (List.range 24).filter (bankElig s)
  let s := (bitsOf (safePhases s.flt)).foldl safePhase s
  let sb := safeBanks s.flt
  let s := mapBanks (fun b x =>
    if sb.getLsbD b || (eligPhases s b).isEmpty then { x with safe := true, wtD := 0, wtC := 0 } else x) s
  if computing s && (before.any fun b => !bankElig s b) then jumpShares s else s

/-- At a lap boundary a phase or bank that no reaction holds becomes eligible again (R162, R169). -/
def shareReturn (s : State) : State :=
  let sp := safePhases s.flt
  let sb := safeBanks s.flt
  let s := mapPh (fun p x => if sp.getLsbD p then x else { x with safe := false }) s
  mapBanks (fun b x => if sb.getLsbD b || (eligPhases s b).isEmpty then x else { x with safe := false }) s

/-- The active set of a bank at count `n`: the highest active phases go, the lowest eligible ones come (R164). -/
def newActive (s : State) (b n : Nat) : List Nat :=
  let act := actPhases s b
  if n ≤ act.length then act.take n
  else act ++ ((eligPhases s b).filter fun p => !act.contains p).take (n - act.length)

/-- A bank's count at a lap boundary: the phases that change ramp from their fractions to the new ones (R165, R166). -/
def adoptCount (s : State) (b : Nat) : State :=
  let x := vget s.plc.banks b {}
  let n := min x.nNew (envHi s b)
  let old := actPhases s b
  let new := newActive s b n
  let nr := min (getF s.plc.r F.PLC_PHASE_CFG_ph_ramp) (lapLen s)
  let f : Rat := 1 / (new.length : Rat)
  let ramp := fun p (y : PhaseSt) =>
    if (s.img.str.phases.getD p {}).bank ≠ b then y
    else if n = old.length then { y with f0 := y.f1 }
    else if new.contains p then { y with f0 := if y.active then y.f1 else 0, f1 := f, active := true, unparked := true }
    else { y with f0 := y.f1, f1 := 0, active := false }
  let changed : Bool := decide (n ≠ old.length)
  let bank := { x with hold := changed && x.byTest, rampLen := if changed then nr else 0, byTest := false, addReq := false }
  mapBanks (fun i y => if i = b then bank else y) (mapPh ramp s)

/-- Park the phases of a bank that are not active: both outputs are inactive (R166, R168). -/
def parkShed (s : State) (b : Nat) : State :=
  let due := fun p => (s.img.str.phases.getD p {}).bank == b && !(vget s.plc.ph p {}).active && (vget s.plc.ph p {}).unparked
  let s1 := { s with pwm := { s.pwm with ph := vmapI s.pwm.ph fun p x => if due p then idlePhase x else x } }
  mapPh (fun p x => if due p then { x with unparked := false } else x) s1

/-- The phases whose ramp ends in the stride that begins are parked (R166). -/
def parkDue (s : State) : State :=
  (List.range 24).foldl (fun s b => if (vget s.plc.banks b {}).rampLen ≤ strideInLap s then parkShed s b else s) s

/-- The active phases of the device, ascending. -/
def allActive (s : State) : List Nat :=
  (List.range 48).filter fun p => (vget s.plc.ph p {}).active && (s.img.str.phases.getD p {}).bank != 255

/-- The target angles (R170, R171): a phase in `fresh` starts at its target. -/
def setAngles (fresh : List Nat) (s : State) : State :=
  let act := allActive s
  let ang := fun (p : Nat) => 65536 * (act.findIdx (· == p) * s.img.str.hSize + s.img.str.hAddr) / (act.length * s.img.str.hSize)
  mapPh (fun p x =>
    if act.contains p then { x with target := ang p, angle := if fresh.contains p then ang p else x.angle } else x) s

/-- Step 5 of R24 in the share unit: shares begin slewing, counts and angles take effect (R37, R159, R165, R166, R170); a
bank made safe at this same boundary keeps the jump (R162). DEDUCED: log 37. -/
def shareLap (jumped : Bool) (lenOld : Nat) (s : State) : State :=
  let slew := getF s.plc.r F.PLC_SHARE_CFG_share_slew
  let s := if jumped then s else { s with plc := bothDirs (fun _ d => restartSlew slew lenOld d) s.plc }
  let was := allActive s
  -- The ramps of the lap that ended are over.
  let s := (usedBanks s.img.str).foldl parkShed s
  let s := if s.plc.planned then (usedBanks s.img.str).foldl adoptCount s else s
  let s := (usedBanks s.img.str).foldl (fun s b => if (vget s.plc.banks b {}).rampLen = 0 then parkShed s b else s) s
  setAngles ((allActive s).filter fun p => !was.contains p) { s with plc := { s.plc with planned := false } }

/-- Entry to ARMED (R172). -/
def shareArm (s : State) : State :=
  let s := resetCommand s
  let s := { s with plc := takeFigures s.plc }
  let pick := fun (s : State) b =>
    let act := (eligPhases s b).take (envHi s b)
    let ph := vmapI s.plc.ph fun p x =>
      if (s.img.str.phases.getD p {}).bank = b then { x with active := act.contains p, unparked := act.contains p } else x
    equalFracs b { s with plc := { s.plc with ph := ph, banks := vmod s.plc.banks b fun x =>
      { x with hold := false, nNew := act.length, byTest := false, addReq := false } } }
  let s := (usedBanks s.img.str).foldl pick s
  let s := setAngles (allActive s) s
  let s := planWeights (iBusMax s / 64) (vCmdOwn s) s
  jumpShares { s with plc := { s.plc with planned := false } }

/-- The share unit holds every reference at 0 (R148); sets in queue 2 stay until they are read or flushed (R12, R13).
DEDUCED: log 112. -/
def shareStop (s : State) : State :=
  let s := resetCommand s
  { s with plc := { s.plc with banks := s.plc.banks.map fun x => { x with ref := 0, excClip := false }, planned := false } }

/-! ## Live fields of a bank (R178) -/

/-- The three fields of a bank may be written together (R178). DEDUCED: log 98. -/
def bankCfgOk (s : State) (b : Nat) (v : Word) : Bool :=
  let lo := v.toNat % 256
  let hi := v.toNat / 256 % 256
  lo != 0 && lo ≤ hi && hi ≤ nAsg s b && v.toNat / 65536 != 0

/-- A host write of `PLC_BANK_CFGn` (R178). -/
def bankCfgWrite (b : Nat) (v : Word) (s : State) : State :=
  if !(usedBanks s.img.str).contains b then s
  else if !bankCfgOk s b v then cfgErr 3 s
  else if strides s then
    { s with plc := { s.plc with live := s.plc.live ++ [{ ofs := R.PLC_BANK_CFGn b, lo := 0, width := 32, val := v.toNat }] } }
  else { s with plc := { s.plc with r := kvSet s.plc.r (R.PLC_BANK_CFGn b) v } }

/-! ## Views -/

/-- Strides until the slew in the direction of c ends. -/
def slewLeft (s : State) : Nat := (if s.bus.c.toInt < 0 then s.plc.chg else s.plc.dis).n - strideInLap s

/-- A register of the share unit that shows its state: the value, or none where the register file holds it. -/
def shareView (s : State) (ofs : Nat) : Option Word :=
  let w := fun (n : Nat) => some (BitVec.ofNat 32 n)
  let j := strideInLap s
  if ofs = R.PLC_SHARE_STAT then
    let d := s.plc.dis
    let c := s.plc.chg
    let r := s.plc.r
    w (getF r F.PLC_SHARE_STAT_cfg_err + 2 * getF r F.PLC_SHARE_STAT_ref_clip + 4 * d.short.toNat + 8 * c.short.toNat +
      16 * d.blocked.toNat + 32 * c.blocked.toNat +
      64 * (decide (getFI r F.PLC_TDER_t_der_hi ≤ getFI r F.PLC_TDER_t_der_lo)).toNat +
      128 * (decide (getF r F.PLC_PHASE_CFG_ph_add ≤ getF r F.PLC_PHASE_CFG_ph_shed)).toNat + 256 * min 1048575 (slewLeft s))
  else if ofs = R.PLC_HR_LOST then
    some ((ofBits 24 ((usedBanks s.img.str).filter fun b => bankLost (vget s.plc.banks b {}))).setWidth 32)
  else if ofs = R.PLC_PH_ACTn 0 ∨ ofs = R.PLC_PH_ACTn 1 then
    let n := (ofs - R.PLC_PH_ACTn 0) / 4
    some (ofBits 32 ((List.range 32).filter fun i => (vget s.plc.ph (32 * n + i) {}).unparked))
  else if 0x800 ≤ ofs ∧ ofs < 0x800 + 32 * 24 then
    let b := (ofs - 0x800) / 32
    let x := vget s.plc.banks b {}
    match (ofs - 0x800) % 32 / 4 with
    | 0 => w (shareAt s.plc.dis j b).floor.toNat
    | 1 => w (s.plc.dis.target.getD b 0)
    | 2 => w (shareAt s.plc.chg j b).floor.toNat
    | 3 => w (s.plc.chg.target.getD b 0)
    | 4 => w x.wtD
    | 5 => w x.wtC
    | 6 => w ((actPhases s b).length + 64 * x.nNew + 4096 * ((usedBanks s.img.str).contains b && !bankElig s b).toNat +
        8192 * x.hold.toNat + 65536 * (x.rampLen - j))
    | _ => some x.ref
  else if 0xB00 ≤ ofs ∧ ofs < 0xB00 + 4 * 48 then
    let x := vget s.plc.ph ((ofs - 0xB00) / 4) {}
    w (x.angle + 65536 * x.target)
  else none

/-! ## Commands -/

/-- HOST_VOLTAGE_TARGET: a host write of `BUS_VCMD_HOST`. -/
def execHostVoltageTarget (_path : Path) (val : Word) (s : State) : Host.Outcome State Fault Refusal :=
  whenCore (hostTarget (val.toNat % 65536)) s
/-- BANK_CFG_WRITE: a host write of `PLC_BANK_CFGn`. -/
def execBankCfgWrite (_path : Path) (b : Fin 24) (val : Word) (s : State) : Host.Outcome State Fault Refusal :=
  whenCore (bankCfgWrite b val) s

end Sys2Proof.Machine
end

