-- ==== Sys2Proof/Machine/Thm.lean ====
section
/-! DEFINITION. The die temperature sites (R415 to R418). -/
namespace Sys2Proof.Machine

/-- A reading in 0.01 °C as the device shows it, and whether the site is broken (R416). -/
def siteRead (v : SiteReading) : Int × Bool :=
  match v with
  | some x => if -6000 ≤ x ∧ x ≤ 17500 then (x, false) else (32767, true)
  | none => (32767, true)

/-- A level with hysteresis, in °C (R417). -/
def siteLevel (old : Bool) (lvl hyst : Nat) (x : Int) : Bool :=
  if (lvl : Int) * 100 ≤ x then true else if x < ((lvl : Int) - hyst) * 100 then false else old

/-- Site `i` is masked. -/
def siteMasked (r : RegFile) (i : Nat) : Bool := getBit r R.THM_MASK i

/-- Judge site `i` (R417): its bits, a rise of `warn` to cause 12, a rise of `crit` to source 26. DEDUCED: log 94. -/
def judgeSite (x : Int) (i : Nat) (s : State) : State :=
  let r := s.thm.r
  let hyst := getF r F.THM_CFG_hyst
  let w0 := getBit r R.THM_STAT i
  let c0 := getBit r R.THM_STAT (16 + i)
  let w := !siteMasked r i && siteLevel w0 (getF r F.THM_CFG_t_warn) hyst x
  let c := !siteMasked r i && siteLevel c0 (getF r F.THM_CFG_t_crit) hyst x
  let s := { s with thm := { s.thm with r := putBit (putBit r R.THM_STAT i w) R.THM_STAT (16 + i) c } }
  let s := if w && !w0 then irq 12 s else s
  if c && !c0 then raise 26 255 i s else s

/-- The hottest unmasked site with its reading, the lower number on a tie. DEDUCED: log 94. -/
def hottest (r : RegFile) (l : List (Int × Bool)) : Option (Nat × Int) :=
  ((List.range 12).filter fun i => !siteMasked r i).foldl (fun a i =>
    let x := (l.getD i (0, false)).1
    match a with
    | some (_, y) => if y < x then some (i, x) else a
    | none => some (i, x)) none

/-- THM_MEASURE: the twelve sites are read and judged (R415 to R417). Where every site is masked, `site` and `max` are open. -/
def thmMeasure (sites : List SiteReading) (s : State) : State :=
  if !s.sys.up then s
  else
    let l := sites.map siteRead
    let at_ := fun i => l.getD i (0, false)
    let r := foldN 12 (fun r i =>
      setF (setFI r (F.THM_SITEn_temp i) (at_ i).1) (F.THM_SITEn_broken i) (at_ i).2.toNat) s.thm.r
    let brk := ofBits 12 ((List.range 12).filter fun i => (at_ i).2)
    let r := setF r F.THM_SUM_broken brk.toNat
    let s := match hottest r l with
      | some (i, x) => { s with thm := { s.thm with r := setFI (setF r F.THM_SUM_site i) F.THM_SUM_max x } }
      | none =>
        let (w, s1) := drawFree s
        { s1 with thm := { s1.thm with r := setF (setF r F.THM_SUM_site (w.toNat / 65536 % 16)) F.THM_SUM_max (w.toNat % 65536) } }
    foldN 12 (fun s i => judgeSite (at_ i).1 i s) s

/-- A clear of source 26 is refused (R418). -/
def thmHolds (r : RegFile) : Bool :=
  (List.range 12).any fun i => !siteMasked r i &&
    ((getF r F.THM_CFG_t_crit : Int) - getF r F.THM_CFG_hyst) * 100 ≤ getFI r (F.THM_SITEn_temp i)

/-! ## Commands -/

/-- THM_MEASURE: one reading of the twelve sites. -/
def execThmMeasure (sites : List SiteReading) (s : State) : Host.Outcome State Fault Refusal := whenUp (thmMeasure sites) s

end Sys2Proof.Machine
end

