-- ==== Sys2Proof/Machine/Flt.lean ====
section
/-! DEFINITION. The fault collector (R339 to R354): counting, activation, reactions, clearing, the logs, `FAULT_N`. -/
namespace Sys2Proof.Machine

/-! ## Sources -/

/-- A source owns a trip latch that can be set, beside sources 0 and 1 (R342). -/
def ownsLatch (im : Img) (n : Nat) : Bool :=
  if 64 ≤ n ∧ n < 88 then im.hasRings && im.rings.any fun r => r.ring == n - 64
  else (n == 5 || n == 6 || (32 ≤ n && n < 48)) && im.plaus.any (·.hard)

/-- The source counts (R341, R342, R344). -/
def srcEnabled (im : Img) (n : Nat) (x : Src) : Bool :=
  n < 2 || ownsLatch im n || (128 ≤ x.cls && !(109 ≤ n && n ≤ 111))

/-- The class of a source (R344). -/
def srcClass (n : Nat) (x : Src) : Nat := if n < 2 then 3 else x.cls % 4

/-- `cls` as `FLT_SRC_CFG` reads it (R342). DESIGN CHOICE: log 123. -/
def clsRead (im : Img) (n : Nat) (x : Src) : Nat := if ownsLatch im n && x.cls < 128 then x.cls + 128 else x.cls

/-- The reactions a source applies: sources 0 and 1 always record and drive `FAULT_N` (R344). -/
def srcReact (n : Nat) (x : Src) : Nat := if n < 2 then x.react ||| 0x81 else x.react

/-- What the unit of an event reaches: phases, and whether the event names no unit (R346). -/
def reachOf (s : State) (src unit : Nat) : List Nat × Bool :=
  let im := s.img.str
  let ctx := fun c => match im.ctxs[c]? with
    | some r => ctxPhases im r
    | none => []
  let union := fun (ls : List (List Nat)) => (List.range 48).filter fun p => ls.any (·.contains p)
  let ringPhases := fun r => match ringBank im r with
    | some b => bankPhases im b
    | none => []
  if 1 ≤ src ∧ src ≤ 6 then (ctx unit, false)
  else if src = 7 ∨ src = 21 then (flimReach im unit, false)
  else if src = 8 then (tripReach im unit, false)
  else if 9 ≤ src ∧ src ≤ 20 then (ringPhases unit, false)
  else if 32 ≤ src ∧ src < 48 then
    let run := (vget s.plc.pl.run (src - 32) []).filter fun c => (im.ctxs.getD c {}).cls == 0
    (union (run.map ctx), false)
  else if 48 ≤ src ∧ src < 64 then
    let ins := (List.range 8).filterMap fun m =>
      let a := 8 * (src - 48) + m
      if (vget s.acq.chans a {}).present then some a else none
    (union (ins.map (flimReach im)), false)
  else if 64 ≤ src ∧ src < 88 then (ringPhases (src - 64), false)
  else if 112 ≤ src ∧ unit ≠ 255 then (bankPhases im unit, false)
  else (List.range 48, true)

/-- The banks of a list of phases. -/
def banksOf (im : Img) (l : List Nat) : List Nat :=
  (usedBanks im).filter fun b => l.any fun p => (im.phases.getD p {}).bank == b

/-! ## FAULT_N (R349) -/

/-- The level of `FAULT_N` follows the active sources from the first entry to IDLE on, and holds in COLD and SERVICE. -/
def setFaultN (s : State) : State :=
  if !s.sys.idled || opState s < 3 then s
  else
    let cls := getF s.flt.r F.FLT_CFG_faultn_class
    let src := s.flt.src
    let drives := (List.range 128).any fun n =>
      let x := vget src n {}
      x.active && (x.applied.testBit 7 || cls ≤ srcClass n x)
    { s with flt := { s.flt with r := setF s.flt.r F.FLT_STAT_faultn_low drives.toNat } }

/-! ## The logs (R353, R369) -/

/-- The entries of a RAM log entry for a DMA ring: two, low words first. -/
def dmaWords (e : LogEntry) : List (BitVec 64) := [e.w1 ++ e.w0, e.w3 ++ e.w2]

/-- A RAM log entry goes to every DMA ring whose source is the collector, where two entries are free (R369). -/
def logDma (e : LogEntry) (s : State) : State :=
  foldN 16 (fun s i =>
    if getF s.hst.r (F.HST_DMAr_CFG_src i) ≠ 2 then s
    else if dmaOpen s.hst i 2 && 2 ≤ dmaRoom s.hst i then
      { s with hst := { s.hst with dma := vmod s.hst.dma i fun d => { d with q := d.q ++ (dmaWords e).map fun w => (4, w) } } }
    else { s with hst := { s.hst with r := incF s.hst.r (F.HST_DMAr_WPTR_lost i) 1 } }) s

/-- Write an entry in the RAM log. -/
def ramLog (e : LogEntry) (s : State) : State :=
  let i := getF s.flt.r F.FLT_LOG_PTR_next
  let r := incF (setF s.flt.r F.FLT_LOG_PTR_next ((i + 1) % 64)) F.FLT_LOG_PTR_total 1
  logDma e { s with flt := { s.flt with r := r, log := vset s.flt.log i e } }

/-- An entry waits for the NVM log, or is dropped (R353). DEDUCED: log 79. -/
def nvmLogPut (e : LogEntry) (s : State) : State :=
  if s.flt.nvPend.length < 8 then { s with flt := { s.flt with nvPend := s.flt.nvPend ++ [e] } }
  else
    { s with flt := { s.flt with nvLost := s.flt.nvLost + 1,
                                 r := incF (setFlag s.flt.r F.FLT_STAT_nv_drop) F.FLT_NVLOG_STAT_dropped 1 } }

/-- Take the next `seq`: tally counter 0, incremented once (R353). -/
def takeSeq (s : State) : Word × State :=
  let s := nvmScan s
  let m := ctrIncr s.nvm.mem 0
  let q := BitVec.ofNat 32 (ctrValue m 0)
  (q, { s with nvm := { s.nvm with mem := m }, flt := { s.flt with r := kvSet s.flt.r R.FLT_SEQ q } })

/-- Log a happening of source `n` (type 1 activation, 2 clear, 3 clear refused). -/
def logHappening (type n : Nat) (ram nv : Bool) (s : State) : State :=
  if !ram && !nv then s
  else
    let x := vget s.flt.src n {}
    let (q, s) := takeSeq s
    let e : LogEntry :=
      { w0 := BitVec.ofNat 32 (strideCnt s),
        w1 := BitVec.ofNat 32 (x.sub * 2 ^ 24 + x.unit * 2 ^ 16 + type * 2 ^ 12 + srcClass n x * 256 + n),
        w2 := BitVec.ofNat 32 (0x5A * 2 ^ 24 + x.count * 2 ^ 16 + opState s * 256 + x.applied), w3 := q }
    let s := if ram then ramLog e s else s
    if nv then nvmLogPut e s else s

/-! ## Reactions (R345 to R348) -/

/-- Every phase that an active safe reaction holds at trip levels (R345). -/
def reactPhases (s : State) : List Nat :=
  let sp := safePhases s.flt
  let held := s.flt.src.toList.filter (·.active)
  if held.any (·.applied.testBit 6) then List.range 48
  else
    let bk := safeBanks s.flt
    (List.range 48).filter fun p =>
      let b := (s.img.str.phases.getD p {}).bank
      sp.getLsbD p || (b < 24 && bk.getLsbD b)

/-- The latches of the safe reactions follow the active sources; auxiliary outputs follow safe all (R196, R345). -/
def setReact (s : State) : State :=
  let l := reactPhases s
  let s := latchOp (fun p x => { x with react := l.contains p }) s
  { s with pwm := { s.pwm with auxAll := s.flt.src.toList.any fun x => x.active && x.applied.testBit 6 } }

/-- A source becomes active on an event of `unit` and `sub`, with the count it reached (R344, R345, R346). -/
def activate (n unit sub count : Nat) (s : State) : State :=
  let x := vget s.flt.src n {}
  let (ph, noUnit) := reachOf s n unit
  let bk := if noUnit then usedBanks s.img.str else banksOf s.img.str ph
  let all := noUnit || (!bk.isEmpty && bk.length == (usedBanks s.img.str).length)
  let react := srcReact n x
  let x := { x with active := true, count := count, unit := unit, sub := sub, applied := react,
                    safePh := ofBits 48 ph, safeBk := ofBits 24 bk,
                    degAll := all, degBk := if all then 0 else ofBits 24 bk }
  let s := { s with flt := { s.flt with src := vset s.flt.src n x } }
  let s := logHappening 1 n (react.testBit 0) (srcClass n x == 3) s
  let s := if react.testBit 1 then
      irq 0 { s with flt := { s.flt with r := setFlag s.flt.r F.FLT_STAT_alert } }
    else s
  setFaultN (setReact s)

/-! ## Counting (R340 to R343) -/

/-- The source's window is open in the stride in progress (R343). DEDUCED: log 79. -/
def windowOpen (s : State) (x : Src) : Bool := x.isOpen && decide (strideAge s x.start < x.window)

/-- Take `n` events of source `k` in the stride in progress (R343). DEDUCED: log 79. -/
def takeEvents (k n unit sub : Nat) (s : State) : State :=
  let x := vget s.flt.src k {}
  if !srcEnabled s.img.str k x then s
  else if x.active then
    { s with flt := { s.flt with src := vset s.flt.src k { x with post := min 255 (x.post + n) } } }
  else
    let now := strideCnt s
    let start := if windowOpen s x then x.start else now
    let count := min 255 ((if windowOpen s x then x.count else 0) + n)
    let s := { s with flt := { s.flt with src := vset s.flt.src k { x with isOpen := true, start := start, count := count } } }
    if k < 2 || x.thresh ≤ count then activate k unit sub count s else s

/-- Put an event ahead of the first that has a higher source. -/
def insertEvent (e : FltEvent) : List FltEvent → List FltEvent
  | [] => [e]
  | h :: t => if e.src ≤ h.src then e :: h :: t else h :: insertEvent e t

/-- The events of queue 9 behind its first `n` were sent in one clock: they stand in ascending source order, so that the sources that
become active on them are logged in that order (R351). -/
def sortEvents (n : Nat) (s : State) : State :=
  { s with flt := { s.flt with q9 := s.flt.q9.take n ++ (s.flt.q9.drop n).foldr insertEvent [] } }

/-- A credit of queue 9 has returned: the source that has held events longest sends one entry, a summary for two or more
(R16, R340). DEDUCED: log 34. -/
def sendHeld (f : Flt) : Flt :=
  match f.held with
  | [] => f
  | h :: t =>
    if 64 ≤ f.q9.length then f
    else
      let n := min h.count 255
      let e : FltEvent := { src := h.src, summary := 1 < n, unit := h.unit, sub := if 1 < n then n else h.sub, tag := h.tag }
      { f with q9 := f.q9 ++ [e], held := if h.count ≤ 255 then t else { h with count := h.count - 255 } :: t }

/-- FAULT_EVENT_TAKE: the collector takes the entry at the front of queue 9 (R340); in retention it takes none (R331).
DEDUCED: log 79. -/
def faultEventTake (s : State) : State :=
  if !coreReady s || opState s < 3 then s
  else
    match s.flt.q9 with
    | [] => { s with flt := sendHeld s.flt }
    | e :: t =>
      let s := { s with flt := sendHeld { s.flt with q9 := t } }
      takeEvents e.src (if e.summary then e.sub else 1) e.unit e.sub s

/-- FAULT_EVENT_TAKE. -/
def execFaultEventTake (s : State) : Host.Outcome State Fault Refusal := .next (faultEventTake s)

/-! ## Clearing (R350, R342) -/

/-- The condition of R339 under which a clear of source `n` is refused. -/
def clearHolds (s : State) (n : Nat) : Bool :=
  if n = 23 then getF s.bus.r F.BUS_HIVE_STAT_loss_state == 4
  else if n = 24 then getF s.tbs.r F.TBS_STAT_lock_state == 3
  else if n = 26 then thmHolds s.thm.r
  else if n = 27 then railHolds s.seq
  else if 64 ≤ n ∧ n < 88 then s.flt.hardNow.getLsbD (n - 64) || s.flt.hardPrev.getLsbD (n - 64)
  else false

/-- Clear the trip latches that source `n` owns (R196, R350). -/
def clearOwned (n : Nat) (s : State) : State :=
  let ring := if 64 ≤ n ∧ n < 88 then (match ringBank s.img.str (n - 64) with
    | some b => bankPhases s.img.str b
    | none => []) else []
  let s := latchOp (fun p x =>
    { x with wd := x.wd && n != 0, crit := x.crit && n != 1, ring := x.ring && !ring.contains p,
             plaus := x.plaus.filter (· != n) }) s
  if n = 0 then { s with pwm := { s.pwm with auxWd := false } } else s

/-- An accepted clear of an active source (R350). -/
def clearSource (n : Nat) (s : State) : State :=
  let x := vget s.flt.src n {}
  let s := logHappening 2 n true (srcClass n x == 3) s
  let s := { s with flt := { s.flt with src := vset s.flt.src n { x with active := false, count := 0, isOpen := false } } }
  setFaultN (setReact (clearOwned n s))

/-- A write of 1 to source `n`'s bit in `FLT_ACTIVEn` (R342, R350). -/
def clearRequest (n : Nat) (s : State) : State :=
  let x := vget s.flt.src n {}
  if x.active then
    if clearHolds s n then
      let r := setF (setFlag s.flt.r F.FLT_STAT_clr_refused) F.FLT_STAT_clr_src n
      logHappening 3 n true false { s with flt := { s.flt with r := r } }
    else clearSource n s
  else if (n < 2 || ownsLatch s.img.str n) && !clearHolds s n then clearOwned n s
  else s

/-- A host write of `FLT_ACTIVEn`. -/
def activeWrite (n : Nat) (mask : Word) (s : State) : State :=
  foldN 32 (fun s i => if mask.getLsbD i then clearRequest (32 * n + i) s else s) s

/-- A host write of `FLT_RAISE` (R354). DEDUCED: log 80. -/
def raiseWrite (val : Word) (s : State) : State :=
  let bank := val.toNat % 256
  if 23 < bank ∧ bank ≠ 255 then cfgErr 13 s
  else raise (112 + val.toNat / 65536 % 16) bank (val.toNat / 256 % 256) s

/-! ## The NVM log (R353) -/

/-- The bytes, in order, that write an entry at index `i`: the commit byte invalid, the entry, the commit byte. -/
def logBytes (i : Nat) (e : LogEntry) : List (Nat × Byte) :=
  let a := nvmLog i
  let w := wordBytes e.w0 ++ wordBytes e.w1 ++ (wordBytes e.w2).take 3
  [(a + 11, 0)] ++ ((List.range 11).map fun k => (a + k, w.getD k 0)) ++
    ((List.range 4).map fun k => (a + 12 + k, (wordBytes e.w3).getD k 0)) ++ [(a + 11, 0x5A)]

/-- Write one entry in the NVM log. -/
def nvmLogEntry (e : LogEntry) (s : State) : State :=
  let i := getF s.flt.r F.FLT_NVLOG_STAT_next
  { s with nvm := { s.nvm with mem := putBytes s.nvm.mem (logBytes i e) },
           flt := { s.flt with r := setF s.flt.r F.FLT_NVLOG_STAT_next ((i + 1) % 1024) } }

/-- The entry of type 4, with the `seq` it takes (R353). The manual gives its source, class, unit, count and `react` no value. -/
def dropEntry (q : Word) (s : State) : LogEntry × State :=
  let (a, s) := drawFree s
  let (b, s) := drawFree s
  ({ w0 := BitVec.ofNat 32 (strideCnt s),
     w1 := BitVec.ofNat 32 (min s.flt.nvLost 255 * 2 ^ 24 + 4 * 2 ^ 12) ||| (a &&& 0x00FF037F),
     w2 := BitVec.ofNat 32 (0x5A * 2 ^ 24 + opState s * 256) ||| (b &&& 0x00FF00FF), w3 := q }, s)

/-- NVM_LOG_WRITE: the entry that has waited longest is written; where entries were dropped, an entry of type 4 with a
`seq` of its own goes first (R353). -/
def nvmLogWrite (s : State) : State :=
  match s.flt.nvPend with
  | [] => s
  | e :: t =>
    let s := nvmScan s
    if s.flt.nvLost = 0 then nvmLogEntry e { s with flt := { s.flt with nvPend := t } }
    else
      let (q, s) := takeSeq s
      let (d, s) := dropEntry q s
      nvmLogEntry d { s with flt := { s.flt with nvLost := 0 } }

/-- The bytes, in order, that the collector has under way in the store: the entry that has waited longest, behind the increment and the
entry of type 4 where entries were dropped; with none, the increment of an event that is being taken (R353). -/
def logUnderWay (s : State) : List (Nat × Byte) × State :=
  if !flag s.nvm.r F.NVM_STAT_ready then ([], s)
  else
    let i := getF s.flt.r F.FLT_NVLOG_STAT_next
    let inc := nvmCmdBytes s.nvm.mem (.incr 0)
    match s.flt.nvPend with
    | e :: _ =>
      if s.flt.nvLost = 0 then (logBytes i e, s)
      else
        let (d, s) := dropEntry (BitVec.ofNat 32 (ctrValue s.nvm.mem 0 + 1)) s
        (inc ++ logBytes i d, s)
    | [] => (if s.flt.q9.isEmpty then [] else inc, s)

/-- A power failure or a reset cuts what the write engine has under way, of the collector's or of a host command's: any number of its
bytes, in order, is written; whose it is and how many are open (R353, R433, R435, R436, R439). DESIGN CHOICE: log 21. -/
def nvmCut (s : State) : State :=
  let (l, s) := logUnderWay s
  let h := match s.nvm.cmds with
    | c :: _ => nvmCmdBytes s.nvm.mem c
    | [] => []
  if l.isEmpty && h.isEmpty then { s with nvm := { s.nvm with cmds := [] } }
  else
    let (w, s) := drawFree s
    let l := if h.isEmpty || (!l.isEmpty && w.getLsbD 31) then l else h
    { s with nvm := { s.nvm with cmds := [], mem := putBytes s.nvm.mem (l.take (w.toNat % 2 ^ 31 % (l.length + 1))) } }

/-- NVM_LOG_WRITE. -/
def execNvmLogWrite (s : State) : Host.Outcome State Fault Refusal := .next (nvmLogWrite s)

/-! ## Boundaries (R345, R347, R348) -/

/-- Step 1 of R24: fences of active sources are in force, others lift. -/
def fltFences (f : Flt) : Flt :=
  let on := (List.range 128).filter fun n => let x := vget f.src n {}; x.active && x.applied.testBit 2
  let unit := fun n => (vget f.src n {}).unit
  { f with src := vmapI f.src fun n x => { x with fence := on.contains n },
           fCtx := ofBits 256 ((on.filter fun n => n == 2 || n == 3 || n == 5 || n == 6).map unit),
           fEng := ofBits 16 ((on.filter fun n => 32 ≤ n && n < 48).map (· - 32)),
           fLane := ofBits 16 (((on.filter fun n => n == 7 || n == 21).map fun n => unit n / 8) ++
             ((on.filter fun n => 48 ≤ n && n < 64).map (· - 48))) }

/-- The c limit of degrade is in force from a stride boundary on (R348). -/
def degradeLimit (f : Flt) : Bool := f.src.toList.any fun x => x.active && x.applied.testBit 3 && x.degAll

/-- The headers that carried `hard` in the stride that ended (R339). -/
def hardBoundary (f : Flt) : Flt := { f with hardPrev := f.hardNow, hardNow := 0 }

/-! ## Registers -/

/-- The build loads the sources from the fault table and lifts everything the collector holds (R352). DESIGN CHOICE: log 123. -/
def buildFlt (im : Img) (s : State) : State :=
  let load := fun n =>
    let e := im.flts.getD n {}
    ({ cls := if n < 2 then 0 else e.cls &&& 0x83, thresh := e.thresh, window := e.window, react := e.react, post := (vget s.flt.src n {}).post } : Src)
  let f := { s.flt with src := Vector.ofFn fun (n : Fin 128) => load n.val, live := [],
                        fEng := 0, fCtx := 0, fLane := 0, degNow := 0, hardNow := 0, hardPrev := 0,
                        r := setF s.flt.r F.FLT_CFG_faultn_class im.faultn }
  let s := { s with flt := f, plc := { s.plc with cLim := false } }
  let s := latchOp (fun _ x => { x with wd := false, crit := false, ring := false, plaus := [], react := false }) s
  { s with pwm := { s.pwm with auxWd := false, auxAll := false } }

/-- The fields of a source that live writes change. -/
def srcPut (ofs lo val : Nat) (x : Src) : Src :=
  if ofs = R.FLT_SRC_REACT then { x with react := val }
  else if lo = 16 then { x with thresh := val } else { x with window := val }

/-- Live fields of the collector at their boundary (R8); `FAULT_N` follows its class. -/
def fltLive (s : State) : State :=
  let put := fun (f : Flt) (p : Pend) =>
    if p.ofs = R.FLT_SRC_CFG ∨ p.ofs = R.FLT_SRC_REACT then { f with src := vmod f.src p.sel (srcPut p.ofs p.lo p.val) }
    else { f with r := setF f.r ⟨p.ofs, p.lo, p.width⟩ p.val }
  setFaultN { s with flt := { s.flt.live.foldl put s.flt with live := [] } }

/-- A live field of the selected source is written: at once where no strides run, at the boundary otherwise (R8, R90). -/
def srcFieldWrite (ofs lo width val : Nat) (s : State) : State :=
  let n := getF s.flt.r F.FLT_SRC_SEL_src
  if strides s then
    { s with flt := { s.flt with live := s.flt.live ++ [{ sel := n, ofs := ofs, lo := lo, width := width, val := val }] } }
  else { s with flt := { s.flt with src := vmod s.flt.src n (srcPut ofs lo val) } }

/-- A host write of `FLT_SRC_CFG` (R342, R344): `cls` frozen from ARMED on, `thresh` and `window` live. -/
def srcCfgWrite (val : Word) (s : State) : State :=
  let n := getF s.flt.r F.FLT_SRC_SEL_src
  let x := vget s.flt.src n {}
  let old := clsRead s.img.str n x
  let cls := (val.toNat / 2 ^ 24) &&& 0x83
  let s :=
    if n < 2 then cfgErr 13 s
    else if cls = old then s
    else if computing s then wrIgnored 13 R.FLT_SRC_CFG s
    else
      let owner := ownsLatch s.img.str n && cls < 128
      let s := if owner then cfgErr 13 s else s
      setFaultN { s with flt := { s.flt with src := vset s.flt.src n { x with cls := if owner then cls + x.cls / 128 * 128 else cls } } }
  let t := val.toNat / 65536 % 256
  let s := if t = 0 then cfgErr 13 s else srcFieldWrite R.FLT_SRC_CFG 16 8 t s
  let w := val.toNat % 65536
  if w = 0 then cfgErr 13 s else srcFieldWrite R.FLT_SRC_CFG 0 16 w s

/-- A host write of `FLT_SRC_REACT`. -/
def srcReactWrite (val : Word) (s : State) : State := srcFieldWrite R.FLT_SRC_REACT 0 8 (val.toNat % 256) s

/-- A register that shows the collector's state: its value, or none where the register file holds it. -/
def fltView (s : State) (ofs : Nat) : Option Word :=
  let f := s.flt
  let w := fun (n : Nat) => some (BitVec.ofNat 32 n)
  let n := getF f.r F.FLT_SRC_SEL_src
  let x := vget f.src n {}
  if ofs = R.FLT_STAT then some (putBits (kvGet f.r ofs) 3 1 (f.src.toList.any (·.active)).toNat)
  else if ofs = R.FLT_SRC_CFG then w (clsRead s.img.str n x * 2 ^ 24 + x.thresh * 65536 + x.window)
  else if ofs = R.FLT_SRC_REACT then w x.react
  else if ofs = R.FLT_SRC_STAT then
    w (x.active.toNat * 2 ^ 31 + (windowOpen s x).toNat * 2 ^ 30 + x.post * 65536 + x.unit * 256 +
      (if x.active || windowOpen s x then x.count else 0))
  else if R.FLT_ACTIVEn 0 ≤ ofs ∧ ofs ≤ R.FLT_ACTIVEn 3 then
    let k := (ofs - R.FLT_ACTIVEn 0) / 4
    some (ofBits 32 ((List.range 32).filter fun i => (vget f.src (32 * k + i) {}).active))
  else if ofs = R.FLT_NVLOG_STAT then some (putBits (kvGet f.r ofs) 16 4 f.nvPend.length)
  else if ofs = R.FLT_DEG_STAT then w (f.degNow.toNat + s.plc.cLim.toNat * 2 ^ 24)
  else if 0x1000 ≤ ofs ∧ ofs < 0x1400 then
    let e := vget f.log ((ofs - 0x1000) / 16) {}
    some (match (ofs - 0x1000) % 16 / 4 with
      | 0 => e.w0
      | 1 => e.w1
      | 2 => e.w2
      | _ => e.w3)
  else none

/-- A read of `FLT_SRC_STAT` clears `post_cnt` (RC). -/
def srcStatRead (s : State) : State :=
  { s with flt := { s.flt with src := vmod s.flt.src (getF s.flt.r F.FLT_SRC_SEL_src) fun x => { x with post := 0 } } }

/-- FAULT_CLEAR: a host write of 1 to bits of `FLT_ACTIVEn`. -/
def execFaultClear (_path : Path) (n : Fin 4) (mask : Word) (s : State) : Host.Outcome State Fault Refusal :=
  whenCore (activeWrite n mask) s
/-- TRIP_LATCH_RELEASE: the same write, for a source that owns a trip latch and is not active. -/
def execTripLatchRelease (_path : Path) (n : Fin 4) (mask : Word) (s : State) : Host.Outcome State Fault Refusal :=
  whenCore (activeWrite n mask) s
/-- HOST_FAULT_RAISE: a host write of `FLT_RAISE`. -/
def execHostFaultRaise (_path : Path) (val : Word) (s : State) : Host.Outcome State Fault Refusal := whenCore (raiseWrite val) s

end Sys2Proof.Machine
end

