-- ==== Sys2Proof/Machine/Hst.lean ====
section
/-! DEFINITION. The host link (R355 to R370): the PCIe link, MSI-X and the interrupt pin, the DMA rings. -/
namespace Sys2Proof.Machine

/-- A change of the HST registers. -/
def hstRegs_ (f : RegFile → RegFile) (s : State) : State := { s with hst := { s.hst with r := f s.hst.r } }

/-! ## The link (R355, R356) -/

/-- What the endpoint is (R355). DEDUCED: log 118. -/
structure Endpoint where
  functions  : Nat := 1
  headerType : Nat := 0
  classCode  : Nat := 0x0B4000
  /-- Gen1 to Gen3; x1 or x2. -/
  speeds     : List Nat := [1, 2, 3]
  widths     : List Nat := [1, 2]
  msixVectors : Nat := 32
  payloads   : List Nat := [128, 256]
  functionLevelReset : Bool := true
  errorReporting     : Bool := true
  powerStates : List String := ["D0", "D3hot"]
  linkStates  : List String := ["L0s", "L1"]
deriving DecidableEq, Repr

/-- The endpoint (R355). DEDUCED: log 118. -/
def endpoint : Endpoint := {}

/-- The max payload size in force, in bytes (R355). DEDUCED: log 118. -/
def maxPayload (h : Hst) : Nat := endpoint.payloads.getD h.mps256.toNat 128

/-- PCIE_LINK_UP: the endpoint trains, up to `max_speed` and `max_lanes`; it needs its enable and its power (R331). The host has
set Bus Master Enable and the max payload size. DEDUCED: log 118. -/
def pcieLinkUp (speed lanes : BitVec 2) (bme mps256 : Bool) (s : State) : State :=
  let r := s.hst.r
  if !flag r F.HST_PCIE_CFG_en || !s.bgt.on.getLsbD 23 then s
  else
    let v := max 1 (min speed.toNat (getF r F.HST_PCIE_CFG_max_speed + 1))
    let n := max 1 (min lanes.toNat (getF r F.HST_PCIE_CFG_max_lanes + 1))
    hstRegs_ (fun r => setF (setF (setF (setF r F.HST_STAT_speed v) F.HST_STAT_lanes n) F.HST_STAT_bme bme.toNat)
      F.HST_STAT_link_up 1) { s with hst := { s.hst with mps256 := mps256 } }

/-- The records and log entries that wait in DMA ring `i` are dropped (R220, R369). -/
def dmaDrop (i : Nat) (s : State) : State :=
  let q := (vget s.hst.dma i {}).q
  let s := { s with hst := { s.hst with dma := vmod s.hst.dma i fun d => { d with q := [] },
                                        r := incF s.hst.r (F.HST_DMAr_WPTR_lost i) q.length } }
  q.foldl (fun s e => if e.1 < 4 then dropRecord e.1 s else s) s

/-- DMA ring `i` is disabled. DESIGN CHOICE: log 81. -/
def dmaOff (i : Nat) (s : State) : State :=
  hstRegs_ (fun r => setF r (F.HST_DMAr_CFG_en i) 0) (dmaDrop i s)

/-- The MSI-X table and the PBA as they are after a reset: every vector masked. PRESUMED: log 7. -/
def msixClear (r : RegFile) : RegFile :=
  let z := foldN 32 (fun r v => kvSet (kvSet (kvSet (kvSet r (0x8000 + 16 * v) 0) (0x8004 + 16 * v) 0) (0x8008 + 16 * v) 0)
    (0x800C + 16 * v) 1) r
  kvSet z 0x9000 0

/-- The host link alone is reset (R356): what waits in its rings goes, and no other block's registers change; `up` where the link
stays up. DEDUCED: log 82. -/
def hostLinkReset (up : Bool) (s : State) : State :=
  let s := hstRegs_ (fun r =>
    let r := foldN 16 (fun r i =>
      setF (incF r (F.HST_DMAr_WPTR_lost i) (vget s.hst.dma i {}).q.length) (F.HST_DMAr_CFG_en i) 0) r
    let r := setF (setF (msixClear (kvSet r R.HST_IRQ_STAT 0)) F.HST_DMA_IRQ_cause 0) F.HST_STAT_bme 0
    if up then r else setF (setF (setF r F.HST_STAT_speed 0) F.HST_STAT_lanes 0) F.HST_STAT_link_up 0) s
  let s := alertCheck { s with hst := { s.hst with dma := Vector.replicate 16 {}, mps256 := false } }
  if getF s.img.r F.IMG_STAT_owner = 1 then { s with img := { s.img with r := setF s.img.r F.IMG_STAT_owner 0 } } else s

/-! ## Interrupts (R364 to R366) -/

/-- A vector is unmasked: its pending message goes out (R365). PRESUMED: log 7. -/
def msixUnmask (v : Nat) (s : State) : State :=
  let s := hstRegs_ (fun r => putBit r (0x800C + 16 * v) 0 false) s
  if getBit s.hst.r 0x9000 v && canPost s.hst then sendMsi v (hstRegs_ (fun r => putBit r 0x9000 v false) s) else s

/-- `HOST_IRQ_N` is low (R366). -/
def hostIrqLow (h : Hst) : Bool :=
  flag h.r F.HST_IRQ_CFG_pin_en &&
    ((kvGet h.r R.HST_IRQ_STAT &&& kvGet h.r R.HST_IRQ_EN) != 0 ||
      getF h.r F.HST_DMA_IRQ_cause &&& getF h.r F.HST_DMA_IRQ_en != 0)

/-! ## DMA rings (R367 to R370) -/

/-- A host address made of its high and low registers. -/
def dmaAddr (r : RegFile) (hi lo : Nat) : BitVec 64 := kvGet r hi ++ kvGet r lo

/-- The write-back of ring `i`: `wptr` and the low word of the stride count, where it is enabled (R368).
DESIGN CHOICE: log 81. -/
def writeBack (i : Nat) (s : State) : State :=
  let r := s.hst.r
  if !flag r (F.HST_DMAr_WB_LO_wb_en i) then s
  else
    let a := dmaAddr r (R.HST_DMAr_WB_HI i) (R.HST_DMAr_WB_LO i)
    emit (.post ((a >>> 3) <<< 3) (BitVec.ofNat 64 (strideCnt s * 2 ^ 32 + getF r (F.HST_DMAr_WPTR_wptr i)))) s

/-- The cause of ring `i` at a write-back: the threshold is reached, or the hold has passed (R370). -/
def dmaCause (i : Nat) (s : State) : State :=
  let thr := getF s.hst.r (F.HST_DMAr_CFG_thr i)
  let hold := getF s.hst.r (F.HST_DMAr_CFG_hold i)
  let d := vget s.hst.dma i {}
  if (thr ≠ 0 ∧ thr ≤ d.since) ∨ (hold ≠ 0 ∧ 0 < d.since ∧ hold ≤ d.age) then dmaIrq i s else s

/-- Write one entry to host memory at the write pointer. -/
def dmaPut (i : Nat) (s : State) (v : BitVec 64) : State :=
  let r := s.hst.r
  let w := getF r (F.HST_DMAr_WPTR_wptr i)
  let base := dmaAddr r (R.HST_DMAr_BASE_HI i) (R.HST_DMAr_BASE_LO i)
  let s := emit (.post (base + BitVec.ofNat 64 (8 * w)) v) s
  hstRegs_ (fun r => setF r (F.HST_DMAr_WPTR_wptr i) ((w + 1) % 2 ^ getF r (F.HST_DMAr_CFG_size_log2 i))) s

/-- DMA_WRITE: a burst of ring `i`, of up to the max payload size, with its write-back (R363, R368, R370). DESIGN CHOICE: log 81. -/
def dmaWrite (i : Nat) (s : State) : State :=
  let d := vget s.hst.dma i {}
  if d.q.isEmpty || !canPost s.hst || !flag s.hst.r (F.HST_DMAr_CFG_en i) then s
  else
    let n := maxPayload s.hst / 8
    let burst := d.q.take n
    let s := (burst.map (·.2)).foldl (dmaPut i) s
    let d' : Dma := { d with q := d.q.drop n, since := d.since + burst.length, age := if d.since = 0 then 0 else d.age }
    let s := { s with hst := { s.hst with dma := vset s.hst.dma i d' } }
    dmaCause i (writeBack i s)

/-- DMA_HOLD_EXPIRY: `hold` strides have passed since the first entry that no cause has told of (R370). -/
def dmaHoldExpiry (i : Nat) (s : State) : State :=
  let hold := getF s.hst.r (F.HST_DMAr_CFG_hold i)
  let d := vget s.hst.dma i {}
  if hold = 0 ∨ d.since = 0 ∨ d.age < hold ∨ ¬ canPost s.hst then s else dmaCause i (writeBack i s)

/-- A stride boundary in the rings: strides since the first entry (R370). -/
def dmaBoundary (h : Hst) : Hst :=
  { h with dma := h.dma.map fun d => if d.since = 0 then d else { d with age := d.age + 1 } }

/-- A host write of `HST_DMAr_CFG` (R367, R369). -/
def dmaCfgWrite (i : Nat) (val : Word) (s : State) : State :=
  let r := s.hst.r
  let v := val.toNat
  let en := flag r (F.HST_DMAr_CFG_en i)
  let src := v / 2 ^ 29 % 4
  let size := v / 2 ^ 24 % 32
  let badSrc : Bool := if en then src != getF r (F.HST_DMAr_CFG_src i) else src == 3
  let badSize : Bool := if en then size != getF r (F.HST_DMAr_CFG_size_log2 i) else decide (size < 6 ∨ 20 < size)
  let s := if badSrc || badSize then cfgErr 14 s else s
  let s := hstRegs_ (fun r =>
    let r := if badSrc then r else setF r (F.HST_DMAr_CFG_src i) src
    let r := if badSize then r else setF r (F.HST_DMAr_CFG_size_log2 i) size
    setF (setF r (F.HST_DMAr_CFG_hold i) (v / 65536)) (F.HST_DMAr_CFG_thr i) v) s
  if v / 2 ^ 31 = 0 then (if en then dmaOff i s else s)
  else if en then s
  else hstRegs_ (fun r => setF (setF (setF r (F.HST_DMAr_CFG_en i) 1) (F.HST_DMAr_WPTR_wptr i) 0) (F.HST_DMAr_RPTR_rptr i) 0) s

/-- A host write of `HST_DMAr_RPTR` (R368): only into the span from the old `rptr` to `wptr`. -/
def dmaRptr (i : Nat) (val : Word) (s : State) : State :=
  let r := s.hst.r
  let size := 2 ^ getF r (F.HST_DMAr_CFG_size_log2 i)
  let old := getF r (F.HST_DMAr_RPTR_rptr i)
  let n := val.toNat % 2 ^ 20
  let span := (getF r (F.HST_DMAr_WPTR_wptr i) + size - old) % size
  if n < size ∧ (n + size - old) % size ≤ span then hstRegs_ (fun r => setF r (F.HST_DMAr_RPTR_rptr i) n) s else cfgErr 14 s

/-- A host write of an address register of ring `i`: ignored while the ring is enabled, if it changes the address (R367). -/
def dmaAddrWrite (i ofs : Nat) (mask val : Word) (s : State) : State :=
  if flag s.hst.r (F.HST_DMAr_CFG_en i) && (kvGet s.hst.r ofs &&& mask) != (val &&& mask) then
    let s := cfgErr 14 s
    if ofs = R.HST_DMAr_WB_LO i then hstRegs_ (fun r => setF r (F.HST_DMAr_WB_LO_wb_en i) val.toNat) s else s
  else hstRegs_ (fun r =>
    let v := (kvGet r ofs &&& ~~~mask) ||| (val &&& mask)
    kvSet r ofs (if ofs = R.HST_DMAr_WB_LO i then putBits v 0 1 val.toNat else v)) s

/-! ## Register writes -/

/-- A host write of the MSI-X table; the PBA takes no write. DEDUCED: log 13. -/
def msixWrite (ofs : Nat) (val : Word) (s : State) : State :=
  let v := (ofs - 0x8000) / 16
  if ofs % 16 = 0 then hstRegs_ (fun r => kvSet r ofs (val &&& 0xFFFFFFFC)) s
  else if ofs % 16 ≠ 12 then hstRegs_ (fun r => kvSet r ofs val) s
  else if val.getLsbD 0 then hstRegs_ (fun r => putBit r ofs 0 true) s
  else if msixMasked s.hst.r v then msixUnmask v s
  else s

/-- A write of `HST_PCIE_CFG`. -/
def pcieCfgWrite (val : Word) (s : State) : State :=
  let sp := val.toNat / 16 % 4
  let s := if sp = 3 then cfgErr 14 s else hstRegs_ (fun r => setF r F.HST_PCIE_CFG_max_speed sp) s
  hstRegs_ (fun r => putBits (kvGet r R.HST_PCIE_CFG) 0 2 val.toNat |> kvSet r R.HST_PCIE_CFG) s

/-- Cause bits that a write clears in `HST_DMA_IRQ`: their rings count afresh (R370). -/
def dmaIrqWrite (val : Word) (s : State) : State :=
  let r := s.hst.r
  let left := getF r F.HST_DMA_IRQ_cause &&& (65535 - val.toNat % 65536)
  { s with hst := { s.hst with
      r := kvSet r R.HST_DMA_IRQ (BitVec.ofNat 32 (val.toNat / 65536 * 65536 + left)),
      dma := vmapI s.hst.dma fun i d => if val.getLsbD i then { d with since := 0, age := 0 } else d } }

/-- A host write of a mapped HST register. -/
def hstWrite (ofs : Nat) (val : Word) (s : State) : State :=
  if 0x9000 ≤ ofs then s
  else if 0x8000 ≤ ofs then msixWrite ofs val s
  else if ofs = R.HST_STAT then (if val.getLsbD 6 then hstRegs_ (fun r => setF r F.HST_STAT_cfg_err 0) s else s)
  else if ofs = R.HST_PCIE_CFG then pcieCfgWrite val s
  else if ofs = R.HST_IRQ_STAT then alertCheck (hstRegs_ (fun r => kvSet r ofs (kvGet r ofs &&& ~~~val)) s)
  else if ofs = R.HST_IRQ_EN then hstRegs_ (fun r => kvSet r ofs (val &&& 0x3FFF)) s
  else if ofs = R.HST_IRQ_CFG then hstRegs_ (fun r => kvSet r ofs (val &&& 1)) s
  else if ofs = R.HST_DMA_IRQ then dmaIrqWrite val s
  else if ofs < 0x100 then s
  else
    let i := (ofs - 0x100) / 32
    match (ofs - 0x100) % 32 / 4 with
    | 0 => dmaAddrWrite i ofs 0xFFFFF000 val s
    | 1 => dmaAddrWrite i ofs 0xFFFFFFFF val s
    | 2 => dmaCfgWrite i val s
    | 4 => dmaRptr i val s
    | 5 => dmaAddrWrite i ofs 0xFFFFFFF8 val s
    | 6 => dmaAddrWrite i ofs 0xFFFFFFFF val s
    | _ => s

/-! ## Commands -/

/-- HOST_LINK_RESET: a Function Level Reset, which leaves the link up, a hot reset or a link-down event; the row does not say which,
and a free value does. DEDUCED: log 82. -/
def execHostLinkReset (s : State) : Host.Outcome State Fault Refusal :=
  let (w, s) := drawFree s
  .next (hostLinkReset (w.getLsbD 0) s)
/-- PCIE_LINK_UP. -/
def execPcieLinkUp (speed lanes : BitVec 2) (host : EndpointSet) (s : State) : Host.Outcome State Fault Refusal :=
  .next (pcieLinkUp speed lanes host.bme host.mps256 s)
/-- DMA_WRITE. -/
def execDmaWrite (ring : Fin 16) (s : State) : Host.Outcome State Fault Refusal := .next (dmaWrite ring s)
/-- DMA_HOLD_EXPIRY. -/
def execDmaHoldExpiry (ring : Fin 16) (s : State) : Host.Outcome State Fault Refusal := .next (dmaHoldExpiry ring s)
/-- DMA_ENABLE: a write of `HST_DMAr_CFG`. -/
def execDmaEnable (_path : Path) (ring : Fin 16) (val : Word) (s : State) : Host.Outcome State Fault Refusal :=
  whenUp (dmaCfgWrite ring val) s
/-- DMA_RPTR_WRITE: a write of `HST_DMAr_RPTR`. -/
def execDmaRptrWrite (_path : Path) (ring : Fin 16) (val : Word) (s : State) : Host.Outcome State Fault Refusal :=
  whenUp (dmaRptr ring val) s
/-- MSIX_UNMASK. -/
def execMsixUnmask (vec : Fin 32) (s : State) : Host.Outcome State Fault Refusal := .next (msixUnmask vec s)

end Sys2Proof.Machine
end

