-- ==== Sys2Proof/Machine/Pacer.lean ====
section
/-! DEFINITION. The pacer (R26 to R44): boundaries, marks, trimming, lock states, the stride watchdog. -/
namespace Sys2Proof.Machine

/-- A change of the TBS registers. -/
def tbsRegs_ (f : RegFile → RegFile) (s : State) : State := { s with tbs := { s.tbs with r := f s.tbs.r } }

/-- The source the pacer locks to. -/
def paceSrc (s : State) : Nat := getF s.tbs.r F.TBS_SYNC_CFG_src

/-- The lock state at rest, and afresh at every entry to LOADED (R42). -/
def lockRest (s : State) : State :=
  let s := { s with tbs := { s.tbs with goodRun := 0, missRun := 0, marked := false, early := none, trim := 0, trimOnly := false } }
  tbsRegs_ (fun r => setF r F.TBS_STAT_lock_state (if paceSrc s = 0 then 0 else 1)) s

/-- A write of `src` (R42): FREE while it is 0, ACQUIRE from FREE otherwise; at rest while no strides run. A change between 1 and
2 keeps the lock state and the runs. DESIGN CHOICE: log 115. -/
def srcWritten (s : State) : State :=
  if !strides s then lockRest s
  else if paceSrc s = 0 then
    tbsRegs_ (fun r => setF r F.TBS_STAT_lock_state 0) { s with tbs := { s.tbs with goodRun := 0, missRun := 0 } }
  else if getF s.tbs.r F.TBS_STAT_lock_state = 0 then
    tbsRegs_ (fun r => setF r F.TBS_STAT_lock_state 1) { s with tbs := { s.tbs with goodRun := 0, missRun := 0 } }
  else s

/-- The first clock of stride 0: entry to LOADED (R84, R28); where it lies among the word boundaries of R223 is open.
DESIGN CHOICE: log 59. -/
def pacerStart (s : State) : State :=
  let s := tbsRegs_ (fun r => setF (setF r F.TBS_STRIDE_CNT_stride_cnt 0) F.TBS_LAP_POS_stride_in_lap 0) s
  let (w, s) := drawFree s
  lockRest { s with tbs := { s.tbs with clock := 0, len := strideLen s, committed := false, lap := 0, replStride := false,
                                        t0 := w.toNat % 128 } }

/-- The lock state after a mark of phase error `e` (R42); `next` where the mark is that of the next boundary, which it comes
ahead of. DEDUCED: log 46. -/
def lockMark (e : Int) (next : Bool) (s : State) : State :=
  let st := getF s.tbs.r F.TBS_STAT_lock_state
  let good : Bool := decide (-2 ≤ e ∧ e ≤ 2)
  let had : Bool := if next then s.tbs.early.isSome else s.tbs.marked
  let run := if good then (if had then s.tbs.goodRun else s.tbs.goodRun + 1) else 0
  let near : Bool := decide (-(strideLen s : Int) ≤ 4 * e ∧ 4 * e ≤ strideLen s)
  let st' := if st = 3 then 1 else if st = 0 then 0 else if 16 ≤ run then 2 else 1
  let s := { s with tbs := { s.tbs with goodRun := if st = 3 then 0 else run,
                                        marked := s.tbs.marked || (near && !next),
                                        early := if near && next then some good else s.tbs.early,
                                        trimOnly := s.tbs.trimOnly || st == 3 } }
  tbsRegs_ (fun r => setFI (setF r F.TBS_STAT_lock_state st') F.TBS_STAT_phase_err (clampI (-127) 127 e)) s

/-- A mark that comes at clock `pos` of the stride, of phase error `e` against the boundary `k` strides after the start of this
one (R41, R42, R43): in LOADED the count is set in a single step and a lap mark adopted; later the strides are trimmed by
one clock. DEDUCED: log 46. -/
def paceMark (pos : Nat) (e k : Int) (lap : Bool) (s : State) : State :=
  let step : Bool := opState s == 4 && !s.tbs.trimOnly && getF s.tbs.r F.TBS_STAT_lock_state != 3
  let L := lapLen s
  let place := ((strideInLap s : Int) + k) % (L : Int)
  let s := lockMark e (0 < k) s
  let c := (((pos : Int) - e) % (strideLen s : Int)).toNat
  let s :=
    if step then { s with tbs := { s.tbs with clock := c, t0 := (((s.tbs.t0 : Int) + pos - c) % 128).toNat, trim := 0 } }
    else { s with tbs := { s.tbs with trim := clampI (-1) 1 e } }
  if !lap || place = 0 then s
  else if opState s = 4 then
    tbsRegs_ (fun r => setF r F.TBS_LAP_POS_stride_in_lap ((-k) % (L : Int)).toNat) s
  else tbsRegs_ (fun r => setFlag r F.TBS_STAT_lap_misalign) s

/-- The boundary nearest to a mark at `x` clocks after the start of this stride: the error, and which boundary it is.
DEDUCED: log 46. -/
def nearBoundary (n : Nat) (x : Int) : Int × Int :=
  let k := (2 * x + n) / (2 * n : Int)
  (x - k * n, k)

/-- PACE_IN_EDGE: a rising edge at clock `pos` of the stride, with a high pulse of `high` clocks (R41). -/
def paceInEdge (pos high : Nat) (s : State) : State :=
  if paceSrc s ≠ 1 ∨ ¬ strides s ∨ s.tbs.len = 0 then s
  else
    let x := nearBoundary s.tbs.len ((pos : Int) + getFI s.tbs.r F.TBS_PACE_OFS_pace_ofs)
    paceMark pos x.1 x.2 (20 < high) s

/-- HOLDOVER_ENTRY: marks have been missing for `holdover_strides` strides (R42). -/
def holdoverEntry (s : State) : State :=
  let st := getF s.tbs.r F.TBS_STAT_lock_state
  if !strides s || paceSrc s = 0 || st = 3 || s.tbs.missRun < getF s.tbs.r F.TBS_SYNC_CFG_holdover_strides then s
  else
    raise 24 255 255 (tbsRegs_ (fun r => setFlag (setF r F.TBS_STAT_lock_state 3) F.TBS_STAT_lock_lost)
      { s with tbs := { s.tbs with goodRun := 0 } })

/-- STRIDE_WATCHDOG_EXPIRY (R38, R39): every phase goes to trip levels, auxiliary outputs with `trip_all` go inactive. -/
def watchdogExpiry (s : State) : State :=
  if !coreReady s || !strides s then s
  else
    let s := tbsRegs_ (fun r => setFlag r F.TBS_STAT_wd_expired) s
    let s := latchOp (fun _ x => { x with wd := true }) { s with pwm := { s.pwm with auxWd := true } }
    raise 0 255 255 s

/-- A carrier in whose period a trimmed stride ended (R182). -/
def trimCarr (d : Int) (c : Carr) : Carr := { c with pLen := ((c.pLen : Int) + 8 * d).toNat }

/-- The carriers follow the trim of the stride that ended (R182). -/
def trimCarriers (d : Int) (w : Pwm) : Pwm :=
  if d = 0 then w
  else { w with ph := w.ph.map fun x => { x with c := trimCarr d x.c }
                aux := w.aux.map fun x => { x with c := trimCarr d x.c }
                refLen := ((w.refLen : Int) + 8 * d).toNat }

/-- The pacer at a boundary: the stride count and the place in the lap advance, missing marks count, the next stride takes
its trim (R29, R37, R41, R42). A boundary without a mark ends the run of good ones. DESIGN CHOICE: log 115. -/
def pacerBoundary (s : State) : State :=
  let d := (s.tbs.len : Int) - strideLen s
  let j := strideInLap s + 1
  let wrap : Bool := decide (lapLen s ≤ j)
  let s := { s with pwm := trimCarriers d s.pwm }
  let s := tbsRegs_ (fun r => setF (setF r F.TBS_STRIDE_CNT_stride_cnt (strideCnt s + 1)) F.TBS_LAP_POS_stride_in_lap
    (if wrap then 0 else j)) s
  let t := if computing s || s.tbs.trimOnly then s.tbs.trim else 0
  let miss := if paceSrc s = 0 ∨ s.tbs.marked then 0 else s.tbs.missRun + 1
  { s with tbs := { s.tbs with
      clock := 0, len := ((strideLen s : Int) + t).toNat, committed := false, marked := s.tbs.early.isSome, early := none,
      t0 := (s.tbs.t0 + s.tbs.len) % 128, missRun := miss,
      goodRun := if s.tbs.marked then s.tbs.goodRun else (s.tbs.early == some true).toNat, lap := if wrap then s.tbs.lap + 1 else s.tbs.lap } }

/-- The pulse of `PACE_OUT` that begins at a boundary, in clocks (R40). -/
def paceOut (s : State) : State :=
  { s with tbs := { s.tbs with
      pacePulse := if flag s.tbs.r F.TBS_SYNC_CFG_pace_out_en then (if strideInLap s = 0 then 32 else 8) else 0 } }

/-- Clocks in 1 ms. -/
def msClocks : Nat := 400000

/-- A clock of bus-free time passes in COLD or SERVICE: a two-wire port whose bus has been free for 1 ms stops its clock (R392).
DESIGN CHOICE: log 3. DEDUCED: log 86. -/
def twoIdle (t : Two) : Two :=
  let t := if t.clkA then { t with freeA := t.freeA + 1, clkA := decide (t.freeA + 1 < msClocks) } else t
  let busy : Bool := match t.xfer with
    | some x => x.running
    | none => false
  if t.clkB && !busy then { t with freeB := t.freeB + 1, clkB := decide (t.freeB + 1 < msClocks) } else t

/-- With no command waiting a clock passes, for the stride in progress or for the two-wire ports' wait. DESIGN CHOICE: log 3. -/
def idleClock (s : State) : State :=
  if strides s then
    if s.tbs.clock + 1 < s.tbs.len then { s with tbs := { s.tbs with clock := s.tbs.clock + 1 } } else s
  else if opState s < 3 then { s with two := twoIdle s.two }
  else s

/-- Strides stop (R328): no marks are judged, `PACE_OUT` is low. DESIGN CHOICE: log 12. -/
def pacerStop (s : State) : State := lockRest { s with tbs := { s.tbs with clock := 0, pacePulse := 0, committed := false } }

/-- STRIDE_WATCHDOG_EXPIRY. -/
def execStrideWatchdogExpiry (s : State) : Host.Outcome State Fault Refusal := .next (watchdogExpiry s)
/-- PACE_IN_EDGE. -/
def execPaceInEdge (pos high : Nat) (s : State) : Host.Outcome State Fault Refusal := .next (paceInEdge pos high s)
/-- HOLDOVER_ENTRY. -/
def execHoldoverEntry (s : State) : Host.Outcome State Fault Refusal := .next (holdoverEntry s)

end Sys2Proof.Machine
end

