-- ==== Sys2Proof/Machine/Lnk.lean ====
section
/-! DEFINITION. The Suari link (R223 to R241): the line code, training and lock, the hive bypass and the hive frames. -/
namespace Sys2Proof.Machine

/-! ## The line code (R224 to R227) -/

/-- The disparity of a 16-bit payload: its ones less its zeros. -/
def disparity (d : Half) : Int := 2 * ((List.range 16).filter fun i => d.getLsbD i).length - 16

/-- The code word of a data word at running disparity `rd`, and the disparity after it (R224, R225). -/
def codeData (rd : Int) (d : Half) : BitVec 18 × Int :=
  if 0 < rd * disparity d then ((2 : BitVec 2) ++ ~~~d, rd - disparity d) else ((1 : BitVec 2) ++ d, rd + disparity d)

/-- The code word of a control payload, and the disparity after it. -/
def codeCtrl (rd : Int) (p : Half) : BitVec 18 × Int :=
  if 0 < rd then ((0 : BitVec 2) ++ p, rd - 2) else ((3 : BitVec 2) ++ p, rd + 2)

/-- The control payloads (R226). -/
def ctlTS1 : Half := 0x6699
def ctlTS2 : Half := 0x9966
def ctlECH : Half := 0x5AA5
def ctlECR : Half := 0xA55A
def ctlIDL : Half := 0x3C3C
def ctlSOF : Half := 0x0FF0
def ctlEOF : Half := 0xF00F
def ctlABT : Half := 0xC3C3

/-- The code words of data words behind those of `a`, with the running disparity. -/
def codeWords (a : List (BitVec 18) × Int) (ws : List Half) : List (BitVec 18) × Int :=
  ws.foldl (fun a w => let c := codeData a.2 w; (a.1 ++ [c.1], c.2)) a

/-- The code words of a control payload and the data words behind it, sent at running disparity `rd`. -/
def codeFrom (rd : Int) (ctl : Half) (ws : List Half) : List (BitVec 18) × Int :=
  let c := codeCtrl rd ctl
  codeWords ([c.1], c.2) ws

/-- The code words of a frame sent at running disparity `rd`: SOF, the data words, and EOF, or ABT where it cannot be
completed (R228). -/
def codeFrame (rd : Int) (ws : List Half) (fin : Half) : List (BitVec 18) × Int :=
  let m := codeFrom rd ctlSOF ws
  let e := codeCtrl m.2 fin
  (m.1 ++ [e.1], e.2)

/-- The running disparity after `n` words of `IDL` (R225, R228): it goes to 0 or 2 and alternates between them. -/
def idleRd (n : Nat) (rd : Int) : Int :=
  let k := if 0 < rd then (rd / 2).toNat else 1 + (-rd / 2).toNat
  if n ≤ k then (if 0 < rd then rd - 2 * n else rd + 2 * n)
  else if 0 < rd then (if (n - k) % 2 = 0 then 0 else 2) else (if (n - k) % 2 = 0 then 2 else 0)

/-- A received code word: a data word, a control payload, or a code error (R224, R226, R227). -/
def readCode (c : BitVec 18) : Option (Half ⊕ Half) :=
  let p := c.extractLsb' 0 16
  if c.extractLsb' 16 2 = 1 then some (.inl p)
  else if c.extractLsb' 16 2 = 2 then some (.inl (~~~p))
  else if [ctlTS1, ctlTS2, ctlECH, ctlECR, ctlIDL, ctlSOF, ctlEOF, ctlABT].contains p then some (.inr p)
  else none

/-- The disparity of a code word. -/
def codeDisparity (c : BitVec 18) : Int := 2 * ((List.range 18).filter fun i => c.getLsbD i).length - 18

/-- What a receiver makes of code words: the frame's data words, whether the frame has begun and ended, ended in `ABT`, held
a code error; the errors counted (R227), the words that had one, the tally of the running disparity, the words taken. -/
structure RxScan where
  words : List Half := []
  open_ : Bool := false
  done  : Bool := false
  abt   : Bool := false
  bad   : Bool := false
  code  : Nat := 0
  disp  : Nat := 0
  errAt : List Nat := []
  rd    : Int := 0
  n     : Nat := 0
deriving DecidableEq, Repr

/-- A code error at the word taken last; within a frame it spoils the frame. -/
def RxScan.codeError (a : RxScan) : RxScan :=
  { a with code := a.code + 1, bad := a.bad || a.open_, errAt := a.errAt ++ [a.n - 1] }

/-- One code word is received (R227, R228): within a frame the format allows no control word but `EOF` and `ABT`. -/
def RxScan.word (a : RxScan) (c : BitVec 18) : RxScan :=
  let rd := a.rd + codeDisparity c
  let off : Bool := decide (rd < -16 ∨ 16 < rd)
  let a := { a with rd := rd, n := a.n + 1, disp := a.disp + off.toNat, errAt := if off then a.errAt ++ [a.n] else a.errAt }
  match readCode c with
  | none => a.codeError
  | some (.inl w) => if a.open_ then { a with words := a.words ++ [w] } else a
  | some (.inr p) =>
    if a.open_ then
      if p = ctlEOF then { a with open_ := false, done := true }
      else if p = ctlABT then { a with open_ := false, done := true, abt := true }
      else a.codeError
    else if p = ctlSOF && !a.done then { a with open_ := true }
    else a

/-- What the receiver makes of a frame's code words. -/
def rxScan (f : RxFrame) : RxScan := f.codes.foldl RxScan.word { rd := f.rd }

/-- The frame's data words. -/
def rxWords (f : RxFrame) : List Half := (rxScan f).words

/-- The frame ended in `ABT`. -/
def rxAbt (f : RxFrame) : Bool := (rxScan f).abt

/-- The frame is whole and has no code error; `len` is the number of data words its format gives it: an `EOF` elsewhere is a
control word where none is allowed (R227). -/
def rxClean (f : RxFrame) (len : Nat) : Bool :=
  let a := rxScan f
  a.done && !a.abt && !a.bad && a.words.length == len

/-- The frame ended with `EOF` at a position where its format, of `len` data words, allows none (R227). -/
def rxMisplaced (f : RxFrame) (len : Nat) : Bool :=
  let a := rxScan f
  a.done && !a.abt && a.words.length != len

/-! ## Ports (R229 to R231, R241) -/

/-- A link port's state. -/
def portOf (s : State) (p : Nat) : LnkPort := vget s.lnk.port p {}

/-- The port is UP: it accepts and sends frames (R229). -/
def portUp (s : State) (p : Nat) : Bool := (portOf s p).st == 4

/-- Change a port. -/
def modPort (p : Nat) (f : LnkPort → LnkPort) (s : State) : State :=
  { s with lnk := { s.lnk with port := vmod s.lnk.port p f } }

/-- The PHY group of a port (R241): group g holds links 8g to 8g + 7, group 6 the hive ports. -/
def phyGroup (p : Nat) : Nat := p / 8

/-- The PHY group is powered. -/
def phyOn (s : State) (g : Nat) : Bool := s.bgt.on.getLsbD (16 + g)

/-- Send control word `ctl` and the data words behind it, at running disparity `rd`. -/
def sendLink (p : Nat) (ctl : Half) (ws : List Half) (rd : Int) (s : State) : State :=
  let c := codeFrom rd ctl ws
  emit (.link p (ctl :: ws) c.1) (modPort p (fun x => { x with txRd := c.2 }) s)

/-- The running disparity in training, where the words sent are not counted: an even value within ±16 (R225).
DESIGN CHOICE: log 59. -/
def trainRd (s : State) : Int × State :=
  let (w, s) := drawFree s
  (2 * (w.toNat % 17 : Nat) - 16, s)

/-- Send a control word, with the data words behind it, in training. -/
def sendTrain (p : Nat) (ctl : Half) (ws : List Half) (s : State) : State :=
  let (rd, s) := trainRd s
  sendLink p ctl ws rd s

/-- A port goes to DOWN and sends `TS1` from running disparity 0 (R225, R229). -/
def portDown (p : Nat) (s : State) : State := sendLink p ctlTS1 [] 0 (modPort p (fun x => { x with st := 1, errs := [] }) s)

/-- A port's training starts when it is enabled and its group is powered (R229); where its word boundaries come to lie is
open. DESIGN CHOICE: log 59. -/
def startPort (p : Nat) (s : State) : State :=
  if (portOf s p).enabled && phyOn s (phyGroup p) && (portOf s p).st == 0 then
    let (w, s) := drawFree s
    portDown p (modPort p (fun x => { x with grid := w.toNat % 128 }) s)
  else s

/-- Every port that may train does. -/
def startPorts (s : State) : State := foldN 50 (fun s p => startPort p s) s

/-- The ports of an unpowered or disabled group are OFF. -/
def stopPorts (s : State) : State :=
  foldN 50 (fun s p => if (portOf s p).enabled && phyOn s (phyGroup p) then s else modPort p (fun x => { x with st := 0 }) s) s

/-- The build enables the ports of the rings of RINGMAP, and the hive ports; a port that is not enabled is OFF (R241). `none`:
no structure has been built. -/
def enablePorts (im : Option Img) (s : State) : State :=
  let on := fun (p : Nat) => match im with
    | some im => 48 ≤ p || (im.hasRings && im.rings.any fun r => r.ring == p / 2)
    | none => false
  startPorts (stopPorts { s with lnk := { s.lnk with port := vmapI s.lnk.port fun p x => { x with enabled := on p } } })

/-- The ports of the structure in force. -/
def portsBack (s : State) : State := enablePorts (if s.sys.built then some s.img.str else none) s

/-- LINK_ALIGNED: from DOWN to ALIGN, which sends `TS2` (R229). -/
def linkAligned (p : Nat) (s : State) : State :=
  if (portOf s p).st = 1 then sendTrain p ctlTS2 [] (modPort p (fun x => { x with st := 2 }) s) else s

/-- LINK_ECHO: from ALIGN to ECHO, which sends the first `ECH` (R229, R231). DEDUCED: log 62. -/
def linkEcho (p : Nat) (s : State) : State :=
  if (portOf s p).st = 2 then
    sendTrain p ctlECH [] (modPort p (fun x => { x with st := 3, echoN := 0, echoSum := 0, segValid := false }) s)
  else s

/-- The own turnaround, in 0.5 ns (R231): the first word boundary at least 40 ns after the `ECH`, which comes `wait` later. -/
def turnaround (wait : BitVec 7) : Half := BitVec.ofNat 16 (80 + wait.toNat)

/-- ECHO_REQUEST: an `ECH` of the partner is answered with an `ECR` and the turnaround (R231). DEDUCED: log 62. -/
def echoRequest (p : Nat) (wait : BitVec 7) (s : State) : State :=
  if (portOf s p).st = 3 then sendTrain p ctlECR [turnaround wait] s else s

/-- ECHO_REPLY: an echo completes; `trip` is its round trip and `turn` the partner's turnaround, in 0.5 ns. The eighth
sets `seg_delay`, the mean of the one-way delays (R231). DEDUCED: log 62. -/
def echoReply (p trip : Nat) (turn : Half) (s : State) : State :=
  let x := portOf s p
  if x.st ≠ 3 ∨ 8 ≤ x.echoN then s
  else
    let sum := x.echoSum + (trip - turn.toNat)
    if x.echoN = 7 then
      sendTrain p ctlIDL []
        (modPort p (fun x => { x with echoN := 8, echoSum := sum, segValid := true, seg := min 65535 ((sum + 8) / 16) }) s)
    else sendTrain p ctlECH [] (modPort p (fun x => { x with echoN := x.echoN + 1, echoSum := sum }) s)

/-- A port comes UP: eight echoes are complete and an `IDL` was received (R229). It sends `IDL` from now on.
DESIGN CHOICE: log 59. -/
def portComesUp (p : Nat) (s : State) : State :=
  if (portOf s p).st = 3 ∧ (portOf s p).echoN = 8 then
    let (rd, s) := trainRd s
    modPort p (fun x => { x with st := 4, txRd := rd, txEnd := 5 * s.tbs.clock, errs := [] }) s
  else s

/-- TRAIN_TIMEOUT: 10 ms after leaving OFF a port that is not UP starts again (R229). DESIGN CHOICE: log 11. -/
def trainTimeout (p : Nat) (s : State) : State :=
  let st := (portOf s p).st
  if 1 ≤ st ∧ st ≤ 3 then portDown p (modPort p (fun x => { x with trainTo := min 65535 (x.trainTo + 1) }) s) else s

/-- Count the errors a receiver found (R227). -/
def countErrors (p code disp : Nat) (s : State) : State :=
  modPort p (fun x => { x with codeErr := min 65535 (x.codeErr + code), dispErr := min 255 (x.dispErr + disp) }) s

/-- An UP port loses lock and trains again (R230). -/
def portLosesLock (p : Nat) (s : State) : State :=
  if portUp s p then portDown p (modPort p (fun x => { x with lockLoss := min 255 (x.lockLoss + 1) }) s) else s

/-- Words that had an error at the times `ts`, ascending, joined to the latest ones before them; whether sixteen errors fell
within 256 received words, each of 64 ns (R230). -/
def errWindow (errs : List Int) (ts : List Int) : List Int × Bool :=
  ts.foldl (fun a t =>
    let l := (t :: a.1).take 16
    (l, a.2 || (l.length == 16 && decide (t - l.getD 15 0 < 256 * 128)))) (errs, false)

/-- The receiver of port `p` has taken code words that gave `sc`, the first of them at `t0`; `more` is 1 for a frame that ended at
a wrong place. Errors count, and sixteen within 256 words lose lock (R227, R230). -/
def takeErrors (p : Nat) (sc : RxScan) (more : Nat) (t0 : Int) (s : State) : State :=
  let ats := sc.errAt ++ (if more = 0 then [] else [sc.n - 1])
  let w := errWindow (portOf s p).errs (ats.map fun i => t0 + 128 * (i + 1 : Nat))
  let s := countErrors p (sc.code + more) sc.disp (modPort p (fun x => { x with rd := sc.rd, errs := w.1 }) s)
  if w.2 then portLosesLock p s else s

/-- The ports' times at a stride boundary count from the stride that begins; the stride that ended had `len` clocks. -/
def linkBoundary (len : Nat) (s : State) : State :=
  { s with lnk := { s.lnk with port := s.lnk.port.map fun x =>
      { x with txEnd := x.txEnd - 5 * len, errs := x.errs.map fun t => t - 5 * len } } }

/-! ## Bypass (R235, R236) -/

/-- The bypass switch is closed. -/
def bypassed (s : State) : Bool := flag s.lnk.r F.LNK_STAT_bypass

/-- The conditions under which the switch may open (R235). -/
def bypassMayOpen (s : State) : Bool := coreReady s && 3 ≤ opState s && phyOn s 6

/-- The switch closes: the hive ports leave the pins and their links break (R235, R236). -/
def closeBypass (s : State) : State :=
  let s := { s with lnk := { s.lnk with r := setF s.lnk.r F.LNK_STAT_bypass 1 } }
  portLosesLock 49 (portLosesLock 48 s)

/-- BYPASS_CLOSE: within 1 µs of the first event that closes it (R235). -/
def bypassClose (s : State) : State := if bypassed s || bypassMayOpen s then s else closeBypass s

/-- BYPASS_OPEN: 10 µs after the last condition holds (R235). -/
def bypassOpen (s : State) : State :=
  if bypassed s && bypassMayOpen s then { s with lnk := { s.lnk with r := setF s.lnk.r F.LNK_STAT_bypass 0 } } else s

/-! ## Hive frames (R237 to R240) -/

/-- The seven words of a hive frame with their CRC-16. -/
def withCrc (ws : List Half) : List Half := ws ++ [crc16 0xFFFF ws]

/-- A hive frame. -/
def hiveFrame (type : Nat) (req : Bool) (src hops lo corr : Nat) (payload : BitVec 64) : List Half :=
  withCrc [BitVec.ofNat 16 (type * 2 ^ 13 + req.toNat * 2 ^ 12 + src * 256 + hops * 16), BitVec.ofNat 16 lo,
    BitVec.ofNat 16 corr, payload.extractLsb' 0 16, payload.extractLsb' 16 16, payload.extractLsb' 32 16,
    payload.extractLsb' 48 16]

/-- The delay from time `t` of this stride to the next word boundary of port `p`, in 0.5 ns (R223, R228). -/
def toBoundary (s : State) (p : Nat) (t : Int) : Nat := ((((portOf s p).grid : Int) - 5 * s.tbs.t0 - t) % 128).toNat

/-- The launch offset of a frame requested for clock `clk` of the stride, 0 to 63.5 ns in units of 0.5 ns (R228).
DESIGN CHOICE: log 59. -/
def launchOfs (s : State) (p clk : Nat) : Nat := toBoundary s p (5 * clk)

/-- A frame leaves port `p` at time `t` of the stride, with `fin` behind its words; `IDL` filled the line since the last
one (R225, R228). -/
def transmit (p : Nat) (t : Int) (ws : List Half) (fin : Half) (s : State) : State :=
  let x := portOf s p
  let rd := idleRd ((t - x.txEnd) / 128).toNat x.txRd
  let c := codeFrame rd ws fin
  let s := modPort p (fun x => { x with txRd := c.2, txEnd := t + 128 * (ws.length + 2 : Nat), last := ws, lastRd := rd }) s
  emit (if fin = ctlABT then .abort p ws c.1 else .frame p ws c.1) s

/-- Send a frame requested for clock `clk` on a link port that is UP; a hive port also needs the bypass open. -/
def sendFrame (p clk : Nat) (ws : List Half) (s : State) : State :=
  if portUp s p && !(48 ≤ p && bypassed s) then transmit p (5 * clk + launchOfs s p clk : Nat) ws ctlEOF s else s

/-- The structure being built for the pending request. -/
def buildImg (s : State) : Img :=
  match s.img.ready with
  | some im => im
  | none => s.img.next.getD s.img.str

/-- The structure whose hive role the device plays: the one being built while it enters LOADED, so that a follower can measure
its delay from the leader (R43, R235), else the one in force. -/
def hiveImg (s : State) : Img :=
  match s.sys.req with
  | some q => if q.phase = .build then buildImg s else s.img.str
  | none => s.img.str

/-- The role of the device among hive frames: alone without a structure (R238). -/
def hiveRole (s : State) : Nat :=
  let entering : Bool := match s.sys.req with
    | some q => q.phase == .build
    | none => false
  if s.sys.built || entering then (hiveImg s).role else 0

/-- Send a frame of the own device on one hive port (R228, R238). -/
def hiveSendOn (p clk type : Nat) (req : Bool) (payload : BitVec 64) (s : State) : State :=
  sendFrame p clk (hiveFrame type req (hiveImg s).hAddr ((hiveImg s).hSize - 1) (launchOfs s p clk) 0 payload) s

/-- Send a frame of the own device, requested for clock `clk`, on both hive ports. -/
def hiveSend (clk type : Nat) (req : Bool) (payload : BitVec 64) (s : State) : State :=
  hiveSendOn 49 clk type req payload (hiveSendOn 48 clk type req payload s)

/-- The queue 1 entry as 64 bits (R152). -/
def entryBits (e : Q1Entry) : BitVec 64 := BitVec.ofNat 64 (e.tag * 2 ^ 48 + e.v % 65536 * 2 ^ 32 + e.c.toNat)

/-- The mark a leader sends at its stride boundary (R43, R238, R240). -/
def hiveMark (s : State) : State :=
  if s.img.str.role ≠ 1 then s
  else
    let req := s.lnk.reqMark
    hiveSend 0 (if strideInLap s = 0 then 1 else 0) req (BitVec.ofNat 64 (strideCnt s))
      { s with lnk := { s.lnk with reqMark := false } }

/-- When a frame whose `SOF` ended at time `t` is forwarded on port `o`: at its first word boundary at least 40 ns later, and
not before the frame it is sending ends (R238). -/
def forwardAt (s : State) (o : Nat) (t : Int) : Int :=
  let x := max (t + 80) (portOf s o).txEnd
  x + toBoundary s o x

/-- Forward a frame, whose `SOF` ended at time `t`, on the other hive port (R238): `ok` is false when the copy must end with
`ABT`, in place of its CRC word or earlier where less of it has come in. The time it waited here is added to `corr`.
DESIGN CHOICE: log 59. -/
def hiveForward (p : Nat) (ok : Bool) (t : Int) (ws : List Half) (s : State) : State :=
  let h := ws.getD 0 0
  let hops := h.toNat / 16 % 16
  let o := 97 - p
  if hops ≤ 1 ∨ ¬ portUp s o ∨ bypassed s then s
  else
    let at_ := forwardAt s o t
    let corr := min 65535 ((ws.getD 2 0).toNat + (portOf s p).seg + (at_ - t).toNat)
    let body := BitVec.ofNat 16 (h.toNat - 16) :: ws.getD 1 0 :: BitVec.ofNat 16 corr :: (ws.drop 3).take 4
    if ok then
      transmit o at_ (withCrc body) ctlEOF { s with lnk := { s.lnk with r := incF s.lnk.r F.LNK_HIVE_CNT_fwd_cnt 1 } }
    else transmit o at_ (body.take ws.length) ctlABT s

/-- A follower uses a mark (R43, R239, R240): its path delay, its boundary, one report where one is asked for, whichever way
round the mark comes first. `time` is the end of the mark's CRC word after the start of this stride, in units of 0.5 ns.
DEDUCED: log 61. -/
def useMark (p time : Nat) (ws : List Half) (s : State) : State :=
  let h := (ws.getD 0 0).toNat
  let lo := (ws.getD 1 0).toNat % 128
  let corr := (ws.getD 2 0).toNat
  let seg := (portOf s p).seg
  if corr = 65535 then s
  else
    let delay := (corr + seg + 1152 + 4) / 5
    let lead := (ws.getD 3 0).toNat + 65536 * (ws.getD 4 0).toNat
    let s := { s with tbs := { s.tbs with r := setF s.tbs.r F.TBS_HIVE_STAT_hive_delay (min 4095 delay) } }
    let s :=
      if strides s && paceSrc s == 2 && s.tbs.len != 0 then
        let t : Int := (time : Int) - lo - corr - seg - 1152
        let x := nearBoundary s.tbs.len ((t + 2) / 5)
        let ofs := (((lead : Int) - strideCnt s - x.2) % (2 ^ 32 : Int)).toNat
        paceMark (time / 5) x.1 x.2 (h / 8192 == 1) { s with lnk := { s.lnk with leadOfs := ofs } }
      else s
    if h / 4096 % 2 = 1 ∧ s.lnk.reported ≠ some lead then
      hiveSend ((time + 4) / 5) 3 false (BitVec.ofNat 64 (min 4095 delay + getF s.tbs.r F.TBS_STAT_lock_state * 4096))
        { s with lnk := { s.lnk with reported := some lead } }
    else s

/-- A follower uses a command (R44, R175): the first copy that carries the tag of the stride in progress goes to queue 1;
one that comes after its boundary is stale, unless a copy of it was taken in time. DEDUCED: log 61. -/
def useCommand (ws : List Half) (s : State) : State :=
  let tag := (ws.getD 6 0).toNat % 256
  let now := (strideCnt s + s.lnk.leadOfs) % 256
  if !computing s then s
  else if tag = now then
    if s.bus.gotCmd then s
    else
      let e : Q1Entry := { c := ws.getD 4 0 ++ ws.getD 3 0, v := (ws.getD 5 0).toNat, tag := strideTag s }
      let s := q1Put e s
      { s with bus := { s.bus with gotCmd := true } }
  else if tag = (now + 255) % 256 ∧ s.bus.gotPrev then s
  else
    let s := tbsRegs_ (fun r => setFlag r F.TBS_HIVE_STAT_late) (qStale 1 0 1 s)
    raise 25 255 255 s

/-- The leader uses a report while its request for ARMED waits for reports, for 4 strides (R240). -/
def useReport (ws : List Half) (s : State) : State :=
  let src := (ws.getD 0 0).toNat / 256 % 16
  match s.sys.req with
  | some { target := _, phase := .hive n, woken := _ } =>
    if n = 0 || s.lnk.reports.any (·.1 == src) then s
    else { s with lnk := { s.lnk with reports := s.lnk.reports ++ [(src, (ws.getD 3 0).toNat % 4096)] } }
  | _ => s

/-- A hive frame comes in on port `p` (R227, R237, R238). Where its errors cost the port its lock, it is discarded and its
copy ends with `ABT` (R230, R238). -/
def hiveReceive (p : Nat) (f : RxFrame) (s : State) : State :=
  if !portUp s p || bypassed s then s
  else
    let t : Int := (f.time : Int) - 1024
    let s := takeErrors p (rxScan f) (rxMisplaced f 8).toNat (t - 128) s
    let cnt := fun (fd : Fld) (s : State) => { s with lnk := { s.lnk with r := incF s.lnk.r fd 1 } }
    if rxAbt f then hiveForward p false t (rxWords f) (cnt F.LNK_HIVE_CNT_abort_cnt s)
    else if !rxClean f 8 || !portUp s p then hiveForward p false t ((rxWords f).take 8) s
    else if crc16 0xFFFF ((rxWords f).take 7) ≠ (rxWords f).getD 7 0 then
      hiveForward p false t (rxWords f) (cnt F.LNK_HIVE_CNT_crc_fail_cnt s)
    else
      let h := ((rxWords f).getD 0 0).toNat
      let type := h / 8192
      let role := hiveRole s
      if 4 ≤ type ∨ (h / 256 % 16 = (hiveImg s).hAddr ∧ role ≠ 0) ∨ (2 ≤ type ∧ h / 4096 % 2 = 1) then s
      else
        let s := hiveForward p true t (rxWords f) s
        if role = 2 ∧ type ≤ 1 then useMark p f.time (rxWords f) s
        else if role = 2 ∧ type = 2 then useCommand (rxWords f) s
        else if role = 1 ∧ type = 3 then useReport (rxWords f) s
        else s

/-- Port `p` loses lock while it was sending or receiving (R230, R238): `sent` words of the frame it was sending had left, and
`rx` are the words received of a hive frame whose copy was under way, its `SOF` ended at time `t`. -/
def lockLoss (p : Nat) (sent : Option Nat) (rx : List Half) (t : Nat) (s : State) : State :=
  if !portUp s p then s
  else
    let s := match sent with
      | some n =>
        let x := portOf s p
        let ws := x.last.take n
        emit (.abort p ws (codeFrame x.lastRd ws ctlABT).1) s
      | none => s
    let s := if 48 ≤ p ∧ rx ≠ [] then hiveForward p false t (rx.take 7) s else s
    portLosesLock p s

/-- The link number of a hive port. -/
def hivePort : PortEnd → Nat
  | .a => 48
  | .b => 49

/-! ## Views -/

/-- A register that shows link state: `rd` is the tally after the last word that a command brought. DESIGN CHOICE: log 59. -/
def lnkView (s : State) (ofs : Nat) : Option Word :=
  let p := getF s.lnk.r F.LNK_PORT_SEL_port
  let x := portOf s p
  let w := fun (n : Nat) => some (BitVec.ofNat 32 n)
  if ofs = R.LNK_UPn 0 ∨ ofs = R.LNK_UPn 1 then
    let n := (ofs - R.LNK_UPn 0) / 4
    some (ofBits 32 ((List.range 32).filter fun i => portUp s (32 * n + i)))
  else if ofs = R.LNK_PORT_STAT then
    let rd := if x.st = 0 then 0 else (x.rd % 64).toNat
    if 50 ≤ p then some 0 else w (x.trainTo * 65536 + rd * 256 + x.st)
  else if ofs = R.LNK_PORT_ERR then w (x.lockLoss * 2 ^ 24 + x.dispErr * 65536 + x.codeErr)
  else if ofs = R.LNK_PORT_DLY then w (x.segValid.toNat * 2 ^ 31 + x.seg)
  else none

/-- What a read of a link register clears (RC). -/
def lnkRead (ofs : Nat) (s : State) : State :=
  let p := getF s.lnk.r F.LNK_PORT_SEL_port
  if ofs = R.LNK_PORT_STAT then modPort p (fun x => { x with trainTo := 0 }) s
  else if ofs = R.LNK_PORT_ERR then modPort p (fun x => { x with lockLoss := 0, dispErr := 0, codeErr := 0 }) s
  else s

/-! ## Commands -/

/-- LINK_ALIGNED. -/
def execLinkAligned (port : Fin 50) (s : State) : Host.Outcome State Fault Refusal := .next (linkAligned port s)
/-- LINK_ECHO. -/
def execLinkEcho (port : Fin 50) (s : State) : Host.Outcome State Fault Refusal := .next (linkEcho port s)
/-- ECHO_REQUEST. -/
def execEchoRequest (port : Fin 50) (wait : BitVec 7) (s : State) : Host.Outcome State Fault Refusal :=
  .next (echoRequest port wait s)
/-- ECHO_REPLY. -/
def execEchoReply (port : Fin 50) (trip : Nat) (turn : Half) (s : State) : Host.Outcome State Fault Refusal :=
  .next (echoReply port trip turn s)
/-- TRAIN_TIMEOUT. -/
def execTrainTimeout (port : Fin 50) (s : State) : Host.Outcome State Fault Refusal := .next (trainTimeout port s)
/-- BYPASS_CLOSE. -/
def execBypassClose (s : State) : Host.Outcome State Fault Refusal := .next (bypassClose s)
/-- BYPASS_OPEN. -/
def execBypassOpen (s : State) : Host.Outcome State Fault Refusal := .next (bypassOpen s)
end Sys2Proof.Machine
end

