-- ==== Sys2Proof/Machine/Rng.lean ====
section
/-! DEFINITION. The ring controllers (R242 to R275, R281): batons, enumeration, probes, waggle, schedules, breaks. -/
namespace Sys2Proof.Machine

/-! ## Rings, ends and nodes -/

/-- A ring, and a change of it. -/
def ringOf (s : State) (r : Nat) : RingSt := vget s.rng.ring r {}
def modRing (r : Nat) (f : RingSt → RingSt) (s : State) : State := { s with rng := { s.rng with ring := vmod s.rng.ring r f } }

/-- A change of the RNG registers. -/
def rngRegs_ (f : RegFile → RegFile) (s : State) : State := { s with rng := { s.rng with r := f s.rng.r } }

/-- The other end. -/
def otherEnd : PortEnd → PortEnd
  | .a => .b
  | .b => .a

/-- 0 for port A, 1 for port B. -/
def endBit : PortEnd → Nat
  | .a => 0
  | .b => 1

/-- The link of an end (R242). -/
def ringPort (r : Nat) (e : PortEnd) : Nat := 2 * r + endBit e

/-- The end's port is UP. -/
def endUp (s : State) (r : Nat) (e : PortEnd) : Bool := portUp s (ringPort r e)

/-- An end of a ring, and a change of it. -/
def endOf (x : RingSt) : PortEnd → RingEnd
  | .a => x.a
  | .b => x.b
def modEnd (e : PortEnd) (f : RingEnd → RingEnd) (x : RingSt) : RingSt :=
  match e with
  | .a => { x with a := f x.a }
  | .b => { x with b := f x.b }

/-- A node of a ring, and a change of it. -/
def nodeAt (x : RingSt) (a : Nat) : RNode := x.nodes.getD a {}
def modNode (a : Nat) (f : RNode → RNode) (x : RingSt) : RingSt := { x with nodes := x.nodes.modify a f }

/-- The RINGMAP record of a ring; `ring` 255 where the ring is not in RINGMAP. -/
def ringRec (s : State) (r : Nat) : RingRec :=
  if s.img.str.hasRings then (s.img.str.rings.find? fun x => x.ring == r).getD { ring := 255 } else { ring := 255 }

/-- The rings of RINGMAP, ascending. -/
def mapRings (s : State) : List Nat := (List.range 24).filter fun r => (ringRec s r).ring == r

/-- The RINGMAP run of a node (R69). -/
def nodeRun (rec : RingRec) (a : Nat) : RunRec := (rec.runs.find? fun x => x.first ≤ a && a ≤ x.last).getD {}

/-- The limit set of a node (R70). -/
def nodeSet (s : State) (r a : Nat) : Nat :=
  match s.img.str.asgs.find? fun x => x.ring == r && x.first ≤ a && a ≤ x.last with
  | some x => x.set
  | none => 0

/-! ## The comb (R299 to R303) -/

/-- A change of the CSV registers. -/
def csvRegs_ (f : RegFile → RegFile) (s : State) : State := { s with csv := { s.csv with r := f s.csv.r } }

/-- The comb holds the point: a ring of RINGMAP, one of its nodes, an index below 880 (R299). DEDUCED: log 106. -/
def combHas (s : State) (p : Nat) : Bool :=
  let r := p / 262144
  decide (r < 24) && (ringRec s r).ring == r && decide (p / 1024 % 256 < (ringRec s r).nodes) && decide (p % 1024 < 880)

/-- A point of node `a` of ring `r`. -/
def combGet (s : State) (r a i : Nat) : Half := kvGet s.csv.comb (r * 262144 + a * 1024 + i)

/-- The device writes a point. -/
def combPut (r a i : Nat) (v : Half) (s : State) : State :=
  let p := r * 262144 + a * 1024 + i
  if combHas s p then { s with csv := { s.csv with comb := kvSet s.csv.comb p v } } else s

/-- The device writes a number. -/
def combPutN (r a i v : Nat) (s : State) : State := combPut r a i (BitVec.ofNat 16 v) s

/-- A point as a number. -/
def combN (s : State) (r a i : Nat) : Nat := (combGet s r a i).toNat

/-- A node, and a change of it. -/
def csvNode (s : State) (r a : Nat) : CsvNode := (vget s.csv.ring r {}).nodes.getD a {}
def modCsvRing (r : Nat) (f : CsvRing → CsvRing) (s : State) : State :=
  { s with csv := { s.csv with ring := vmod s.csv.ring r f } }
def modCsv (r a : Nat) (f : CsvNode → CsvNode) (s : State) : State :=
  modCsvRing r (fun x =>
    let l := if x.nodes.isEmpty then List.replicate 256 {} else x.nodes
    { x with nodes := l.modify a f }) s

/-- Set or clear bits of point +4 of a cell. -/
def put4 (r a c : Nat) (on off : Nat) (s : State) : State :=
  if (nodeAt (ringOf s r) a).cells ≤ c then s
  else combPutN r a (72 * c + 4) ((combN s r a (72 * c + 4) ||| on) &&& (65535 - off)) s

/-- Set or clear a bit of a map point of a node. -/
def putMapPt (r a i k : Nat) (b : Bool) (s : State) : State :=
  let v := combN s r a i
  combPutN r a i (if b then v ||| 2 ^ k else v &&& (65535 - 2 ^ k % 65536)) s

/-- The outcome of the last test of wire `k`, open (true), passed or indeterminate: its bits on the cells on either side, points 875
and 876 (R293, R301). DEDUCED: log 73. -/
def wireMark (r a : Nat) (res : Option Bool) (k : Nat) (s : State) : State :=
  let bit : BitVec 13 := 1 <<< k
  let s := modCsv r a (fun n => { n with indet := if res.isNone then n.indet ||| bit else n.indet &&& ~~~bit }) s
  let ind := (csvNode s r a).indet
  let put := fun (c sus opn ok : Nat) (s : State) =>
    let (on, off) := match res with
      | some true => (opn, sus + ok)
      | some false => (ok, sus + opn)
      | none => (0, ok)
    if ind.getLsbD c || ind.getLsbD (c + 1) then put4 r a c (on + 0x800) off s else put4 r a c on (off + 0x800) s
  let s := if 0 < k then put (k - 1) 0x40 0x100 0x400 s else s
  let s := put k 0x20 0x80 0x200 s
  match res with
  | some b => putMapPt r a 876 k false (putMapPt r a 875 k b s)
  | none => s

/-- The wires of a test were left indeterminate. -/
def wiresIndet (r a : Nat) (mask : BitVec 13) (s : State) : State :=
  ((bitsOf mask).filter (· ≤ (nodeAt (ringOf s r) a).cells)).foldl (fun s k => wireMark r a none k s) s

/-- The ring's state (R256). -/
def ringState (s : State) (r : Nat) : Nat := getF s.rng.r (F.RNG_RINGr_STAT_state r)

/-- The ring sends data batons: DESC, TIMING, READY, FAILED (R256). -/
def sendsData (s : State) (r : Nat) : Bool :=
  ringState s r == 3 || ringState s r == 5 || ringState s r == 6 || ringState s r == 7

/-- A descriptor field (R278). -/
def descF (d : BitVec 256) (lo w : Nat) : Nat := (d >>> lo).toNat % 2 ^ w

/-- The descriptor of a node; all zero without one. -/
def descOf (x : RNode) : BitVec 256 := x.desc.getD 0

/-- The mailbox's message ended (R265): with `err`, or sent. -/
def mailboxEnd (err : Nat) (s : State) : State :=
  irq 5 (rngRegs_ (fun q =>
    let q := setF q F.RNG_WAG_CTL_busy 0
    if err = 0 then setFlag q F.RNG_WAG_CTL_done else setF (setFlag q F.RNG_WAG_CTL_failed) F.RNG_WAG_CTL_err err) s)

/-- The mailbox's message is on the way on an end. DEDUCED: log 66. -/
def boxOnEnd (y : RingEnd) : Bool :=
  y.box.isSome || (match y.cur with | some c => c.1.use == .mailbox | none => false) ||
    (match y.await with | some m => m.use == .mailbox | none => false)

/-- A ring leaves READY: a mailbox message, a balancing command and a wire test on their way there end (R265, R287, R293). -/
def ringDown (r : Nat) (s : State) : State :=
  let x := ringOf s r
  let s := if boxOnEnd x.a || boxOnEnd x.b then mailboxEnd 3 s else s
  let s := modRing r (fun x => { x with a := { x.a with box := none }, b := { x.b with box := none } }) s
  let s := match s.csv.bal with
    | some b =>
      if b.ring = r then
        let q := setFlag (setF (setFlag s.csv.r F.CSV_BAL_STAT_refused) F.CSV_BAL_STAT_reason 4) F.CSV_STAT_cmd_refused
        irq 6 { s with csv := { s.csv with r := q, bal := none } }
      else s
    | none => s
  match (vget s.csv.ring r {}).test with
  | some t =>
    let s := wiresIndet r t.node t.mask s
    let q := setF (setFlag (setF s.csv.r F.CSV_WIRE_STAT_result 3) F.CSV_WIRE_STAT_done) F.CSV_WIRE_STAT_ring r
    let ring := vmod s.csv.ring r fun x => { x with test := none }
    irq 6 { s with csv := { s.csv with r := setF q F.CSV_WIRE_STAT_node t.node, ring := ring } }
  | none => s

/-- The ring changes state; its interrupt (R364). -/
def setRing (r st : Nat) (s : State) : State :=
  let s := if ringState s r = 6 ∧ st ≠ 6 then ringDown r s else s
  irq 5 (rngRegs_ (fun q => setF q (F.RNG_RINGr_STAT_state r) st) s)

/-- The claimed nodes, ascending. -/
def claimedNodes (x : RingSt) : List Nat := (List.range x.nodes.length).filter fun a => (nodeAt x a).claimed

/-- A node reached from an end. -/
def reachedFrom (n : RNode) : PortEnd → Bool
  | .a => n.reachA
  | .b => n.reachB

/-- The serving end of node `a` (R268, R271): the nearer end of a whole ring, else the end that reaches it. DEDUCED: log 68. -/
def serveEnd (N : Nat) (split : Bool) (a : Nat) (n : RNode) : Option PortEnd :=
  let near := if a ≤ (N - 1) / 2 then PortEnd.a else PortEnd.b
  if !split && reachedFrom n near then some near
  else if n.reachA then some .a
  else if n.reachB then some .b
  else none

/-- Every node takes its serving end. -/
def serveNodes (N : Nat) (x : RingSt) : RingSt :=
  { x with nodes := x.nodes.mapIdx fun a n => { n with serve := if n.claimed then serveEnd N x.split a n else none } }

/-! ## Waggle messages (R264 to R267) -/

/-- Words 0 and 1 of a message of the ring controller, and its payload. -/
def wagWords (type node seq : Nat) (bcast : Bool) (payload : List Half) : List Half :=
  BitVec.ofNat 16 (type * 256 + node % 256) ::
    BitVec.ofNat 16 (bcast.toNat * 32768 + seq % 128 * 256 + payload.length) :: payload

/-- The fields of a message. -/
def wagType (m : List Half) : Nat := (m.getD 0 0).toNat / 256
def wagNode (m : List Half) : Nat := (m.getD 0 0).toNat % 256
def wagBcast (m : List Half) : Bool := (m.getD 1 0).getLsbD 15
def wagLen (m : List Half) : Nat := (m.getD 1 0).toNat % 64

/-- A message of type `t` calls for a reply of the kind the manual defines (R267, R280, R311). -/
def wagReplies (t : Nat) (bcast : Bool) : Bool :=
  !bcast && (t == 1 || t == 2 || (0x10 ≤ t && t ≤ 0x7F && t != 0x11 && t != 0x21))

/-- Queue a message of the ring controller at an end, behind those that wait or in front of them. -/
def wagPut (front : Bool) (e : PortEnd) (m : WagMsg) (x : RingSt) : RingSt :=
  modEnd e (fun y => { y with todo := if front then m :: y.todo else y.todo ++ [m] }) x

/-- A unicast message to a node through end `e`. -/
def wagVia (front : Bool) (e : PortEnd) (type a : Nat) (payload : List Half) (use : WagUse) (r : Nat) (s : State) : State :=
  let m : WagMsg := { words := wagWords type a (ringOf s r).seq false payload, reply := wagReplies type false, use := use }
  modRing r (fun x => wagPut front e m { x with seq := (x.seq + 1) % 128 }) s

/-- A unicast message to a node through the end that serves it (R265). -/
def wagUni (front : Bool) (type a : Nat) (payload : List Half) (use : WagUse) (r : Nat) (s : State) : State :=
  match (nodeAt (ringOf s r) a).serve with
  | some e => wagVia front e type a payload use r s
  | none => s

/-- The end through which a message that waits at end `e` leaves: a broadcast stays, DESC_REQ takes the end of the claim (R260), any
other unicast message the end that serves its node now (R265). -/
def msgEnd (x : RingSt) (e : PortEnd) (m : WagMsg) : PortEnd :=
  if wagBcast m.words || wagType m.words == 2 then e else (nodeAt x (wagNode m.words)).serve.getD e

/-- A broadcast through both ends (R265). -/
def wagBcastMsg (type : Nat) (payload : List Half) (use : WagUse) (r : Nat) (s : State) : State :=
  let x := ringOf s r
  let m : WagMsg := { words := wagWords type 0 x.seq true payload, use := use }
  let put := fun (e : PortEnd) (x : RingSt) => if endUp s r e then wagPut false e m x else x
  modRing r (fun x => put .b (put .a { x with seq := (x.seq + 1) % 128 })) s

/-- The message an end sends next: the ring controller's before the mailbox's (R265); a request waits for the uplink, and every
message while a campaign waits for the downlinks of the ring (R308). DEDUCED: log 76. -/
def nextMsg (hold : Bool) (y : RingEnd) : Option (WagMsg × RingEnd) :=
  let ok := fun (m : WagMsg) => !hold && (!m.reply || y.await.isNone)
  match y.todo with
  | m :: t => if ok m then some (m, { y with todo := t }) else none
  | [] =>
    match y.box with
    | some m => if ok m then some (m, { y with box := none }) else none
    | none => none

/-- k of a STREAM_DIV whose first bit leaves in stride `j` of a lap of `L`: 1 when it ends at least 4 strides before the next lap
boundary, and 2 otherwise (R270). -/
def divLaps (L j bits : Nat) : Nat := if 4 ≤ (L - (j + bits) % L) % L then 1 else 2

/-- The first window of a campaign whose origin a STREAM restart that leaves now can name, from window `w` on: its last bit leaves
127 strides on (R306, R311). -/
def restartWin (c : Camp) (w : Nat) : Nat :=
  let room : Int := c.k + 127 - ((c.nRamp + w * c.nInt) * c.ps : Nat)
  if room < 0 then w else w + 1 + room.toNat / (c.nInt * c.ps)

/-- `lead` of a STREAM restart that leaves now and names window `w` (R311, R313). -/
def restartLead (c : Camp) (w : Nat) : Int := ((c.nRamp + w * c.nInt) * c.ps : Nat) - (c.k + 127)

/-- A message as it starts to leave in stride `j` of a lap of `L`: STREAM_DIV takes its k, a STREAM restart its `lead`. -/
def startMsg (L j : Nat) (camp : Option Camp) (win : Nat → Nat) (m : WagMsg) : WagMsg :=
  let m := { m with tries := m.tries + 1 }
  match m.use, camp with
  | .div, _ =>
    { m with words := m.words.set 3 (m.words.getD 3 0 &&& 0xFF00 ||| BitVec.ofNat 16 (divLaps L j (16 * (m.words.length + 1)))) }
  | .restart, some c =>
    { m with words := m.words.set 3 (BitVec.ofInt 16 (min 65535 (restartLead c (restartWin c (win (wagNode m.words)))))) }
  | _, _ => m

/-- The waggle bits of the baton that leaves an end: first, bit, and the end after them; `start` is what a message takes as it starts
to leave, `hold` keeps those waiting that have not. -/
def wagBits (hold : Bool) (start : WagMsg → WagMsg) (y : RingEnd) : Bool × Bool × RingEnd :=
  let y := match y.cur with
    | some _ => y
    | none =>
      match nextMsg hold y with
      | some (m, y) => let m := start m; { y with cur := some (m, withCrc m.words), bit := 0 }
      | none => y
  match y.cur with
  | some (_, ws) =>
    if y.bit < 16 * ws.length then
      (y.bit == 0, (ws.getD (y.bit / 16) 0).getLsbD (15 - y.bit % 16), { y with bit := y.bit + 1 })
    else (false, false, y)
  | none => (false, false, y)

/-! ## CONFIG, LIMITS, TIMING, DESC_REQ (R267, R280, R281) -/

/-- The quiet windows of a ring are on. -/
def quietEn (s : State) (r : Nat) : Bool := !getBit s.csv.r R.CSV_QUIET_DIS r

/-- CONFIG of a node. DEDUCED: log 67. -/
def sendConfig (front : Bool) (r a : Nat) (s : State) : State :=
  let w := fun (n : Nat) => BitVec.ofNat 16 n
  wagUni front 0x10 a [w (strideLen s), w (lapLen s), w (ringRec s r).quiet, w ((quietEn s r).toNat + 256 * nodeSet s r a)] .ring r s

/-- TIMING of a node, with its serving end as the timing end. DEDUCED: log 60, 67. -/
def sendTiming (r a : Nat) (s : State) : State :=
  let n := nodeAt (ringOf s r) a
  let w := fun (n : Nat) => BitVec.ofNat 16 n
  match n.serve with
  | some e =>
    wagUni false 0x01 a [w n.dA, w n.dB, w (endBit e)] .ring r (modRing r (modNode a fun n => { n with timed := some e }) s)
  | none => s

/-- The limit sets that a ring's nodes use, ascending. -/
def ringSets (s : State) (r : Nat) : List Nat :=
  (List.range s.img.str.sets.length).filter fun i =>
    (List.range (ringRec s r).nodes).any fun a => nodeSet s r a == i

/-- LIMITS of one set. -/
def sendLimits (r set : Nat) (s : State) : State :=
  let f := fun (f : Fld) => BitVec.ofNat 16 (getF s.csv.r f)
  wagBcastMsg 0x11 [BitVec.ofNat 16 set, f (F.CSV_LIMn_0_v_hi_hard set), f (F.CSV_LIMn_0_v_hi_soft set),
    f (F.CSV_LIMn_1_v_lo_soft set), f (F.CSV_LIMn_1_v_lo_hard set), f (F.CSV_LIMn_2_t_hi_hard set),
    f (F.CSV_LIMn_2_t_hi_soft set), f (F.CSV_LIMn_3_t_lo_soft set), f (F.CSV_LIMn_3_t_lo_hard set),
    f (F.CSV_LIMn_5_ref_tol set), f (F.CSV_LIMn_5_bal_max set)] .ring r s

/-- LIMITS of every set the ring's nodes use. -/
def sendAllLimits (r : Nat) (s : State) : State :=
  (ringSets s r).foldl (fun s i => sendLimits r i s) (modRing r (fun x => { x with limLaps := 0, limDue := false }) s)

/-- A change of a ring's bit in `CSV_QUIET_DIS`: CONFIG to every node, then LIMITS (R281). Before TIMING no node has its CONFIG
yet. -/
def resendConfig (r : Nat) (s : State) : State :=
  if ringState s r = 5 then
    modRing r (fun x => { x with limSent := false }) ((claimedNodes (ringOf s r)).foldl (fun s a => sendConfig false r a s) s)
  else if ringState s r ≠ 6 then s
  else modRing r (fun x => { x with limDue := true })
    ((claimedNodes (ringOf s r)).foldl (fun s a => sendConfig false r a s) s)

/-! ## States of a ring (R256) -/

/-- Nothing is on the waggle of an end, nothing waits. -/
def endIdle (y : RingEnd) : Bool := y.cur.isNone && y.todo.isEmpty && y.await.isNone

/-- A ring end without traffic. -/
def clearEnd (y : RingEnd) : RingEnd :=
  { splitRun := y.splitRun, wholeRun := y.wholeRun, lossRun := y.lossRun, box := y.box }

/-- The comb points of a ring are cleared (R304). DEDUCED: log 106. -/
def clearComb (r : Nat) (c : List (Nat × Half)) : List (Nat × Half) := c.filter fun p => p.1 / 262144 != r

/-- Entry to ENUM (R256, R259, R260, R304). -/
def enterEnum (r : Nat) (s : State) : State :=
  let s := setRing r 2 s
  let s := rngRegs_ (fun q => putBit q R.RNG_MISMATCH r false) s
  let s := modRing r (fun x =>
    { x with a := clearEnd x.a, b := clearEnd x.b, nodes := List.replicate 256 {}, fails := 0, passNext := none, passOut := none,
             twice := false, probes := [], probeOut := none, plan := none, reqs := [],
             limSent := false, limDue := false }) s
  let csv := { s.csv with comb := clearComb r s.csv.comb, ring := vset s.csv.ring r {} }
  { s with csv := csv }

/-- A ring in TRAIN moves on when both ports are UP, or one is after 10 ms (R256). -/
def trainDone (r : Nat) (s : State) : State :=
  let a := endUp s r .a
  let b := endUp s r .b
  if ringState s r = 1 ∧ ((a && b) || ((ringOf s r).late && (a || b))) then enterEnum r s else s

/-- Every ring of RINGMAP leaves OFF as the device enters LOADED (R256). -/
def ringsTrain (s : State) : State :=
  (mapRings s).foldl (fun s r => trainDone r (setRing r 1 (modRing r (fun x => { x with late := false }) s))) s

/-- Every ring is OFF (R256): batons stop; what the queues hold stays until it is taken or flushed (R12, R13). -/
def ringsOff (s : State) : State :=
  foldN 24 (fun s r =>
    let s := if ringState s r = 0 then s else setRing r 0 s
    let s := modRing r (fun x =>
      { x with a := {}, b := {}, plan := none, reqs := [], passNext := none,
               passOut := none, probes := [], probeOut := none, limSent := false, limDue := false, split := false }) s
    rngRegs_ (fun q => putBit q R.RNG_SPLIT r false) s) s

/-- RING_TRAIN_TIMEOUT: 10 ms in TRAIN (R256). -/
def ringTrainTimeout (r : Nat) (s : State) : State :=
  if ringState s r = 1 then trainDone r (modRing r (fun x => { x with late := true }) s) else s

/-- The ring is mismatched (R260, R279). -/
def isMismatched (s : State) (r : Nat) : Bool :=
  let x := ringOf s r
  let rec_ := ringRec s r
  let bad := fun (a : Nat) =>
    let n := nodeAt x a
    let run := nodeRun rec_ a
    let d := descOf n
    n.desc.isNone || n.cls != run.cls || n.cells != run.cells || descF d 248 8 != 1 || descF d 246 2 != n.cls ||
      descF d 242 4 + 1 != n.cells || lapLen s * strideLen s < 400 * descF d 128 16 ||
      (lapLen s - 5) * strideLen s < 400 * descF d 144 16
  (claimedNodes x).length != rec_.nodes || x.twice || (claimedNodes x).any bad

/-- Probes still to be sent: the ends take turns (R261). DEDUCED: log 60. -/
def probeList (x : RingSt) : List (PortEnd × Nat) :=
  let la := (claimedNodes x).filter fun a => (nodeAt x a).reachA
  let lb := ((claimedNodes x).filter fun a => (nodeAt x a).reachB).reverse
  (List.range (max la.length lb.length)).flatMap fun i =>
    (match la[i]? with | some a => [(PortEnd.a, a)] | none => []) ++ (match lb[i]? with | some a => [(PortEnd.b, a)] | none => [])

/-- Entry to PROBE. -/
def enterProbe (r : Nat) (s : State) : State :=
  setRing r 4 (modRing r (fun x => { x with a := clearEnd x.a, b := clearEnd x.b, probes := probeList x, probeOut := none,
                                            plan := none, reqs := [] }) s)

/-- Entry to TIMING: TIMING goes to every reachable node (R256). -/
def enterTiming (r : Nat) (s : State) : State :=
  let s := modRing r (fun x => serveNodes (ringRec s r).nodes { x with limSent := false }) s
  (claimedNodes (ringOf s r)).foldl (fun s a => sendTiming r a s) (setRing r 5 s)

/-- A ring moves on when its messages are through (R256, R281). -/
def ringAdvance (r : Nat) (s : State) : State :=
  let x := ringOf s r
  let idle := endIdle x.a && endIdle x.b
  match ringState s r with
  | 3 =>
    if !idle then s
    else
      let mis := isMismatched s r
      let s := rngRegs_ (fun q => putBit q R.RNG_MISMATCH r mis) s
      enterProbe r (if mis then raise 11 r 255 s else s)
  | 4 => if x.probes.isEmpty && x.probeOut.isNone then enterTiming r s else s
  | 5 =>
    if !idle then s
    else if x.limSent then setRing r 6 s
    else sendAllLimits r (modRing r (fun x => { x with limSent := true }) s)
  | 6 => if idle && x.limDue then sendAllLimits r s else s
  | _ => s

/-! ## Launching batons (R244 to R246, R249, R268, R269) -/

/-- B_max (R246). -/
def bMax (s : State) : Nat := 5 * strideLen s / 128 - 4

/-- Credits of queues 4 and 5 that are free (R249). -/
def inFlight (x : RingSt) (stream : Bool) : Nat :=
  ((x.a.fly ++ x.b.fly).flatMap fun l => (l.grants.filter fun g => (g.kind == 1) == stream).map (·.len)).sum
def free4 (x : RingSt) : Nat := 512 - x.q4.length - inFlight x false
def free5 (x : RingSt) : Nat := 1024 - x.q5.length - inFlight x true

/-- A grant fits: the baton stays within B_max, 32 grants and what `n_slot` counts, its credits are free (R245, R246, R269). -/
def grantFits (s : State) (x : RingSt) (gs : List Grant) (g : Grant) : Bool :=
  let slots := (gs.map (·.len)).sum
  let same := ((gs.filter fun h => (h.kind == 1) == (g.kind == 1)).map (·.len)).sum
  8 + gs.length + 1 + slots + g.len ≤ bMax s && gs.length < 32 && slots + g.len ≤ 255 &&
    same + g.len ≤ (if g.kind = 1 then free5 x else free4 x)

/-- The nodes that an end serves, nearest to its port first. -/
def servedBy (x : RingSt) (e : PortEnd) : List Nat :=
  let l := (claimedNodes x).filter fun a => (nodeAt x a).serve == some e
  match e with
  | .a => l
  | .b => l.reverse

/-- Add the grants of `l` that fit; the rest come back. -/
def addFits (s : State) (x : RingSt) : List Grant → List Grant → List Grant × List Grant
  | [], gs => (gs, [])
  | g :: t, gs =>
    if grantFits s x gs g then addFits s x t (gs ++ [g])
    else let y := addFits s x t gs; (y.1, g :: y.2)

/-- The grants of end `e` in this stride (R269), and the ring after making them. -/
def makeGrants (s : State) (e : PortEnd) (x : RingSt) : List Grant × RingSt :=
  match x.plan with
  | none => ([], x)
  | some p =>
    let j := strideInLap s
    let mine := servedBy x e
    let new := (mine.filter fun a => (nodeAt x a).sweepAt == some j).map fun a =>
      ({ node := a, kind := 0, len := (nodeAt x a).cells + 4 } : Grant)
    let want := ((endOf x e).carried ++ new).filter fun g => (nodeAt x g.node).granted < 4
    -- No sweep grant in strides 0 to j0 − 1.
    let (gs, left) := if j < p.j0 then ([], want) else addFits s x want []
    let x := gs.foldl (fun x g => modNode g.node (fun n => { n with granted := n.granted + 1 }) x) x
    let x := modEnd e (fun y => { y with carried := left }) x
    let str := mine.filter fun a => (nodeAt x a).strPer != 0
    let x := str.foldl (fun x a => modNode a (fun n =>
      if (strideCnt s + n.strOfs) % n.strPer = 0 then { n with due := min (n.due + 1) 4 } else n) x) x
    let put := fun (acc : List Grant × RingSt) (a : Nat) =>
      let g : Grant := { node := a, kind := 1, len := 2 * (nodeAt acc.2 a).cells }
      if 0 < (nodeAt acc.2 a).due && grantFits s acc.2 acc.1 g then
        (acc.1 ++ [g], modNode a (fun n => { n with due := n.due - 1 }) acc.2)
      else acc
    let (gs, x) := str.foldl put (gs, x)
    let ask := fun (acc : List Grant × List GrantReq) (q : GrantReq) =>
      if (nodeAt x q.g.node).serve == some e && 0 < q.left && grantFits s x acc.1 q.g then
        (acc.1 ++ [q.g], acc.2 ++ [{ q with left := q.left - 1 }])
      else (acc.1, acc.2 ++ [q])
    let (gs, reqs) := x.reqs.foldl ask (gs, [])
    (gs, { x with reqs := reqs })

/-- The words of a baton: `ctl`, `tim`, `route`, `alarm`, `cnt`, grants, header CRC, slot or roll-call words (R244, R247). -/
def batonWords (ctl tim cnt : Nat) (gs : List Grant) (slots : Nat) : List Half :=
  let w := fun (n : Nat) => BitVec.ofNat 16 n
  withCrc ([w ctl, w tim, 0, 0, w cnt] ++ gs.map fun g => w (g.node * 256 + g.kind * 32 + (g.len - 1))) ++ List.replicate slots 0

/-- The array's model of a node's buffer (R313). -/
def spxNodeOf (s : State) (r a : Nat) : Option SpxNode :=
  match s.spx.camp with
  | some c => (c.rings.find? fun x => x.ring == r).bind fun x => x.nodes[a]?
  | none => none

/-- The window a campaign node is in. -/
def spxWin (s : State) (r a : Nat) : Nat := ((spxNodeOf s r a).getD {}).win

/-- A campaign waits for the downlinks of ring `r` to be free (R308). -/
def campHolds (s : State) (r : Nat) : Bool :=
  match s.spx.camp with
  | some c => c.phase == .accepted && c.rings.any fun x => x.ring == r
  | none => false

/-- Launch a data baton from end `e` of ring `r` (R246). -/
def launchData (r : Nat) (s : State) (e : PortEnd) : State :=
  if !endUp s r e then s
  else
    let x0 := ringOf s r
    let (gs, x) := if ringState s r = 6 then makeGrants s e x0 else ([], x0)
    let (first, bit, y) := wagBits (campHolds s r) (startMsg (lapLen s) (strideInLap s) s.spx.camp (spxWin s r)) (endOf x e)
    let en := y.await.isSome && y.inbox.isNone
    let node := match y.await with
      | some m => if en then wagNode m.words else 0
      | none => 0
    let dest := if x.split then e else otherEnd e
    let slots := (gs.map (·.len)).sum
    let lo := launchOfs s (ringPort r e) 0
    let ctl := endBit e * 8192 + endBit dest * 4096 + (decide (strideInLap s + 1 = lapLen s)).toNat * 2048 + bit.toNat * 1024 +
      first.toNat * 512 + en.toNat * 256 + strideTag s
    let y := { y with fly := y.fly ++ [{ stride := strideCnt s, grants := gs, wagEn := en }],
                      wait := if en && y.rx.isNone then y.wait + 1 else y.wait }
    let s := modRing r (fun _ => modEnd e (fun _ => y) x) s
    transmit (ringPort r e) lo (batonWords ctl (node * 256 + lo) (slots * 256 + gs.length) gs slots) ctlEOF s

/-- Launch an enumeration baton (R257): every attempt raises the epoch. -/
def launchEnum (r : Nat) (e : PortEnd) (s : State) : State :=
  let x := ringOf s r
  let lo := launchOfs s (ringPort r e) 0
  -- SOF, five header words, the header CRC, 257 words and EOF, each of 64 ns.
  let s := modRing r (fun x => { x with passNext := none, passOut := some e, passAt := strideCnt s,
                                        passLen := (lo + 128 * 265) / (5 * max 1 s.tbs.len) }) s
  transmit (ringPort r e) lo (batonWords (16384 + endBit e * 8192 + strideTag s) (x.epoch * 256 + lo)
    (((ringRec s r).nodes - 1) * 256) [] 257) ctlEOF s

/-- Launch a probe (R261): its `tau` word leaves as 0. -/
def launchProbe (r : Nat) (e : PortEnd) (a : Nat) (s : State) : State :=
  let w := fun (n : Nat) => BitVec.ofNat 16 n
  let lo := launchOfs s (ringPort r e) 0
  transmit (ringPort r e) lo (withCrc [w (32768 + endBit e * 8192 + strideTag s), w (a * 256 + lo), 0, 0]) ctlEOF s

/-- What an end-and-state of a ring sends at a stride boundary (R246, R256). DEDUCED: log 64. -/
def ringLaunch (s : State) (r : Nat) : State :=
  let x := ringOf s r
  match ringState s r with
  | 2 =>
    if x.passOut.isSome then s
    else
      match x.passNext with
      | some e => if endUp s r e then launchEnum r e s else s
      | none =>
        let e := if endUp s r .a then PortEnd.a else PortEnd.b
        if endUp s r e then
          launchEnum r e (modRing r (fun x => { x with epoch := (x.epoch + 1) % 256, twice := false, nodes := List.replicate 256 {} }) s)
        else s
  | 4 =>
    match x.probeOut, x.probes with
    | none, p :: t => launchProbe r p.1 p.2 (modRing r (fun x => { x with probes := t, probeOut := some p }) s)
    | _, _ => s
  | _ => if sendsData s r then launchData r (launchData r s .a) .b else s

/-! ## Breaks (R271, R272) -/

/-- `brk_a`, `brk_b` and their valid bits. -/
def brkOf (s : State) (r : Nat) : PortEnd → Nat × Bool
  | .a => (getF s.rng.r (F.RNG_RINGr_STAT_brk_a r), flag s.rng.r (F.RNG_RINGr_STAT_brk_a_valid r))
  | .b => (getF s.rng.r (F.RNG_RINGr_STAT_brk_b r), flag s.rng.r (F.RNG_RINGr_STAT_brk_b_valid r))

/-- Set an end's break. -/
def setBrk (r : Nat) (e : PortEnd) (turn : Option Nat) (s : State) : State :=
  let f := match e with
    | .a => F.RNG_RINGr_STAT_brk_a r
    | .b => F.RNG_RINGr_STAT_brk_b r
  let v := match e with
    | .a => F.RNG_RINGr_STAT_brk_a_valid r
    | .b => F.RNG_RINGr_STAT_brk_b_valid r
  match turn with
  | some t => rngRegs_ (fun q => setF (setF q f t) v 1) s
  | none => rngRegs_ (fun q => setF q v 0) s

/-- Which ends reach each claimed node: both on a whole ring, as the breaks say on a split one (R272). Each node that
becomes unreachable sends one event; every node gets the end that serves it. DEDUCED: log 68. -/
def updateReach (r : Nat) (s : State) : State :=
  let x := ringOf s r
  let ba := brkOf s r .a
  let bb := brkOf s r .b
  let put := fun (a : Nat) (n : RNode) =>
    if !n.claimed then n
    else if x.split then { n with reachA := ba.2 && a ≤ ba.1, reachB := bb.2 && bb.1 ≤ a }
    else { n with reachA := true, reachB := true }
  let y := serveNodes (ringRec s r).nodes { x with nodes := x.nodes.mapIdx put }
  let lost := (claimedNodes x).filter fun a =>
    ((nodeAt x a).reachA || (nodeAt x a).reachB) && !((nodeAt y a).reachA || (nodeAt y a).reachB)
  lost.foldl (fun s a => raise 13 r a s) (modRing r (fun _ => y) s)

/-- A node's carried grants, and the messages that wait for it, wait at the end that serves it (R265). DEDUCED: log 68. -/
def moveCarried (x : RingSt) : RingSt :=
  let all := x.a.carried ++ x.b.carried
  let of := fun (e : PortEnd) => all.filter fun g => (nodeAt x g.node).serve == some e
  let todo := fun (e : PortEnd) =>
    (endOf x e).todo.filter (fun m => msgEnd x e m == e) ++ (endOf x (otherEnd e)).todo.filter fun m => msgEnd x (otherEnd e) m == e
  let box := fun (e : PortEnd) =>
    match (endOf x e).box.filter (fun m => msgEnd x e m == e) with
    | some m => some m
    | none => (endOf x (otherEnd e)).box.filter fun m => msgEnd x (otherEnd e) m == e
  let put := fun (e : PortEnd) => modEnd e fun y => { y with carried := of e, todo := todo e, box := box e }
  put .b (put .a x)

/-- RING_SPLIT (R271). -/
def ringSplit (r : Nat) (s : State) : State :=
  let x := ringOf s r
  let c := getF s.rng.r F.RNG_CFG_brk_confirm
  if !sendsData s r || x.split || !(c ≤ x.a.splitRun || c ≤ x.b.splitRun) then s
  else
    let s := modRing r (fun x => { x with split := true, travA := 0, travB := 0 }) (rngRegs_ (fun q => putBit q R.RNG_SPLIT r true) s)
    modRing r moveCarried (updateReach r s)

/-- RING_WHOLE (R271). -/
def ringWhole (r : Nat) (s : State) : State :=
  let x := ringOf s r
  let c := getF s.rng.r F.RNG_CFG_brk_confirm
  if !sendsData s r || !x.split || !(c ≤ x.a.wholeRun && c ≤ x.b.wholeRun) then s
  else
    let s := modRing r (fun x => { x with split := false }) (rngRegs_ (fun q => putBit q R.RNG_SPLIT r false) s)
    modRing r moveCarried (updateReach r s)

/-- The evidence of a baton launched from `e` that passed its check; one turned by a node without an address leaves the end's turn
not valid (R271, R272). -/
def evidence (r : Nat) (e : PortEnd) (looped anon : Bool) (turn : Nat) (s : State) : State :=
  let s := modRing r (modEnd e fun y =>
    { y with splitRun := if looped then y.splitRun + 1 else 0, wholeRun := if looped then 0 else y.wholeRun + 1, lossRun := 0 }) s
  if !looped then s
  else
    let old := brkOf s r e
    let s := setBrk r e (some turn) s
    let s := if anon then setBrk r e none s else s
    if (ringOf s r).split && old != brkOf s r e then modRing r moveCarried (updateReach r s) else s

/-- A stride of end `e` without evidence; `lost`: its baton never came back (R271, R272). -/
def noEvidence (r : Nat) (e : PortEnd) (lost : Bool) (s : State) : State :=
  let c := getF s.rng.r F.RNG_CFG_brk_confirm
  let s := modRing r (modEnd e fun y =>
    { y with splitRun := 0, wholeRun := 0, lossRun := if lost then y.lossRun + 1 else y.lossRun }) s
  let old := brkOf s r e
  let s := if lost && c ≤ (endOf (ringOf s r) e).lossRun then setBrk r e none s else s
  if (ringOf s r).split && old != brkOf s r e then modRing r moveCarried (updateReach r s) else s

/-! ## Batons coming in (R248, R249) -/

/-- Count in a ring's counters. -/
def ringCount (f : Fld) (s : State) : State := rngRegs_ (fun q => incF q f 1) s

/-- The grants of a baton's header. -/
def grantsOf (ws : List Half) : List Grant :=
  ((ws.drop 5).take ((ws.getD 4 0).toNat % 64)).map fun w =>
    { node := w.toNat / 256, kind := w.toNat / 32 % 4, len := w.toNat % 32 + 1 }

/-- The `ack` bits of the grants. -/
def acksOf (ws : List Half) : List Bool := ((ws.drop 5).take ((ws.getD 4 0).toNat % 64)).map fun w => w.getLsbD 7

/-- The data words a baton has by its `cnt` (R245). -/
def batonLen (f : RxFrame) : Nat :=
  6 + ((rxWords f).getD 4 0).toNat % 64 +
    (if ((rxWords f).getD 0 0).toNat / 16384 = 1 then 257 else ((rxWords f).getD 4 0).toNat / 256)

/-- A baton passes its check: no `ABT`, no code error, its length as `cnt` says, its header CRC right (R248). -/
def batonOk (f : RxFrame) : Bool :=
  let g := ((rxWords f).getD 4 0).toNat % 64
  rxClean f (batonLen f) && g ≤ 32 && crc16 0xFFFF ((rxWords f).take (5 + g)) == (rxWords f).getD (5 + g) 0

/-- A port takes the code words of a ring frame of `len` data words (R227, R230). DESIGN CHOICE: log 59. -/
def takeRingErrors (r : Nat) (port : PortEnd) (f : RxFrame) (len : Nat) (s : State) : State :=
  takeErrors (ringPort r port) (rxScan f) (rxMisplaced f len).toNat f.time s

/-- Change a campaign node. -/
def modSpx (r a : Nat) (f : SpxNode → SpxNode) (s : State) : State :=
  match s.spx.camp with
  | some c =>
    let put := fun (x : SpxRing) => if x.ring = r then { x with nodes := x.nodes.modify a f } else x
    let c := { c with rings := c.rings.map put }
    { s with spx := { s.spx with camp := some c } }
  | none => s

/-- The two oldest sets of a node leave the array's model. -/
def popSets (x : SpxNode) : SpxNode :=
  { x with sets := x.sets.drop 2, past := match x.sets.take 2 with
      | [_, b] => b + 1
      | _ => x.past }

/-- A grant of a discarded or lost baton (R248, R249, R313). -/
def grantGone (r : Nat) (s : State) (g : Grant) : State :=
  if g.kind = 1 then modSpx r g.node (fun x => if 2 ≤ x.sets.length then popSets x else x) s else s

/-- A sweep, stream or other grant came back with `ack` 0 (R269, R313). -/
def grantBack (r : Nat) (e : PortEnd) (s : State) (g : Grant) : State :=
  let stream : Bool := decide (g.kind = 1 ∧ g.len = 2 * (nodeAt (ringOf s r) g.node).cells)
  if g.kind = 0 then modRing r (fun x => modEnd ((nodeAt x g.node).serve.getD e) (fun y => { y with carried := y.carried ++ [g] }) x) s
  else if stream then
    modSpx r g.node (fun x => if x.step = .inStep ∧ 2 ≤ x.sets.length then { x with step := .lost } else x)
      (modRing r (modNode g.node fun n => { n with due := min (n.due + 1) 4 }) s)
  else if g.kind = 1 then
    modRing r (fun x => { x with reqs := x.reqs.map fun q => if q.g = g then { q with left := q.left + 1 } else q }) s
  else s

/-- The point index of place `i` of a run of kind `k` (R283, R317); `st` is the run's first word. -/
def pointOf (k len N i : Nat) (st : Half) (binOf : Nat → Nat) : Nat :=
  if k = 0 then
    if i = 0 then 867 else if i ≤ N then 72 * (i - 1) else if i = N + 1 then 864 else if i = N + 2 then 866
    else 868 + st.toNat / 4096 % 4
  else if k = 2 then 880 + i
  else if len = 2 * N then 72 * (i % N)
  else if i = 0 then 960 + st.toNat / 8192
  else 72 * ((i - 1) / 2) + 8 + 2 * binOf (st.toNat / 8192) + (i - 1) % 2

/-- The bin of a tone rank of the campaign. -/
def toneBin (s : State) (rank : Nat) : Nat :=
  match s.spx.camp with
  | some c => (c.tones.getD rank {}).bin
  | none => 0

/-- The words of a filled grant become ring words of queue 4 or 5 (R248, R284). -/
def takeRun (r tag : Nat) (g : Grant) (ws : List Half) (s : State) : State :=
  let N := (nodeAt (ringOf s r) g.node).cells
  let st := ws.getD 0 0
  let stream : Bool := decide (g.kind = 1 ∧ g.len = 2 * N)
  let sets := match spxNodeOf s r g.node with
    | some x => x.sets
    | none => []
  let flags := fun (i : Nat) =>
    if g.kind = 0 then (st.getLsbD 15).toNat + 2 * (st.getLsbD 14).toNat
    else if g.kind = 2 then 4 else if stream && N ≤ i then 1 else 0
  let word := fun (i : Nat) (w : Half) =>
    ({ val := w, node := g.node, idx := pointOf g.kind g.len N i st (toneBin s), tag := tag, flags := flags i,
       smp := sets.getD (if stream && N ≤ i then 1 else 0) 0 } : RingWord)
  let words := ws.mapIdx word
  let s := modRing r (fun x => if g.kind = 1 then { x with q5 := x.q5 ++ words } else { x with q4 := x.q4 ++ words }) s
  let done := fun (x : RingSt) =>
    if g.kind = 2 then { x with reqs := x.reqs.filter fun q => q.g != g } else x
  let s := modRing r (fun x => modNode g.node (fun n =>
    { n with silent := false, acked := n.acked || g.kind == 0, noAck := if g.kind = 0 then 0 else n.noAck }) (done x)) s
  if stream then modSpx r g.node (fun x => if 2 ≤ x.sets.length then popSets x else x) s else s

/-- The runs of a baton whose grants are known to be its own, with their `ack` bits (R245, R248). -/
def takeRuns (r tag : Nat) (e : PortEnd) : List (Grant × Bool) → List Half → State → State
  | [], _, s => s
  | (g, ack) :: t, ws, s =>
    let s := if ack && g.kind != 3 then takeRun r tag g (ws.take g.len) s else grantBack r e s g
    takeRuns r tag e t (ws.drop g.len) s

/-- The alarm field of a baton (R36, R196, R248, R251). DEDUCED: log 71. -/
def takeAlarm (r : Nat) (port : PortEnd) (al : Half) (s : State) : State :=
  let node := al.toNat % 256
  let s := if al.getLsbD 9 then raise 10 r 255 s else s
  let s := if al.getLsbD 8 then raise 10 r 255 s else s
  let s := rngRegs_ (fun q => setF q (F.RNG_RINGr_ALM_kinds r) (getF q (F.RNG_RINGr_ALM_kinds r) ||| al.toNat / 256 % 64)) s
  if !al.getLsbD 15 then s
  else
    let nf := match port with
      | .a => F.RNG_RINGr_ALM_node_a r
      | .b => F.RNG_RINGr_ALM_node_b r
    let s := rngRegs_ (fun q =>
      let q := setF (setFlag q (F.RNG_RINGr_ALM_hard r)) nf node
      if al.getLsbD 14 then setFlag q (F.RNG_RINGr_ALM_multi r) else q) s
    let s := modRing r (modNode node fun n => { n with hardLap := true }) s
    let s := match ringBank s.img.str r with
      | some b => latchOn (bankPhases s.img.str b) (fun x => { x with ring := true }) s
      | none => s
    let s := { s with flt := { s.flt with hardNow := s.flt.hardNow ||| (1 <<< r) } }
    raise (64 + r) r node s

/-- A waggle message on the uplink is dropped (R264). -/
def dropUplink (r : Nat) (e : PortEnd) (s : State) : State :=
  raise 12 r 255 (ringCount (F.RNG_RINGr_CNT_wag_err_cnt r) (modRing r (modEnd e fun y => { y with rx := none, wait := 0 }) s))

/-- The words of a list of bits, earliest first. -/
def bitWords (bs : List Bool) : List Half :=
  (List.range (bs.length / 16)).map fun i => (List.range 16).foldl (fun w k => w * 2 + BitVec.ofNat 16 (bs.getD (16 * i + k) false).toNat) 0

/-- A request ended without a usable reply: it is sent again, three times in all (R266); true when the tries are spent.
DEDUCED: log 65. -/
def retry (e : PortEnd) (crcBad : Bool) (x : RingSt) : Bool × RingSt :=
  match (endOf x e).await with
  | none => (false, x)
  | some m =>
    let m := { m with crcs := m.crcs + crcBad.toNat }
    let x := modEnd e (fun y => { y with await := none, rx := none, wait := 0 }) x
    let o := msgEnd x e m
    if m.tries < 3 then (false, if m.use = .mailbox then modEnd o (fun y => { y with box := some m }) x else wagPut true o m x)
    else (true, x)

/-- A wire test ends indeterminate for want of a run, or by refusal: once more at the next lap, then so reported (R293). -/
def wireIndet (r : Nat) (s : State) : State :=
  match (vget s.csv.ring r {}).test with
  | none => s
  | some t =>
    let reqs := fun (x : RingSt) => { x with reqs := x.reqs.filter fun q => !(q.g.kind == 2 && q.g.node == t.node) }
    let s := modRing r reqs s
    if t.runs = 0 then
      let t := { t with again := true, going := false, asked := false, runs := 1 }
      { s with csv := { s.csv with ring := vmod s.csv.ring r fun x => { x with test := some t } } }
    else
      let s := wiresIndet r t.node t.mask s
      let q := setFlag (setF s.csv.r F.CSV_WIRE_STAT_result 3) F.CSV_WIRE_STAT_done
      let q := setF (setF q F.CSV_WIRE_STAT_ring r) F.CSV_WIRE_STAT_node t.node
      irq 6 { s with csv := { s.csv with r := q, ring := vmod s.csv.ring r fun x => { x with test := none } } }

/-- A balancing command is refused or stopped (R287). -/
def balRefuse (reason : Nat) (s : State) : State :=
  let q := setFlag (setF (setFlag s.csv.r F.CSV_BAL_STAT_refused) F.CSV_BAL_STAT_reason reason) F.CSV_STAT_cmd_refused
  irq 6 { s with csv := { s.csv with r := q } }

/-- A request was given up after its tries (R256, R260, R266, R287, R293). DEDUCED: log 66. -/
def giveUp (r : Nat) (m : WagMsg) (s : State) : State :=
  match m.use with
  | .mailbox => mailboxEnd (if m.crcs = 3 then 1 else 2) s
  | .wire => wireIndet r s
  | .bal => balRefuse 3 { s with csv := { s.csv with bal := none } }
  | _ => s

/-- Another try, or the end of the request. DEDUCED: log 65. -/
def retryOrEnd (r : Nat) (e : PortEnd) (crcBad : Bool) (s : State) : State :=
  match (endOf (ringOf s r) e).await with
  | none => s
  | some m =>
    let y := retry e crcBad (ringOf s r)
    let s := modRing r (fun _ => y.2) s
    ringAdvance r (if y.1 then giveUp r { m with crcs := m.crcs + crcBad.toNat } s else s)

/-- An uplink bit comes in on end `e`, with the baton of stride `k` (R264, R266). DEDUCED: log 65. -/
def uplinkBit (r : Nat) (e : PortEnd) (k : Nat) (first bit : Bool) (s : State) : State :=
  let y := endOf (ringOf s r) e
  if y.await.isNone || y.inbox.isSome then s
  else
    let s := if first && y.rx.isSome then dropUplink r e s else s
    let s := if first then modRing r (modEnd e fun y => { y with rxAt := k }) s else s
    let rx := (endOf (ringOf s r) e).rx
    let bits := if first then some [bit] else rx.map (bit :: ·)
    match bits with
    | none => s
    | some bs =>
      let ws := bitWords bs.reverse
      if 32 ≤ bs.length && bs.length = 16 * (wagLen ws + 3) then
        if crc16 0xFFFF (ws.take (wagLen ws + 2)) = ws.getD (wagLen ws + 2) 0 && wagLen ws ≤ 32 then
          modRing r (modEnd e fun y => { y with rx := none, inbox := some (ws.take (wagLen ws + 2)) }) s
        else retryOrEnd r e true (dropUplink r e s)
      else modRing r (modEnd e fun y => { y with rx := some bs }) s

/-- The end a baton that failed its check was most likely launched from: the other port's on a whole ring. DEDUCED: log 69. -/
def expectedEnd (x : RingSt) (port : PortEnd) : PortEnd := if x.split then port else otherEnd port

/-- A baton that does not bring its uplink bit spoils the message in progress, if it was launched after the first bit's (R264). -/
def spoilsUplink (s : State) (y : RingEnd) (l : Launch) : Bool :=
  l.wagEn && y.rx.isSome && strideAge s l.stride < strideAge s y.rxAt

/-- The oldest baton of an end leaves the list of those on their way; its grants are gone. -/
def dropOldest (r : Nat) (e : PortEnd) (s : State) : State :=
  match (endOf (ringOf s r) e).fly with
  | [] => s
  | l :: t =>
    let s := modRing r (modEnd e fun y => { y with fly := t }) s
    let s := l.grants.foldl (grantGone r) s
    if spoilsUplink s (endOf (ringOf s r) e) l then dropUplink r e s else s

/-- BATON_ARRIVAL: a data baton reaches a port (R248); `time` is its `SOF` after the launch word boundary, in 0.5 ns.
DEDUCED: log 69. -/
def batonArrival (r : Nat) (port : PortEnd) (f : RxFrame) (s : State) : State :=
  if !strides s || !endUp s r port || !(sendsData s r || !((ringOf s r).a.fly ++ (ringOf s r).b.fly).isEmpty) then s
  else
    let s := takeRingErrors r port f (batonLen f) s
    let c := ((rxWords f).getD 0 0).toNat
    if !batonOk f then
      let e := expectedEnd (ringOf s r) port
      let s := raise 9 r (endBit port) (ringCount (F.RNG_RINGr_CNT_hdr_err_cnt r) s)
      noEvidence r e false (dropOldest r e s)
    else if c / 16384 ≠ 0 then s
    else
      let e := if c / 8192 % 2 = 1 then PortEnd.b else PortEnd.a
      let rt := (rxWords f).getD 2 0
      let looped := rt.getLsbD 15
      let fly := (endOf (ringOf s r) e).fly
      let own := fly.find? fun l => l.stride % 256 == c % 256
      let older := fly.takeWhile fun l => l.stride % 256 != c % 256
      let s := match own with
        | some _ => modRing r (modEnd e fun y => { y with fly := y.fly.filter fun l => l.stride % 256 != c % 256 }) s
        | none => s
      if looped != (port == e) then
        let s := ringCount (F.RNG_RINGr_CNT_route_err_cnt r) s
        match own with
        | some l => noEvidence r e false (l.grants.foldl (grantGone r) s)
        | none => s
      else
        let s := takeAlarm r port ((rxWords f).getD 3 0) s
        let s := evidence r e looped (rt.getLsbD 12) (rt.toNat % 256) s
        let s := if looped || (ringOf s r).split then s
          else modRing r (fun x => match e with
            | .a => { x with travA := f.time }
            | .b => { x with travB := f.time }) s
        match own with
        | none => s
        | some l =>
          let s := if l.wagEn then
              let s := if older.any (spoilsUplink s (endOf (ringOf s r) e)) then dropUplink r e s else s
              uplinkBit r e l.stride (rt.getLsbD 13) (rt.getLsbD 14) s
            else s
          takeRuns r (c % 256) e (l.grants.zip (acksOf (rxWords f))) ((rxWords f).drop (6 + l.grants.length)) s

/-- BATON_LOST: the oldest baton of an end is not back by the boundary of stride k + 4 (R249); in PROBE the probe that
never came back is sent again. DEDUCED: log 64. -/
def batonLost (r : Nat) (e : PortEnd) (s : State) : State :=
  if ringState s r = 4 then
    modRing r (fun x => match x.probeOut with
      | some p => if p.1 = e then { x with probes := p :: x.probes, probeOut := none } else x
      | none => x) s
  else
    match (endOf (ringOf s r) e).fly with
    | [] => s
    | l :: _ =>
      if strideAge s l.stride < 4 then s
      else noEvidence r e true (dropOldest r e (ringCount (F.RNG_RINGr_CNT_lost_cnt r) s))

/-! ## Enumeration and probes (R257 to R261) -/

/-- An attempt fails; the fourth puts the ring in FAILED (R259). -/
def enumFails (r : Nat) (s : State) : State :=
  let s := modRing r (fun x => { x with passOut := none, passNext := none, fails := x.fails + 1, nodes := List.replicate 256 {} }) s
  if (ringOf s r).fails < 4 then s else raise 11 r 255 (setRing r 7 s)

/-- ENUMERATION_TIMEOUT: the baton is not back within 4 strides after its `EOF` left (R259). DEDUCED: log 69. -/
def enumTimeout (r : Nat) (s : State) : State :=
  let x := ringOf s r
  if ringState s r = 2 ∧ x.passOut.isSome ∧ x.passLen + 4 ≤ strideAge s x.passAt then enumFails r s else s

/-- One claim word (R257): the node at the address of word `i` in the pass from `e`. -/
def takeClaim (e : PortEnd) (N : Nat) (x : RingSt) (iw : Nat × Half) : RingSt :=
  let i := iw.1
  let w := iw.2
  if !w.getLsbD 15 || 256 ≤ i then x
  else if e = .b ∧ N < i + 1 then x
  else
    let a := match e with
      | .a => i
      | .b => N - 1 - i
    let x := if (nodeAt x a).claimed then { x with twice := true } else x
    let old := nodeAt x a
    modNode a (fun _ => { claimed := true, cls := w.toNat / 8192 % 4, cells := w.toNat / 256 % 16 + 1,
                          version := w.toNat % 256, reachA := old.reachA || e == .a, reachB := old.reachB || e == .b, claim := e }) x

/-- Entry to DESC: DESC_REQ to every claimed address, through the end whose pass claimed it (R260). DEDUCED: log 60. -/
def enterDesc (r : Nat) (s : State) : State :=
  let s := rngRegs_ (fun q => setF q (F.RNG_RINGr_STAT_count r) (claimedNodes (ringOf s r)).length) (setRing r 3 s)
  let s := modRing r (serveNodes (ringRec s r).nodes) s
  (claimedNodes (ringOf s r)).foldl (fun s a => wagVia false (nodeAt (ringOf s r) a).claim 0x02 a [] .ring r s) s

/-- ENUMERATION_RETURN (R257, R258, R259). -/
def enumReturn (r : Nat) (port : PortEnd) (f : RxFrame) (s : State) : State :=
  let x := ringOf s r
  if ringState s r ≠ 2 || !endUp s r port then s
  else
    match x.passOut with
    | none => s
    | some e =>
      let s := takeRingErrors r port f (batonLen f) s
      if !batonOk f then
        enumFails r (raise 9 r (endBit port) (ringCount (F.RNG_RINGr_CNT_hdr_err_cnt r) s))
      else
        let c := ((rxWords f).getD 0 0).toNat
        let looped := ((rxWords f).getD 2 0).getLsbD 15
        if c / 16384 ≠ 1 ∨ c / 8192 % 2 ≠ endBit e ∨ ((rxWords f).getD 1 0).toNat / 256 ≠ x.epoch then s
        else if looped != (port == e) then ringCount (F.RNG_RINGr_CNT_route_err_cnt r) s
        else
          let roll := ((rxWords f).drop 6).take 257
          let N := (ringRec s r).nodes
          let s := modRing r (fun x => { (roll.mapIdx fun i w => (i, w)).foldl (takeClaim e N) x with passOut := none }) s
          let s := if (roll.getD 256 0).getLsbD 15 then
              raise 11 r 255 (rngRegs_ (fun q => putBit q R.RNG_OVERFLOW_NODE r true) s)
            else s
          if e = .a ∧ looped ∧ endUp s r .b then modRing r (fun x => { x with passNext := some .b }) s
          else
            let both := fun (n : RNode) => if n.claimed && !looped then { n with reachA := true, reachB := true } else n
            enterDesc r (modRing r (fun x => { x with nodes := x.nodes.map both }) s)

/-- The sum of the declared differences δ of a range of nodes, in ps (R261). DEDUCED: log 63. -/
def deltaSum (x : RingSt) (lo hi : Nat) : Int :=
  ((x.nodes.take hi).drop lo).foldl (fun t n => t + (BitVec.ofNat 16 (descF (descOf n) 160 16)).toInt) 0

/-- The delay of a node from an end in units of 0.5 ns (R261): t_tx is 5 ns. DEDUCED: log 63. -/
def probeDelay (x : RingSt) (N : Nat) (e : PortEnd) (a trip tau : Nat) : Nat :=
  let t := (trip : Int) - tau
  let half : Rat := match e with
    | .a => ((t : Rat) + (deltaSum x 0 a : Rat) / 500) / 2
    | .b => ((t : Rat) - (deltaSum x (a + 1) N : Rat) / 500) / 2
  (clampI 0 0xFFFE (10 + rround half)).toNat

/-- PROBE_RETURN: the probe comes back to its own end; `time` is the round trip in 0.5 ns (R261). DEDUCED: log 64. -/
def probeReturn (r : Nat) (port : PortEnd) (f : RxFrame) (s : State) : State :=
  let x := ringOf s r
  if ringState s r ≠ 4 || !endUp s r port then s
  else
    match x.probeOut with
    | none => s
    | some (e, a) =>
      let s := takeRingErrors r port f 5 s
      let bad : Bool := !rxClean f 5 || crc16 0xFFFF ((rxWords f).take 4) != (rxWords f).getD 4 0
      if bad then modRing r (fun x => { x with probes := (e, a) :: x.probes, probeOut := none }) s
      else
        let c := ((rxWords f).getD 0 0).toNat
        if c / 16384 ≠ 2 || c / 8192 % 2 != endBit e || port != e || !((rxWords f).getD 2 0).getLsbD 15 ||
            ((rxWords f).getD 1 0).toNat / 256 != a then s
        else
          let d := probeDelay x (ringRec s r).nodes e a f.time ((rxWords f).getD 3 0).toNat
          let put := fun (n : RNode) => match e with
            | .a => { n with dA := d }
            | .b => { n with dB := d }
          ringAdvance r (modRing r (fun x => modNode a put { x with probeOut := none }) s)

/-! ## Waggle events -/

/-- Another end still has the same use's message queued or on its downlink. -/
def useLeft (u : WagUse) (x : RingSt) : Bool :=
  let has := fun (y : RingEnd) => (y.todo.any (·.use == u)) || (match y.cur with | some c => c.1.use == u | none => false) ||
    (match y.box with | some m => m.use == u | none => false)
  has x.a || has x.b

/-- A STREAM_DIV with this k has ended: its lap boundaries count from now on (R270). -/
def divSent (k : Nat) : List (Nat × Nat) → List (Nat × Nat)
  | [] => []
  | (d, j) :: t => if j = 0 then (d, k) :: t else (d, j) :: divSent k t

/-- WAGGLE_SEND_COMPLETE: the last bit of a downlink message has left (R264, R266). -/
def sendComplete (r : Nat) (e : PortEnd) (s : State) : State :=
  let y := endOf (ringOf s r) e
  match y.cur with
  | none => s
  | some (m, ws) =>
    if y.bit < 16 * ws.length then s
    else
      let s := modRing r (modEnd e fun y => { y with cur := none, bit := 0, await := if m.reply then some m else y.await,
                                                     wait := if m.reply then 0 else y.wait }) s
      let s := if m.use = .div then modRing r (modEnd e fun y => { y with divs := divSent ((m.words.getD 3 0).toNat % 256) y.divs }) s else s
      let s := if m.use = .mailbox && !m.reply && !useLeft .mailbox (ringOf s r) then mailboxEnd 0 s else s
      let mark := fun (x : CsvRing) => { x with test := x.test.map fun t => { t with lap := s.tbs.lap + 1 } }
      let s := if m.use = .wire then { s with csv := { s.csv with ring := vmod s.csv.ring r mark } } else s
      ringAdvance r s

/-- WAGGLE_REPLY_TIMEOUT: 64 strides without a first bit (R266). -/
def replyTimeout (r : Nat) (e : PortEnd) (s : State) : State :=
  let y := endOf (ringOf s r) e
  if y.await.isSome && y.inbox.isNone && y.rx.isNone && 64 ≤ y.wait then retryOrEnd r e false s else s

/-- The reply to a mailbox message goes to `RNG_WAG_RXn` (R265). -/
def mailboxReply (ws : List Half) (s : State) : State :=
  let q := foldN 17 (fun q n => kvSet q (R.RNG_WAG_RXn n) (ws.getD (2 * n + 1) 0 ++ ws.getD (2 * n) 0)) s.rng.r
  mailboxEnd 0 (rngRegs_ (fun _ => setFlag q F.RNG_WAG_CTL_reply) s)

/-- Point +3 of a cell: requested by the last accepted command, in the node's mask at the last sweep, laps left (R300). -/
def balPoint (on inMask : Bool) (laps : Nat) : Nat :=
  on.toNat + inMask.toNat * 2 + (on && !inMask).toNat * 4 + (if on then min 255 laps * 256 else 0)

/-- A balancing command is in force for a node: its mask and laps, points +3 and 874 (R287, R300, R302). -/
def balShow (r a laps : Nat) (mask : BitVec 12) (s : State) : State :=
  let s := combPutN r a 874 mask.toNat (modCsv r a (fun n => { n with laps := laps, mask := mask }) s)
  foldN 12 (fun s c =>
    combPutN r a (72 * c + 3) (balPoint (mask.getLsbD c) ((combN s r a (72 * c + 3)).testBit 1) laps) s) s

/-- BAL_SET was acknowledged (R287, R300). -/
def balDone (s : State) : State :=
  match s.csv.bal with
  | none => s
  | some b =>
    let s := balShow b.ring b.node b.laps (if b.laps = 0 then 0 else b.mask) s
    irq 6 { s with csv := { s.csv with r := setFlag s.csv.r F.CSV_BAL_STAT_done, bal := none } }

/-- The request for a diagnostic run: in each stride after the node's sweep run of the test's lap, up to 4 grants, before
any for phasor runs (R293, R317). -/
def wireAsk (r : Nat) (s : State) : State :=
  let x := vget s.csv.ring r {}
  match x.test with
  | none => s
  | some t =>
    if t.going && !t.asked && t.lap ≤ s.tbs.lap && (x.nodes.getD t.node {}).got then
      let g : Grant := { node := t.node, kind := 2, len := (nodeAt (ringOf s r) t.node).cells + 1 }
      let put := fun (l : List GrantReq) => l.filter (fun q => q.g.kind == 2) ++ { g := g, left := 4 } :: l.filter fun q => q.g.kind != 2
      let s := modRing r (fun y => { y with reqs := put y.reqs }) s
      let ring := vset s.csv.ring r { x with test := some { t with asked := true } }
      { s with csv := { s.csv with ring := ring } }
    else s

/-- An ACK of a request, with its status (R267, R281, R287, R293). -/
def acked (r : Nat) (m : WagMsg) (st : Nat) (s : State) : State :=
  let a := wagNode m.words
  match m.use with
  | .wire =>
    if st = 0 then
      let go := fun (x : CsvRing) => { x with test := x.test.map fun t => { t with going := true } }
      wireAsk r { s with csv := { s.csv with ring := vmod s.csv.ring r go } }
    else wireIndet r s
  | .bal => if st = 0 then balDone s else balRefuse 2 { s with csv := { s.csv with bal := none } }
  | _ => if wagType m.words = 1 then sendConfig true r a s else s

/-- A reply is usable to the request `m` (R260, R267): any to the host's message, a descriptor of 16 words to DESC_REQ, else the
request's own ACK. -/
def usableReply (m : WagMsg) (ws : List Half) : Bool :=
  m.use == .mailbox ||
    (if wagType m.words = 2 then wagType ws == 0x82 && wagLen ws == 16
    else wagType ws == 0x81 && (ws.getD 2 0).toNat / 256 == wagType m.words)

/-- Take the message of an end's uplink (R266): only the node asked counts, and a reply that is not usable is another try spent.
DEDUCED: log 65. -/
def takeInbox (r : Nat) (e : PortEnd) (want : Nat → Bool) (act : WagMsg → List Half → State → State) (s : State) : State :=

  let y := endOf (ringOf s r) e
  match y.inbox, y.await with
  | some ws, some m =>
    if !want (wagType ws) then s
    else if wagNode ws ≠ wagNode m.words then modRing r (modEnd e fun y => { y with inbox := none }) s
    else if !usableReply m ws then retryOrEnd r e false (modRing r (modEnd e fun y => { y with inbox := none }) s)
    else ringAdvance r (act m ws (modRing r (modEnd e fun y => { y with inbox := none, await := none, wait := 0 }) s))
  | _, _ => s

/-- WAGGLE_ACK (R267). -/
def waggleAck (r : Nat) (e : PortEnd) (s : State) : State :=
  takeInbox r e (· == 0x81) (fun m ws s =>
    if m.use = .mailbox then mailboxReply ws s else acked r m ((ws.getD 2 0).toNat % 256) s) s

/-- The 256 bits of a descriptor, most significant word first (R267). -/
def descBits (ws : List Half) : BitVec 256 := BitVec.ofNat 256 ((ws.take 16).foldl (fun a w => a * 65536 + w.toNat) 0)

/-- WAGGLE_DESC (R260). -/
def waggleDesc (r : Nat) (e : PortEnd) (s : State) : State :=
  takeInbox r e (· == 0x82) (fun m ws s =>
    if m.use = .mailbox then mailboxReply ws s
    else modRing r (modNode (wagNode m.words) fun n => { n with desc := some (descBits (ws.drop 2)) }) s) s

/-- WAGGLE_UPLINK_OTHER (R264). -/
def waggleOther (r : Nat) (e : PortEnd) (s : State) : State :=
  takeInbox r e (fun t => t != 0x81 && t != 0x82) (fun _ ws s => mailboxReply ws s) s

/-- MAILBOX_SEND: a write of `RNG_WAG_CTL.send` (R265). A write while a message is busy does nothing. DEDUCED: log 66. -/
def mailboxSend (s : State) : State :=
  if flag s.rng.r F.RNG_WAG_CTL_busy then s
  else
    let r := getF s.rng.r F.RNG_WAG_CTL_ring
    let word := fun (i : Nat) => (kvGet s.rng.r (R.RNG_WAG_TXn (i / 2))).extractLsb' (16 * (i % 2)) 16
    let n := (word 1).toNat % 64
    let ws := (List.range (n + 2)).map word
    let t := wagType ws
    let s := rngRegs_ (fun q => setF q F.RNG_WAG_CTL_err 0) s
    if 24 ≤ r ∨ ringState s r ≠ 6 then mailboxEnd 3 s
    else if (1 ≤ t ∧ t ≤ 5) ∨ 32 < n then mailboxEnd 4 s
    else
      let m : WagMsg := { words := ws, reply := wagReplies t (wagBcast ws), use := .mailbox }
      let put := fun (e : PortEnd) (x : RingSt) => if endUp s r e then modEnd e (fun y => { y with box := some m }) x else x
      let s := rngRegs_ (fun q => setFlag q F.RNG_WAG_CTL_busy) s
      if wagBcast ws then modRing r (fun x => put .b (put .a x)) s
      else
        match (nodeAt (ringOf s r) (wagNode ws)).serve with
        | some e => modRing r (modEnd e fun y => { y with box := some m }) s
        | none => mailboxEnd 2 s

/-! ## Host commands (R256, R275) -/

/-- A command of `RNG_CMD` is refused. -/
def rngRefuse (s : State) : State := irq 5 (rngRegs_ (fun q => setFlag q F.RNG_STAT_cmd_refused) s)

/-- Enumerate: in LOADED, a ring in READY or FAILED (R256). -/
def enumerateCmd (r : Nat) (s : State) : State :=
  if opState s = 4 ∧ (ringState s r = 6 ∨ ringState s r = 7) then enterEnum r s else rngRefuse s

/-- PROBE again: in LOADED, a ring in READY (R256). -/
def probeCmd (r : Nat) (s : State) : State :=
  if opState s = 4 ∧ ringState s r = 6 then enterProbe r s else rngRefuse s

/-- SLEEP (0x03) or WAKE (0x04) as a broadcast (R275). -/
def sleepCmd (type r : Nat) (s : State) : State :=
  if sendsData s r then wagBcastMsg type [] .ring r s else rngRefuse s

/-- A write of `RNG_CMD`. -/
def rngCmd (val : Word) (s : State) : State :=
  let r := val.toNat / 256 % 32
  let c := val.toNat % 8
  if c = 0 then s
  else if 24 ≤ r then rngRefuse s
  else
    match c with
    | 1 => enumerateCmd r s
    | 2 => probeCmd r s
    | 3 => sleepCmd 0x03 r s
    | 4 => sleepCmd 0x04 r s
    | _ => rngRefuse s

/-! ## Schedules (R268, R270) -/

/-- The smallest `div` from `d` on that fits the stream runs of an end (R268). -/
def fitDiv (bmax q w ps sets : Nat) : Nat → Nat → Nat
  | 0, d => d
  | n + 1, d =>
    if d < 15 && bmax < 8 + q * w + (sets + 2 * ps * 2 ^ d - 1) / (2 * ps * 2 ^ d) then fitDiv bmax q w ps sets n (d + 1) else d

/-- The plan of one end (R268); `fl` is the floor of `div` (R316). -/
def planEnd (s : State) (x : RingSt) (e : PortEnd) (ends : Nat → Option PortEnd) (j0 ps fl : Nat) (streams : Nat → Bool) :
    EndPlan × Bool :=
  let M0 := (claimedNodes x).filter fun a => ends a == some e
  let M := match e with
    | .a => M0
    | .b => M0.reverse
  let w := (M.map fun a => (nodeAt x a).cells + 5).foldl max 0
  let room := lapLen s - 4 - j0
  let q := if M.isEmpty || room == 0 then 0 else min ((M.length + room - 1) / room) ((bMax s - 8) / w)
  let ms := M.filter streams
  let sets := (ms.map fun a => 2 * (nodeAt x a).cells + 1).sum
  ({ order := M, stream := ms, q := q, div := if ms.isEmpty then fl else fitDiv (bMax s) q w ps sets 16 fl },
    decide (q * room < M.length))

/-- The plan of a ring (R268). -/
def planRing (s : State) (r ps fl : Nat) (streams : Nat → Bool) : RingPlan :=
  let x := ringOf s r
  let N := (ringRec s r).nodes
  let tap := ((claimedNodes x).map fun a => descF (descOf (nodeAt x a)) 144 16).foldl max 0
  let j0 := (400 * tap + strideLen s - 1) / strideLen s
  let ends := fun a => serveEnd N x.split a (nodeAt x a)
  let a := planEnd s x .a ends j0 ps fl streams
  let b := planEnd s x .b ends j0 ps fl streams
  { a := a.1, b := b.1, j0 := j0, short := a.2 || b.2, ps := ps }

/-- A schedule goes to queue 8; without credit the ring keeps what it has (R16). -/
def q8Put (r : Nat) (p : RingPlan) (s : State) : State :=
  modRing r (fun x => if x.q8.length < 2 then { x with q8 := x.q8 ++ [p] } else x) s

/-- The cadence of the streaming nodes under the `div` in force (R269). -/
def setCadence (p : RingPlan) (x : RingSt) : RingSt :=
  let put := fun (l : List Nat) (d : Nat) (x : RingSt) =>
    let P := 2 * p.ps * 2 ^ d
    (l.mapIdx fun i a => (i, a)).foldl (fun x ia => modNode ia.2 (fun n => { n with strPer := P, strOfs := ia.1 * P / l.length }) x) x
  let off := { x with nodes := x.nodes.map fun n => { n with strPer := 0 } }
  put p.b.stream x.divB (put p.a.stream x.divA off)

/-- `div` in force at an end. -/
def divOf (x : RingSt) : PortEnd → Nat
  | .a => x.divA
  | .b => x.divB

/-- The plan gives end `e` another `div` than the end or a node of it has or is to have: STREAM_DIV goes out from that end, which
takes its k when it starts to leave (R267, R270). An end without nodes changes alone. DEDUCED: log 70. -/
def sendDiv (e : PortEnd) (p : EndPlan) (x : RingSt) : RingSt :=
  let y := endOf x e
  let to_ := (y.divs.getLast?.map (·.1)).getD (divOf x e)
  match p.order with
  | [] =>
    match e with
    | .a => { modEnd e (fun y => { y with divs := [] }) x with divA := p.div }
    | .b => { modEnd e (fun y => { y with divs := [] }) x with divB := p.div }
  | a :: t =>
    if to_ = p.div && (!y.divs.isEmpty || (a :: t).all fun a => (nodeAt x a).div == to_) then x
    else
      let w := BitVec.ofNat 16 (t.foldl min a * 256 + t.foldl max a)
      let m : WagMsg := { words := wagWords 5 0 x.seq true [w, BitVec.ofNat 16 (p.div * 256)], use := .div }
      wagPut false e m (modEnd e (fun y => { y with divs := y.divs ++ [(p.div, 0)] }) { x with seq := (x.seq + 1) % 128 })

/-- The nodes of a plan get the strides of their sweep grants (R268, R269). -/
def setSweeps (p : RingPlan) (x : RingSt) : RingSt :=
  let put := fun (e : EndPlan) (x : RingSt) =>
    (e.order.mapIdx fun i a => (i, a)).foldl (fun x ia =>
      modNode ia.2 (fun n => { n with sweepAt := if e.q = 0 then none else some (p.j0 + ia.1 / e.q) }) x) x
  put p.b (put p.a { x with nodes := x.nodes.map fun n => { n with sweepAt := none } })

/-- The ring adopts the schedule at a lap boundary (R16, R24, R268, R270). -/
def adoptPlan (r : Nat) (s : State) : State :=
  match (ringOf s r).q8 with
  | [] => s
  | p :: t =>
    let s := modRing r (fun x => setSweeps p (serveNodes (ringRec s r).nodes { x with q8 := t, plan := some p })) s
    let s := modRing r (fun x => setCadence p (sendDiv .b p.b (sendDiv .a p.a x))) s
    (claimedNodes (ringOf s r)).foldl (fun s a =>
      let n := nodeAt (ringOf s r) a
      if n.timed.isSome && n.serve.isSome && n.timed != n.serve then sendTiming r a s else s) s

/-- A `div` that waits at an end takes effect, for the end and its nodes, at the k-th lap boundary after its STREAM_DIV (R270).
DEDUCED: log 70. -/
def divEnd (e : PortEnd) (x : RingSt) : RingSt :=
  let due := (endOf x e).divs.filter (·.2 == 1)
  let x := modEnd e (fun y => { y with divs := (y.divs.filter (·.2 != 1)).map fun p => (p.1, p.2 - 1) }) x
  match due.getLast?, x.plan with
  | some (d, _), some p =>
    let (x, l) := match e with
      | .a => ({ x with divA := d }, p.a.order)
      | .b => ({ x with divB := d }, p.b.order)
    setCadence p (l.foldl (fun x a => modNode a (fun n => { n with div := d }) x) x)
  | _, _ => x

/-- Both ends at a lap boundary. DEDUCED: log 70. -/
def divBoundary (r : Nat) (s : State) : State := modRing r (fun x => divEnd .b (divEnd .a x)) s

/-- A node at the end of a lap (R269, R273): laps without an acknowledged sweep grant count where grants are made. -/
def nodeLap (granting : Bool) (n : RNode) : RNode :=
  { n with noAck := if n.acked || !granting || !n.claimed || n.serve.isNone then (if n.acked then 0 else n.noAck) else min 255 (n.noAck + 1),
           acked := false, granted := 0, hardLap := false }

/-- A ring at a lap boundary; one that is not READY takes its schedule out of queue 8 unused. DEDUCED: log 117. -/
def ringLap (s : State) (r : Nat) : State :=
  if ringState s r ≠ 6 then modRing r (fun x => { x with q8 := x.q8.drop 1 }) s
  else
    let s := modRing r (fun x =>
      { x with nodes := x.nodes.map (nodeLap x.plan.isSome), limLaps := x.limLaps + 1,
               a := { x.a with carried := [] }, b := { x.b with carried := [] } }) s
    adoptPlan r (divBoundary r s)

/-- NODE_SILENT: a reachable node without an acknowledged sweep grant for `sil_laps` laps (R273). -/
def nodeSilent (r a : Nat) (s : State) : State :=
  let n := nodeAt (ringOf s r) a
  if ringState s r ≠ 6 || !n.claimed || n.serve.isNone || n.silent || n.noAck < getF s.rng.r F.RNG_CFG_sil_laps then s
  else raise 14 r a (modRing r (modNode a fun n => { n with silent := true }) s)

/-- LIMITS_REBROADCAST: once every 64 laps (R281). -/
def limitsRebroadcast (r : Nat) (s : State) : State :=
  if ringState s r = 6 ∧ 64 ≤ (ringOf s r).limLaps then sendAllLimits r s else s

/-- The ring is over the limit of R262: T_trav of either end on a whole ring, a served node's delay on a split one. -/
def ringOver (s : State) (r : Nat) : Bool :=
  let x := ringOf s r
  let lim := 5 * (strideLen s - 160)
  if x.split then
    (claimedNodes x).any fun a =>
      let n := nodeAt x a
      match n.serve with
      | some .a => n.dA != 0xFFFF && lim < n.dA
      | some .b => n.dB != 0xFFFF && lim < n.dB
      | none => false
  else lim < x.travA || lim < x.travB

/-- The ring part of the check for ARMED (R263). -/
def ringsArmOk (s : State) : Bool :=
  (mapRings s).all fun r => ringState s r == 6 && !getBit s.rng.r R.RNG_MISMATCH r && !ringOver s r

/-- The rings at a stride boundary: messages that are through move them on, then they launch (R31, R246). -/
def ringsBoundary (s : State) : State :=
  (mapRings s).foldl (fun s r => ringLaunch (ringAdvance r s) r) s

/-! ## Views -/

/-- A register that shows a ring's state. -/
def rngView (s : State) (ofs : Nat) : Option Word :=
  let w := fun (n : Nat) => some (BitVec.ofNat 32 n)
  let map := fun (p : Nat → Bool) => some ((ofBits 24 ((List.range 24).filter p)).setWidth 32)
  let r := getF s.rng.r F.RNG_SEL_ring
  let a := getF s.rng.r F.RNG_SEL_node
  let x := ringOf s r
  let n := nodeAt x a
  if ofs = R.RNG_READY then map fun r => ringState s r == 6
  else if ofs = R.RNG_DLY_OVER then map (ringOver s)
  else if ofs = R.RNG_NODE_STAT then
    if n.claimed then
      w (2 ^ 31 + n.desc.isSome.toNat * 2 ^ 30 + n.reachA.toNat * 2 ^ 29 + n.reachB.toNat * 2 ^ 28 + n.silent.toNat * 2 ^ 27 +
        (n.serve == some .b).toNat * 2 ^ 26 + n.cls % 4 * 2 ^ 24 + (n.cells - 1) % 16 * 2 ^ 20 + n.version)
    else some 0
  else if ofs = R.RNG_NODE_DLY then if 24 ≤ r || x.nodes.isEmpty then some 0 else w (n.dB * 65536 + n.dA)
  else if 0x40 ≤ ofs ∧ ofs < 0x60 then some ((descOf n).extractLsb' (8 * (ofs - 0x40)) 32)
  else if 0x60 ≤ ofs ∧ ofs < 0x80 then
    some (ofBits 32 ((List.range 32).filter fun i =>
      let m := nodeAt x (8 * (ofs - 0x60) + i)
      m.reachA || m.reachB))
  else if 0x400 ≤ ofs ∧ ofs < 0x400 + 32 * 24 then
    let x := ringOf s ((ofs - 0x400) / 32)
    match (ofs - 0x400) % 32 / 4 with
    | 2 => w (min 65535 x.travB * 65536 + min 65535 x.travA)
    | 4 =>
      let b := servedBy x .b
      let p := x.plan.getD {}
      w ((b.foldl min (b.headD 0)) * 2 ^ 24 + p.short.toNat * 2 ^ 23 + (!x.a.divs.isEmpty || !x.b.divs.isEmpty).toNat * 2 ^ 22 + x.divB * 4096 + x.divA * 256 +
        min 15 p.b.q * 16 + min 15 p.a.q)
    | _ => none
  else none

/-! ## Commands -/

/-- BATON_LOST. -/
def execBatonLost (ring : Fin 24) (port : PortEnd) (s : State) : Host.Outcome State Fault Refusal := .next (batonLost ring port s)
/-- RING_TRAIN_TIMEOUT. -/
def execRingTrainTimeout (ring : Fin 24) (s : State) : Host.Outcome State Fault Refusal := .next (ringTrainTimeout ring s)
/-- ENUMERATION_RETURN. -/
def execEnumerationReturn (ring : Fin 24) (port : PortEnd) (f : RxFrame) (s : State) : Host.Outcome State Fault Refusal :=
  .next (enumReturn ring port f s)
/-- ENUMERATION_TIMEOUT. -/
def execEnumerationTimeout (ring : Fin 24) (s : State) : Host.Outcome State Fault Refusal := .next (enumTimeout ring s)
/-- PROBE_RETURN. -/
def execProbeReturn (ring : Fin 24) (port : PortEnd) (f : RxFrame) (s : State) : Host.Outcome State Fault Refusal :=
  .next (probeReturn ring port f s)
/-- WAGGLE_ACK. -/
def execWaggleAck (ring : Fin 24) (port : PortEnd) (s : State) : Host.Outcome State Fault Refusal := .next (waggleAck ring port s)
/-- WAGGLE_DESC. -/
def execWaggleDesc (ring : Fin 24) (port : PortEnd) (s : State) : Host.Outcome State Fault Refusal := .next (waggleDesc ring port s)
/-- WAGGLE_UPLINK_OTHER. -/
def execWaggleUplinkOther (ring : Fin 24) (port : PortEnd) (s : State) : Host.Outcome State Fault Refusal :=
  .next (waggleOther ring port s)
/-- WAGGLE_REPLY_TIMEOUT. -/
def execWaggleReplyTimeout (ring : Fin 24) (port : PortEnd) (s : State) : Host.Outcome State Fault Refusal :=
  .next (replyTimeout ring port s)
/-- MAILBOX_SEND. -/
def execMailboxSend (_path : Path) (s : State) : Host.Outcome State Fault Refusal := whenCore mailboxSend s
/-- ENUMERATE. -/
def execEnumerate (_path : Path) (ring : Fin 24) (s : State) : Host.Outcome State Fault Refusal := whenCore (enumerateCmd ring) s
/-- PROBE_AGAIN. -/
def execProbeAgain (_path : Path) (ring : Fin 24) (s : State) : Host.Outcome State Fault Refusal := whenCore (probeCmd ring) s
/-- SLEEP_BROADCAST. -/
def execSleepBroadcast (_path : Path) (ring : Fin 24) (s : State) : Host.Outcome State Fault Refusal := whenCore (sleepCmd 0x03 ring) s
/-- WAKE_BROADCAST. -/
def execWakeBroadcast (_path : Path) (ring : Fin 24) (s : State) : Host.Outcome State Fault Refusal := whenCore (sleepCmd 0x04 ring) s
/-- RING_SPLIT. -/
def execRingSplit (ring : Fin 24) (s : State) : Host.Outcome State Fault Refusal := .next (ringSplit ring s)
/-- RING_WHOLE. -/
def execRingWhole (ring : Fin 24) (s : State) : Host.Outcome State Fault Refusal := .next (ringWhole ring s)
/-- NODE_SILENT. -/
def execNodeSilent (ring : Fin 24) (node : Fin 256) (s : State) : Host.Outcome State Fault Refusal := .next (nodeSilent ring node s)
/-- LIMITS_REBROADCAST. -/
def execLimitsRebroadcast (ring : Fin 24) (s : State) : Host.Outcome State Fault Refusal := .next (limitsRebroadcast ring s)
/-- LOCK_LOSS. -/
def execLockLoss (port : Fin 50) (errs : LockErrors) (cut : LockCut) (s : State) : Host.Outcome State Fault Refusal :=
  .next (lockLoss port cut.sent cut.rx cut.time (countErrors port errs.code errs.disp s))
/-- LINK_UP. -/
def execLinkUp (port : Fin 50) (s : State) : Host.Outcome State Fault Refusal :=
  let s := portComesUp port s
  .next (if port.val < 48 then trainDone (port.val / 2) s else s)

end Sys2Proof.Machine
end

