-- ==== Sys2Proof/Machine/Csv.lean ====
section
/-! DEFINITION. Cell supervision and the comb (R276 to R304): sweep runs, sense wires, limits, headroom, balancing. -/
namespace Sys2Proof.Machine

/-! ## The comb (R299, R303) -/

/-- COMB_HOST_WRITE: a 16-bit write at BAR2 byte offset `ofs` goes through only to offset +7 of a cell (R303).
DESIGN CHOICE: log 101, 109. -/
def combHostWrite (ofs : Nat) (v : Half) (s : State) : State :=
  let p := ofs / 2
  if combHas s p && p % 1024 < 864 && p % 1024 % 72 == 7 then { s with csv := { s.csv with comb := kvSet s.csv.comb p v } }
  else csvRegs_ (fun q => incF q F.CSV_STAT_host_wr_ign 1) s

/-- A 16-bit read of the comb at a BAR2 byte offset. -/
def combRead (s : State) (ofs : Nat) : Half := if combHas s (ofs / 2) then kvGet s.csv.comb (ofs / 2) else 0

/-! ## Nodes of cell supervision -/

/-- A value of limit set `i` in force, unsigned, signed. -/
def limN (s : State) (f : Nat → Fld) (i : Nat) : Nat := getF s.csv.r (f i)
def limI (s : State) (f : Nat → Fld) (i : Nat) : Int := getFI s.csv.r (f i)

/-- The magnitude of an integer. -/
def iabs (x : Int) : Nat := x.natAbs

/-! ## Sense wires (R292, R293) -/

/-- Wire `k` is suspect: `sus_hi` of the cell below it, `sus_lo` of the cell above it, point 876 (R292, R301). -/
def markSuspect (r a k : Nat) (s : State) : State :=
  let s := if 0 < k then put4 r a (k - 1) 0x40 0 s else s
  putMapPt r a 876 k true (put4 r a k 0x20 0 s)

/-- A wire test starts (R293): WIRE_TEST goes out. -/
def wireStart (r a : Nat) (mask : BitVec 13) (tp : Nat) (s : State) : State :=
  let test : WireTest := { node := a, mask := mask, tp := tp }
  let s := modCsvRing r (fun x => { x with test := some test }) s
  let s := csvRegs_ (fun q => setF (setF (setF q F.CSV_WIRE_STAT_ring r) F.CSV_WIRE_STAT_node a) F.CSV_WIRE_STAT_result 0) s
  wagUni false 0x13 a [mask.setWidth 16, BitVec.ofNat 16 tp] .wire r s

/-- A finding waits for its automatic test, or starts it (R293): one test per ring at a time. DEDUCED: log 74. -/
def autoTest (r : Nat) (s : State) : State :=
  let x := vget s.csv.ring r {}
  match x.test, x.auto with
  | none, (a, k) :: t =>
    let s := modCsvRing r (fun x => { x with auto := t }) s
    if (nodeAt (ringOf s r) a).serve.isSome then wireStart r a (1 <<< k) 10 s else s
  | _, _ => s

/-- A suspect finding (R292). DEDUCED: log 73. -/
def suspectFound (r a k : Nat) (s : State) : State :=
  if (combN s r a 876).testBit k then s
  else
    let s := raise 17 r a (csvRegs_ (fun q => incF q F.CSV_CNT_wire_cnt 1) (markSuspect r a k s))
    if flag s.csv.r F.CSV_CFG_auto_wire then autoTest r (modCsvRing r (fun x => { x with auto := x.auto ++ [(a, k)] }) s) else s

/-- The suspect wires of a sweep, from the changes of the cells and of the stack (R292). -/
def suspects (dv : List Int) (dst : Int) (thr tol : Nat) (sumOk : Bool) : List Nat :=
  let N := dv.length
  let e := dv.map fun d => (N : Int) * d - dv.sum         -- e_j times N
  let big := fun (j : Nat) => decide (thr * N < iabs (e.getD j 0))
  let inner := (List.range N).filter fun k => sumOk && decide (0 < k) && big (k - 1) && big k &&
    decide (e.getD (k - 1) 0 * e.getD k 0 < 0) && decide (iabs (e.getD (k - 1) 0 + e.getD k 0) ≤ tol * N)
  let bigs := (List.range N).filter big
  let moved := fun (j : Nat) => decide (iabs (dst - dv.getD j 0) ≤ tol)
  inner ++ (if bigs == [0] && moved 0 then [0] else []) ++ (if bigs == [N - 1] && moved (N - 1) then [N] else [])

/-! ## Headroom (R297) -/

/-- The bound of the balancing error, in units of 100 µV (R288). DEDUCED: log 72. -/
def eBal (s : State) (r a : Nat) : Nat :=
  let d := descOf (nodeAt (ringOf s r) a)
  (2 * min (descF d 96 16) (limN s F.CSV_LIMn_5_bal_max (nodeSet s r a)) * descF d 80 16 + 50) / 100

/-- The sensor that covers a cell (R278). -/
def coverOf (d : BitVec 256) (c : Nat) : Nat :=
  ((List.range (descF d 240 2 + 1)).filter fun k => descF d (64 + 4 * k) 4 ≤ c).foldl max 0

/-- A cell beyond a soft, beyond a hard limit (R294), with its voltage and its temperature where its sensor was read.
DEDUCED: log 71. -/
def beyondLimits (s : State) (set v : Nat) (t : Option Int) : Bool × Bool :=
  let hard := decide (limN s F.CSV_LIMn_0_v_hi_hard set < v) || decide (v < limN s F.CSV_LIMn_1_v_lo_hard set) ||
    (match t with
      | some t => decide (limI s F.CSV_LIMn_2_t_hi_hard set < t) || decide (t < limI s F.CSV_LIMn_3_t_lo_hard set)
      | none => false)
  let soft := decide (limN s F.CSV_LIMn_0_v_hi_soft set < v) || decide (v < limN s F.CSV_LIMn_1_v_lo_soft set) ||
    (match t with
      | some t => decide (limI s F.CSV_LIMn_2_t_hi_soft set < t) || decide (t < limI s F.CSV_LIMn_3_t_lo_soft set)
      | none => false)
  (soft || hard, hard)

/-- The inner wires of a cell that are suspect or open. DEDUCED: log 72. -/
def badInner (s : State) (r a N c : Nat) : List Nat :=
  let m := combN s r a 875 ||| combN s r a 876
  [c, c + 1].filter fun k => 0 < k && k < N && m.testBit k

/-- The headroom of cell `c` (R297); none: not computed. `bad`: the node's sweep failed a check. DEDUCED: log 72. -/
def headroomOf (s : State) (r a N c : Nat) (v : Nat → Nat) (vf : Int) (bad bal : Bool) : Option (Int × Int) :=
  let set := nodeSet s r a
  let lo : Int := limN s F.CSV_LIMn_1_v_lo_soft set
  let hi : Int := limN s F.CSV_LIMn_0_v_hi_soft set
  let m : Int := getF s.csv.r F.CSV_CFG_pair_margin
  let e : Int := if bal then eBal s r a else 0
  let opn := combN s r a 875
  if bad || (c == 0 && opn.testBit 0) || (c + 1 == N && opn.testBit N) then none
  else
    let ps := (badInner s r a N c).map fun k => (((v (k - 1) + v k + 1) / 2 : Nat) : Int)
    match ps with
    | [] => some (vf - lo - e, hi - vf - e)
    | p :: t => some (t.foldl min p - lo - m, hi - t.foldl max p - m)

/-! ## Figures (R298) -/

/-- A figure of bank `b` in one direction, with the free values where no cell gave a headroom. -/
def mkFigure (b lap : Nat) (chg valid : Bool) (best : Option (Int × Nat × Nat)) (t : Option Int) (s : State) : Figure × State :=
  let (w, s) := match best, t with
    | some _, some _ => (0, s)
    | _, _ => drawFree s
  let h := best.getD ((w.extractLsb' 0 8).toInt, (w.extractLsb' 8 8).toNat, (w.extractLsb' 16 4).toNat)
  let f : Figure := { bank := b, chg := chg, h := clampI (-32768) 32767 h.1, t := t.getD (w.extractLsb' 20 12).toInt, lap := lap % 256,
                      valid := valid, node := h.2.1, cell := h.2.2 }
  (f, s)

/-- The smallest headroom of a direction over a ring, with the cell that set it: the lower address, then the lower cell.
DEDUCED: log 72. -/
def bestOf (s : State) (r : Nat) (chg : Bool) : Option (Int × Nat × Nat) :=
  let cells := (List.range (ringRec s r).nodes).flatMap fun a =>
    let n := csvNode s r a
    if n.got then (n.hr.mapIdx fun c h => (a, c, h)) else []
  cells.foldl (fun best x =>
    match x.2.2 with
    | none => best
    | some h =>
      let v := if chg then h.2 else h.1
      match best with
      | none => some (v, x.1, x.2.1)
      | some y => if v < y.1 then some (v, x.1, x.2.1) else best) none

/-- The highest temperature point of the nodes of a ring, over the sensors that have been read. DEDUCED: log 72. -/
def topTemp (s : State) (r : Nat) : Option Int :=
  let ts := (List.range (ringRec s r).nodes).flatMap fun a =>
    ((List.range 4).filter fun k => (csvNode s r a).tsRead.getLsbD k).map fun k => (combGet s r a (868 + k)).toInt
  match ts with
  | [] => none
  | x :: t => some (t.foldl max x)

/-- The figures of a bank go to queue 7 (R298). -/
def sendFigures (r b : Nat) (all : Bool) (s : State) : State :=
  let ok := (List.range (ringRec s r).nodes).all fun a => (csvNode s r a).got && (csvNode s r a).hr.all (·.isSome)
  let valid := all && ok
  let t := topTemp s r
  let (d, s) := mkFigure b s.tbs.lap false valid (bestOf s r false) t s
  let (c, s) := mkFigure b s.tbs.lap true valid (bestOf s r true) t s
  let put := fun (q : RegFile) (ofs : Nat) (f : Figure) => kvSet q ofs (BitVec.ofInt 16 f.t ++ BitVec.ofInt 16 f.h)
  let src := c.valid.toNat * 2 ^ 31 + c.cell * 2 ^ 24 + c.node * 65536 + d.valid.toNat * 32768 + d.cell * 256 + d.node
  let s := csvRegs_ (fun q =>
    let q := put (put q (R.CSV_HRn_DIS b) d) (R.CSV_HRn_CHG b) c
    let q := kvSet q (R.CSV_HRn_SRC b) (BitVec.ofNat 32 src)
    if valid then q else setFlag q F.CSV_STAT_hr_invalid) s
  q7Put c (q7Put d (modCsvRing r (fun x => { x with sent := true }) s))

/-- The figures go when the last node of the ring has delivered its run (R298). -/
def figuresDue (r : Nat) (s : State) : State :=
  match ringBank s.img.str r with
  | none => s
  | some b =>
    if !(vget s.csv.ring r {}).sent && (List.range (ringRec s r).nodes).all fun a => (csvNode s r a).got then sendFigures r b true s
    else s

/-- HEADROOM_DEADLINE: the figures of a bank with missing runs go at stride L − 2, with valid 0 (R298). -/
def headroomDeadline (b : Nat) (s : State) : State :=
  let r := (s.img.str.banks.getD b {}).ring
  if !strides s || !(usedBanks s.img.str).contains b || 24 ≤ r || strideInLap s + 2 ≠ lapLen s || (vget s.csv.ring r {}).sent then s
  else sendFigures r b false s

/-! ## Sweep runs (R289) -/

/-- One cell of a sweep run, of this lap where `here` says so: limits, filter, points +1 to +6, headroom (R288, R294, R297, R300,
R301). -/
def sweepCell (r a N : Nat) (v : Nat → Nat) (total mask : Nat) (flags : Nat) (bad bal here : Bool) (s : State) (c : Nat) : State :=
  let n := nodeAt (ringOf s r) a
  let k := coverOf (descOf n) c
  let read := (csvNode s r a).tsRead.getLsbD k
  let t := (combGet s r a (868 + k)).toInt
  let set := nodeSet s r a
  let (soft, hard) := beyondLimits s set (v c) (if read then some t else none)
  let aff := bal && (mask.testBit c || mask.testBit (c + 1) || (0 < c && mask.testBit (c - 1)))
  let s := if soft then raise 19 r a (csvRegs_ (fun q => incF q F.CSV_CNT_lim_cnt 1) s) else s
  let s := if hard then raise 20 r a (csvRegs_ (fun q => incF q F.CSV_CNT_lim_cnt 1) s) else s
  let s := if hard && !n.hardLap then raise 10 r a s else s
  let cn := csvNode s r a
  let old : Int := combN s r a (72 * c + 1)
  let vf : Int := if cn.vfSet.getLsbD c then old + rround (((v c : Int) - old : Int) / (2 ^ getF s.csv.r F.CSV_CFG_fshift : Nat)) else v c
  let h := headroomOf s r a N c v vf bad aff
  let pair := h.isSome && !(badInner s r a N c).isEmpty
  let s := if h.isSome then
      modCsv r a (fun x => { x with vfSet := x.vfSet ||| (1 <<< c) }) (combPut r a (72 * c + 1) (BitVec.ofInt 16 vf) s)
    else s
  let s := if read then combPut r a (72 * c + 2) (BitVec.ofInt 16 t) s else s
  let s := combPutN r a (72 * c + 3) (balPoint (cn.mask.getLsbD c) (mask.testBit c) cn.laps) s
  let keep := combN s r a (72 * c + 4) &&& 0x0FE0
  let s := combPutN r a (72 * c + 4) (keep + flags + aff.toNat * 16 + soft.toNat * 4096 + hard.toNat * 8192 + pair.toNat * 16384) s
  let s := combPut r a (72 * c + 5) (BitVec.ofInt 16 (rround ((((N * v c : Nat) : Int) - total : Int) / (N : Rat)))) s
  let s := if soft then combPutN r a (72 * c + 6) (min 65535 (combN s r a (72 * c + 6) + 1)) s else s
  if here then modCsv r a (fun x => { x with hr := x.hr ++ [h] }) s else s

/-- A sweep run whose baton has the tag `tag` is checked and written (R289); one that comes in after its lap's boundary belongs to the
lap before (R297, R302). -/
def sweepRun (r a tag : Nat) (ws : List Half) (s : State) : State :=
  let here : Bool := decide ((strideTag s + 256 - tag) % 256 ≤ strideInLap s)
  let n := nodeAt (ringOf s r) a
  let N := n.cells
  let d := descOf n
  let w := fun (i : Nat) => (ws.getD i 0).toNat
  let st := w 0
  let k := st / 4096 % 4
  let v := fun (c : Nat) => w (c + 1)
  let set := nodeSet s r a
  let cells := List.range N
  let dv := cells.map fun c => (v c : Int) - combN s r a (72 * c)
  let dst : Int := 10 * ((w (N + 1) : Int) - combN s r a 864)
  let prev := (csvNode s r a).prev
  let s := combPutN r a 867 st s
  let s := cells.foldl (fun s c => combPutN r a (72 * c) (v c) s) s
  let s := combPutN r a (868 + k) (w (N + 3)) (combPutN r a 866 (w (N + 2)) (combPutN r a 864 (w (N + 1)) s))
  let total := (cells.map v).sum
  let sumFail := decide (limN s F.CSV_LIMn_4_sum_tol set < iabs ((total : Int) - 10 * w (N + 1)))
  let refFail := decide (limN s F.CSV_LIMn_5_ref_tol set < iabs ((w (N + 2) : Int) - descF d 112 16))
  let unal := (ws.getD 0 0).getLsbD 15
  let bal := (ws.getD 0 0).getLsbD 14
  let mask := st % 4096
  let s := if sumFail then raise 15 r a (csvRegs_ (fun q => incF q F.CSV_CNT_sum_fail_cnt 1) s) else s
  let s := if refFail then raise 16 r a (csvRegs_ (fun q => incF q F.CSV_CNT_ref_fail_cnt 1) s) else s
  let take := fun (x : CsvNode) =>
    { x with tsRead := (x.tsRead ||| (1 <<< k)), prev := !unal, got := (x.got || here), hr := (if here then [] else x.hr) }
  let s := modCsv r a take s
  let s := if prev then
      (suspects dv dst (limN s F.CSV_LIMn_4_wire_thr set) (limN s F.CSV_LIMn_4_sum_tol set) (!sumFail)).foldl
        (fun s i => suspectFound r a i s) s
    else s
  let flags := 1 + sumFail.toNat * 2 + refFail.toNat * 4 + unal.toNat * 8
  let s := cells.foldl (sweepCell r a N v total mask flags (sumFail || refFail || unal) bal here) s
  let hardCell := cells.any fun c => (combN s r a (72 * c + 4)).testBit 13
  let run := match (vget s.csv.ring r {}).test with
    | some t => decide (t.node = a)
    | none => false
  let cn := csvNode s r a
  let s := combPutN r a 865 ((total + 5) / 10) s
  let s := combPutN r a 872 (sumFail.toNat + refFail.toNat * 2 + unal.toNat * 4 + bal.toNat * 8 + run.toNat * 16 + n.hardLap.toNat * 32 +
    (hardCell && !n.hardLap).toNat * 64) s
  let s := combPutN r a 874 cn.mask.toNat s
  let s := combPutN r a 877 0 s
  let s := combPutN r a 873 ((s.tbs.lap - (!here).toNat) % 65536) s
  figuresDue r (wireAsk r s)

/-- Words leave queue 4. -/
def drop4 (r n : Nat) (s : State) : State := modRing r (fun x => { x with q4 := x.q4.drop n }) s

/-- SWEEP_RUN_CHECK: the run at the head of queue 4 (R289); a diagnostic run is another command's. -/
def sweepRunCheck (r : Nat) (s : State) : State :=
  match (ringOf s r).q4 with
  | [] => s
  | h :: _ =>
    if h.flags / 4 % 2 = 1 then s
    else
      let n := (nodeAt (ringOf s r) h.node).cells + 4
      sweepRun r h.node h.tag (((ringOf s r).q4.take n).map (·.val)) (drop4 r n s)

/-! ## Wire tests (R293) -/

/-- What the test says of wire `k`: open, passed, or neither. -/
def judgeWire (N thr : Nat) (D : Nat → Int) (k : Nat) : Option Bool :=
  let t : Int := thr
  if k = 0 then if D 0 < -t then some true else if iabs (D 0) ≤ thr then some false else none
  else if k = N then if D (N - 1) < -t then some true else if iabs (D (N - 1)) ≤ thr then some false else none
  else if D (k - 1) < -t && t < D k then some true
  else if iabs (D (k - 1)) ≤ thr && iabs (D k) ≤ thr then some false
  else none

/-- The marks of one judged wire. DEDUCED: log 74. -/
def applyWire (r a : Nat) (res : Nat → Option Bool) (s : State) (k : Nat) : State :=
  let s := wireMark r a (res k) k s
  if res k = some true then raise 18 r a s else s

/-- A wire test ends with its result (R293). -/
def wireDone (r a result : Nat) (s : State) : State :=
  let s := modRing r (fun x => { x with reqs := x.reqs.filter fun q => !(q.g.kind == 2 && q.g.node == a) }) s
  let s := modCsvRing r (fun x => { x with test := none }) s
  let s := csvRegs_ (fun q =>
    setF (setF (setFlag (setF q F.CSV_WIRE_STAT_result result) F.CSV_WIRE_STAT_done) F.CSV_WIRE_STAT_ring r) F.CSV_WIRE_STAT_node a) s
  autoTest r (irq 6 s)

/-- DIAG_RUN_JUDGE: the diagnostic run at the head of queue 4 against the sweep of the same lap (R293). -/
def diagRunJudge (r : Nat) (s : State) : State :=
  match (ringOf s r).q4 with
  | [] => s
  | h :: _ =>
    if h.flags / 4 % 2 = 0 then s
    else
      let N := (nodeAt (ringOf s r) h.node).cells
      let ws := ((ringOf s r).q4.take (N + 1)).map (·.val)
      let s := drop4 r (N + 1) s
      match (vget s.csv.ring r {}).test with
      | none => s
      | some t =>
        if t.node ≠ h.node || !t.asked then s
        else
          let D := fun (j : Nat) => ((ws.getD (j + 1) 0).toNat : Int) - combN s r h.node (72 * j)
          let thr := limN s F.CSV_LIMn_4_wire_thr (nodeSet s r h.node)
          let ks := (bitsOf t.mask).filter (· ≤ N)
          let res := judgeWire N thr D
          let opened := ks.any fun k => res k == some true
          let passed := ks.all fun k => res k == some false
          if !opened && !passed && t.runs = 0 then wireIndet r s
          else wireDone r h.node (if opened then 2 else if passed then 1 else 3) (ks.foldl (applyWire r h.node res) s)

/-- A mask names two adjacent wires. DEDUCED: log 75. -/
def adjacent (m : Nat) : Bool := (m &&& (m / 2)) != 0

/-- WIRE_TEST_CMD: a write of `CSV_WIRE_CMD` (R293). DEDUCED: log 75. -/
def wireTestCmd (val : Word) (s : State) : State :=
  let r := getF s.csv.r F.CSV_SEL_ring
  let a := getF s.csv.r F.CSV_SEL_node
  let tp := val.toNat / 65536 % 256
  let mask := val.toNat % 8192
  if !val.getLsbD 31 then s
  else if tp = 0 || adjacent mask then cfgErr 10 s
  else if 24 ≤ r || ringState s r != 6 || (vget s.csv.ring r {}).test.isSome || (nodeAt (ringOf s r) a).serve.isNone then
    irq 6 (csvRegs_ (fun q => setFlag (setFlag q F.CSV_WIRE_STAT_refused) F.CSV_STAT_cmd_refused) s)
  else wireStart r a (BitVec.ofNat 13 mask) tp s

/-- The second run of an indeterminate test goes out, with the same mask and time (R293). DEDUCED: log 74. -/
def wireAgain (r : Nat) (s : State) : State :=
  match (vget s.csv.ring r {}).test with
  | none => autoTest r s
  | some t =>
    if !t.again then s
    else
      let s := modCsvRing r (fun x => { x with test := some { t with again := false } }) s
      wagUni false 0x13 t.node [t.mask.setWidth 16, BitVec.ofNat 16 t.tp] .wire r s

/-- Wire tests at a lap boundary: a test without its run is indeterminate; a second run goes out (R293). DEDUCED: log 74. -/
def wireLap (r : Nat) (s : State) : State :=
  match (vget s.csv.ring r {}).test with
  | none => autoTest r s
  | some t => wireAgain r (if !t.again && t.going && t.lap < s.tbs.lap then wireIndet r s else s)

/-! ## Balancing (R287, R338) -/

/-- The estimated balancing power of ring `r` in units of 100 mW, rounded up, with node `a` commanded `mask` where given
(R287). DEDUCED: log 75. -/
def balEst (s : State) (r : Nat) (cmd : Option (Nat × BitVec 12)) : Nat :=
  let one := fun (a : Nat) =>
    let n := csvNode s r a
    let m := match cmd with
      | some c => if c.1 = a then c.2 else if n.laps = 0 then 0 else n.mask
      | none => if n.laps = 0 then 0 else n.mask
    if m = 0 then 0
    else
      let i := min (descF (descOf (nodeAt (ringOf s r) a)) 96 16) (limN s F.CSV_LIMn_5_bal_max (nodeSet s r a))
      ((bitsOf m).map fun c => combN s r a (72 * c) * i).sum
  (((List.range (ringRec s r).nodes).map one).sum + 999999) / 1000000

/-- The balancing grant of a ring (R338). -/
def balGrant (s : State) (r : Nat) : Nat := getF s.bgt.r (F.BGT_BAL_GRANTr_grant r)

/-- BAL_CMD: a write of `CSV_BAL_CMD` (R287). DEDUCED: log 75. -/
def balCmd (val : Word) (s : State) : State :=
  let r := getF s.csv.r F.CSV_SEL_ring
  let a := getF s.csv.r F.CSV_SEL_node
  let mask := BitVec.ofNat 12 val.toNat
  let laps := val.toNat / 65536
  if !val.getLsbD 12 then s
  else if 24 ≤ r || ringState s r != 6 then balRefuse 4 s
  else if s.csv.bal.isSome then balRefuse 0 s
  else if balGrant s r < balEst s r (some (a, if laps = 0 then 0 else mask)) then balRefuse 1 s
  else if (nodeAt (ringOf s r) a).serve.isNone then balRefuse 3 s
  else
    let op : BalOp := { ring := r, node := a, laps := laps, mask := mask }
    let s := { s with csv := { s.csv with bal := some op } }
    wagUni false 0x12 a [mask.setWidth 16, BitVec.ofNat 16 laps] .bal r s

/-- Stop the balancing of the ring's nodes, highest address first, until the estimate fits (R287). -/
def balStops (r : Nat) (s : State) : State :=
  ((List.range 256).reverse).foldl (fun s a =>
    let n := csvNode s r a
    if n.laps = 0 || n.mask = 0 || balEst s r none ≤ balGrant s r then s
    else
      let s := balShow r a 0 0 s
      balRefuse 1 (wagUni false 0x12 a [0, 0] .balStop r s)) s

/-- The grants of a lap (R338). -/
def balGrants (s : State) : State :=
  let rings := mapRings s
  let per := getF s.bgt.r F.BGT_BAL_CFG_bal_mw_ring
  let total := getF s.bgt.r F.BGT_BAL_TOTAL_bal_mw_total
  let want := fun (r : Nat) => min (balEst s r none) per
  let sum := (rings.map want).sum
  let step := fun (a : State × Nat) (r : Nat) =>
    let g := if total = 0 then per else if sum ≤ total then min per (want r + (total - sum) / rings.length) else min (want r) a.2
    let bgt := { a.1.bgt with r := setF a.1.bgt.r (F.BGT_BAL_GRANTr_grant r) g }
    ({ a.1 with bgt := bgt }, a.2 - g)
  let s := (rings.foldl step (s, total)).1
  rings.foldl (fun s r => balStops r s) s

/-! ## Laps -/

/-- A claimed node at the end of a lap: without a run its cells read `miss`, point 877 counts (R301, R302). DEDUCED: log 106. -/
def csvNodeLap (r : Nat) (s : State) (a : Nat) : State :=
  let n := csvNode s r a
  let N := (nodeAt (ringOf s r) a).cells
  let s := if n.got then s
    else
      let s := foldN N (fun s c => put4 r a c 0x8000 0 s) s
      combPutN r a 877 (min 65535 (combN s r a 877 + 1)) s
  modCsv r a (fun x => { x with got := false, hr := [], laps := x.laps - 1 }) s

/-- Cell supervision at a lap boundary; grants are made on the ring. -/
def csvLap (s : State) (r : Nat) : State :=
  let s := if ringState s r < 3 then s else (claimedNodes (ringOf s r)).foldl (csvNodeLap r) s
  wireLap r (modCsvRing r (fun x => { x with sent := false }) s)

/-! ## Limit sets and live fields (R281, R295) -/

/-- The order of R70 within the sets of a captured register file. -/
def csvJudge (im : Img) (r : RegFile) : Nat :=
  let bad := fun (i : Nat) =>
    let n := fun (f : Nat → Fld) => getF r (f i)
    let t := fun (f : Nat → Fld) => getFI r (f i)
    !(n F.CSV_LIMn_1_v_lo_hard < n F.CSV_LIMn_1_v_lo_soft && n F.CSV_LIMn_1_v_lo_soft < n F.CSV_LIMn_0_v_hi_soft &&
      n F.CSV_LIMn_0_v_hi_soft < n F.CSV_LIMn_0_v_hi_hard &&
      decide (t F.CSV_LIMn_3_t_lo_hard < t F.CSV_LIMn_3_t_lo_soft) && decide (t F.CSV_LIMn_3_t_lo_soft < t F.CSV_LIMn_2_t_hi_soft) &&
      decide (t F.CSV_LIMn_2_t_hi_soft < t F.CSV_LIMn_2_t_hi_hard))
  if (List.range im.sets.length).any bad then 2 else 0

/-- Set `i` differs between two register files. -/
def setDiffers (a b : RegFile) (i : Nat) : Bool :=
  (List.range 6).any fun k => kvGet a (0x100 + 32 * i + 4 * k) != kvGet b (0x100 + 32 * i + 4 * k)

/-- An accepted `CSV_COMMIT`: the sets that change go to the rings that use them, in TIMING with all the others (R281, R295). -/
def csvApply (r : RegFile) (s : State) : State :=
  let changed := (List.range s.img.str.sets.length).filter (setDiffers s.csv.r r)
  let s := csvRegs_ (fun _ => r) s
  (mapRings s).foldl (fun s k =>
    if ringState s k = 5 ∧ changed.any (ringSets s k).contains then modRing k (fun x => { x with limSent := false }) s
    else if ringState s k ≠ 6 then s
    else (changed.filter fun i => (ringSets s k).contains i).foldl (fun s i => sendLimits k i s) s) s

/-- Live fields of CSV take effect; a change of a ring's quiet bit sends CONFIG and LIMITS again (R8, R281). -/
def csvPut (r : RegFile) (s : State) : State :=
  let old := kvGet s.csv.r R.CSV_QUIET_DIS
  let new := kvGet r R.CSV_QUIET_DIS
  let s := csvRegs_ (fun _ => r) s
  ((mapRings s).filter fun k => old.getLsbD k != new.getLsbD k).foldl (fun s k => resendConfig k s) s

/-- The live fields that wait take effect at a boundary. -/
def csvLive (s : State) : State :=
  if s.csv.live.isEmpty then s
  else
    let r := overlay s.csv.r s.csv.live
    csvPut r { s with csv := { s.csv with live := [] } }

/-- QUIET_DIS_WRITE: a write of `CSV_QUIET_DIS` (R8, R281). -/
def quietDisWrite (val : Word) (s : State) : State :=
  let p : Pend := { ofs := R.CSV_QUIET_DIS, lo := 0, width := 24, val := val.toNat % 2 ^ 24 }
  if strides s then { s with csv := { s.csv with live := s.csv.live ++ [p] } } else csvPut (overlay s.csv.r [p]) s

/-- The build loads the limit sets from POINTMAP and clears the comb (R85, R304). -/
def buildCsv (im : Img) (s : State) : State :=
  let put := fun (q : RegFile) (i : Nat) =>
    let x := im.sets.getD i {}
    let w := fun (a b : Int) => BitVec.ofInt 16 a ++ BitVec.ofInt 16 b
    let ws := [w x.vHiHard x.vHiSoft, w x.vLoSoft x.vLoHard, w x.tHiHard x.tHiSoft, w x.tLoSoft x.tLoHard, w x.sumTol x.wireThr,
               w x.refTol x.balMax]
    foldN 6 (fun q k => kvSet q (0x100 + 32 * i + 4 * k) (ws.getD k 0)) q
  let csv := { s.csv with r := foldN 16 put s.csv.r, comb := [], ring := Vector.replicate 24 {}, bal := none, st := {}, live := [] }
  { s with csv := csv }

/-- A CSV register that shows state. -/
def csvView (s : State) (ofs : Nat) : Option Word :=
  if ofs = R.CSV_WIRE_STAT then
    some (kvGet s.csv.r ofs ||| if (List.range 24).any fun r => (vget s.csv.ring r {}).test.isSome then 1 else 0)
  else if ofs = R.CSV_BAL_STAT then some (kvGet s.csv.r ofs ||| if s.csv.bal.isSome then 1 else 0)
  else if ofs = R.CSV_BAL_PWR then
    let r := getF s.csv.r F.CSV_SEL_ring
    if 24 ≤ r then some 0 else some (BitVec.ofNat 16 (balGrant s r) ++ BitVec.ofNat 16 (min 65535 (balEst s r none)))
  else none

/-! ## Commands -/

/-- SWEEP_RUN_CHECK. -/
def execSweepRunCheck (ring : Fin 24) (s : State) : Host.Outcome State Fault Refusal := .next (sweepRunCheck ring s)
/-- HEADROOM_DEADLINE. -/
def execHeadroomDeadline (bank : Fin 24) (s : State) : Host.Outcome State Fault Refusal := .next (headroomDeadline bank s)
/-- DIAG_RUN_JUDGE. -/
def execDiagRunJudge (ring : Fin 24) (s : State) : Host.Outcome State Fault Refusal := .next (diagRunJudge ring s)
/-- WIRE_TEST_CMD. -/
def execWireTestCmd (_path : Path) (val : Word) (s : State) : Host.Outcome State Fault Refusal := whenCore (wireTestCmd val) s
/-- BAL_CMD. -/
def execBalCmd (_path : Path) (val : Word) (s : State) : Host.Outcome State Fault Refusal := whenCore (balCmd val) s
/-- QUIET_DIS_WRITE. -/
def execQuietDisWrite (_path : Path) (val : Word) (s : State) : Host.Outcome State Fault Refusal := whenCore (quietDisWrite val) s
/-- COMB_HOST_WRITE. -/
def execCombHostWrite (_path : Path) (ofs : Nat) (val : Half) (s : State) : Host.Outcome State Fault Refusal :=
  whenCore (combHostWrite ofs val) s

end Sys2Proof.Machine
end

