-- ==== Sys2Proof/Machine/Spx.lean ====
section
/-! DEFINITION. In-service impedance spectroscopy (R305 to R324): campaigns, excitation, streams, demodulation, bins. -/
namespace Sys2Proof.Machine

/-! ## Campaign figures -/

/-- A change of the SPX registers. -/
def spxRegs_ (f : RegFile → RegFile) (s : State) : State := { s with spx := { s.spx with r := f s.spx.r } }

/-- Change the campaign that runs. -/
def modCamp (f : Camp → Camp) (s : State) : State := { s with spx := { s.spx with camp := s.spx.camp.map f } }

/-- The bank record of a campaign ring. -/
def spxBank (s : State) (x : SpxRing) : BankRec := s.img.str.banks.getD x.bank {}

/-- The sample index of the stride in progress, where that begins with a sample mark (R306). -/
def sampleAt (c : Camp) : Option Nat := if 0 ≤ c.k ∧ c.k.toNat % c.ps = 0 then some (c.k.toNat / c.ps) else none

/-- The strides of the ramp, k_0 (R309). -/
def rampStrides (c : Camp) : Nat := c.nRamp * c.ps

/-- The origin of window `w` (R306). -/
def winOrigin (c : Camp) (w : Nat) : Nat := c.nRamp + w * c.nInt

/-- The stride of a sample mark, counted from the start mark (R306). -/
def markStride (c : Camp) (n : Nat) : Nat := n * c.ps

/-! ## Excitation (R309) -/

/-- sin of an angle in turns given as a rational number's numerator and denominator, in units of 2^−60. -/
def sinTurn (num : Int) (den : Nat) : Int := (cosSinTurn ((num % (den : Int)).toNat * 2 ^ 64 / den)).2

/-- The envelope of the ramp at the start in stride `k` (R309). -/
def rampUp (c : Camp) (k : Int) : Rat :=
  if k < 0 then 0 else if k < rampStrides c then (k : Rat) / (rampStrides c : Rat) else 1

/-- The envelope g of the stride in progress (R309): a ramp down starts from what g then was (R321). DEDUCED: log 76. -/
def envelope (c : Camp) : Rat :=
  match c.phase with
  | .running => rampUp c c.k
  | .ramping at_ =>
    if rampStrides c ≤ c.k - at_ then 0 else rampUp c at_ * (rampStrides c - (c.k - at_) : Int) / (rampStrides c : Rat)
  | _ => 0

/-- The excitation of bank `b` in the stride in progress, in A (R309). -/
def excitation (s : State) (b : Nat) : Rat :=
  match s.spx.camp with
  | none => 0
  | some c =>
    let g := envelope c
    if g = 0 || !c.mask.getLsbD b || c.rings.any fun x => x.bank == b && x.off then 0
    else
      let k : Int := c.k - rampStrides c
      let T := c.tones.length
      let den := c.nInt * c.ps * 2 * T
      let tone := fun (m : Nat) (t : Tone) =>
        (t.amp : Int) * sinTurn ((t.cyc : Int) * k * 2 * T - (m * (m + 1) * (c.nInt * c.ps) : Nat)) den
      let sum : Int := (c.tones.mapIdx tone).sum
      let v : Rat := g * (sum : Rat) / 100 / (2 ^ 60 : Nat)
      if c.neg.getLsbD b then -v else v

/-- The banks that count as clipped in this stride (R310): the reference was clipped, or the excitation was limited. -/
def clippedBanks (s : State) : BitVec 24 :=
  match s.spx.camp with
  | none => 0
  | some c =>
    ofBits 24 ((bitsOf c.mask).filter fun b =>
      let top := (getF s.plc.r F.PLC_EXC_MAX_exc_max : Rat) / 1000 * iLim s b
      (vget s.plc.banks b {}).excClip || decide (top < ratAbs (excitation s b)))

/-! ## Windows (R306, R319, R322) -/

/-- The samples of the node's grid in its window: every 2^e-th from the start mark, or from the origin it was restarted at (R312,
R313, R322). -/
def gridOf (c : Camp) (n : SpxNode) : List Nat :=
  let m := 2 ^ n.e
  let lo := n.first + (n.origin - n.first + m - 1) / m * m
  (List.range ((n.origin + c.nInt - lo + m - 1) / m)).map fun i => lo + i * m

/-- Count in the ring's SPX counters. -/
def spxCount (f : Fld) (s : State) : State := spxRegs_ (fun q => incF q f 1) s

/-- The node's next window, with its sums at 0. DEDUCED: log 78. -/
def nextWindow (c : Camp) (x : SpxNode) : SpxNode :=
  { x with win := x.win + 1, origin := winOrigin c (x.win + 1), seen := 0, excl := 0, lastEx := none,
           used := [], sums := [], runs := [], asked := false }

/-- Where the register file keeps what `SPX_NODE_STAT` shows of a node: behind the block's window. -/
def statAt (r a : Nat) : Nat := 0x10000 + 4 * (256 * r + a)

/-- The status of a node's last window; `resync` stays until it is cleared. -/
def putStat (r a v : Nat) (s : State) : State :=
  spxRegs_ (fun q => kvSet q (statAt r a) (BitVec.ofNat 32 v ||| (kvGet q (statAt r a) &&& 0x20))) s

/-- The status of an ended window without its flags (R319). -/
def winStat (excl win : Nat) : Nat := min 65535 excl * 65536 + win % 256 * 256

/-! ## The reference (R314, R315) -/

/-- The reference input of node `a`, and what its result is divided by. -/
def refOf (s : State) (x : SpxRing) (a : Nat) : Nat × Nat :=
  let b := spxBank s x
  if b.strAin = 255 then (b.iAin, b.strings)
  else (b.strAin + 8 * (a * b.strings / (ringRec s x.ring).nodes), 1)

/-- The inputs whose results a campaign ring needs. -/
def refInputs (s : State) (x : SpxRing) : List Nat :=
  let b := spxBank s x
  if b.strAin = 255 then [b.iAin] else (List.range b.strings).map fun i => b.strAin + 8 * i

/-- The reference result of the stride in progress: none where it is missing or flagged (R319). -/
def refNow (s : State) (ain : Nat) : Option Int :=
  let x := vget s.acq.chans ain {}
  let flags := getF s.acq.r (F.ACQ_CHn_STAT_flags ain)
  if x.resAt == some (strideCnt s) && flags &&& 0x17 == 0 then some (kvGet s.acq.r (R.ACQ_CHn_RES ain)).toInt else none

/-- At the end of a stride that began with a sample mark the reference results pair with its sample (R314). -/
def spxCollect (s : State) : State :=
  match s.spx.camp with
  | none => s
  | some c =>
    match sampleAt c with
    | none => s
    | some n =>
      let ains := (c.rings.flatMap (refInputs s)).eraseDups
      modCamp (fun c => { c with refs := ains.map (fun a => (n, a, refNow s a)) ++ c.refs }) s

/-- The reference value of sample `n` for an input. -/
def refAt (c : Camp) (n ain : Nat) : Option Int :=
  (c.refs.find? fun x => x.1 == n && x.2.1 == ain).bind fun x => x.2.2

/-- The bank counts as clipped for sample `n`: in the stride of its mark or in the stride before (R319). DEDUCED: log 78. -/
def clippedAt (c : Camp) (bank n : Nat) : Bool :=
  c.clip.any fun x => (x.1 == (markStride c n : Int) || x.1 + 1 == (markStride c n : Int)) && x.2.getLsbD bank

/-! ## Windows that end incomplete (R313, R319, R321, R322) -/

/-- The exclusions of a node's window so far (R319): those the lanes made, and the sets of the grid that were lost; under node
demodulation those the hub would have made. DEDUCED: log 78. -/
def exclOf (s : State) (c : Camp) (x : SpxRing) (a : Nat) : Nat :=
  let n := x.nodes.getD a {}
  if x.place = 2 then
    (gridOf c n).countP fun i => decide ((markStride c i : Int) < c.k) && ((refAt c i (refOf s x a).1).isNone || clippedAt c x.bank i)
  else
    let held := (ringOf s x.ring).q5.countP fun w => w.node == a && decide (w.idx < 72) && decide (n.origin ≤ w.smp)
    n.excl + ((gridOf c n).countP (· < n.past) - n.seen - held)

/-- A window ends incomplete: bins stay (R319). -/
def endIncomplete (r a : Nat) (s : State) : State :=
  match s.spx.camp with
  | none => s
  | some c =>
    match c.rings.find? fun x => x.ring == r with
    | none => s
    | some x =>
      let st := winStat (exclOf s c x a) (x.nodes.getD a {}).win + 2
      modSpx r a (nextWindow c) (spxCount (F.SPX_RINGr_STAT_inc_cnt r) (putStat r a st s))

/-- How many of a node's windows have begun before the stride in progress and not ended. -/
def windowsOpen (c : Camp) (x : SpxNode) : Nat :=
  if (markStride c x.origin : Int) < c.k then ((c.k - markStride c x.origin).toNat - 1) / (c.nInt * c.ps) + 1 else 0

/-- The node's windows in progress end incomplete. -/
def endOpen (r a : Nat) (s : State) : State :=
  match s.spx.camp with
  | none => s
  | some c => foldN (windowsOpen c ((spxNodeOf s r a).getD {})) (fun s _ => endIncomplete r a s) s

/-- Every window in progress on a ring ends incomplete. -/
def endRing (s : State) (x : SpxRing) : State := foldN x.nodes.length (fun s a => if x.off then s else endOpen x.ring a s) s

/-- Every window in progress ends incomplete. -/
def endAll (s : State) : State :=
  match s.spx.camp with
  | none => s
  | some c => c.rings.foldl endRing s

/-! ## Taking samples (R318) -/

/-- The table entries of a tone at base index `m` (R318). -/
def toneCS (c : Camp) (t : Tone) (m : Nat) : Int × Int :=
  let p := t.cyc * m * 65536 / c.nInt % 65536
  let x := cosSinTurn (p * 2 ^ 48)
  (roundShr (524287 * x.1) 60, roundShr (524287 * x.2) 60)

/-- Add one sample to the sums of a cell. -/
def addSample (c : Camp) (m : Nat) (v i : Int) (l : List LockIn) : List LockIn :=
  c.tones.mapIdx fun k t =>
    let x := l.getD k {}
    let w := toneCS c t m
    { vc := x.vc + v * w.1, vs := x.vs + v * w.2, ic := x.ic + i * w.1, is := x.is + i * w.2 }

/-- Replace entry `i` of a list, extending it. -/
def putAt {α : Type} (d : α) (l : List α) (i : Nat) (x : α) : List α :=
  (if l.length ≤ i then l ++ List.replicate (i + 1 - l.length) d else l).set i x

/-- A stream word of sample `n`, cell `cell`, joins its window (R318, R319). -/
def takeSample (c : Camp) (ref : Option Int) (clip : Bool) (n cell : Nat) (v : Half) (x : SpxNode) : SpxNode :=
  if n < x.origin then x
  else
    let x := if cell = 0 then { x with seen := x.seen + 1 } else x
    match ref with
    | some i =>
      if v = 0x8000 || clip then
        if x.lastEx = some n then x else { x with excl := x.excl + 1, lastEx := some n }
      else
        { x with used := putAt 0 x.used cell (x.used.getD cell 0 + 1),
                 sums := putAt [] x.sums cell (addSample c (n - x.origin) v.toInt i (x.sums.getD cell [])) }
    | none => if x.lastEx = some n then x else { x with excl := x.excl + 1, lastEx := some n }

/-- Words leave queue 5. -/
def drop5 (r n : Nat) (s : State) : State := modRing r (fun x => { x with q5 := x.q5.drop n }) s

/-- STREAM_SAMPLE_TAKE: a lane takes the word at the head of queue 5 (R318); while bins wait for credit, or the word's
window is not judged, it pauses (R16). -/
def streamSampleTake (r : Nat) (s : State) : State :=
  match (ringOf s r).q5 with
  | [] => s
  | w :: _ =>
    if w.idx % 72 ≠ 0 || 864 ≤ w.idx || !s.spx.bins.isEmpty then s
    else
      match s.spx.camp with
      | none => drop5 r 1 s
      | some c =>
        match c.rings.find? fun x => x.ring == r with
        | none => drop5 r 1 s
        | some x =>
          let nd := x.nodes.getD w.node {}
          if nd.origin + c.nInt ≤ w.smp then s
          else
            let ref := refAt c w.smp (refOf s x w.node).1
            let clip := clippedAt c x.bank w.smp
            modSpx r w.node (takeSample c ref clip w.smp (w.idx / 72) w.val) (drop5 r 1 s)

/-- PHASOR_RUN_RECEIVE: a node's phasor run at the head of queue 5 (R317). -/
def phasorRunReceive (r : Nat) (s : State) : State :=
  match (ringOf s r).q5 with
  | [] => s
  | w :: _ =>
    if w.idx < 960 then s
    else
      let n := 2 * (nodeAt (ringOf s r) w.node).cells + 1
      let ws := ((ringOf s r).q5.take n).map (·.val)
      let run : PhasorRun := { rank := w.val.toNat / 8192, x := w.val.toNat / 256 % 32, win := w.val.toNat % 256, vals := ws.drop 1 }
      modSpx r w.node (fun x => if run.win = x.win % 256 then { x with runs := x.runs ++ [run] } else x) (drop5 r n s)

/-! ## Results (R318, R319) -/

/-- A complex number. -/
structure Cx where
  re : Rat := 0
  im : Rat := 0

/-- The reference phasor referred to the mark (R315): from its sums over `M` samples, in A. -/
def refPhasor (s : State) (c : Camp) (ain div : Nat) (t : Tone) (ic is : Int) (M : Nat) : Cx :=
  let k : Rat := 2 / (M : Rat) / 524287 * 500 / 16777216 / (div : Rat)
  let i : Cx := { re := k * ic, im := -(k * is) }
  let ch := chanOf s.acq.r ain
  let seq := laneOf s.acq.r (ain / 8)
  let n := seq.n
  let q := seq.mux.findIdx (· == ain % 8)
  let den := c.nInt * c.ps * strideLen s
  let tau := 4 * n * (chanW ch - 1) + 8 * q
  let th := cosSinTurn (t.cyc * tau % den * 2 ^ 64 / den)
  let co : Rat := (th.1 : Rat) / (2 ^ 60 : Nat)
  let si : Rat := (th.2 : Rat) / (2 ^ 60 : Nat)
  let num := sinTurn ((t.cyc * 8 * n * ch.ratio : Nat)) (2 * den)
  let low := sinTurn ((t.cyc * 8 * n : Nat)) (2 * den)
  let h : Rat := ratAbs ((num : Rat) / ((ch.ratio : Rat) * (low : Rat))) ^ ch.order
  { re := (i.re * co + i.im * si) / h, im := (i.im * co - i.re * si) / h }

/-- −V / I in µΩ, with V in µV; none where I is 0. DEDUCED: log 77. -/
def zOf (v i : Cx) : Option Cx :=
  let d := i.re * i.re + i.im * i.im
  if d = 0 then none else some { re := -(v.re * i.re + v.im * i.im) / d, im := -(v.im * i.re - v.re * i.im) / d }

/-- A code of R318 before saturation. DEDUCED: log 77. -/
def zCode (impK : Nat) (z : Rat) : Int := rround (z * 10 / (2 ^ impK : Nat))

/-- A bin entry of cell `cell`, with whether a code saturated; free codes where I is 0. -/
def binOf (s : State) (r a cell bin impK : Nat) (z : Option Cx) : BinEntry × Bool × State :=
  let put := fun (re im : Half) => ({ re := re, im := im, idx := 72 * cell + 8 + 2 * bin, node := a, ring := r } : BinEntry)
  match z with
  | some z =>
    let x := zCode impK z.re
    let y := zCode impK z.im
    let sat := decide (x < -32767 ∨ 32767 < x ∨ y < -32767 ∨ 32767 < y)
    (put (BitVec.ofInt 16 (clampI (-32767) 32767 x)) (BitVec.ofInt 16 (clampI (-32767) 32767 y)), sat, s)
  | none =>
    let (w, s) := drawFree s
    (put (w.extractLsb' 0 16) (w.extractLsb' 16 16), false, s)

/-- The voltage and current phasors of a cell and tone of a node demodulated in the hub. -/
def hubPhasors (s : State) (c : Camp) (x : SpxRing) (a cell rank : Nat) (t : Tone) : Option Cx :=
  let n := x.nodes.getD a {}
  let M := n.used.getD cell 0
  if M = 0 then none
  else
    let l := (n.sums.getD cell []).getD rank {}
    let k : Rat := 2 / (M : Rat) / 524287
    let ref := refOf s x a
    zOf { re := k * l.vc, im := -(k * l.vs) } (refPhasor s c ref.1 ref.2 t l.ic l.is M)

/-- The same for a node that demodulates itself: V from its run, I from every sample of the grid (R317, R319). -/
def nodePhasors (s : State) (c : Camp) (x : SpxRing) (a cell rank : Nat) (t : Tone) : Option Cx :=
  let n := x.nodes.getD a {}
  match n.runs.find? fun y => y.rank == rank with
  | none => none
  | some run =>
    let ref := refOf s x a
    let got := (gridOf c n).filterMap fun i => (refAt c i ref.1).map fun v => (i, v)
    if got.isEmpty then none
    else
      let add := fun (t2 : Int × Int) (iv : Nat × Int) =>
        let w := toneCS c t (iv.1 - n.origin)
        (t2.1 + iv.2 * w.1, t2.2 + iv.2 * w.2)
      let sums := got.foldl add ((0 : Int), (0 : Int))
      let k : Rat := ((2 ^ run.x : Nat) : Rat) / 1000
      zOf { re := k * (run.vals.getD (2 * cell) 0).toInt, im := k * (run.vals.getD (2 * cell + 1) 0).toInt }
        (refPhasor s c ref.1 ref.2 t sums.1 sums.2 got.length)

/-- A bin's way to queue 6: at once, or when a credit returns (R16). DEDUCED: log 77. -/
def putBin (b : BinEntry) (s : State) : State :=
  let spx := if s.spx.q6.length < 256 then { s.spx with q6 := s.spx.q6 ++ [b] } else { s.spx with bins := s.spx.bins ++ [b] }
  { s with spx := spx }

/-- The window is over: every set of it has arrived or is lost, its words have been taken; under node demodulation its runs
are in, or the next window's time has passed; where the node is out of step, its time has passed. None that a ramp down cuts off is
judged (R321). -/
def windowOver (s : State) (c : Camp) (x : SpxRing) (a : Nat) : Bool :=
  let n := x.nodes.getD a {}
  let stays : Bool := match c.phase with
    | .running => true
    | .ramping at_ => decide ((markStride c (n.origin + c.nInt) : Int) ≤ at_)
    | _ => false
  !x.off && stays && (markStride c (n.origin + c.nInt - 1) < c.k) &&
    (if x.place = 2 then n.asked && (c.tones.length ≤ n.runs.length || markStride c (n.origin + 2 * c.nInt) ≤ c.k)
    else if n.step ≠ .inStep then true
    else (gridOf c n).all (· < n.past) && !(ringOf s x.ring).q5.any fun w => w.node == a && w.smp < n.origin + c.nInt)

/-- WINDOW_END: a node's window is judged, and a complete or partial one writes bins (R319, R320, R322). -/
def windowEnd (r a : Nat) (s : State) : State :=
  match s.spx.camp with
  | none => s
  | some c =>
    match c.rings.find? fun x => x.ring == r with
    | none => s
    | some x =>
      if x.nodes.length ≤ a || !windowOver s c x a then s
      else
        let n := x.nodes.getD a {}
        let excl := exclOf s c x a
        let badRun := x.place == 2 && (n.runs.any (·.x == 31) || decide (n.runs.length < c.tones.length))
        if n.step ≠ .inStep || badRun || c.dropMax < excl then endIncomplete r a s
        else
          let node := nodeAt (ringOf s r) a
          let impK := (ringRec s r).impK
          let skip := fun (t : Tone) => decide (c.nInt < t.cyc * 2 ^ (n.e + 2))
          let jobs := (c.tones.mapIdx fun k t => (k, t)).filter fun kt => !skip kt.2
          let one := fun (acc : State × Bool) (kc : (Nat × Tone) × Nat) =>
            let z := if x.place = 2 then nodePhasors s c x a kc.2 kc.1.1 kc.1.2 else hubPhasors s c x a kc.2 kc.1.1 kc.1.2
            let (b, sat, s) := binOf acc.1 r a kc.2 kc.1.2.bin impK z
            (putBin b s, acc.2 || sat)
          let (s, sat) := (jobs.flatMap fun kt => (List.range node.cells).map fun cell => (kt, cell)).foldl one (s, false)
          let flags := 1 + (decide (0 < excl)).toNat * 4 + sat.toNat * 8 + (c.tones.any skip).toNat * 16
          let s := spxCount (if excl = 0 then F.SPX_RINGr_OK_ok_cnt r else F.SPX_RINGr_OK_part_cnt r) s
          modSpx r a (nextWindow c) (putStat r a (winStat excl n.win + flags) s)

/-- BIN_WRITE: a queue 6 entry goes to the comb, both points at once (R320). -/
def binWrite (s : State) : State :=
  match s.spx.q6 with
  | [] => s
  | b :: t =>
    let s := combPut b.ring b.node (b.idx + 1) b.im (combPut b.ring b.node b.idx b.re s)
    match s.spx.bins with
    | [] => { s with spx := { s.spx with q6 := t } }
    | n :: rest => { s with spx := { s.spx with q6 := t ++ [n], bins := rest } }

/-! ## Starting (R307, R308, R316, R336) -/

/-- The enabled tones, by tone index (R309). -/
def enabledTones (r : RegFile) : List Nat := (List.range 8).filter fun t => flag r (F.SPX_TONEt_CFG_en t)

/-- A tone's registers. -/
def toneOf (r : RegFile) (t : Nat) : Tone :=
  { cyc := getF r (F.SPX_TONEt_CFG_cyc t), amp := getF r (F.SPX_TONEt_AMP_amp t), bin := getF r (F.SPX_TONEt_CFG_bin t) }

/-- A list names something twice. -/
def hasTwice : List Nat → Bool
  | [] => false
  | x :: t => t.contains x || hasTwice t

/-- The stream load of a ring's nodes and strings at `div` d, in MAC per stride (R316). -/
def hubLoad (s : State) (r bank ps T d : Nat) : Rat :=
  let x := ringOf s r
  let cells := ((claimedNodes x).map fun a => (nodeAt x a).cells).sum
  let str := (s.img.str.banks.getD bank {}).strings
  ((cells * 2 * T : Nat) : Rat) / ((ps * 2 ^ d : Nat) : Rat) + ((str * 2 * T : Nat) : Rat) / (ps : Rat)

/-- The capacity of the array with `quads` of its eight quads powered, in MAC per stride (R316, R336). DEDUCED: log 76. -/
def hubCap (s : State) (quads : Nat) : Nat := 8 * quads * strideLen s

/-- The quads that placement may use in this stride (R21). -/
def quadsOn (s : State) : Nat := (bitsOf ((s.bgt.on &&& s.bgt.avail).extractLsb' 24 8)).length

/-- The reservation of a unit, in mA, numbered as `BGT_UNIT_REQ` lays them out (R333). -/
def unitMa (u : Nat) : Nat :=
  if u < 16 then 120 else if u < 22 then 500 else if u = 22 then 200 else if u = 23 then 350 else 300

/-- All eight quads fit the core budget beside what is granted (R334, R336). -/
def quadsFit (s : State) : Bool :=
  let rest := ((bitsOf s.bgt.granted).filter (· < 24)).map unitMa
  decide (3600 + rest.sum + 2400 ≤ getF s.bgt.r F.BGT_CORE_CFG_core_ma) && !s.bgt.isOver &&
    getF s.bgt.r F.BGT_HOST_OFF_off / 2 ^ 24 == 0

/-- The checks of a start (R307): the first code that fails, 0 where none does. -/
def startCheck (s : State) : Nat :=
  let r := s.spx.r
  let ps := getF r F.SPX_CAMP_CFG_ps
  let n := getF r F.SPX_CAMP_INT_n_int
  let banks := bitsOf (BitVec.ofNat 24 (getF r F.SPX_BANK_MASK_mask))
  let rec_ := fun (b : Nat) => s.img.str.banks.getD b {}
  let tones := (enabledTones r).map (toneOf r)
  let den := n * ps * strideLen s
  let amp := (tones.map (·.amp)).sum
  let exc := getF s.plc.r F.PLC_EXC_MAX_exc_max
  let demod := fun (b : Nat) => (ringRec s (rec_ b).ring).demod
  let badStr := fun (b : Nat) =>
    let x := rec_ b
    x.strAin != 255 && ((ringRec s x.ring).nodes % x.strings != 0 ||
      (List.range x.strings).any fun i =>
        let c := vget s.acq.chans (x.strAin + 8 * i) {}
        !c.present || c.slow)
  let badL := fun (b : Nat) => demod b == 1 &&
    (claimedNodes (ringOf s (rec_ b).ring)).any fun a => decide (descF (descOf (nodeAt (ringOf s (rec_ b).ring) a)) 48 8 < tones.length)
  let load := ((banks.filter fun b => demod b == 2).map fun b => hubLoad s (rec_ b).ring b ps tones.length 0).sum
  if opState s ≠ 6 then 1
  else if banks.isEmpty || tones.isEmpty || banks.any fun b => !(usedBanks s.img.str).contains b then 2
  else if banks.any fun b => ringState s (rec_ b).ring != 6 || (vget s.csv.ring (rec_ b).ring {}).test.isSome then 3
  else if ps = 0 || ps * strideLen s < 50000 then 4
  else if n < 1024 || 4194288 < n || n % 16 != 0 then 5
  else if (tones.any fun t => t.cyc == 0 || decide (n < 4 * t.cyc) || decide (t.cyc * 8000000000 < den) || decide (den < t.cyc * 200000)) ||
      hasTwice (tones.map (·.cyc)) || hasTwice (tones.map (·.bin)) then 6
  else if banks.any fun b => decide (exc * getF s.plc.r (F.PLC_BANK_CFGn_i_lim b) < 100 * amp) then 7
  else if banks.any badStr then 8
  else if banks.any badL then 9
  else if decide ((hubCap s 8 : Rat) < load) || ((banks.any fun b => demod b != 1) && !quadsFit s) then 10
  else if s.spx.camp.isSome then 11
  else 0

/-- The ring of a campaign bank. -/
def campRing (s : State) (b : Nat) : SpxRing :=
  let r := (s.img.str.banks.getD b {}).ring
  { ring := r, bank := b, nodes := List.replicate (ringRec s r).nodes {} }

/-- The campaign of the SPX registers. -/
def campOf (s : State) : Camp :=
  let r := s.spx.r
  let ps := getF r F.SPX_CAMP_CFG_ps
  let mask := BitVec.ofNat 24 (getF r F.SPX_BANK_MASK_mask)
  let rings := ((bitsOf mask).map (campRing s)).mergeSort fun a b => decide (a.ring ≤ b.ring)
  { ps := ps, nInt := getF r F.SPX_CAMP_INT_n_int, nRamp := (lapLen s + ps - 1) / ps, dropMax := getF r F.SPX_CAMP_CFG_drop_max,
    nWin := getF r F.SPX_CAMP_CFG_n_win, tones := (enabledTones r).map (toneOf r), mask := mask,
    neg := BitVec.ofNat 24 (getF r F.SPX_BANK_NEG_neg), rings := rings }

/-- Every end of every campaign ring has its downlink free (R308). -/
def downFree (s : State) (c : Camp) : Bool :=
  c.rings.all fun x => (ringOf s x.ring).a.cur.isNone && (ringOf s x.ring).b.cur.isNone

/-- Where the campaign rings are demodulated (R316): 1 the hub, 2 the node. DEDUCED: log 76. -/
def placeRings (s : State) (c : Camp) : List SpxRing :=
  let T := c.tones.length
  let put := fun (acc : List SpxRing × Rat) (x : SpxRing) =>
    let rec_ := ringRec s x.ring
    let ring := ringOf s x.ring
    let hub := hubLoad s x.ring x.bank c.ps T 0
    let lok := (claimedNodes ring).all fun a => (nodeAt ring a).cls == 2 && T ≤ descF (descOf (nodeAt ring a)) 48 8
    let p := planRing s x.ring c.ps 0 fun _ => true
    let node := rec_.demod = 1 ∨ (rec_.demod ≠ 2 ∧ lok ∧ (0 < max p.a.div p.b.div ∨ (hubCap s (quadsOn s) : Rat) < acc.2 + hub))
    if node then (acc.1 ++ [{ x with place := 2 }], acc.2) else (acc.1 ++ [{ x with place := 1 }], acc.2 + hub)
  (c.rings.foldl put ([], 0)).1

/-- Queue a broadcast in front of what waits on both ends. -/
def frontBcast (r : Nat) (ms : List (Nat × List Half)) (use : WagUse) (s : State) : State :=
  let x := ringOf s r
  let msgs := ms.mapIdx fun i m => ({ words := wagWords m.1 0 (x.seq + i) true m.2, use := use } : WagMsg)
  let put := fun (e : PortEnd) (x : RingSt) =>
    if endUp s r e then modEnd e (fun y => { y with todo := msgs ++ y.todo }) x else x
  modRing r (fun x => put .b (put .a { x with seq := (x.seq + ms.length) % 128 })) s

/-- The payload of STREAM (R311). -/
def streamWords (c : Camp) (lead mode : Nat) : List Half :=
  let w := fun (n : Nat) => BitVec.ofNat 16 n
  [w c.ps, w (min 65535 (max 1 lead)), w (mode + c.nRamp * 256), w (c.nInt / 65536), w c.nInt]

/-- Strides from the one in progress to the first lap boundary at least `d` strides on. -/
def lapAfter (s : State) (d : Nat) : Nat := d + (lapLen s - (strideInLap s + d) % lapLen s) % lapLen s

/-- STREAM and TONES leave every end of every campaign ring, their first bits `d` strides on (R308, R311); their `mode` says where
each ring would be demodulated as things stand. DEDUCED: log 76. -/
def campBroadcast (d : Nat) (c : Camp) (s : State) : State :=
  let rings := placeRings s c
  let T := c.tones.length
  let crc := d + 127
  let start := lapAfter s (crc + (if rings.any (·.place == 2) then 16 * (4 + 2 * T) else 0) + 16)
  let tones := BitVec.ofNat 16 T :: c.tones.flatMap fun t => [BitVec.ofNat 16 (t.cyc / 65536), BitVec.ofNat 16 t.cyc]
  let s := { s with spx := { s.spx with camp := some { c with phase := .waiting, k := -(start : Int) } } }
  rings.foldl (fun s x =>
    let stream := (0x20, streamWords c (start - crc) x.place)
    frontBcast x.ring (if x.place = 2 then [stream, (0x21, tones)] else [stream]) .stream s) s

/-- CAMPAIGN_BROADCAST: in the first stride in which every downlink is free (R308); the messages begin with the next
baton. -/
def campaignBroadcast (s : State) : State :=
  match s.spx.camp with
  | some c => if c.phase = .accepted ∧ downFree s c then campBroadcast 1 c s else s
  | none => s

/-- A start waits for the next stride boundary (R307). -/
def campaignStart (s : State) : State := { s with spx := { s.spx with startReq := true } }

/-- A stop waits for the next stride boundary (R321). -/
def campaignStop (s : State) : State :=
  match s.spx.camp with
  | some _ => { s with spx := { s.spx with stopReq := true } }
  | none => s

/-- A start is checked; where it is accepted the messages leave at once if every downlink is free (R307, R308, R336). -/
def startNow (s : State) : State :=
  let s := { s with spx := { s.spx with startReq := false } }
  let code := startCheck s
  if code ≠ 0 then irq 8 (spxRegs_ (fun q => setF (setFlag q F.SPX_STAT_refused) F.SPX_STAT_reason code) s)
  else
    let c := campOf s
    let clear := fun (q : RegFile) =>
      let q := foldN 24 (fun q r => kvSet q (R.SPX_RINGr_STAT r) (kvGet q (R.SPX_RINGr_STAT r) &&& 0xFFFF)) q
      let q := c.rings.foldl (fun q x => setF q (F.SPX_RINGr_STAT_ref_bank x.ring) (decide ((spxBank s x).strAin = 255)).toNat) q
      kvSet (setFlag q F.SPX_STAT_run) R.SPX_WIN 0
    let s := spxRegs_ clear { s with spx := { s.spx with camp := some c, q6 := s.spx.q6 } }
    let quads : BitVec 8 := if c.rings.any (fun x => (ringRec s x.ring).demod != 1) then 0xFF else 0
    let s := { s with bgt := { s.bgt with quads := quads } }
    if downFree s c then campBroadcast 0 c s else s

/-! ## Stopping (R321) -/

/-- STREAM with `mode` 0 leaves every end of every campaign ring; with none to leave, the campaign is over. -/
def sendStop (s : State) : State :=
  match s.spx.camp with
  | none => s
  | some c =>
    let s := modCamp (fun c => { c with phase := .stopping }) (spxRegs_ (fun q => setF q F.SPX_STAT_ramp 0) s)
    c.rings.foldl (fun s x => frontBcast x.ring [(0x20, streamWords c 1 0)] .streamStop s) s

/-- `run` clears when the stopping message has been sent on every end (R321). -/
def stopDone (s : State) : State :=
  match s.spx.camp with
  | none => s
  | some c =>
    if c.phase = .stopping ∧ ¬ c.rings.any (fun x => useLeft .streamStop (ringOf s x.ring)) then
      let s := spxRegs_ (fun q =>
        let q := setFlag (setF q F.SPX_STAT_run 0) F.SPX_STAT_stopped
        c.rings.foldl (fun q x => setF (setF q (F.SPX_RINGr_STAT_place x.ring) 0) (F.SPX_RINGr_STAT_div_floor x.ring) 0) q) s
      irq 8 { s with spx := { s.spx with camp := none }, bgt := { s.bgt with quads := 0 } }
    else s

/-- The excitation begins to ramp down. -/
def rampDown (s : State) : State :=
  modCamp (fun c => { c with phase := .ramping c.k }) (spxRegs_ (fun q => setFlag q F.SPX_STAT_ramp) s)

/-- `win_cnt`: windows ended since the start mark, by time; with `cut`, the one in progress as well. -/
def showWin (c : Camp) (cut : Bool) (s : State) : State :=
  let past := (c.k - markStride c c.nRamp).toNat
  let w := past / (c.nInt * c.ps) + (cut && past % (c.nInt * c.ps) != 0).toNat
  spxRegs_ (fun q => kvSet q R.SPX_WIN (BitVec.ofNat 32 w)) s

/-- A stop at a stride boundary (R321). DEDUCED: log 76. -/
def stopNow (s : State) : State :=
  let s := { s with spx := { s.spx with stopReq := false } }
  match s.spx.camp with
  | none => s
  | some c =>
    match c.phase with
    | .running => rampDown (showWin c true (endAll s))
    | .waiting | .accepted => stopDone (sendStop s)
    | _ => s

/-- The device leaves RUN: windows end incomplete, the excitation is 0 (R321). -/
def spxLeaveRun (s : State) : State :=
  match s.spx.camp with
  | none => s
  | some c =>
    if c.phase = .stopping then s
    else stopDone (sendStop (if c.phase = .running then showWin c true (endAll s) else s))

/-- EXCITATION_RAMP_END: the excitation has reached 0 after k_0 strides (R321). -/
def excitationRampEnd (s : State) : State :=
  match s.spx.camp with
  | none => s
  | some c =>
    match c.phase with
    | .ramping at_ => if at_ + rampStrides c ≤ c.k then stopDone (sendStop s) else s
    | _ => s

/-! ## Strides (R308, R312, R321, R322) -/

/-- The `div` in force for a node (R270, R271, R312). -/
def nodeDiv (s : State) (r a : Nat) : Nat := (nodeAt (ringOf s r) a).div

/-- A set joins the model of a node's buffer; the oldest goes when 16 are held (R313). -/
def holdSet (n : Nat) (x : SpxNode) : SpxNode :=
  if x.step ≠ .inStep ∨ n < x.first ∨ (n - x.first) % 2 ^ x.e ≠ 0 then x
  else
    match x.sets with
    | o :: t => if 16 ≤ x.sets.length then { x with sets := t ++ [n], past := max x.past (o + 1) } else { x with sets := x.sets ++ [n] }
    | [] => { x with sets := [n] }

/-- The restart of node `a` that began to leave in the stride before, on either end: its window. -/
def restartSent (s : State) (c : Camp) (r a : Nat) : Option Nat :=
  let one := fun (y : RingEnd) => match y.cur with
    | some (m, _) =>
      if m.use = .restart ∧ y.bit = 1 ∧ wagNode m.words = a then
        let mark := c.k - 1 + 127 + (m.words.getD 3 0).toNat
        some ((mark.toNat / c.ps - c.nRamp) / c.nInt)
      else none
    | none => none
  one (ringOf s r).a <|> one (ringOf s r).b

/-- The restart of a node: it is queued once its `lead` can say where the next window begins, and as it leaves the model starts
again from that origin, with the windows up to it incomplete (R311, R313). DEDUCED: log 78. -/
def spxRestart (c : Camp) (x : SpxRing) (a : Nat) (s : State) : State :=
  match restartSent s c x.ring a with
  | some w =>
    let s := foldN (w - spxWin s x.ring a) (fun s _ => endIncomplete x.ring a s) s
    let o := winOrigin c w
    modSpx x.ring a (fun y => { y with step := .inStep, sets := [], first := o, past := o }) s
  | none =>
    let n := (spxNodeOf s x.ring a).getD {}
    if n.step = .due ∧ restartLead c (restartWin c n.win) ≤ 65535 then
      wagUni false 0x20 a (streamWords c 1 x.place) .restart x.ring (modSpx x.ring a (fun y => { y with step := .queued }) s)
    else s

/-- A node of a campaign ring at a stride boundary: a rate change ends its windows in progress, a sample mark adds a set, the end of
a window under node demodulation asks for its runs (R312, R313, R317, R322). -/
def spxNodeStride (c : Camp) (x : SpxRing) (s : State) (a : Nat) : State :=
  let s := spxRestart c x a s
  let e := nodeDiv s x.ring a
  let s := if ((spxNodeOf s x.ring a).getD {}).e = e then s else modSpx x.ring a (fun y => { y with e := e }) (endOpen x.ring a s)
  let s := match sampleAt c with
    | some n => if x.place = 1 then modSpx x.ring a (holdSet n) s else s
    | none => s
  let n := (spxNodeOf s x.ring a).getD {}
  if x.place = 2 && !n.asked && markStride c (n.origin + c.nInt - 1) < c.k then
    let g : Grant := { node := a, kind := 1, len := 2 * (nodeAt (ringOf s x.ring) a).cells + 1 }
    let s := modRing x.ring (fun y => { y with reqs := (y.reqs.filter fun q => q.g != g) ++ [{ g := g, left := c.tones.length }] }) s
    modSpx x.ring a (fun y => { y with asked := true }) s
  else s

/-- A campaign ring at a stride boundary: a bank that is no longer eligible leaves the campaign (R321). -/
def spxElig (s : State) (x : SpxRing) : State :=
  if x.off || bankElig s x.bank then s
  else
    let s := endRing s x
    modCamp (fun c => { c with rings := c.rings.map fun y => if y.ring = x.ring then { y with off := true } else y }) s

/-- The nodes of a campaign ring at a stride boundary. -/
def spxRingStride (c : Camp) (s : State) (x : SpxRing) : State :=
  if x.off then s else foldN x.nodes.length (spxNodeStride c x) s

/-- Windows end as their time passes; after `n_win` of them the excitation ramps down (R321). -/
def spxWindows (s : State) : State :=
  match s.spx.camp with
  | none => s
  | some c =>
    if c.phase ≠ .running then s
    else
      let s := showWin c false s
      if c.nWin ≠ 0 ∧ (markStride c (winOrigin c c.nWin) : Int) ≤ c.k then rampDown s else s

/-- The placement of the campaign rings is decided (R316). DEDUCED: log 76. -/
def decidePlace (c : Camp) (s : State) : State :=
  let rings := placeRings s c
  modCamp (fun c => { c with rings := rings })
    (spxRegs_ (fun q => rings.foldl (fun q x => setF q (F.SPX_RINGr_STAT_place x.ring) x.place) q) s)

/-- The start mark (R308): the nodes are at sample 0, and the quads go where no ring is in the hub (R336). -/
def startMark (c : Camp) (s : State) : State :=
  let s := if c.rings.any (·.place == 0) then decidePlace c s else s
  let s := modCamp (fun c => { c with
    phase := .running
    rings := c.rings.map fun x => { x with nodes := x.nodes.mapIdx fun a _ => { origin := c.nRamp, e := nodeDiv s x.ring a } } }) s
  let hub := match s.spx.camp with
    | some c => c.rings.any (·.place == 1)
    | none => false
  if hub then s else { s with bgt := { s.bgt with quads := 0 } }

/-- What a campaign does at a stride boundary: the stride's count, banks lost, the start mark, samples, windows. -/
def campStride (s : State) : State :=
  let s := modCamp (fun c => if c.phase = .accepted then c else { c with k := c.k + 1 }) s
  match s.spx.camp with
  | none => s
  | some c =>
    if c.phase = .stopping then stopDone s
    else
      let s := c.rings.foldl spxElig s
      let s := if c.phase = .waiting ∧ 0 ≤ c.k then startMark c s else s
      match s.spx.camp with
      | some c =>
        let ramp : Bool := match c.phase with
          | .running => decide (c.k < rampStrides c)
          | .ramping _ => true
          | _ => false
        let s := spxRegs_ (fun q => setF q F.SPX_STAT_ramp ramp.toNat) s
        if c.phase = .accepted ∨ c.phase = .waiting then s else spxWindows (c.rings.foldl (spxRingStride c) s)
      | none => s

/-- The array at a stride boundary: a campaign goes on, then a stop and a start act (R307, R321). -/
def spxBoundary (s : State) : State :=
  let s := campStride s
  let s := if s.spx.stopReq then stopNow s else s
  if s.spx.startReq then startNow s else s

/-- The clipped banks of the stride whose references were just made (R310). -/
def spxClip (s : State) : State :=
  let m := clippedBanks s
  if m = 0 then s else modCamp (fun c => { c with clip := (c.k, m) :: c.clip }) s

/-! ## Planning and restarts (R268, R313, R316) -/

/-- The floors of `div` in a planning stride (R316), highest ring first. -/
def divFloors (s : State) (c : Camp) : List SpxRing :=
  let T := c.tones.length
  let load := fun (x : SpxRing) (d : Nat) => hubLoad s x.ring x.bank c.ps T d
  let total := ((c.rings.filter (·.place == 1)).map fun x => load x 0).sum
  let lift := fun (acc : List SpxRing × Rat) (x : SpxRing) =>
    if x.place ≠ 1 then ({ x with floor := 0 } :: acc.1, acc.2)
    else
      let y := (List.range 15).foldl (fun (p : Nat × Rat) _ =>
        if (hubCap s (quadsOn s) : Rat) < p.2 then (p.1 + 1, p.2 - (load x p.1 - load x (p.1 + 1))) else p) (0, acc.2)
      ({ x with floor := y.1 } :: acc.1, y.2)
  (c.rings.reverse.foldl lift ([], total)).1

/-- The array's part of a planning stride: the placement in stride L − 1 before the start mark, the floors in every one after it
(R316). -/
def spxPlan (s : State) : State :=
  match s.spx.camp with
  | none => s
  | some c =>
    if c.phase = .accepted ∨ c.k < -1 then s
    else if c.k = -1 then decidePlace c s
    else
      let rings := divFloors s c
      let rose := (rings.zip c.rings).any fun x => x.2.floor == 0 && x.1.floor != 0
      let s := modCamp (fun c => { c with rings := rings }) s
      spxRegs_ (fun q =>
        let q := rings.foldl (fun q x => setF q (F.SPX_RINGr_STAT_div_floor x.ring) x.floor) q
        if rose then setFlag q F.SPX_STAT_overload else q) s

/-- The nodes of a ring that stream in the coming lap, their `ps` and the floor (R268, R308). -/
def streamPlan (s : State) (r : Nat) : Bool × Nat × Nat :=
  match s.spx.camp with
  | none => (false, 1, 0)
  | some c =>
    match c.rings.find? fun x => x.ring == r with
    | none => (false, 1, 0)
    | some x =>
      let soon := match c.phase with
        | .accepted => false
        | .waiting => decide (-1 ≤ c.k)
        | .stopping => false
        | _ => true
      if x.place = 1 && soon then (true, c.ps, x.floor) else (false, 1, 0)

/-- The nodes of a ring whose model has lost step: their windows in progress end incomplete, and a restart is due (R313).
DEDUCED: log 78. -/
def spxResync (r : Nat) (s : State) : State :=
  match s.spx.camp with
  | none => s
  | some c =>
    let one := fun (s : State) (a : Nat) =>
      if ((spxNodeOf s r a).getD {}).step ≠ .lost then s
      else
        let s := modSpx r a (fun y => { y with step := .due, sets := [] }) (endOpen r a s)
        spxRegs_ (fun q => kvSet q (statAt r a) (kvGet q (statAt r a) ||| 0x20)) s
    match c.rings.find? fun x => x.ring == r with
    | some x => foldN x.nodes.length one s
    | none => s

/-! ## Registers -/

/-- A write of a campaign register: ignored while a campaign runs (R305). -/
def spxWrite (ofs : Nat) (mask val : Word) (s : State) : State :=
  if flag s.spx.r F.SPX_STAT_run then cfgErr 11 s
  else spxRegs_ (fun q => kvSet q ofs ((kvGet q ofs &&& ~~~mask) ||| (val &&& mask))) s

/-- The clear of `resync` in `SPX_NODE_STAT`. -/
def spxNodeClear (val : Word) (s : State) : State :=
  if val.getLsbD 5 then
    let k := statAt (getF s.spx.r F.SPX_SEL_ring) (getF s.spx.r F.SPX_SEL_node)
    spxRegs_ (fun q => kvSet q k (kvGet q k &&& ~~~0x20)) s
  else s

/-- An SPX register that shows state. -/
def spxView (s : State) (ofs : Nat) : Option Word :=
  if ofs = R.SPX_NODE_STAT then
    let r := getF s.spx.r F.SPX_SEL_ring
    some (if 24 ≤ r then 0 else kvGet s.spx.r (statAt r (getF s.spx.r F.SPX_SEL_node)))
  else if ofs = R.SPX_LOAD then
    let load := match s.spx.camp with
      | some c => ((c.rings.filter fun (x : SpxRing) => x.place == 1).map fun (x : SpxRing) =>
        hubLoad s x.ring x.bank c.ps c.tones.length x.floor).sum
      | none => 0
    some (BitVec.ofNat 16 (min 65535 (hubCap s (quadsOn s) / 16)) ++ BitVec.ofNat 16 (min 65535 (load / 16).ceil.toNat))
  else none

/-! ## Commands -/

/-- BATON_ARRIVAL. -/
def execBatonArrival (ring : Fin 24) (port : PortEnd) (f : RxFrame) (s : State) : Host.Outcome State Fault Refusal :=
  .next (sortEvents s.flt.q9.length (spxResync ring (batonArrival ring port f s)))
/-- WAGGLE_SEND_COMPLETE. -/
def execWaggleSendComplete (ring : Fin 24) (port : PortEnd) (s : State) : Host.Outcome State Fault Refusal :=
  .next (stopDone (sendComplete ring port s))
/-- CAMPAIGN_START. -/
def execCampaignStart (_path : Path) (s : State) : Host.Outcome State Fault Refusal := whenCore campaignStart s
/-- CAMPAIGN_STOP. -/
def execCampaignStop (_path : Path) (s : State) : Host.Outcome State Fault Refusal := whenCore campaignStop s
/-- CAMPAIGN_BROADCAST. -/
def execCampaignBroadcast (s : State) : Host.Outcome State Fault Refusal := .next (campaignBroadcast s)
/-- STREAM_SAMPLE_TAKE. -/
def execStreamSampleTake (ring : Fin 24) (s : State) : Host.Outcome State Fault Refusal := .next (streamSampleTake ring s)
/-- PHASOR_RUN_RECEIVE. -/
def execPhasorRunReceive (ring : Fin 24) (s : State) : Host.Outcome State Fault Refusal := .next (phasorRunReceive ring s)
/-- WINDOW_END. -/
def execWindowEnd (ring : Fin 24) (node : Fin 256) (s : State) : Host.Outcome State Fault Refusal := .next (windowEnd ring node s)
/-- BIN_WRITE. -/
def execBinWrite (s : State) : Host.Outcome State Fault Refusal := .next (binWrite s)
/-- EXCITATION_RAMP_END. -/
def execExcitationRampEnd (s : State) : Host.Outcome State Fault Refusal := .next (excitationRampEnd s)

end Sys2Proof.Machine
end

