-- ==== Sys2Proof/Machine/Bgt.lean ====
section
/-! DEFINITION. The budget arbiter (R331 to R338): the units a state needs, their grants, their wakes one at a time. -/
namespace Sys2Proof.Machine

/-- A change of the BGT registers. -/
def bgtRegs_ (f : RegFile → RegFile) (s : State) : State := { s with bgt := { s.bgt with r := f s.bgt.r } }

/-! ## Requests (R331, R332) -/

/-- The units that state `t` needs with the structure `im`, numbered as `BGT_UNIT_REQ` lays them out (R331). -/
def unitsOf (t : Nat) (im : Img) (s : State) : BitVec 32 :=
  let lanes := if 4 ≤ t then (List.range 16).filter fun l => im.chans.any fun c => c.ain / 8 == l else []
  let groups := if 4 ≤ t ∧ im.hasRings then (List.range 6).filter fun g => im.rings.any fun r => r.ring / 4 == g else []
  let tap := if t = 2 ∧ flag s.svc.r F.SVC_STAT_alt then [getF s.svc.r F.SVC_ALT_tap_link / 8] else []
  let role := fun (x : Img) => x.role == 1 || x.role == 2
  let hive : Bool := (3 ≤ t && s.sys.built && role s.img.str) || (4 ≤ t && role im)
  let pcie := flag s.hst.r F.HST_PCIE_CFG_en
  let quads := if 4 ≤ t then bitsOf s.bgt.quads else []
  ofBits 32 (lanes ++ (groups ++ tap).map (16 + ·) ++ (if hive then [22] else []) ++ (if pcie then [23] else [])
    ++ quads.map (24 + ·))

/-- The state whose units are asked for: a pending request's where it waits for units, else the one in force (R328). -/
def unitState (s : State) : Nat :=
  match s.sys.req with
  | some q => if q.phase = .units ∨ q.phase = .build then q.target else opState s
  | none => opState s

/-- The units requested now. DEDUCED: log 41. -/
def unitReq (s : State) : BitVec 32 :=
  let t := unitState s
  unitsOf t (if t = 4 ∧ opState s = 3 then buildImg s else s.img.str) s

/-- The requested units that are not held off (R332). -/
def unitWant (s : State) : BitVec 32 := unitReq s &&& ~~~(kvGet s.bgt.r R.BGT_HOST_OFF)

/-! ## Grants (R333, R334) -/

/-- The priority order (R333). -/
def unitOrder : List Nat := 23 :: List.range 16 ++ 22 :: (List.range 6).map (16 + ·) ++ (List.range 8).map (24 + ·)

/-- The sum of reservations, base included (R333). -/
def reservedMa (b : Bgt) : Nat := 3600 + ((bitsOf b.granted).map unitMa).sum

/-- A unit of index `u`, its bit. -/
def unitBit (u : Nat) : BitVec 32 := BitVec.ofNat 32 1 <<< u

/-- Release the units that are no longer wanted, in reverse priority order (R334, R335). DEDUCED: log 41, 42. -/
def releaseUnits (want : BitVec 32) (b : Bgt) : Bgt :=
  let gone := unitOrder.reverse.filter fun u => b.granted.getLsbD u && !want.getLsbD u
  { b with granted := b.granted &&& want, on := b.on &&& want, denied := b.denied &&& want,
           wake := b.wake.filter fun u => want.getLsbD u, down := b.down ++ gone.filter fun u => !b.down.contains u }

/-- Grant one unit, or deny it. -/
def grantUnit (want : BitVec 32) (ma : Nat) (a : Bgt × List Nat) (u : Nat) : Bgt × List Nat :=
  let b := a.1
  if !want.getLsbD u || b.granted.getLsbD u then a
  else if reservedMa b + unitMa u ≤ ma then ({ b with granted := b.granted ||| unitBit u, wake := b.wake ++ [u] }, a.2)
  else (b, a.2 ++ [u])

/-- Show the sum of reservations and the moving switches (R335). -/
def showBgt (b : Bgt) : Bgt :=
  { b with r := setF (setF b.r F.BGT_STAT_reserved_ma (reservedMa b)) F.BGT_STAT_wake_busy (!b.wake.isEmpty || !b.down.isEmpty).toNat }

/-- A unit denied for the first time since its request: `deny` and one event (R334). DEDUCED: log 41. -/
def denyUnit (s : State) (u : Nat) : State :=
  if s.bgt.denied.getLsbD u then s
  else raise 22 255 u { s with bgt := { s.bgt with denied := s.bgt.denied ||| unitBit u, r := setFlag s.bgt.r F.BGT_STAT_deny } }

/-- What follows the release of units: an unpowered PCIe link resets (R356), ports of an unpowered group are OFF.
DEDUCED: log 41. -/
def afterRelease (gone : BitVec 32) (s : State) : State :=
  let s := if gone.getLsbD 23 then hostLinkReset false s else s
  if gone &&& 0x7F0000 = 0 then s else stopPorts s

/-- One pass of the arbiter; the units it denied. -/
def arbitrate1 (s : State) : State × List Nat :=
  let want := unitWant s
  let gone := s.bgt.granted &&& ~~~want
  let b := releaseUnits want s.bgt
  let b := { b with r := kvSet b.r R.BGT_UNIT_REQ (unitReq s) }
  let s := afterRelease gone { s with bgt := b }
  let ma := getF s.bgt.r F.BGT_CORE_CFG_core_ma
  let above := decide (ma < reservedMa s.bgt)
  let s := if above && !s.bgt.isOver then
      raise 22 255 255 { s with bgt := { s.bgt with r := setFlag s.bgt.r F.BGT_STAT_over } } else s
  let (b, denied) := unitOrder.foldl (grantUnit want ma) ({ s.bgt with isOver := above }, [])
  let s := { s with bgt := showBgt b }
  (denied.foldl denyUnit s, denied)

/-- A pending request is refused (R329). -/
def refuseReq (reason : Nat) (s : State) : State :=
  irq 1 { s with
    img := { s.img with ready := none }
    sys := { s.sys with
      req := none,
      r := setF (setF (setFlag (setF s.sys.r F.SYS_STATE_STAT_reason reason) F.SYS_STATE_STAT_refused) F.SYS_STATE_STAT_busy 0)
        F.SYS_STATE_STAT_target 0 } }

/-- The loader's job ends: `busy` falls (R364). -/
def endJob (s : State) : State :=
  irq 2 { s with img := { s.img with job := none, r := setF (setF s.img.r F.IMG_STAT_busy 0) F.IMG_STAT_step 0 } }

/-- A pending request that waits for units is refused for want of `denied`, and changes nothing: its build stops, the ports
are those of the structure in force, and no unit is released for it (R329, R334). -/
def refuseUnits (denied : List Nat) (s : State) : State :=
  let s := refuseReq 8 (denied.foldl denyUnit s)
  if s.img.job = some .build then portsBack (endJob s) else if opState s = 3 then portsBack s else s

/-- The arbiter (R334): a denial of a unit that a pending request needs refuses the request, and the units woken for it
are released. DEDUCED: log 28. -/
def arbitrate (s : State) : State :=
  if !coreReady s then s
  else
    let (s1, denied) := arbitrate1 s
    let waits : Bool := match s.sys.req with
      | some q => q.phase == .units || q.phase == .build
      | none => false
    if waits && !denied.isEmpty then (arbitrate1 (refuseUnits denied s)).1 else s1

/-- The requests for units have changed: the arbiter runs at once where no strides run, else at the next stride boundary
(R334). -/
def arbitrateNow (s : State) : State := if strides s then s else arbitrate s

/-- The units a pending request waits for are awake, and none still moves (R328, R335). DEDUCED: log 45. -/
def unitsReady (s : State) : Bool := s.bgt.down.isEmpty && (unitWant s &&& ~~~s.bgt.on) == 0

/-! ## Wakes (R335) -/

/-- UNIT_WAKE_COMPLETE: the unit whose switch closes is awake; wakes follow power-downs. -/
def unitWake (s : State) : State :=
  match s.bgt.down, s.bgt.wake with
  | [], u :: rest =>
    let s := { s with bgt := showBgt { s.bgt with wake := rest, on := s.bgt.on ||| unitBit u } }
    if 16 ≤ u ∧ u < 23 ∧ opState s ≠ 2 then startPorts s else s
  | _, _ => s

/-- UNIT_POWER_DOWN_COMPLETE: the unit whose switch opens is off. -/
def unitDown (s : State) : State := { s with bgt := showBgt { s.bgt with down := s.bgt.down.drop 1 } }

/-- Units awake at a stride boundary are available to placement (R21). -/
def availUnits (b : Bgt) : Bgt := { b with avail := b.on }

/-! ## Live fields (R8) and views -/

/-- A value of a BGT field is out of range. -/
def bgtBad (ofs lo val : Nat) : Bool :=
  ofs == R.BGT_CORE_CFG && (if lo = 16 then val < 1 || 1000 < val else val < 1000 || 15000 < val)

/-- Live fields apply (R8). DEDUCED: log 42. -/
def bgtLive (b : Bgt) : Bgt :=
  { b with r := b.live.foldl (fun r p => setF r ⟨p.ofs, p.lo, p.width⟩ p.val) b.r, live := [] }

/-- The BGT registers that show state. -/
def bgtView (s : State) (ofs : Nat) : Option Word :=
  if ofs = R.BGT_UNIT_ON then some s.bgt.on
  else if ofs = R.BGT_GD_STAT then
    some (putBits (kvGet s.bgt.r ofs) 0 16 (min 65535 (if computing s then gdUse s else 0)))
  else none

end Sys2Proof.Machine
end

