-- ==== Sys2Proof/Machine/Two.lean ====
section
/-! DEFINITION. The two-wire ports (R376 to R392). One port A command is one whole transaction: the bytes after its command
byte. The accesses of its DATA transactions stand with the host accesses. -/
namespace Sys2Proof.Machine

/-- A change of the TWO registers. -/
def twoRegs_ (f : RegFile → RegFile) (s : State) : State := { s with two := { s.two with r := f s.two.r } }

/-! ## Port A (R377 to R381) -/

/-- The bytes port A sends. -/
def sendA (bs : List Byte) (s : State) : State := if bs.isEmpty then s else emit (.bytes .portA bs) s

/-- Port A NACKs a command byte, a value or a byte beyond a command's length (R377). -/
def nackA (s : State) : State :=
  emit (.nack .portA) (twoRegs_ (fun r => incF (setFlag r F.TWO_A_STAT_nack_cmd) F.TWO_A_CNT_nack_cnt 1) s)

/-- A read of `n` bytes of a command that holds `bs`: 0xFF beyond its length (R377). -/
def readA (bs : List Byte) (n : Nat) (s : State) : State := sendA ((bs ++ List.replicate (n - bs.length) 0xFF).take n) s

/-- The two bytes of a 16-bit value, low byte first. -/
def le2 (v : Nat) : List Byte := [BitVec.ofNat 8 v, BitVec.ofNat 8 (v / 256)]

/-- A transaction addresses a port: its bus is not free (R392). -/
def touchA (s : State) : State := { s with two := { s.two with freeA := 0 } }
def touchB (s : State) : State := { s with two := { s.two with freeB := 0 } }

/-- Write bytes beyond a command's length are NACKed (R377). DEDUCED: log 84. -/
def excessA (rest : List Byte) (s : State) : State := if rest.isEmpty then s else nackA s

/-- POINTER (R377, R379). DEDUCED: log 84. -/
def setPointer (bs : List Byte) (s : State) : State :=
  match bs with
  | hi :: lo :: rest => excessA rest (twoRegs_ (fun r => setF r F.TWO_A_STAT_ptr (256 * hi.toNat + lo.toNat)) s)
  | _ => s

/-- BLOCK (R377, R379). -/
def setBlock (bs : List Byte) (s : State) : State :=
  match bs with
  | b :: rest =>
    if 20 < b.toNat then nackA s
    else excessA rest (twoRegs_ (fun r => setF r F.TWO_A_STAT_blk b.toNat) s)
  | [] => s

/-- A VSET is accepted, or is refused with a NACK of its high byte (R378). DEDUCED: log 85. -/
def vsetJudge (v : Nat) (s : State) : State :=
  let (s1, refused) := if coreReady s then voltageTarget 0 v s else (s, true)
  if refused then
    emit (.nack .portA) { s1 with two := { s1.two with vsetRef := true, r := incF s1.two.r F.TWO_A_CNT_nack_cnt 1 } }
  else twoRegs_ (fun r => incF r F.TWO_A_CNT_vset_cnt 1) s1

/-- VSET (R378). DEDUCED: log 85. -/
def vsetA (bs : List Byte) (s : State) : State :=
  match bs with
  | lo :: hi :: rest => excessA rest (vsetJudge (lo.toNat + 256 * hi.toNat) s)
  | _ => twoRegs_ (fun r => incF r F.TWO_A_CNT_part_cnt 1) s

/-- The STATUS byte (R377). -/
def statusByte (s : State) : Byte :=
  let r := s.bus.r
  let bit := fun (i : Nat) (b : Bool) => 2 ^ i * b.toNat
  BitVec.ofNat 8 (opState s % 8 + bit 3 (s.bus.slew != 100 * s.bus.tgt) + bit 4 (s.img.str.role == 2) + bit 5 s.two.vsetRef
    + bit 6 (getF r F.BUS_VCMD_CFG_vsrc == 0) + bit 7 (flag s.flt.r F.FLT_STAT_faultn_low))

/-- A read of `n` bytes of the 16-bit BUS fields `fs`, each low byte first; a core domain in reset reads 0. -/
def readBus (fs : List Fld) (n : Nat) (s : State) : State :=
  readA (fs.flatMap fun f => le2 (if coreReady s then getF s.bus.r f else 0)) n s

/-- STATUS (R377): the read clears bit 5. -/
def readStatus (n : Nat) (s : State) : State :=
  if n = 0 then s else { readA [statusByte s] n s with two := { s.two with vsetRef := false } }

/-- The port A address (R377). -/
def addrA (s : State) : Nat := getF s.two.r F.TWO_A_CFG_addr

/-- ALERT_RESPONSE (R381, R387): a read of 0x0C. A port that drives its alert line answers its address; one that wins the
arbitration of the address bits releases its line. -/
def alertResponse (port : PortEnd) (won : Bool) (s : State) : State :=
  match port with
  | .a =>
    if flag s.two.r F.TWO_A_STAT_alert && won then setAlert false (sendA [BitVec.ofNat 8 (2 * addrA s)] s) else s
  | .b =>
    let r := s.two.r
    if flag r F.TWO_B_CFG_alert_assert && flag r F.TWO_B_CFG_en && won then
      emit (.twbTarget [BitVec.ofNat 8 (2 * getF r F.TWO_B_CFG_addr)]) (twoRegs_ (fun r => setF r F.TWO_B_CFG_alert_assert 0) s)
    else s

/-- PORT_A_BUS_STUCK (R390). -/
def portABusStuck (s : State) : State :=
  irq 11 (raise 29 255 0 (twoRegs_ (fun r => setFlag r F.TWO_A_STAT_bus_stuck) s))

/-- Port B answers as a target at its address; the reset value 0 of `addr` is the general call, which it NACKs (R376, R382). -/
def targetOn (s : State) : Bool :=
  s.sys.up && flag s.two.r F.TWO_B_CFG_en && flag s.two.r F.TWO_B_CFG_tgt_en && getF s.two.r F.TWO_B_CFG_addr != 0

/-- TWO_WIRE_WAKE (R392): in COLD and SERVICE a matching address restarts the port's clock. -/
def twoWireWake (port : PortEnd) (s : State) : State :=
  if 3 ≤ opState s then s
  else match port with
    | .a => { s with two := { s.two with clkA := true, freeA := 0 } }
    | .b => if targetOn s then { s with two := { s.two with clkB := true, freeB := 0 } } else s

/-- The ports' clocks run; in COLD and SERVICE until their buses have been free for 1 ms (R392). -/
def twoClocks (s : State) : State := { s with two := { s.two with clkA := true, clkB := true, freeA := 0, freeB := 0 } }

/-! ## Port B (R382 to R387, R389) -/

/-- Write bytes to byte registers, byte 4n in bits 7:0 of register `base + 4n`. -/
def putRegBytes (base : Nat) (r : RegFile) (i : Nat) : List Byte → RegFile
  | [] => r
  | b :: t => putRegBytes base (kvSet r (base + i / 4 * 4) (putBits (kvGet r (base + i / 4 * 4)) (8 * (i % 4)) 8 b.toNat)) (i + 1) t

/-- Byte `i` of byte registers. -/
def regByte (base : Nat) (r : RegFile) (i : Nat) : Byte := (kvGet r (base + i / 4 * 4)).extractLsb' (8 * (i % 4)) 8

/-- The transfer ends, with `err` (0: none) and the bytes received (R382). DEDUCED: log 86. -/
def endXfer (err : Nat) (rx : List Byte) (s : State) : State :=
  match s.two.xfer with
  | none => s
  | some x =>
    let rx := rx.take x.rd
    irq 11 { s with two := { s.two with
      xfer := none,
      r :=
        let r := putRegBytes (R.TWO_B_RXn 0) s.two.r 0 rx
        let r := setF (setF (setF r F.TWO_B_CNT_rx_cnt rx.length) F.TWO_B_STAT_busy 0) F.TWO_B_STAT_err err
        setFlag r (if err = 0 then F.TWO_B_STAT_done else F.TWO_B_STAT_failed) } }

/-- A transfer of port B that runs on the bus. -/
def xferRuns (s : State) : Bool := match s.two.xfer with
  | some x => x.running
  | none => false

/-- `go` (R382): a transfer waits, or is refused. -/
def twbGo (val : Word) (s : State) : State :=
  let v := val.toNat
  let rd := v / 65536 % 64
  let wr := v / 256 % 64
  let r := s.two.r
  if s.two.xfer.isSome ∨ 32 < rd ∨ 32 < wr ∨ rd + wr = 0 ∨ !flag r F.TWO_B_CFG_en then
    irq 11 (twoRegs_ (fun r => setFlag (setF r F.TWO_B_STAT_err 8) F.TWO_B_STAT_failed) s)
  else
    { s with two := { s.two with r := setFlag r F.TWO_B_STAT_busy,
                                 xfer := some { addr := v % 128, wr := wr, rd := rd } } }

/-- TWB_TRANSFER_START (R384): the bus is free and no other controller addresses port B. -/
def twbStart (s : State) : State :=
  match s.two.xfer with
  | none => s
  | some x =>
    if x.running || flag s.two.r F.TWO_B_STAT_as_target || !flag s.two.r F.TWO_B_CFG_en then s
    else
      emit (.twb x.addr ((List.range x.wr).map (regByte (R.TWO_B_TXn 0) s.two.r)) x.rd)
        { s with two := { s.two with xfer := some { x with running := true } } }

/-- TWB_TRANSFER_END (R382). -/
def twbEnd (res : TwbResult) (s : State) : State :=
  if !xferRuns s then s
  else match res with
    | .ok rx => endXfer 0 rx s
    | .addrNack => endXfer 1 [] s
    | .dataNack => endXfer 2 [] s

/-- After a loss the transfer waits for a free bus, up to `retries` times (R383). -/
def retryXfer (rx : List Byte) (s : State) : State :=
  match s.two.xfer with
  | none => s
  | some x =>
    let s := twoRegs_ (fun r => incF r F.TWO_B_CNT_arb_lost_cnt 1) s
    if x.tries < getF s.two.r F.TWO_B_CFG_retries then
      { s with two := { s.two with xfer := some { x with running := false, tries := x.tries + 1 } } }
    else endXfer 3 rx s

/-- TWB_ARBITRATION_LOST (R383): the winning address, where an address byte was lost. -/
def twbLost (winner : Option (BitVec 7)) (s : State) : State :=
  if !xferRuns s then s
  else
    let r := s.two.r
    let own : Bool := targetOn s && (match winner with
      | some a => a.toNat == getF r F.TWO_B_CFG_addr
      | none => false)
    let s := if own then irq 11 (twoRegs_ (fun r => setFlag (setFlag r F.TWO_B_STAT_switched) F.TWO_B_STAT_as_target) s) else s
    retryXfer [] s

/-- ARB_SR_ERR (R385). -/
def arbSrErr (rx : List Byte) (s : State) : State :=
  if !xferRuns s then s
  else if flag s.two.r F.TWO_B_CFG_mode then retryXfer rx s
  else raise 29 255 1 (endXfer 4 rx s)

/-- `abort` (R382). -/
def twbAbort (rx : List Byte) (s : State) : State := endXfer 7 rx s

/-- TWB_RECOVER (R389): SDA sampled before and after each of nine pulses; a STOP where it reads high after one.
DEDUCED: log 86. -/
def twbRecover (sda : List Bool) (s : State) : State :=
  let s := { s with two := { s.two with recover := false } }
  match (sda.take 10).findIdx id with
  | 0 => s
  | n + 1 =>
    if (sda.take 10).any id then emit (.twbPulses (n + 1) true) s
    else
      let s := emit (.twbPulses 9 false) (twoRegs_ (fun r => setFlag r F.TWO_B_STAT_bus_stuck) s)
      irq 11 (raise 29 255 1 (endXfer 6 [] s))

/-- TWO_WIRE_TIMEOUT (R388). DEDUCED: log 86. -/
def twoWireTimeout (port : PortEnd) (rx : List Byte) (s : State) : State :=
  let r := s.two.r
  match port with
  | .a =>
    if !flag r F.TWO_A_CFG_timeout_en then s
    else irq 11 (raise 29 255 0 (twoRegs_ (fun r => incF (setFlag r F.TWO_A_STAT_timeout) F.TWO_A_CNT_timeout_cnt 1) s))
  | .b =>
    if !flag r F.TWO_B_CFG_timeout_en then s
    else
      let s := twoRegs_ (fun r => setF (incF (setFlag r F.TWO_B_STAT_timeout) F.TWO_B_CNT_timeout_cnt 1) F.TWO_B_STAT_as_target 0) s
      let s := if xferRuns s then endXfer 5 rx s else s
      irq 11 (raise 29 255 1 s)

/-! ## Port B as target (R386, R387) -/

/-- Mailbox bytes from offset `o` on, wrapping from 31 to 0. -/
def putMailbox (r : RegFile) (o : Nat) : List Byte → RegFile
  | [] => r
  | b :: t => putMailbox (putRegBytes (R.TWO_B_MBXn 0) r (o % 32) [b]) (o + 1) t

/-- The place an offset of the mailbox names. An offset above 31 is left open: a free one is used (R386). DEDUCED: log 86. -/
def mailboxPlace (o : Byte) (s : State) : Nat × State :=
  if 31 < o.toNat then ((Config.freeWord s.free).toNat % 32, (drawFree s).2) else (o.toNat, s)

/-- MAILBOX_WRITE (R386): the offset, then the data bytes. DEDUCED: log 86. -/
def mailboxWrite (bs : List Byte) (s : State) : State :=
  if !targetOn s then s
  else
    let s := twoRegs_ (fun r => setF r F.TWO_B_STAT_as_target 0) s
    match bs with
    | o :: d :: ds =>
      let (x, s) := mailboxPlace o s
      irq 11 (twoRegs_ (fun r => setFlag (putMailbox r x (d :: ds)) F.TWO_B_STAT_mbx_wr) s)
    | _ => s

/-- MAILBOX_READ (R386). DEDUCED: log 86. -/
def mailboxRead (o : Byte) (n : Nat) (s : State) : State :=
  if !targetOn s then s
  else
    let (o, s) := mailboxPlace o s
    let bs := (List.range n).map fun i => regByte (R.TWO_B_MBXn 0) s.two.r ((o + i) % 32)
    irq 11 (twoRegs_ (fun r => setFlag (setF r F.TWO_B_STAT_as_target 0) F.TWO_B_STAT_mbx_rd) (emit (.twbTarget bs) s))

/-- TWB_ALERT_ASSERT (R387). -/
def twbAlertAssert (s : State) : State := twoRegs_ (fun r => setF r F.TWO_B_CFG_alert_assert 1) s

/-- TWB_ALERT_SEEN (R387). -/
def twbAlertSeen (s : State) : State :=
  if flag s.two.r F.TWO_B_CFG_alert_assert then s else irq 11 (twoRegs_ (fun r => setFlag r F.TWO_B_STAT_alert_seen) s)

/-! ## Host writes -/

/-- A write of `TWO_B_CFG`: a reserved address or speed is ignored. DEDUCED: log 87. -/
def twoBCfgWrite (val : Word) (s : State) : State :=
  let a := val.toNat % 128
  let badA : Bool := decide (a = 0 ∨ a = 0x0C ∨ 0x78 ≤ a)
  let badS : Bool := val.toNat / 4096 % 4 == 3
  -- The reset value 0 of `addr` stands unchanged without an error.
  let badA := badA && a != getF s.two.r F.TWO_B_CFG_addr
  let s := if badA || badS then cfgErr 15 s else s
  twoRegs_ (fun r =>
    let w := val &&& 0x800F3F7F
    let w := if badA then putBits w 0 7 (getF r F.TWO_B_CFG_addr) else w
    kvSet r R.TWO_B_CFG (if badS then putBits w 12 2 (getF r F.TWO_B_CFG_speed) else w)) s

/-- A write of `TWO_B_XFER`: a recovery asked for runs when the bus allows. -/
def twoXferWrite (val : Word) (s : State) : State :=
  let s := if val.getLsbD 29 then { s with two := { s.two with recover := true } } else s
  let s := if val.getLsbD 30 then twbAbort [] s else s
  if val.getLsbD 31 then twbGo val s else s

/-- A host write of a mapped TWO register. DEDUCED: log 87. -/
def twoWrite (ofs : Nat) (val : Word) (s : State) : State :=
  let w1c := fun (m : Word) => twoRegs_ (fun r => kvSet r ofs (kvGet r ofs &&& ~~~(val &&& m))) s
  if ofs = R.TWO_A_CFG then twoRegs_ (fun r => kvSet r ofs ((kvGet r ofs &&& 0x7F) ||| (val &&& 0x300))) s
  else if ofs = R.TWO_A_STAT then w1c 0xBC
  else if ofs = R.TWO_A_ALERT_EN then alertCheck (twoRegs_ (fun r => kvSet r ofs (val &&& 0x3FFF)) s)
  else if ofs = R.TWO_B_CFG then twoBCfgWrite val s
  else if ofs = R.TWO_B_XFER then twoXferWrite val s
  else if ofs = R.TWO_B_STAT then w1c 0x37E
  else if (R.TWO_B_TXn 0 ≤ ofs ∧ ofs < R.TWO_B_TXn 8) ∨ (R.TWO_B_MBXn 0 ≤ ofs ∧ ofs < R.TWO_B_MBXn 8) then
    twoRegs_ (fun r => kvSet r ofs val) s
  else s

/-! ## Commands -/

/-- A port A transaction: `write` takes the bytes after the command byte, then `read` sends the bytes read (R377). -/
def portA (write read : State → State) (s : State) : Host.Outcome State Fault Refusal :=
  whenUp (fun s => read (write (touchA s))) s

/-- POINTER: the bytes written after it, and the count read. -/
def execPointer (x : CmdBytes) (s : State) : Host.Outcome State Fault Refusal := portA (setPointer x.bytes) (readA [] x.n) s
/-- BLOCK. -/
def execBlock (x : CmdBytes) (s : State) : Host.Outcome State Fault Refusal := portA (setBlock x.bytes) (readA [] x.n) s
/-- VSET. -/
def execVset (x : CmdBytes) (s : State) : Host.Outcome State Fault Refusal := portA (vsetA x.bytes) (readA [] x.n) s
/-- VTARGET. -/
def execVtarget (x : CmdBytes) (s : State) : Host.Outcome State Fault Refusal :=
  portA (excessA x.bytes) (readBus [F.BUS_VCMD_STAT_target] x.n) s
/-- VSLEWED. -/
def execVslewed (x : CmdBytes) (s : State) : Host.Outcome State Fault Refusal :=
  portA (excessA x.bytes) (readBus [F.BUS_VCMD_STAT_slewed] x.n) s
/-- VLIMITS. -/
def execVlimits (x : CmdBytes) (s : State) : Host.Outcome State Fault Refusal :=
  portA (excessA x.bytes) (readBus [F.BUS_VLIM_v_lo, F.BUS_VLIM_v_hi, F.BUS_VSLEW_v_slew] x.n) s
/-- STATUS. -/
def execStatus (x : CmdBytes) (s : State) : Host.Outcome State Fault Refusal :=
  portA (excessA x.bytes) (readStatus x.n) s
/-- UNKNOWN_COMMAND_BYTE: the command byte is NACKed, so nothing follows it. -/
def execUnknownCommandByte (_bytes : List Byte) (s : State) : Host.Outcome State Fault Refusal := portA nackA id s
/-- ALERT_RESPONSE. -/
def execAlertResponse (port : PortEnd) (won : Bool) (s : State) : Host.Outcome State Fault Refusal :=
  whenUp (fun s => alertResponse port won (match port with
    | .a => touchA s
    | .b => touchB s)) s
/-- TWO_WIRE_TIMEOUT. -/
def execTwoWireTimeout (port : PortEnd) (rx : List Byte) (s : State) : Host.Outcome State Fault Refusal :=
  whenUp (twoWireTimeout port rx) s
/-- PORT_A_BUS_STUCK. -/
def execPortABusStuck (s : State) : Host.Outcome State Fault Refusal := whenUp portABusStuck s
/-- TWO_WIRE_WAKE. -/
def execTwoWireWake (port : PortEnd) (s : State) : Host.Outcome State Fault Refusal := whenUp (twoWireWake port) s
/-- TWB_GO. -/
def execTwbGo (_path : Path) (val : Word) (s : State) : Host.Outcome State Fault Refusal := whenUp (twbGo val) s
/-- TWB_TRANSFER_START. -/
def execTwbTransferStart (s : State) : Host.Outcome State Fault Refusal := whenUp (fun s => twbStart (touchB s)) s
/-- TWB_TRANSFER_END. -/
def execTwbTransferEnd (res : TwbResult) (s : State) : Host.Outcome State Fault Refusal := whenUp (fun s => twbEnd res (touchB s)) s
/-- TWB_ARBITRATION_LOST. -/
def execTwbArbitrationLost (winner : Option (BitVec 7)) (s : State) : Host.Outcome State Fault Refusal := whenUp (twbLost winner) s
/-- ARB_SR_ERR. -/
def execArbSrErr (rx : List Byte) (s : State) : Host.Outcome State Fault Refusal := whenUp (arbSrErr rx) s
/-- TWB_ABORT. -/
def execTwbAbort (_path : Path) (rx : List Byte) (s : State) : Host.Outcome State Fault Refusal := whenUp (twbAbort rx) s
/-- TWB_RECOVER. -/
def execTwbRecover (_path : Option Path) (sda : List Bool) (s : State) : Host.Outcome State Fault Refusal :=
  whenUp (twbRecover sda) s
/-- MAILBOX_WRITE. -/
def execMailboxWrite (bytes : List Byte) (s : State) : Host.Outcome State Fault Refusal := whenUp (fun s => mailboxWrite bytes (touchB s)) s
/-- MAILBOX_READ. -/
def execMailboxRead (ofs : Byte) (n : Nat) (s : State) : Host.Outcome State Fault Refusal := whenUp (fun s => mailboxRead ofs n (touchB s)) s
/-- TWB_ALERT_ASSERT. -/
def execTwbAlertAssert (_path : Path) (s : State) : Host.Outcome State Fault Refusal := whenUp twbAlertAssert s
/-- TWB_ALERT_SEEN. -/
def execTwbAlertSeen (s : State) : Host.Outcome State Fault Refusal := whenUp twbAlertSeen s

end Sys2Proof.Machine
end

