-- ==== Sys2Proof/Machine/Svc.lean ====
section
/-! DEFINITION. The service port (R393 to R407): the CC logic, the PD PHY, the fallback policy, the power path, the swaps
and the service mode. The layout of a PD header and of a VDM header is that of USB Power Delivery 3.1 (PRESUMED). -/
namespace Sys2Proof.Machine

/-- A change of the SVC registers, of the SVC state. -/
def svcRegs_ (f : RegFile → RegFile) (s : State) : State := { s with svc := { s.svc with r := f s.svc.r } }
def modSvc (f : Svc → Svc) (s : State) : State := { s with svc := f s.svc }

/-- An event bit is set and raises cause 10 (R407). -/
def svcEvt (f : Fld) (s : State) : State := irq 10 (svcRegs_ (fun r => setFlag r f) s)

/-- One event to source 31. -/
def svcFault (s : State) : State := raise 31 255 255 s

/-- The device is attached, and as source. DEDUCED: log 92. -/
def svcAttached (s : State) : Bool := let c := getF s.svc.r F.SVC_STAT_cc_state; c == 2 || c == 3
def svcSource (s : State) : Bool := flag s.svc.r F.SVC_STAT_prole

/-! ## PD headers (PRESUMED: USB Power Delivery 3.1). PRESUMED: log 88. -/

def hdrType (h : Half) : Nat := h.toNat % 32
def hdrId (h : Half) : Nat := h.toNat / 512 % 8
def hdrObjs (h : Half) : Nat := h.toNat / 4096 % 8
/-- A control message of type `t`, a data message of type `t`. -/
def isCtl (h : Half) (t : Nat) : Bool := hdrObjs h == 0 && !h.getLsbD 15 && hdrType h == t
def isData (h : Half) (t : Nat) : Bool := hdrObjs h != 0 && !h.getLsbD 15 && hdrType h == t

/-- A header of revision 3. PRESUMED: log 88. -/
def mkHdr (type n : Nat) : Half := BitVec.ofNat 16 (type + 2 * 64 + n * 4096)

/-- The header as the PHY sends it: MessageID and the role bits of `SVC_STAT` (R396). -/
def fillHdr (s : State) (sop id : Nat) (h : Half) : Half :=
  let r := s.svc.r
  let roles := if sop = 0 then 32 * getF r F.SVC_STAT_drole + 256 * getF r F.SVC_STAT_prole else 0
  (h &&& 0xF0DF) ||| BitVec.ofNat 16 (roles + 512 * id)

/-- A structured VDM with command type `ct` (0 REQ, 1 ACK, 2 NAK) and command `c`. PRESUMED: log 88. -/
def isVdm (h : Half) (objs : List Word) (ct c : Nat) : Bool :=
  let w := (objs.getD 0 0).toNat
  isData h 15 && w / 32768 % 2 == 1 && w / 64 % 4 == ct && w % 32 == c

/-- The message calls for a response (R398). -/
def callsForResponse (h : Half) (objs : List Word) : Bool :=
  [7, 8, 9, 10, 11, 13, 17, 18, 20, 21, 22, 23, 24].any (isCtl h) || isData h 1 || isData h 2 || isData h 7 ||
    [1, 2, 3, 4, 5].any (isVdm h objs 0)

/-! ## The service mode (R403, R404) -/

/-- The mode is entered or left; the ring tap's group is asked for or released with it (R331). -/
def setMode (on : Bool) (s : State) : State :=
  if flag s.svc.r F.SVC_STAT_alt == on then s
  else arbitrateNow <| svcEvt (if on then F.SVC_EVT_alt_enter else F.SVC_EVT_alt_exit) (svcRegs_ (fun r => setF r F.SVC_STAT_alt on.toNat) s)

/-! ## Sending (R396, R398) -/

/-- Follow a message on its way to a contract (R397), a data-role swap, or the mode. `sent` says who sent it.
DEDUCED: log 89, 90. -/
def pdTrack (sent : Bool) (h : Half) (objs : List Word) (s : State) : State :=
  let v := s.svc
  let fromSrc : Bool := sent == svcSource s
  let answer : Bool := match v.drSwap with
    | some d => d != sent
    | none => false
  let reqd := if isData h 2 && !fromSrc then 1
    else if fromSrc && isCtl h 3 && v.reqd == 1 then 2
    else if fromSrc && (isCtl h 4 || isCtl h 12) then 0 else v.reqd
  let got : Bool := fromSrc && isCtl h 6 && v.reqd == 2
  let reqd := if got then 0 else reqd
  let swapRole : Bool := answer && isCtl h 3
  let dr := if isCtl h 9 then some sent else if answer then none else v.drSwap
  let r := if got then setFlag v.r F.SVC_STAT_contract else v.r
  let r := if swapRole then setF r F.SVC_STAT_drole (1 - getF r F.SVC_STAT_drole) else r
  let s := { s with svc := { v with reqd := reqd, drSwap := dr, r := r } }
  let mode1 : Bool := (objs.getD 0 0).toNat / 256 % 8 == 1
  if sent && mode1 && isVdm h objs 1 4 then setMode true s
  else if sent && mode1 && isVdm h objs 1 5 then setMode false s else s

/-- The PHY sends a message and waits for its GoodCRC; the response timer runs where it calls for a response. -/
def pdSendMsg (sop : Nat) (h : Half) (objs : List Word) (s : State) : State :=
  let h := fillHdr s sop (vget s.svc.txId sop 0) h
  let w : Option RespWait := if isCtl h 13 then some .softAccept else if callsForResponse h objs then some (.response sop) else s.svc.resp
  pdTrack true h objs (emit (.pd sop h objs)
    { s with svc := { s.svc with tx := some { sop := sop, header := h, objs := objs }, resp := w } })

/-- The PHY is reset as by a Soft_Reset: MessageIDs, transmit buffer, FIFO (R398). -/
def pdClear (v : Svc) : Svc :=
  { v with lastId := Vector.replicate 3 none, txId := Vector.replicate 3 0, tx := none, fifo := [],
           r := foldN 7 (fun r i => kvSet r (R.SVC_TX_DOn i) 0) (kvSet v.r R.SVC_TX 0) }

/-- Send Soft_Reset to SOP type `sop` (R398). -/
def sendSoft (sop : Nat) (s : State) : State :=
  svcEvt F.SVC_EVT_soft_reset (pdSendMsg sop (mkHdr 13 0) [] (modSvc pdClear s))

/-! ## Swaps and hard reset (R400, R401, R406) -/

/-- The power role in force: Rp or Rd, and the attached state, follow it. -/
def setProle (src : Bool) (r : RegFile) : RegFile :=
  setF (setF r F.SVC_STAT_prole src.toNat) F.SVC_STAT_cc_state (if src then 3 else 2)

/-- A swap ends with `err`. -/
def endSwap (err : Nat) (s : State) : State :=
  let s := { s with svc := { s.svc with swap := none,
                                        r := setF (setF s.svc.r F.SVC_SWAP_busy 0) F.SVC_SWAP_err err } }
  svcEvt (if err = 0 then F.SVC_EVT_swap_done else F.SVC_EVT_swap_fail) s

/-- VCONN of the other CC pin is dropped. -/
def vconnOff (v : Svc) : Svc := { v with vconnEn := false, r := setF v.r F.SVC_STAT_vconn_on 0 }

/-- A hard reset, sent or received (R400, R406). DEDUCED: log 91. -/
def hardReset (sent : Bool) (s : State) : State :=
  let s := if s.svc.swap.isSome then
      endSwap 4 (modSvc (fun v => vconnOff { v with r := setF (setProle v.prole0 v.r) F.SVC_STAT_drole v.drole0.toNat }) s)
    else s
  let s := if sent then emit .pdHardReset s else s
  let s := modSvc (fun v => { pdClear v with resp := none, reqd := 0, drSwap := none }) s
  let s := svcRegs_ (fun r => setF r F.SVC_STAT_contract 0) (setMode false s)
  let s := if svcSource s && svcAttached s then
      { s with svc := { s.svc with disch := decide (800 ≤ getF s.svc.r F.SVC_VBUS_mv), hrWait := true, srcWait := false,
                                   r := setF (setF s.svc.r F.SVC_STAT_src_en 0) F.SVC_PATH_vsel 0 } }
    else s
  svcFault (svcEvt F.SVC_EVT_hard_reset s)

/-- HARD_RESET_RECOVERY: 750 ms after VBUS fell below 800 mV the source path closes (R399, R400). -/
def hardResetRecovery (s : State) : State :=
  if !s.svc.hrWait || 800 ≤ getF s.svc.r F.SVC_VBUS_mv then s
  else { s with svc := { s.svc with hrWait := false, disch := false, r := setFlag s.svc.r F.SVC_STAT_src_en } }

/-! ## Receiving (R396, R397) -/

/-- The identity of the store: its SVID and the VDO of mode 1 (R430). -/
def svcSvid (s : State) : Nat := nvmWord s.nvm.mem (nvmIdent + 28) % 65536

/-- The answer of a structured VDM: its header with command type `ct`, then `vdos`. DEDUCED: log 89. -/
def vdmAnswer (req : Word) (ct : Nat) (vdos : List Word) (s : State) : State :=
  pdSendMsg 0 (mkHdr 15 (1 + vdos.length)) (putBits req 6 2 ct :: vdos) s

/-- A control message as the fallback's answer. -/
def pdCtl (t : Nat) (s : State) : State := pdSendMsg 0 (mkHdr t 0) [] s

/-- The fallback's answer to a VDM. DEDUCED: log 89. -/
def fallbackVdm (h : Half) (objs : List Word) (s : State) : State :=
  let w := objs.getD 0 0
  let n := nvmIdCount s.nvm.mem
  let svid := svcSvid s
  let mine : Bool := n != 0 && w.toNat / 65536 == svid
  if isVdm h objs 0 1 then
    if n = 0 then vdmAnswer w 2 [] s
    else vdmAnswer w 1 ((List.range n).map fun i => BitVec.ofNat 32 (nvmWord s.nvm.mem (nvmIdent + 4 + 4 * i))) s
  else if isVdm h objs 0 2 then
    if n = 0 then vdmAnswer w 2 [] s else vdmAnswer w 1 [BitVec.ofNat 32 (svid * 65536)] s
  else if isVdm h objs 0 3 then
    if mine then vdmAnswer w 1 [BitVec.ofNat 32 (nvmWord s.nvm.mem (nvmIdent + 32))] s else vdmAnswer w 2 [] s
  else if (isVdm h objs 0 4 || isVdm h objs 0 5) && mine && w.toNat / 256 % 8 == 1 then vdmAnswer w 1 [] s
  else pdCtl 16 s

/-- Request for PDO 1 at min(`fb_ma` × 50 mA, offered current), in units of 10 mA (R397). PRESUMED: log 88. -/
def fallbackRequest (pdo : Word) (s : State) : State :=
  let i := min (5 * getF s.svc.r F.SVC_CFG_fb_ma) (pdo.toNat % 1024)
  pdSendMsg 0 (mkHdr 2 1) [BitVec.ofNat 32 (2 ^ 28 + 1024 * i + i)] s

/-- The fallback policy's answer to an SOP message: the table's, else Not_Supported (R397). DEDUCED: log 89. -/
def fallback (m : PdMsg) (s : State) : State :=
  let h := m.header
  if isData h 1 && !svcSource s then fallbackRequest (m.objs.getD 0 0) s
  else if isData h 15 then fallbackVdm h m.objs s
  else if isCtl h 9 then pdCtl (if flag s.svc.r F.SVC_STAT_drole then 3 else 4) s
  else if isCtl h 10 || isCtl h 11 then pdCtl 4 s
  else pdCtl 16 s

/-- The GoodCRC of a received message. -/
def goodCrc (m : PdMsg) (s : State) : State :=
  emit (.pd m.sop ((fillHdr s m.sop (hdrId m.header) (mkHdr 1 0) &&& 0xFF3F) ||| (m.header &&& 0xC0)) []) s

/-- A GoodCRC for the message that waits ends it. DEDUCED: log 90. -/
def takeGoodCrc (m : PdMsg) (v : Svc) : Svc :=
  match v.tx with
  | none => v
  | some t =>
    if t.sop = m.sop ∧ hdrId t.header = hdrId m.header then
      { v with tx := none, txId := vmod v.txId t.sop fun i => (i + 1) % 8 }
    else v

/-- The response timer stops on the first message; a Soft_Reset's on its Accept (R398). DEDUCED: log 90. -/
def respStop (h : Half) (v : Svc) : Svc :=
  match v.resp with
  | some (.response _) => { v with resp := none }
  | some .softAccept => if isCtl h 3 then { v with resp := none } else v
  | none => v

/-- PD_MESSAGE_RECEIVE (R396, R397). -/
def pdReceive (m : PdMsg) (s : State) : State :=
  let h := m.header
  if !svcAttached s then s
  else if isCtl h 1 then modSvc (takeGoodCrc m) s
  else if 4 ≤ s.svc.fifo.length then s
  else
    let s := goodCrc m s
    let soft := isCtl h 13
    if !soft && vget s.svc.lastId m.sop none == some (hdrId h) then s
    else
      let s := if soft then svcEvt F.SVC_EVT_soft_reset (modSvc (fun v => { pdClear v with resp := none }) s) else s
      let s := modSvc (fun v => { respStop h v with lastId := vset v.lastId m.sop (some (hdrId h)) }) s
      let s := pdTrack false h m.objs s
      if flag s.svc.r F.SVC_CFG_host_pol || m.sop != 0 then svcEvt F.SVC_EVT_rx (modSvc (fun v => { v with fifo := v.fifo ++ [m] }) s)
      else fallback m s

/-- GOODCRC_TIMEOUT (R396): two retries, then `tx_fail`. -/
def goodcrcTimeout (s : State) : State :=
  match s.svc.tx with
  | none => s
  | some t =>
    if t.tries < 2 then emit (.pd t.sop t.header t.objs) { s with svc := { s.svc with tx := some { t with tries := t.tries + 1 } } }
    else svcEvt F.SVC_EVT_tx_fail { s with svc := { s.svc with tx := none } }

/-- RESPONSE_TIMEOUT (R398). DESIGN CHOICE: log 11. -/
def responseTimeout (s : State) : State :=
  match s.svc.resp with
  | none => s
  | some w =>
    let s := svcEvt F.SVC_EVT_resp_to { s with svc := { s.svc with resp := none } }
    if !flag s.svc.r F.SVC_CFG_auto_sr then s
    else match w with
      | .response sop => sendSoft sop s
      | .softAccept => hardReset true s

/-- A write of `send` (R396): the message in the transmit registers; one at a time. -/
def pdSend (s : State) : State :=
  let r := s.svc.r
  if s.svc.tx.isSome then cfgErr 16 s
  else
    pdSendMsg (getF r F.SVC_TX_sop) (BitVec.ofNat 16 (getF r F.SVC_TX_header))
      ((List.range (getF r F.SVC_TX_n_obj)).map fun i => kvGet r (R.SVC_TX_DOn i)) s

/-- A write of `pop` (R396). -/
def rxPop (s : State) : State := modSvc (fun v => { v with fifo := v.fifo.drop 1 }) s

/-! ## The power path (R399) -/

/-- VBUS as last read. DEDUCED: log 92. -/
def setMv (mv : Nat) (s : State) : State := svcRegs_ (fun r => setF r F.SVC_VBUS_mv mv) s

/-- The source path closes once VBUS is below 800 mV; above, VBUS is discharged and the request waits. -/
def srcClose (v : Svc) : Svc :=
  if flag v.r F.SVC_STAT_src_en then v
  else if getF v.r F.SVC_VBUS_mv < 800 then { v with r := setFlag v.r F.SVC_STAT_src_en, srcWait := false, disch := false }
  else { v with srcWait := true, disch := true }

/-- The source path opens, or its request is taken back. -/
def srcOpen (v : Svc) : Svc :=
  { v with r := setF v.r F.SVC_STAT_src_en 0, disch := if v.srcWait then false else v.disch, srcWait := false }

/-- A write of `SVC_PATH`: both paths together are refused (R399). -/
def pathWrite (val : Word) (s : State) : State :=
  let v := val.toNat % 8
  if v % 2 = 1 ∧ v / 4 = 1 then cfgErr 16 s
  else
    let s := svcRegs_ (fun r => setF (kvSet r R.SVC_PATH (BitVec.ofNat 32 v)) F.SVC_STAT_snk_en (v / 4)) s
    modSvc (if v % 2 = 1 then srcClose else srcOpen) s

/-- SOURCE_PATH_REQUEST: a write of `SVC_PATH` that sets `src_req`. -/
def sourcePathRequest (s : State) : State := pathWrite (kvGet s.svc.r R.SVC_PATH ||| 1) s

/-- SOURCE_PATH_CLOSE (R399, R401): VBUS has fallen to `mv`. -/
def sourcePathClose (mv : Nat) (s : State) : State :=
  let s := setMv mv s
  if 800 ≤ mv then s
  else
    match s.svc.swap with
    | some .discharge =>
      { s with svc := { s.svc with disch := false, swap := some .asSink, r := setProle false s.svc.r } }
    | _ => modSvc (fun v => { (if v.srcWait then srcClose v else v) with disch := false, srcWait := false }) s

/-- SOURCE_GUARD_TIMEOUT (R399). DESIGN CHOICE: log 11. -/
def sourceGuardTimeout (s : State) : State :=
  if !s.svc.srcWait then s
  else
    svcFault (svcEvt F.SVC_EVT_guard_to (modSvc (fun v => { srcOpen v with r := setF v.r F.SVC_PATH_src_req 0 }) s))

/-! ## Swap commands (R401, R402) -/

/-- `SVC_SWAP.pr` (R401). DEDUCED: log 91. -/
def prSwap (s : State) : State :=
  let r := s.svc.r
  if s.svc.swap.isSome then cfgErr 16 s
  else if flag r F.SVC_CFG_vbus_fed && !svcSource s then endSwap 1 s
  else if svcSource s then
    let s := modSvc (fun v => { v with swap := some .discharge, disch := true, srcWait := false,
                                       r := setF (setF (setFlag v.r F.SVC_SWAP_busy) F.SVC_STAT_src_en 0) F.SVC_PATH_src_req 0 }) s
    if getF s.svc.r F.SVC_VBUS_mv < 800 then sourcePathClose (getF s.svc.r F.SVC_VBUS_mv) s else s
  else
    let r := setF (setF (setFlag r F.SVC_SWAP_busy) F.SVC_STAT_snk_en 0) F.SVC_PATH_snk_req 0
    let r := setF (setFlag (setProle true r) F.SVC_PATH_src_req) F.SVC_PATH_vsel 0
    modSvc srcClose { s with svc := { s.svc with swap := some .asSource, r := r } }

/-- PR_SWAP_VBUS_ARRIVAL (R401): VBUS is above 4.0 V. -/
def prSwapArrival (mv : Nat) (s : State) : State :=
  let s := setMv mv s
  if mv ≤ 4000 then s
  else match s.svc.swap with
    | some .asSink => endSwap 0 (svcRegs_ (fun r => setFlag (setFlag r F.SVC_STAT_snk_en) F.SVC_PATH_snk_req) s)
    | some .asSource => if flag s.svc.r F.SVC_STAT_src_en then endSwap 0 s else s
    | _ => s

/-- PR_SWAP_TIMEOUT (R401). -/
def prSwapTimeout (s : State) : State :=
  match s.svc.swap with
  | none => s
  | some .vconn => s
  | some _ => hardReset true (endSwap 2 s)

/-- `SVC_SWAP.vconn` (R402). DEDUCED: log 91. -/
def vconnSwap (s : State) : State :=
  let r := s.svc.r
  if s.svc.swap.isSome then cfgErr 16 s
  else if s.svc.vconnEn then endSwap 0 (modSvc vconnOff s)
  else if !flag r F.SVC_STAT_ra then endSwap 3 s
  else { s with svc := { s.svc with vconnEn := true, swap := some .vconn, r := setFlag r F.SVC_SWAP_busy } }

/-- VCONN_ON (R402). -/
def vconnOn (s : State) : State :=
  if s.svc.swap = some .vconn then endSwap 0 (svcRegs_ (fun r => setFlag r F.SVC_STAT_vconn_on) s) else s

/-! ## Attach and detach (R395, R405) -/

/-- The CC logic enters Attached.SNK or Attached.SRC. DEDUCED: log 90. -/
def attachAs (src : Bool) (cc : CcSense) (s : State) : State :=
  modSvc (fun v => { v with
    prole0 := src, drole0 := src, lastId := Vector.replicate 3 none, txId := Vector.replicate 3 0,
    r :=
      let r := setF (setProle src v.r) F.SVC_STAT_drole src.toNat
      let r := setF (setF r F.SVC_STAT_orient cc.cc2.toNat) F.SVC_STAT_ra cc.ra.toNat
      setF r F.SVC_VBUS_mv cc.mv.toNat }) s

/-- Entry to Unattached, under the `role` and `try` that then stand (R395). -/
def unattached (v : Svc) : Svc :=
  { v with roleF := getF v.r F.SVC_CFG_role, tryF := getF v.r F.SVC_CFG_try, r := setF v.r F.SVC_STAT_cc_state 0 }

/-- SERVICE_ISLAND_POWER_UP (R395). -/
def svcPowerUp (cc : CcSense) (s : State) : State :=
  if s.svc.started then s
  else
    let s := setMv cc.mv.toNat (modSvc (fun v => unattached { v with started := true }) s)
    if 4000 < cc.mv.toNat && cc.rp then svcRegs_ (fun r => setFlag r F.SVC_STAT_dead_batt) (attachAs false cc s) else s

/-- The power role in which a connection comes to stand (R393, R395): a DRP follows what its partner presents, but that Try.SRC makes
it source, and Try.SNK sink, where the partner takes the other role. DEDUCED: log 90. -/
def attachRole (role try_ : Nat) (rd turned : Bool) : Bool :=
  match role, try_ with
  | 0, _ => false
  | 1, _ => true
  | _, 1 => rd || turned
  | _, 2 => rd && !turned
  | _, _ => rd

/-- ATTACH (R395): while no partner is attached, the CC logic waits, tries, gives up, or attaches; a sink sees Rp. DEDUCED: log 90. -/
def svcAttach (cc : CcSense) (step : AttachStep) (s : State) : State :=
  let cc_ := getF s.svc.r F.SVC_STAT_cc_state
  if !s.svc.started || svcAttached s then s
  else
    match step with
    | .wait => if cc_ = 0 then svcRegs_ (fun r => setF r F.SVC_STAT_cc_state 1) s else s
    | .trial => if cc_ = 1 ∧ s.svc.roleF = 2 ∧ s.svc.tryF ≠ 0 then svcRegs_ (fun r => setF r F.SVC_STAT_cc_state 4) s else s
    | .gone => modSvc unattached s
    | .done rd turned =>
      let asSrc := attachRole s.svc.roleF s.svc.tryF rd turned
      if !asSrc && !cc.rp then s else attachAs asSrc cc s

/-- DETACH (R405). DEDUCED: log 91. -/
def svcDetach (mv : Nat) (s : State) : State :=
  if !svcAttached s then setMv mv s
  else
    let trans : Bool := s.svc.srcWait || s.svc.hrWait || s.svc.swap.isSome
    let s := setMode false (setMv mv s)
    let r := [F.SVC_STAT_snk_en, F.SVC_STAT_src_en, F.SVC_STAT_dead_batt, F.SVC_STAT_contract, F.SVC_STAT_vconn_on,
      F.SVC_STAT_drole, F.SVC_STAT_prole, F.SVC_STAT_ra, F.SVC_STAT_cc_state, F.SVC_PATH_snk_req, F.SVC_PATH_vsel,
      F.SVC_PATH_src_req, F.SVC_SWAP_busy].foldl (fun r f => setF r f 0) s.svc.r
    let s := { s with svc := unattached { s.svc with
      r := r, tx := none, resp := none, reqd := 0, drSwap := none, swap := none, srcWait := false, hrWait := false,
      vconnEn := false, disch := decide (800 ≤ mv) } }
    let s := if getF s.img.r F.IMG_STAT_owner = 4 then { s with img := { s.img with r := setF s.img.r F.IMG_STAT_owner 0 } } else s
    let s := if trans then svcEvt F.SVC_EVT_det_trans s else s
    svcFault (svcEvt F.SVC_EVT_detach s)

/-! ## Host accesses -/

/-- A write of `SVC_CFG`: values out of range are ignored. DEDUCED: log 91. -/
def svcCfgWrite (val : Word) (s : State) : State :=
  let v := val.toNat
  let t := v / 65536 % 32
  let fb := v / 256 % 256
  let okT : Bool := decide (24 ≤ t ∧ t ≤ 30)
  let okF : Bool := decide (1 ≤ fb ∧ fb ≤ 60)
  let okY : Bool := v / 4 % 4 != 3
  let okR : Bool := v % 4 != 3
  let s := if okT && okF && okY && okR then s else cfgErr 16 s
  svcRegs_ (fun r =>
    let r := if okT then setF r F.SVC_CFG_t_resp t else r
    let r := if okF then setF r F.SVC_CFG_fb_ma fb else r
    let r := if okY then setF r F.SVC_CFG_try (v / 4) else r
    let r := if okR then setF r F.SVC_CFG_role v else r
    setF (setF (setF r F.SVC_CFG_auto_sr (v / 64)) F.SVC_CFG_vbus_fed (v / 32)) F.SVC_CFG_host_pol (v / 16)) s

/-- A write of `SVC_TX`. -/
def svcTxWrite (val : Word) (s : State) : State :=
  let sop := val.toNat % 4
  let s := if sop = 3 then cfgErr 16 s else svcRegs_ (fun r => setF r F.SVC_TX_sop sop) s
  let s := svcRegs_ (fun r => setF (setF r F.SVC_TX_header (val.toNat / 65536)) F.SVC_TX_n_obj (val.toNat / 16)) s
  if val.getLsbD 10 then hardReset true s
  else if val.getLsbD 9 then sendSoft (getF s.svc.r F.SVC_TX_sop) s
  else if val.getLsbD 8 then pdSend s else s

/-- A host write of a mapped SVC register. -/
def svcWrite (ofs : Nat) (val : Word) (s : State) : State :=
  if ofs = R.SVC_CFG then svcCfgWrite val s
  else if ofs = R.SVC_STAT then (if val.getLsbD 13 then svcRegs_ (fun r => setF r F.SVC_STAT_cfg_err 0) s else s)
  else if ofs = R.SVC_PATH then pathWrite val s
  else if ofs = R.SVC_TX then svcTxWrite val s
  else if R.SVC_TX_DOn 0 ≤ ofs ∧ ofs < R.SVC_TX_DOn 7 then svcRegs_ (fun r => kvSet r ofs val) s
  else if ofs = R.SVC_RX then (if val.getLsbD 9 then rxPop s else s)
  else if ofs = R.SVC_SWAP then
    let s := if val.getLsbD 0 then prSwap s else s
    if val.getLsbD 1 then vconnSwap s else s
  else if ofs = R.SVC_ALT then
    let t := val.toNat / 256 % 64
    if 47 < t then cfgErr 16 s else arbitrateNow (svcRegs_ (fun r => setF r F.SVC_ALT_tap_link t) s)
  else if ofs = R.SVC_EVT then svcRegs_ (fun r => kvSet r ofs (kvGet r ofs &&& ~~~(val &&& 0xFFF))) s
  else s

/-- The ring tap works: in SERVICE, and from LOADED on (R404). -/
def tapOn (s : State) : Bool := flag s.svc.r F.SVC_STAT_alt && (opState s == 2 || 4 ≤ opState s)

/-! ## Pins (R393, R394, R399, R402 to R404) -/

/-- What a CC pin presents: the dead-battery Rd, Rd, Rp, Rd and Rp in turn, or the other pin's VCONN. -/
inductive CcTerm where
  | deadRd | rd | rp | toggle | vconn
deriving DecidableEq, Repr

/-- What the SuperSpeed pairs of the orientation carry. -/
inductive TapMode where
  | off
  | passThrough (link : Nat)
  | mirror (link : Nat)
deriving DecidableEq, Repr

/-- The levels and terminations of the port's pins. -/
structure SvcPins where
  cc1 : CcTerm
  cc2 : CcTerm
  srcEn  : Bool
  snkEn  : Bool
  vsel9  : Bool
  disch  : Bool
  vconn1 : Bool
  vconn2 : Bool
  /-- The SBU pin on which the UART sends: 1 or 2. -/
  sbuTx  : Option Nat
  /-- The SuperSpeed pair set of the orientation, and what it carries. -/
  pairs  : Nat
  tap    : TapMode
deriving DecidableEq, Repr

/-- What CC pin `pin` (false: CC1) presents. DEDUCED: log 90. -/
def ccTerm (pin : Bool) (s : State) : CcTerm :=
  let v := s.svc
  if !s.sys.up || !v.started then .deadRd
  else if v.vconnEn && pin != flag v.r F.SVC_STAT_orient then .vconn
  else if svcAttached s then (if svcSource s then .rp else .rd)
  else if v.roleF = 0 then .rd
  else if v.roleF = 1 then .rp
  else .toggle

/-- The port's pins: the enables are low while the island is down (R394), `SVC_VSEL9` is high only with the source path closed and
`vsel` 1 (R399), VCONN leaves on the pin that carries no communication (R402). -/
def svcPins (s : State) : SvcPins :=
  let v := s.svc
  let up := s.sys.up
  let cc2 := flag v.r F.SVC_STAT_orient
  let link := getF v.r F.SVC_ALT_tap_link
  { cc1 := ccTerm false s, cc2 := ccTerm true s
    srcEn := up && flag v.r F.SVC_STAT_src_en
    snkEn := up && flag v.r F.SVC_STAT_snk_en
    vsel9 := up && flag v.r F.SVC_STAT_src_en && flag v.r F.SVC_PATH_vsel
    disch := up && v.disch
    vconn1 := up && v.vconnEn && cc2
    vconn2 := up && v.vconnEn && !cc2
    sbuTx := if up && flag v.r F.SVC_STAT_alt then some (1 + cc2.toNat) else none
    pairs := 1 + cc2.toNat
    tap := if !up || !tapOn s then .off else if opState s = 2 then .passThrough link else .mirror link }

/-- The SVC registers that show the FIFO and the mode. -/
def svcView (s : State) (ofs : Nat) : Option Word :=
  let v := s.svc
  if ofs = R.SVC_RX then
    let d := 2048 * v.fifo.length
    some (match v.fifo with
      | [] => 0
      | m :: _ => (m.header ++ (0 : Half)) ||| BitVec.ofNat 32 (d + 256 + 16 * (m.objs.length % 8) + m.sop))
  else if R.SVC_RX_DOn 0 ≤ ofs ∧ ofs < R.SVC_RX_DOn 7 then
    some (match v.fifo with
      | [] => 0
      | m :: _ => m.objs.getD ((ofs - R.SVC_RX_DOn 0) / 4) 0)
  else if ofs = R.SVC_ALT then
    some (putBits (kvGet v.r ofs) 0 2 (2 * getF v.r F.SVC_STAT_alt + (tapOn s).toNat))
  else none

/-! ## Commands -/

/-- SERVICE_ISLAND_POWER_UP. -/
def execServiceIslandPowerUp (cc : CcSense) (s : State) : Host.Outcome State Fault Refusal := whenUp (svcPowerUp cc) s
/-- ATTACH. -/
def execAttach (cc : CcSense) (step : AttachStep) (s : State) : Host.Outcome State Fault Refusal := whenUp (svcAttach cc step) s
/-- DETACH. -/
def execDetach (mv : BitVec 16) (s : State) : Host.Outcome State Fault Refusal := whenUp (svcDetach mv.toNat) s
/-- PD_MESSAGE_RECEIVE. -/
def execPdMessageReceive (m : PdMsg) (s : State) : Host.Outcome State Fault Refusal := whenUp (pdReceive m) s
/-- PD_SEND. -/
def execPdSend (_path : Path) (s : State) : Host.Outcome State Fault Refusal := whenUp pdSend s
/-- SEND_SOFT_RESET: to the SOP type of `SVC_TX.sop`. -/
def execSendSoftReset (_path : Path) (s : State) : Host.Outcome State Fault Refusal :=
  whenUp (fun s => sendSoft (getF s.svc.r F.SVC_TX_sop) s) s
/-- SEND_HARD_RESET. -/
def execSendHardReset (_path : Path) (s : State) : Host.Outcome State Fault Refusal := whenUp (hardReset true) s
/-- HARD_RESET_RECEIVE. -/
def execHardResetReceive (s : State) : Host.Outcome State Fault Refusal := whenUp (hardReset false) s
/-- HARD_RESET_RECOVERY. -/
def execHardResetRecovery (s : State) : Host.Outcome State Fault Refusal := whenUp hardResetRecovery s
/-- RESPONSE_TIMEOUT. -/
def execResponseTimeout (s : State) : Host.Outcome State Fault Refusal := whenUp responseTimeout s
/-- GOODCRC_TIMEOUT. -/
def execGoodcrcTimeout (s : State) : Host.Outcome State Fault Refusal := whenUp goodcrcTimeout s
/-- RX_POP. -/
def execRxPop (_path : Path) (s : State) : Host.Outcome State Fault Refusal := whenUp rxPop s
/-- HOST_POLICY_TAKE: the fallback stops; the contract and mode in force stand (R397). -/
def execHostPolicyTake (_path : Path) (s : State) : Host.Outcome State Fault Refusal :=
  whenUp (svcRegs_ fun r => setFlag r F.SVC_CFG_host_pol) s
/-- SOURCE_PATH_REQUEST. -/
def execSourcePathRequest (_path : Path) (s : State) : Host.Outcome State Fault Refusal := whenUp sourcePathRequest s
/-- SOURCE_PATH_CLOSE. -/
def execSourcePathClose (mv : BitVec 16) (s : State) : Host.Outcome State Fault Refusal := whenUp (sourcePathClose mv.toNat) s
/-- SOURCE_GUARD_TIMEOUT. -/
def execSourceGuardTimeout (s : State) : Host.Outcome State Fault Refusal := whenUp sourceGuardTimeout s
/-- PR_SWAP. -/
def execPrSwap (_path : Path) (s : State) : Host.Outcome State Fault Refusal := whenUp prSwap s
/-- PR_SWAP_TIMEOUT. -/
def execPrSwapTimeout (s : State) : Host.Outcome State Fault Refusal := whenUp prSwapTimeout s
/-- PR_SWAP_VBUS_ARRIVAL. -/
def execPrSwapVbusArrival (mv : BitVec 16) (s : State) : Host.Outcome State Fault Refusal := whenUp (prSwapArrival mv.toNat) s
/-- VCONN_SWAP. -/
def execVconnSwap (_path : Path) (s : State) : Host.Outcome State Fault Refusal := whenUp vconnSwap s
/-- VCONN_ON. -/
def execVconnOn (s : State) : Host.Outcome State Fault Refusal := whenUp vconnOn s

end Sys2Proof.Machine
end

