-- ==== Sys2Proof/Machine/Loader.lean ====
section
/-! DEFINITION. The loader (R80 to R98): ownership, the staging buffer, check, fetch, store, abort; the build of the
structure (R84). -/
namespace Sys2Proof.Machine

/-- A change of the IMG registers. -/
def imgRegs_ (f : RegFile → RegFile) (s : State) : State := { s with img := { s.img with r := f s.img.r } }

/-! ## Ownership (R80, R81) -/

/-- A path as `IMG_STAT.owner` names it. -/
def pathCode : Path → Nat
  | .pcie => 1
  | .spi => 2
  | .portA => 3
  | .svc => 4

/-- The owner; the loader runs a job. -/
def imgOwner (s : State) : Nat := getF s.img.r F.IMG_STAT_owner
def imgBusy (s : State) : Bool := flag s.img.r F.IMG_STAT_busy

/-- A write or command is refused (R81). -/
def cmdErr (s : State) : State := imgRegs_ (fun r => setFlag r F.IMG_STAT_cmd_err) s

/-- The buffer has changed: it is no longer checked (R82). -/
def uncheck (s : State) : State :=
  imgRegs_ (fun r => setF r F.IMG_STAT_checked 0) { s with img := { s.img with next := none } }

/-- A command of the owner while no job runs (R81). DEDUCED: log 22. -/
def ownerDo (p : Path) (f : State → State) (s : State) : State :=
  if imgOwner s = pathCode p ∧ ¬ imgBusy s then f s else cmdErr s

/-- CLAIM (R80). -/
def imgClaim (p : Path) (s : State) : State :=
  if imgBusy s ∨ (imgOwner s ≠ 0 ∧ imgOwner s ≠ pathCode p) then cmdErr s
  else
    uncheck (imgRegs_ (fun r => kvSet (kvSet (setF (setF r F.IMG_STAT_owner (pathCode p)) F.IMG_STAT_buf_hwm 0) R.IMG_ERR 0)
      R.IMG_ERR_OFS 0) s)

/-- RELEASE (R80). -/
def imgRelease (p : Path) (s : State) : State := ownerDo p (imgRegs_ fun r => setF r F.IMG_STAT_owner 0) s

/-- TAKE_OVER (R81). -/
def imgTakeOver (p : Path) (s : State) : State :=
  if imgBusy s then cmdErr s else uncheck (imgRegs_ (fun r => setF r F.IMG_STAT_owner (pathCode p)) s)

/-- The owner's path goes down (R80). DEDUCED: log 22. -/
def pathDown (p : Path) (s : State) : State :=
  if imgOwner s = pathCode p then imgRegs_ (fun r => setF r F.IMG_STAT_owner 0) s else s

/-! ## The buffer (R82) -/

/-- IMG_BUFFER_WRITE: a word at window offset `ofs`, 0xC000 to 0xFFFC. -/
def bufferWrite (p : Path) (ofs : Nat) (val : Word) (s : State) : State :=
  ownerDo p (fun s =>
    let a := 16384 * getF s.img.r F.IMG_BUF_PAGE_page + (ofs - 0xC000)
    let r := setF s.img.r F.IMG_STAT_buf_hwm (max (getF s.img.r F.IMG_STAT_buf_hwm) (a + 4))
    uncheck { s with img := { s.img with r := r, buf := s.img.buf.writeBytes a (wordBytes val) } }) s

/-- The word that the window shows at `ofs`. -/
def bufferRead (s : State) (ofs : Nat) : Word :=
  let a := 16384 * getF s.img.r F.IMG_BUF_PAGE_page + (ofs - 0xC000)
  le32 (s.img.buf.read a) (s.img.buf.read (a + 1)) (s.img.buf.read (a + 2)) (s.img.buf.read (a + 3))

/-! ## Jobs (R83, R85) -/

/-- A job starts; `step` is what `IMG_STAT.step` shows. -/
def startJob (j : Job) (step : Nat) (s : State) : State :=
  imgRegs_ (fun r => setF (setFlag r F.IMG_STAT_busy) F.IMG_STAT_step step) { s with img := { s.img with job := some j } }

/-- A check starts; how its time divides among its steps is open (R85): the step it shows is a free value.
DESIGN CHOICE: log 18. -/
def imgCheckStart (forLoad : Bool) (s : State) : State :=
  let (w, s) := drawFree s
  startJob (.check forLoad) (1 + w.toNat % 7) s

/-- A failure is recorded (R88). -/
def setImgErr (e : ImgErr) (s : State) : State :=
  imgRegs_ (fun r => kvSet (setF (setF (setF r F.IMG_ERR_sec_type e.sec) F.IMG_ERR_step e.step) F.IMG_ERR_code e.code)
    R.IMG_ERR_OFS (BitVec.ofNat 32 e.ofs)) s

/-- The nominal d_f of input `a` by an image (R206). -/
def imgDf (im : Img) (a : Nat) : Nat :=
  match im.chans.find? fun c => c.ain == a with
  | some c => chanDf c (im.lanes.getD (a / 8) {}).n
  | none => 0

/-- The packing check of an image over the engines `live` (R131, R135). -/
def imgPackOn (live : BitVec 16) (im : Img) : PackResult :=
  packCheck im.ctxs (imgDf im) (im.strideClk * im.commitPct / 100) live im.spareEng

/-- The packing check of an image over all engines: the build for which it judges lifts every fence (R131, R143, R352).
DEDUCED: log 25. -/
def imgPack (im : Img) : PackResult := imgPackOn 0xFFFF im

/-- The engines that a check counts on: all, but none while the core domain is held in reset (R442, 22_bring_up.md). -/
def checkLive (s : State) : BitVec 16 := if coreReady s then 0xFFFF else 0

/-- Where the image holds what a failed packing check names (R88, R135). -/
def packErr (im : Img) (p : PackResult) : ImgErr :=
  let c := im.ctxs.getD p.ctx {}
  ⟨0x12, 7, 2, if p.reason = 4 then im.loopOfs else if p.reason = 3 then bindOfs c p.bind else c.ofs⟩

/-- Steps 1 to 7 of R55 over the buffer, whose bytes outlast a claim (R80); no step reads beyond the header or `buf_hwm`. -/
def checkBuffer (s : State) : Except (ImgErr × Option PackResult) (Img × PackResult) :=
  let hwm := getF s.img.r F.IMG_STAT_buf_hwm
  match checkImage (s.img.buf.gather 0 (max 64 hwm)).toArray hwm (kvGet s.sys.r R.SYS_ID) (nvmAuthReq s.nvm.mem) (nvmKeyOf s.nvm.mem)
      (fetchSlots s.acq.r) with
  | .error e => .error (e, none)
  | .ok im =>
    let p := imgPackOn (checkLive s) im
    if p.reason = 0 then .ok (im, p) else .error (packErr im p, some p)

/-- `PLC_PACK_STAT` (R135). DEDUCED: log 26. -/
def setPack (p : PackResult) (s : State) : State :=
  let v := min 8191 p.bound * 65536 + p.ctx % 256 * 256 + p.engine * 16 + p.reason
  { s with plc := { s.plc with r := kvSet s.plc.r R.PLC_PACK_STAT (BitVec.ofNat 32 v) } }

/-- The request for LOADED moves on to phase `f`. -/
def setPhase (f : ReqPhase) (s : State) : State :=
  { s with sys := { s.sys with req := s.sys.req.map fun q => { q with phase := f } } }

/-- The build starts (R84): it enables the ports, and the units of LOADED are woken beside it (R241, R328). -/
def startBuild (s : State) : State := arbitrate (enablePorts s.img.next (setPhase .build (startJob .build 8 s)))

/-- A failed check (R83, R84). DEDUCED: log 19. -/
def checkFails (forLoad : Bool) (e : ImgErr) (p : Option PackResult) (s : State) : State :=
  let s := endJob (setImgErr e (imgRegs_ (fun r => setF r F.IMG_STAT_checked 0) { s with img := { s.img with next := none } }))
  if !forLoad then s
  else refuseReq 3 (match p with
    | some p => setPack p s
    | none => s)

/-- CHECK_COMPLETE (R83, R84). DEDUCED: log 19. -/
def checkComplete (s : State) : State :=
  match s.img.job with
  | some (.check forLoad) =>
    match checkBuffer s with
    | .error (e, p) => checkFails forLoad e p s
    | .ok (im, _) =>
      let s := imgRegs_ (fun r => setFlag r F.IMG_STAT_checked) { s with img := { s.img with next := some im } }
      if forLoad then startBuild s else endJob s
  | _ => s

/-! ## Fetch and store (R96 to R98) -/

/-- The image length a slot holds. -/
def slotLen (m : Memory) (slot : Nat) : Nat := nvmWord m (nvmSlot slot + 8)

/-- FETCH (R96). -/
def imgFetch (p : Path) (slot : Nat) (s : State) : State :=
  ownerDo p (fun s =>
    let n := slotLen s.nvm.mem slot
    if !nvmValid s.nvm.mem slot || n < 256 || 114688 < n then setImgErr ⟨0x13, 0, 0, 0⟩ s
    else startJob (.fetch slot) 9 s) s

/-- The first `n` bytes of a slot are in the buffer. -/
def fetchBytes (slot n : Nat) (s : State) : State :=
  { s with img := { s.img with buf := s.img.buf.blit 0 s.nvm.mem (nvmSlot slot) n } }

/-- FETCH_COMPLETE (R96). -/
def fetchComplete (s : State) : State :=
  match s.img.job with
  | some (.fetch slot) =>
    let n := slotLen s.nvm.mem slot
    endJob (uncheck (imgRegs_ (fun r => setF r F.IMG_STAT_buf_hwm n) (fetchBytes slot n s)))
  | _ => s

/-- The outcome of a store (R97). DEDUCED: log 120. -/
def storeErr (e : Nat) (s : State) : State := imgRegs_ (fun r => setF r F.IMG_NVM_STAT_store_err e) s

/-- Write one byte of the store. -/
def nvmByte (a : Nat) (b : Byte) (s : State) : State := { s with nvm := { s.nvm with mem := s.nvm.mem.write a b } }

/-- STORE (R97): it marks the slot invalid first. DEDUCED: log 20. DEDUCED: log 120. -/
def imgStore (p : Path) (slot : Nat) (s : State) : State :=
  ownerDo p (fun s =>
    if !flag s.img.r F.IMG_STAT_checked then storeErr 1 s
    else if nvmActive s.nvm.mem = slot then storeErr 4 s
    else if !flag s.nvm.r F.NVM_STAT_wr_unlocked then storeErr 2 s
    else nvmByte (nvmCtl + 1 + slot) 0 (startJob (.store slot) 10 s)) s

/-- The first `n` bytes of the image are in a slot. DEDUCED: log 20. -/
def storeBytes (slot n : Nat) (s : State) : State :=
  { s with nvm := { s.nvm with mem := s.nvm.mem.blit (nvmSlot slot) s.img.buf 0 n } }

/-- The length of the image in the buffer. DEDUCED: log 20. -/
def bufLen (s : State) : Nat := min 114688 (nvmWord s.img.buf 8)

/-- STORE_COMPLETE (R97, R435): the slot is valid and active, or the comparison failed. -/
def storeComplete (ok : Bool) (s : State) : State :=
  match s.img.job with
  | some (.store slot) =>
    let s := storeBytes slot (bufLen s) s
    if ok then
      let s := nvmByte nvmCtl (BitVec.ofNat 8 slot) (nvmByte (nvmCtl + 1 + slot) 0xA5 s)
      endJob (storeErr 0 { s with nvm := { s.nvm with mem := ctrIncr s.nvm.mem 2 } })
    else endJob (storeErr 3 s)
  | _ => s

/-- ABORT (R86, R98): `moved` bytes of a fetch or store had been copied. DESIGN CHOICE: log 18, 23. DEDUCED: log 19. -/
def imgAbort (p : Path) (moved : Nat) (s : State) : State :=
  if imgOwner s ≠ pathCode p then cmdErr s
  else
    match s.img.job with
    | some (.check forLoad) =>
      let s := endJob (setImgErr ⟨0x14, getF s.img.r F.IMG_STAT_step, 0, 0⟩ s)
      if forLoad then refuseReq 3 s else s
    | some (.fetch slot) =>
      let s := fetchBytes slot (min moved (slotLen s.nvm.mem slot)) s
      endJob (setImgErr ⟨0x14, 0, 0, 0⟩ (uncheck (imgRegs_ (fun r => setF r F.IMG_STAT_buf_hwm 0) s)))
    | some (.store slot) => endJob (storeErr 5 (storeBytes slot (min moved (bufLen s)) s))
    | _ => s

/-- A reset, or the loss of power, cuts a store off (R98): after how many bytes is open, the slot then being invalid, and
in the last single-byte write either slot is active. DESIGN CHOICE: log 21. -/
def storeCut (s : State) : State :=
  match s.img.job with
  | some (.store slot) =>
    let (w, s) := drawFree s
    let len := bufLen s
    let n := w.toNat % (len + 3)
    if n ≤ len then storeBytes slot n s
    else
      let s := nvmByte (nvmCtl + 1 + slot) 0xA5 (storeBytes slot len s)
      if n = len + 1 then s else nvmByte nvmCtl (BitVec.ofNat 8 slot) s
  | _ => s

/-! ## The build (R84) -/

/-- The pacer from TIMEBASE (R28). -/
def buildTbs (im : Img) (s : State) : State :=
  let r := setF (setF (setF s.tbs.r F.TBS_STRIDE_stride_clk im.strideClk) F.TBS_LAP_lap_len im.lapLen) F.TBS_LAP_commit_pct im.commitPct
  let r := setF (setF (setF r F.TBS_SYNC_CFG_wd_pct im.wdPct) F.TBS_SYNC_CFG_holdover_strides im.holdover)
    F.TBS_SYNC_CFG_pace_out_en im.paceOut
  let r := setFI (setF r F.TBS_SYNC_CFG_src im.src) F.TBS_PACE_OFS_pace_ofs im.paceOfs
  -- `hive_delay` is that of a follower alone.
  let r := if im.role = 2 then r else setF r F.TBS_HIVE_STAT_hive_delay 0
  { s with tbs := { s.tbs with r := r, live := [] } }

/-- The bus registers from SHARE and HIVE (R151, R177). -/
def buildBus (im : Img) (b : Bus) : Bus :=
  let r := setF (setF b.r F.BUS_VLIM_v_lo im.vLo) F.BUS_VLIM_v_hi im.vHi
  let r := setF (setF r F.BUS_VSLEW_v_slew im.vSlew) F.BUS_IMAX_i_bus_max im.iBusMax
  let r := setF (setF r F.BUS_LOSS_CFG_loss_hold im.lossHold) F.BUS_LOSS_CFG_loss_ramp im.lossRamp
  let r := setF (setF (setF r F.BUS_STAT_role im.role) F.BUS_VCMD_STAT_target im.vSet) F.BUS_VCMD_STAT_slewed im.vSet
  { b with r := r, live := [], st := {}, tgt := im.vSet, tgtNext := none, slew := 100 * im.vSet, pubCmd := none }

/-- The share unit's registers from SHARE and GROUPING, its banks and phases afresh. DEDUCED: log 24. -/
def buildPlc (im : Img) (p : Plc) : Plc :=
  let r := setF (setF p.r F.PLC_SHARE_CFG_share_slew im.shareSlew) F.PLC_HR_REF_hr_ref im.hrRef
  let r := setFI (setFI r F.PLC_TDER_t_der_lo im.tDerLo) F.PLC_TDER_t_der_hi im.tDerHi
  let r := setF (setF (setF r F.PLC_PHASE_CFG_ph_add im.phAdd) F.PLC_PHASE_CFG_ph_shed im.phShed) F.PLC_EXC_MAX_exc_max im.excMax
  let bank := fun (r : RegFile) (b : Nat) =>
    let x := im.banks.getD b {}
    kvSet r (R.PLC_BANK_CFGn b) (if x.ring = 255 then 0 else BitVec.ofNat 32 (x.iLim * 65536 + x.phMax * 256 + x.phMin))
  { p with r := foldN 24 bank r, live := [], unpl := 0, dis := {}, chg := {}, banks := Vector.replicate 24 {}, ph := Vector.replicate 48 {},
           planned := false, dpRun := false }

/-- The PWM registers from GROUPING; every set in force is 0, the outputs inactive where they are not tripped (R192, R194).
DEDUCED: log 24. -/
def buildPwm (im : Img) (w : Pwm) : Pwm :=
  let r := setF (setF (setF w.r F.PWM_CARRIER_period_clk im.periodClk) F.PWM_CARRIER_carrier im.carrier) F.PWM_CARRIER_reload im.reload
  let ph := fun (r : RegFile) (p : Nat) =>
    let x := im.phases.getD p {}
    let r := setF (setF r (F.PWM_PHn_TIM_dt_rise p) x.dtRise) (F.PWM_PHn_TIM_dt_fall p) x.dtFall
    setF (setF (setF r (F.PWM_PHn_MIN_min_pulse p) x.minPulse) (F.PWM_PHn_MIN_min_mode p) x.minMode) (F.PWM_PH_DUTYn_duty p) 0
  let bound := fun (x : Nat) => im.ctxs.any fun c => c.outs.any fun b => b.kind == 0x14 && b.idx == x
  let aux := fun (r : RegFile) (x : Nat) =>
    if bound x then setF r (F.PWM_AUX_CFGn_src x) 1
    else if getF r (F.PWM_AUX_CFGn_src x) = 1 then setF r (F.PWM_AUX_CFGn_src x) 0 else r
  let carr : Carr := { perClk := im.periodClk, pLen := 8 * im.periodClk }
  { w with r := foldN 8 aux (foldN 48 ph r), live := [], st := {}, refClk := im.periodClk, refLen := 8 * im.periodClk,
           ph := vmapI w.ph fun p x =>
             let t := im.phases.getD p {}
             let x := { x with c := carr, dtRise := t.dtRise, dtFall := t.dtFall, minPulse := t.minPulse, rise := none, sw := false }
             if tripped x then x else { x with h := false, l := false }
           aux := w.aux.map fun _ => { c := carr } }

/-- The ACQ registers from ADCSEQ (R217): calibration at its default, lanes and channels afresh. DEDUCED: log 24. -/
def buildAcq (im : Img) (S : Nat) (q : Acq) : Acq :=
  let lane := fun (r : RegFile) (l : Nat) =>
    let x := im.lanes.getD l {}
    let mux := (List.range 8).foldl (fun a i => a + x.mux.getD i 0 * 8 ^ i) 0
    kvSet (setF (kvSet r (R.ACQ_SEQl l) (BitVec.ofNat 32 mux)) (F.ACQ_SEQl_n l) x.n) (R.ACQ_FETCH_RESl l) 0
  let chan := fun (r : RegFile) (a : Nat) =>
    match im.chans.find? fun c => c.ain == a with
    | none => (List.range 8).foldl (fun r k => kvSet r (R.ACQ_CHn_CFG a + 4 * k) 0) r
    | some c =>
      let r := setF (setF (setF r (F.ACQ_CHn_CFG_present a) 1) (F.ACQ_CHn_CFG_pull a) c.pull) (F.ACQ_CHn_CFG_flim_en a) c.fast.toNat
      let r := setF (setF (setF r (F.ACQ_CHn_FILT_order a) c.order) (F.ACQ_CHn_FILT_ratio a) c.ratio) (F.ACQ_CHn_FILT_notch a) c.notch
      let r := setFI (setFI r (F.ACQ_CHn_FLIM_flim_hi a) c.flimHi) (F.ACQ_CHn_FLIM_flim_lo a) c.flimLo
      kvSet (kvSet (kvSet (kvSet r (R.ACQ_CHn_CAL_OFS a) 0) (R.ACQ_CHn_CAL_GAIN a) 32768) (R.ACQ_CHn_RES a) 0) (R.ACQ_CHn_STAT a) 0
  let r := foldN 128 chan (foldN 16 lane q.r)
  setupChans S { q with r := r, live := [], st := {}, lanes := Vector.replicate 16 {},
                        chans := Vector.ofFn fun (a : Fin 128) => { present := im.chans.any fun c => c.ain == a.val } }

/-- The rail table (R408): without a RAILS section, `count` is 0. -/
def buildSeq (im : Img) (q : Seq) : Seq :=
  let r := setF (setF q.r F.SEQ_CFG_mode im.railMode) F.SEQ_CFG_count im.rails.length
  let rail := fun (r : RegFile) (n : Nat) =>
    let x := im.rails.getD n {}
    let r := setF (setF (setF r (F.SEQ_RAILn_A_slot n) x.slot) (F.SEQ_RAILn_A_pg_in n) x.pgIn) (F.SEQ_RAILn_A_dep_mask n) x.depMask.toNat
    let r := setF (setF r (F.SEQ_RAILn_B_pg_timeout n) x.pgTo) (F.SEQ_RAILn_B_fall_timeout n) x.fallTo
    setF (setF (setF r (F.SEQ_RAILn_C_fall_ain n) x.fallAin) (F.SEQ_RAILn_C_on_stuck n) x.onStuck) (F.SEQ_RAILn_C_fall_code n) x.fallCode
  { q with r := if im.rails.isEmpty then setF q.r F.SEQ_CFG_count 0 else foldN (min 16 im.rails.length) rail r }

/-- The arbiter's budgets from BUDGET; no ring has a balancing grant until a lap boundary (R338). DEDUCED: log 28. -/
def buildBgt (im : Img) (b : Bgt) : Bgt :=
  let r := setF (setF b.r F.BGT_CORE_CFG_core_ma im.coreMa) F.BGT_CORE_CFG_core_didt im.coreDidt
  let r := setF (setF r F.BGT_GD_CFG_gd_ma_phase im.gdPhase) F.BGT_GD_CFG_gd_ma_total im.gdTotal
  let r := foldN 24 (fun r x => kvSet r (R.BGT_BAL_GRANTr x) 0) r
  { b with r := setF (setF r F.BGT_BAL_CFG_bal_mw_ring im.balRing) F.BGT_BAL_TOTAL_bal_mw_total im.balTotal, live := [] }

/-- `PLC_N1_STAT` and `bg_over` of the placement in force (R135, R136). DEDUCED: log 30. -/
def setN1 (cs : List CtxRec) (df : Nat → Nat) (C : Nat) (s : State) : State :=
  let (bench, crit) := lossOf cs df C (fun c => s.flt.fCtx.getLsbD c) s.plc.pl
  let r := setF (kvSet s.plc.r R.PLC_N1_STAT (crit ++ bench)) F.PLC_PLACE_STAT_n1_valid 1
  { s with plc := { s.plc with n1Run := false, r := r } }

/-- The contexts are placed (R131 to R136). DEDUCED: log 25. -/
def installPlacement (im : Img) (p : PackResult) (s : State) : State :=
  setN1 im.ctxs (imgDf im) (im.strideClk * im.commitPct / 100)
    (setPack p { s with plc := { s.plc with pl := p.pl, r := setF s.plc.r F.PLC_PLACE_STAT_valid 1 } })

/-- The structure is built from an image whose contexts are placed as `p` says (R84, R352). DEDUCED: log 24. -/
def buildAll (im : Img) (p : PackResult) (s : State) : State :=
  let s := buildTbs im s
  let s := { s with cea := buildCea im s.cea, bus := buildBus im s.bus, plc := buildPlc im s.plc, seq := buildSeq im s.seq,
                    bgt := buildBgt im s.bgt, acq := buildAcq im im.strideClk s.acq }
  let s := buildCsv im (buildFlt im s)
  let s := { s with pwm := buildPwm im s.pwm }
  let r := kvSet (kvSet s.img.r R.IMG_ID_IN_FORCE im.id) R.IMG_VER_IN_FORCE im.ver
  tripRelatch (installPlacement im p { s with img := { s.img with str := im, r := r }, sys := { s.sys with built := true } })

/-- The loader's registers that show state: the mirror of the store's control bytes (R428). -/
def imgView (s : State) (ofs : Nat) : Option Word :=
  if ofs = R.IMG_NVM_STAT then
    let m := s.nvm.mem
    some (BitVec.ofNat 32 (getF s.img.r F.IMG_NVM_STAT_store_err * 256 + nvmActive m * 16 + (nvmValid m 1).toNat * 2 + (nvmValid m 0).toNat))
  else none

/-! ## Commands -/

/-- CLAIM. -/
def execClaim (path : Path) (s : State) : Host.Outcome State Fault Refusal := whenUp (imgClaim path) s
/-- RELEASE. -/
def execRelease (path : Path) (s : State) : Host.Outcome State Fault Refusal := whenUp (imgRelease path) s
/-- TAKE_OVER. -/
def execTakeOver (path : Path) (s : State) : Host.Outcome State Fault Refusal := whenUp (imgTakeOver path) s
/-- CHECK (R83). -/
def execCheck (path : Path) (s : State) : Host.Outcome State Fault Refusal := whenUp (ownerDo path (imgCheckStart false)) s
/-- CHECK_COMPLETE. -/
def execCheckComplete (s : State) : Host.Outcome State Fault Refusal := whenUp checkComplete s
/-- FETCH. -/
def execFetch (path : Path) (slot : Bool) (s : State) : Host.Outcome State Fault Refusal := whenUp (imgFetch path slot.toNat) s
/-- FETCH_COMPLETE. -/
def execFetchComplete (s : State) : Host.Outcome State Fault Refusal := whenUp fetchComplete s
/-- STORE. -/
def execStore (path : Path) (slot : Bool) (s : State) : Host.Outcome State Fault Refusal := whenUp (imgStore path slot.toNat) s
/-- STORE_COMPLETE. -/
def execStoreComplete (readBackOk : Bool) (s : State) : Host.Outcome State Fault Refusal := whenUp (storeComplete readBackOk) s
/-- ABORT. -/
def execAbort (path : Path) (moved : Nat) (s : State) : Host.Outcome State Fault Refusal := whenUp (imgAbort path moved) s
/-- IMG_BUFFER_WRITE: a word of the buffer's window. -/
def execImgBufferWrite (path : Path) (ofs : Nat) (val : Word) (s : State) : Host.Outcome State Fault Refusal :=
  whenUp (bufferWrite path ofs val) s

end Sys2Proof.Machine
end

