-- ==== Sys2Proof/Machine/Boundary.lean ====
section
/-! DEFINITION. What a stride boundary does, in the order of R24, and the other clocked events of a stride: the commit
point, data placement, the single-engine-loss analysis. -/
namespace Sys2Proof.Machine

/-! ## Step 1: fences and safe outputs (R138, R142, R213, R345 to R348) -/

/-- The index set of the units fenced now and not before. DEDUCED: log 30. -/
def newly {w : Nat} (was now : BitVec w) : List Nat := bitsOf (now &&& ~~~was)

/-- Entries of queue 10 that wait for stream `i`. DEDUCED: log 105. -/
def q10Count (s : State) (i : Nat) : Nat := (vget s.acq.strs i {}).q.length + dmaHeld s.hst i

/-- Entries of queue 3: sets queued, committed or eligible. DEDUCED: log 105. -/
def q3Count (w : Pwm) : Nat :=
  (w.ph.toList.map fun x => x.c.queued.isSome.toNat + x.c.committed.isSome.toNat + x.c.eligible.isSome.toNat).sum

/-- Count a queue's entries as flushed, where there are any. DEDUCED: log 105. -/
def flushed (q ring n : Nat) (s : State) : State := if n = 0 then s else qFlush q ring n s

/-- Queues 0 to 3 and 10 are emptied (R13). -/
def flushQ0 (s : State) : State := flushed 0 0 s.acq.q0.length { s with acq := { s.acq with q0 := [] } }
def flushQ1 (s : State) : State := flushed 1 0 s.bus.q1.length { s with bus := { s.bus with q1 := [] } }
def flushQ2 (s : State) : State := flushed 2 0 s.plc.q2.length { s with plc := { s.plc with q2 := [] } }
def flushQ3 (s : State) : State :=
  let none3 := fun (c : Carr) => { c with queued := none, committed := none, eligible := none }
  flushed 3 0 (q3Count s.pwm) { s with pwm := { s.pwm with ph := s.pwm.ph.map fun x => { x with c := none3 x.c } } }
def flushQ10 (s : State) : State :=
  flushed 10 0 ((List.range 4).map (q10Count s)).sum
    { s with acq := { s.acq with strs := s.acq.strs.map fun x => { x with q := [] } }
             hst := { s.hst with dma := s.hst.dma.map fun d => { d with q := d.q.filter fun e => 4 ≤ e.1 } } }

/-- Units newly fenced empty the queues they stand at an end of (R13): a lane queues 0 and 10, a context and its engine queues 0, 2
and 3, the bus-loop context and its engine queue 1 as well; `at_` is the placement in force when the fence applies.
DEDUCED: log 30. DEDUCED: log 105. -/
def fenceFlush (was : Flt) (at_ : Placement) (s : State) : State :=
  let engs := newly was.fEng s.flt.fEng
  let ctxs := newly was.fCtx s.flt.fCtx
  let lane : Bool := !(newly was.fLane s.flt.fLane).isEmpty
  let ctl : Bool := !engs.isEmpty || !ctxs.isEmpty
  let bus := fun (c : Nat) => (s.img.str.ctxs.getD c {}).outs.any fun o => o.kind == 0x12
  let loop : Bool := ctxs.any bus || engs.any fun e => (vget at_.run e []).any bus
  let s := if ctl || lane then flushQ0 s else s
  let s := if loop then flushQ1 s else s
  let s := if ctl then flushQ3 (flushQ2 s) else s
  if lane then flushQ10 s else s

/-- Contexts newly fenced are benched (R142). -/
def benchFenced (was : BitVec 256) (s : State) : State :=
  { s with plc := { s.plc with pl := (newly was s.flt.fCtx).foldl (benchCtx s.img.str.ctxs) s.plc.pl } }

/-- Step 1 of R24; the flag says whether the shares jump at this boundary (R162). -/
def stepFaults (s : State) : State × Bool :=
  let was := s.flt
  let elig := (List.range 24).filter (bankElig s)
  let s := { s with flt := fltFences s.flt, plc := { s.plc with cLim := degradeLimit s.flt } }
  let s := shareSafe (benchFenced was.fCtx (fenceFlush was s.plc.pl s))
  (s, computing s && elig.any fun b => !bankElig s b)

/-! ## Step 2: re-placement (R137 to R144) -/

/-- A re-placement applies at this boundary: the live engines differ from those of the placement in force, or a context's
fence has lifted; `was` are the contexts fenced before. -/
def replaceDue (was : BitVec 256) (s : State) : Bool :=
  s.plc.pl.live != ~~~s.flt.fEng || !(newly s.flt.fCtx was).isEmpty

/-- A critical context that a re-placement leaves unplaced trips its phases (R141). -/
def critUnplaced (s : State) (c : Nat) : State :=
  let s := latchOn (ctxPhases s.img.str (s.img.str.ctxs.getD c {})) (fun x => { x with crit := true }) s
  raise 1 c 255 { s with plc := { s.plc with r := setFlag s.plc.r F.PLC_PLACE_STAT_crit_unplaced } }

/-- A context that a re-placement moves from placed to benched (R140). -/
def benchedNow (s : State) (c : Nat) : State :=
  raise 4 c 255 { s with plc := { s.plc with r := setFlag s.plc.r F.PLC_PLACE_STAT_benched_new } }

/-- What a re-placement does about the contexts it leaves unplaced: those it benched, then the critical ones that none left
unplaced before; a fenced context is not placed by it at all (R140 to R142). -/
def leftUnplaced (old : List Nat) (s : State) : State :=
  let out := (benchedOf s.plc.pl).filter fun c => !s.flt.fCtx.getLsbD c
  let crit := out.filter fun c => (s.img.str.ctxs.getD c {}).cls == 0
  let new := (benchedOf s.plc.pl).filter fun c => !old.contains c
  let fresh := crit.filter fun c => !s.plc.unpl.getLsbD c
  let each := fun (s : State) c =>
    let s := if new.contains c then benchedNow s c else s
    if fresh.contains c then critUnplaced s c else s
  (benchedOf s.plc.pl).foldl each { s with plc := { s.plc with unpl := ofBits 256 crit } }

/-- Step 2 of R24. -/
def stepReplace (was : Flt) (s : State) : State :=
  if !replaceDue was.fCtx s then { s with tbs := { s.tbs with replStride := false } }
  else
    let old := benchedOf s.plc.pl
    let p := replaceCtxs s.img.str.ctxs (dfOf s) (commitClk s) (fun c => s.flt.fCtx.getLsbD c) (~~~s.flt.fEng) s.plc.pl
    let r := setF (incF s.plc.r F.PLC_PLACE_STAT_replace_cnt 1) F.PLC_PLACE_STAT_n1_valid 0
    let r := match (newly was.fEng s.flt.fEng).getLast? with
      | some e => setF r F.PLC_PLACE_STAT_last_fenced e
      | none => r
    let s := { s with plc := { s.plc with pl := p, r := r, n1Run := true }, cea := checkAfresh s.cea, tbs := { s.tbs with replStride := true } }
    leftUnplaced old s

/-! ## Step 3: staged sets and live fields (R8, R9, R90, R93) -/

/-- The staging of a block with staged fields. -/
def stagingOf (b : Nat) (s : State) : Staging :=
  match b with
  | 4 => s.cea.st
  | 5 => s.bus.st
  | 6 => s.pwm.st
  | 7 => s.acq.st
  | 10 => s.csv.st
  | _ => {}

/-- Replace it. -/
def putStaging (b : Nat) (t : Staging) (s : State) : State :=
  match b with
  | 4 => { s with cea := { s.cea with st := t } }
  | 5 => { s with bus := { s.bus with st := t } }
  | 6 => { s with pwm := { s.pwm with st := t } }
  | 7 => { s with acq := { s.acq with st := t } }
  | 10 => { s with csv := { s.csv with st := t } }
  | _ => s

/-- The blocks that hold staged fields (R95). -/
def stagedBlocks : List Nat := [4, 5, 6, 7, 10]

/-- The check of a captured set against the values in force: 0, or its refusal reason (R93, R94). DEDUCED: log 27. -/
def judgeSet (b : Nat) (ps : List Pend) (s : State) : Nat :=
  let r := overlay (blkRegs b s) ps
  if b = 4 then ceaJudge ps s.cea
  else if b = 5 then busJudge s.bus r
  else if b = 6 then pwmJudge s.img.str r
  else if b = 7 then acqJudge s.acq r
  else csvJudge s.img.str r

/-- An accepted set takes effect. -/
def applySet (b : Nat) (ps : List Pend) (s : State) : State :=
  if b = 4 then { s with cea := ceaApply ps s.cea }
  else if b = 10 then csvApply (overlay s.csv.r ps) s
  else setRegs b (overlay (blkRegs b s) ps) s

/-- `blk_COMMIT_STAT` after a set was judged (R93). -/
def commitStat (code : Nat) (r : RegFile) : RegFile :=
  let r := setF (setF r F.blk_COMMIT_STAT_pending 0) F.blk_COMMIT_STAT_reason code
  setFlag r (if code = 0 then F.blk_COMMIT_STAT_accepted else F.blk_COMMIT_STAT_refused)

/-- A captured set is judged, and applied or dropped (R93); the blocks of `bad` hold a staging copy that fails its parity
(R94). DEDUCED: log 27. DESIGN CHOICE: log 102. -/
def settleSet (bad : BitVec 21) (s : State) (b : Nat) : State :=
  let t := stagingOf b s
  match t.cap with
  | none => s
  | some ps =>
    let s := if bad.getLsbD b then raiseParity b s else s
    let code := if bad.getLsbD b then 5 else judgeSet b ps s
    let s := if code = 0 then applySet b ps s else s
    let s := putStaging b { stg := t.stg.drop ps.length, cap := none } s
    irq 3 (setRegs b (commitStat code (blkRegs b s)) s)

/-- The live fields that are plain register fields. -/
def liveRegs (s : State) : State :=
  { s with tbs := { s.tbs with r := overlay s.tbs.r s.tbs.live, live := [] },
           plc := { s.plc with r := overlay s.plc.r s.plc.live, live := [] },
           bus := { s.bus with r := overlay s.bus.r s.bus.live, live := [] },
           acq := { s.acq with r := overlay s.acq.r s.acq.live, live := [] },
           cea := { ceaLive s.cea.live s.cea with live := [] },
           bgt := bgtLive s.bgt }

/-- Step 3 of R24; `bad` are the blocks whose staging copies fail their parity. -/
def stepFields (bad : BitVec 21) (s : State) : State :=
  let s := stagedBlocks.foldl (settleSet bad) s
  let s := fltLive (csvLive (liveRegs s))
  { s with bus := busSlew s.bus }

/-! ## The boundary (R24, R31, R37) -/

/-- The lap boundary's part (R37). DEDUCED: log 29. -/
def stepLap (jumped : Bool) (lenOld : Nat) (s : State) : State :=
  let s := shareReturn s
  let s := if computing s then shareLap jumped lenOld s else { s with plc := { s.plc with planned := false } }
  let s := (mapRings s).foldl (fun s r => csvLap (ringLap s r) r) s
  irq 9 (balGrants { s with flt := { s.flt with degNow := degradeReach s.flt } })

/-- Step 6 of R24. DEDUCED: log 108. -/
def stepShares (s : State) : State := parkDue (spxClip (shareStep (excitation s) s))

/-- Compare sets committed in the stride that ended become eligible (R31); one still waiting is replaced (R16).
DEDUCED: log 36. -/
def setsEligible (s : State) : State :=
  let lost := (s.pwm.ph.toList.filter fun x => setLost x.c).length
  let w := { s.pwm with ph := s.pwm.ph.map fun x => { x with c := eligibleSet x.c }, clipped := false,
                        aux := s.pwm.aux.map fun x => { x with c := eligibleSet x.c } }
  let s := { s with pwm := w }
  if lost = 0 then s else qOvr 3 0 lost s

/-- The blocks of `bad` hold a word that fails its parity (R17). DESIGN CHOICE: log 102. -/
def regParity (bad : BitVec 21) (s : State) : State :=
  ((List.range 21).filter fun b => bad.getLsbD b).foldl (fun s b => raiseParity b s) s

/-- What the units do at clock 0 beside the steps of R24 (R31): lanes, contexts, compare sets, batons, marks, `PACE_OUT`. -/
def stepUnits (badRef : BitVec 16) (was : BitVec 16) (late : Bool) (old : Nat) (s : State) : State :=
  let s := acqBoundary was old s
  let s := laneRefCheck (if getBit s.sys.r R.SYS_PWR_STAT 2 then badRef else 0xFFFF) s
  let s := setsEligible { s with cea := ceaBoundary late s.cea, acq := owStride s.acq }
  let s := paceOut (hiveMark (ringsBoundary s))
  let s := { s with hst := dmaBoundary s.hst, flt := hardBoundary s.flt }
  let s := arbitrate s
  { s with bgt := availUnits s.bgt }

/-- The ordered changes of R24 at the boundary that begins the stride in progress; `old` is the stride that ended, `late` says
that it ended at C + 64 or before (R34), `chk` what the checks find wrong. -/
def strideBody (chk : BoundaryChecks) (late : Bool) (old : Nat) (s : State) : State :=
  let was := s.flt
  let (s, jumped) := stepFaults s
  let s := stepReplace was s
  let lenOld := lapLen s
  let s := stepFields chk.staged s
  let s := if computing s then applyCommand (old % 256) s else s
  let s := spxBoundary (if strideInLap s = 0 then stepLap jumped lenOld s else s)
  let s := if computing s then stepShares s else s
  regParity chk.regs (stepUnits chk.lanes was.fLane late old s)

/-! ## The commit point (R31 to R34) -/

/-- The leader's command leaves and enters queue 1 (R31, R152); a device alone is its own leader (R25). -/
def sendCommand (s : State) : State :=
  match s.bus.pubCmd with
  | none => s
  | some c =>
    let s := { s with bus := { s.bus with pubCmd := none } }
    if s.img.str.role = 2 then s
    else
      let e : Q1Entry := { c := c, v := s.bus.slew / 100, tag := strideTag s }
      let s := q1Put e s
      if s.img.str.role = 1 then hiveSend (commitClk s) 2 false (entryBits e) s else s

/-- Compare sets are latched towards the PWM (R31). -/
def setsCommit (w : Pwm) : Pwm :=
  { w with ph := w.ph.map fun x => { x with c := commitSet x.c }, aux := w.aux.map fun x => { x with c := commitSet x.c } }

/-- COMMIT_POINT: `shadowBad` are the engines whose section check differs. -/
def commitPoint (shadowBad : BitVec 16) (s : State) : State :=
  if !strides s || s.tbs.committed then s
  else
    let s := { s with tbs := { s.tbs with committed := true, clock := max s.tbs.clock (commitClk s) } }
    let s :=
      if computing s then
        let s := abortAll (foldN 16 (fun s e => contextComplete e s) s)
        let s := foldN 16 (shadowCheck shadowBad) s
        sendCommand (foldN s.img.str.plaus.length evalModel s)
      else s
    snapCapture { s with pwm := setsCommit s.pwm }

/-! ## Data placement (R22, R31, R268) -/

/-- DATA_PLACEMENT: in stride L − 1 the schedules of the READY rings are planned from the values in force. -/
def dataPlacement (s : State) : State :=
  if !strides s || strideInLap s + 1 ≠ lapLen s || s.plc.dpRun then s
  else
    let s := spxPlan s
    let plan := fun r =>
      let p := streamPlan s r
      (r, planRing s r p.2.1 p.2.2 fun _ => p.1)
    { s with plc := { s.plc with dpRun := true },
             rng := { s.rng with plans := ((mapRings s).filter fun r => ringState s r == 6).map plan } }

/-- DATA_PLACEMENT_COMPLETE: the schedules go to queue 8 in stride L − 1; a placement that ends later is counted late, and
the schedules in force stay (R16, R31). DEDUCED: log 31. -/
def dataPlaced (s : State) : State :=
  if !s.plc.dpRun then s
  else
    let plans := s.rng.plans
    let s := { s with plc := { s.plc with dpRun := false }, rng := { s.rng with plans := [] } }
    if strides s && strideInLap s + 1 = lapLen s then plans.foldl (fun s x => q8Put x.1 x.2 s) s
    else { s with plc := { s.plc with dpLate := s.plc.dpLate + 1 } }

/-- N1_ANALYSIS_COMPLETE (R136). -/
def n1Done (s : State) : State :=
  if s.plc.n1Run then setN1 s.img.str.ctxs (dfOf s) (commitClk s) s else s

/-! ## The leader's loss (R176) -/

/-- LOSS_HOLD_EXPIRY and LEADER_LOST name what the count of missing boundaries brings about: c and `loss_state` follow m. -/
def lossEvent (st : Nat) (s : State) : State :=
  if computing s && getF s.bus.r F.BUS_HIVE_STAT_loss_state != 0 &&
      (lossOfM s.bus.cHeld s.bus.m (getF s.bus.r F.BUS_LOSS_CFG_loss_hold) (getF s.bus.r F.BUS_LOSS_CFG_loss_ramp)).2 == st
  then settleLoss s else s

/-! ## The registers that show the placement (R135, R136, R139) -/

/-- A register of the placement engine. DEDUCED: log 110. DESIGN CHOICE: log 122. -/
def placeView (s : State) (ofs : Nat) : Option Word :=
  let w := fun (n : Nat) => some (BitVec.ofNat 32 n)
  let p := s.plc.pl
  let cs := s.img.str.ctxs
  let map16 := fun (v : BitVec 16) => v.toNat
  if ofs = R.PLC_PLACE_STAT then
    let due : Bool := strides s && replaceDue s.flt.fCtx { s with flt := fltFences s.flt }
    let r := setF (setF s.plc.r F.PLC_PLACE_STAT_benched (benchedOf p).length) F.PLC_PLACE_STAT_replace_pending due.toNat
    let r := setF (setF r F.PLC_PLACE_STAT_bg_over (bgOver cs (commitClk s) p).toNat) F.PLC_PLACE_STAT_valid (strides s).toNat
    some (kvGet r ofs)
  else if ofs = R.PLC_ENG_ROLE then
    if !s.sys.built then w 0 else w (map16 p.spare * 65536 + map16 (p.live &&& ~~~p.spare))
  else if 0x120 ≤ ofs ∧ ofs < 0x140 then
    let n := (ofs - 0x120) / 4
    let b := benchedOf p
    some (ofBits 32 ((List.range 32).filter fun i => b.contains (32 * n + i)))
  else if 0x140 ≤ ofs ∧ ofs < 0x180 then
    let e := (ofs - 0x140) / 4
    let l := vget p.run e []
    w (min 8191 ((l.map fun c => (p.at_ c).bound).foldl max 0) * 65536 + min 8191 ((l.map fun c => (cs.getD c {}).wc).sum))
  else if 0x400 ≤ ofs ∧ ofs < 0x800 then
    let c := (ofs - 0x400) / 4
    if cs.length ≤ c then w 0
    else
      let x := p.at_ c
      w (x.placed.toNat * 2 ^ 31 + (s.flt.fCtx.getLsbD c).toNat * 2 ^ 30 + (cs.getD c {}).cls * 2 ^ 28 + x.engine * 2 ^ 24 +
        (if x.placed then runPos p c * 65536 + min 8191 x.bound else 0))
  else none

/-! ## Commands -/

/-- COMMIT_POINT. -/
def execCommitPoint (shadowBad : BitVec 16) (s : State) : Host.Outcome State Fault Refusal := whenCore (commitPoint shadowBad) s
/-- ENGINE_ABORT_TIMEOUT. -/
def execEngineAbortTimeout (e : Fin 16) (s : State) : Host.Outcome State Fault Refusal := whenCore (engineAbortTimeout e) s
/-- CURRENT_PLACEMENT. -/
def execCurrentPlacement (s : State) : Host.Outcome State Fault Refusal := whenCore currentPlacement s
/-- DATA_PLACEMENT. -/
def execDataPlacement (s : State) : Host.Outcome State Fault Refusal := whenCore dataPlacement s
/-- DATA_PLACEMENT_COMPLETE. -/
def execDataPlacementComplete (s : State) : Host.Outcome State Fault Refusal := whenCore dataPlaced s
/-- N1_ANALYSIS_COMPLETE. -/
def execN1AnalysisComplete (s : State) : Host.Outcome State Fault Refusal := whenCore n1Done s
/-- LOSS_HOLD_EXPIRY: `loss_state` 3. -/
def execLossHoldExpiry (s : State) : Host.Outcome State Fault Refusal := whenCore (lossEvent 3) s
/-- LEADER_LOST: `loss_state` 4. -/
def execLeaderLost (s : State) : Host.Outcome State Fault Refusal := whenCore (lossEvent 4) s
/-- LEADER_LOST_CLEAR: a host write of 1 to `BUS_STAT.leader_lost`. -/
def execLeaderLostClear (_path : Path) (s : State) : Host.Outcome State Fault Refusal := whenCore clearLeaderLost s

end Sys2Proof.Machine
end

