-- ==== Sys2Proof/Machine/States.lean ====
section
/-! DEFINITION. The operating states (R325 to R330): requests, their checks, the points at which they take effect, entry to
LOADED, and the stride and lap boundaries. -/
namespace Sys2Proof.Machine

/-! ## Queues emptied on entry to LOADED (R13) -/

/-- Every queue is emptied and its credits are restored (R13). DESIGN CHOICE: log 12. DEDUCED: log 24. DEDUCED: log 105. -/
def flushAll (s : State) : State :=
  let s := flushQ10 (flushQ3 (flushQ2 (flushQ1 (flushQ0 s))))
  let s := flushed 6 0 s.spx.q6.length (flushed 7 0 s.plc.q7.length (flushed 9 0 s.flt.q9.length s))
  let s := foldN 24 (fun s r =>
    let x := ringOf s r
    flushed 4 r x.q4.length (flushed 5 r x.q5.length (flushed 8 r x.q8.length s))) s
  { s with plc := { s.plc with q7 := [] }
           flt := { s.flt with q9 := [] }
           spx := { s.spx with q6 := [] }
           rng := { s.rng with ring := s.rng.ring.map fun x => { x with q4 := [], q5 := [], q8 := [] } } }

/-! ## Taking effect (R328, R330) -/

/-- `SYS_STATE_STAT` when state `t` comes into force; a request of the state in force does the same (R326). DEDUCED: log 35. -/
def stateDone (t : Nat) (s : State) : State :=
  irq 1 { s with sys := { s.sys with
    req := none
    r := setF (setF (setFlag (setF s.sys.r F.SYS_STATE_STAT_state t) F.SYS_STATE_STAT_done) F.SYS_STATE_STAT_busy 0)
      F.SYS_STATE_STAT_target 0 } }

/-- Strides stop (R328): rings go to OFF, no conversions are made, phases that are not tripped are inactive (R194).
DESIGN CHOICE: log 12. -/
def stopStrides (s : State) : State :=
  let s := stopDone (pacerStop (ringsOff s))
  { s with acq := { s.acq with lanes := s.acq.lanes.map fun x => { x with running := false, fetch := false, late := false, pipe := [] } }
           plc := { s.plc with dpRun := false }
           pwm := { s.pwm with ph := s.pwm.ph.map idlePhase }
           rng := { s.rng with plans := [] } }

/-- State `t` comes into force (R328, R330). DEDUCED: log 112. -/
def applyState (t : Nat) (s : State) : State :=
  let old := opState s
  let s := if old = 6 ∧ t ≠ 6 then spxLeaveRun s else s
  let s := stateDone t s
  let s := if t = 3 then { s with sys := { s.sys with idled := true } } else s
  let s := if old = 4 ∧ t = 5 then shareArm { s with cea := ceaArm s.cea } else s
  let s := if 5 ≤ old ∧ t = 4 then shareStop s else s
  let s := if 4 ≤ old ∧ t ≤ 3 then stopStrides s else s
  let s := if t = 3 then twoClocks s else s
  setFaultN (arbitrate s)

/-- Entry to LOADED with the structure `im`: its values overwrite what the host wrote since the request, the ownership of the
loader ends (R80), stride 0 begins (R13, R28, R84, R90). DEDUCED: log 22, 29. DEDUCED: log 112. -/
def enterLoaded (im : Img) (s : State) : State :=
  let s := buildAll im (imgPack im) (flushAll { s with img := { s.img with ready := none } })
  let s := applyState 4 (imgRegs_ (fun r => setF r F.IMG_STAT_owner 0) s)
  let s := ringsTrain (startPorts (pacerStart { s with pwm := refStart s.pwm }))
  strideBody {} false 0 s

/-- A pending request whose units are awake takes effect (R328). DEDUCED: log 35. -/
def tryChange (s : State) : State :=
  match s.sys.req with
  | some q =>
    if q.phase = .units ∧ (unitsReady s ∨ ¬ coreReady s) then applyState q.target s
    else if q.phase = .build ∧ unitsReady s then
      match s.img.ready with
      | some im => enterLoaded im s
      | none => s
    else s
  | none => s

/-! ## The check on a request for ARMED (R89) -/

/-- The image in force with the values that registers hold now. -/
def regImg (s : State) : Img :=
  { s.img.str with src := paceSrc s, rails := railTable s.seq.r }

/-- BAR0 offset of offset `ofs` of block `b` (R358). -/
def barOfs (b ofs : Nat) : Nat := b * 65536 + ofs

/-- The register that an item of the cross-section rules stands in; `rule` is the rule's row. -/
def itemReg (rule : Nat) : Item → Nat × Nat
  | .rail n => (0xFFFF, barOfs 17 (if rule = 0 then R.SEQ_RAILn_C n else R.SEQ_RAILn_A n))
  | .timebase => (0xFFFF, barOfs 1 R.TBS_SYNC_CFG)
  | .chan k => (0xFFFF, barOfs 7 (R.ACQ_CHn_CFG k))
  | .bank b => (0xFFFF, barOfs 3 (R.PLC_BANK_CFGn b))
  | _ => (0xFFFF, barOfs 4 R.CEA_WIN_SEL)

/-- The first cross-section rule that fails over the register state, and its register. -/
def regCross (s : State) : Option Nat :=
  let rules := crossRules (regImg s)
  (List.range rules.length).findSome? fun i => (leastItem (itemReg i) (rules.getD i [])).map (·.2)

/-- The lane's sequence breaks R68: positions repeat, or a channel's input is missing. DEDUCED: log 26. -/
def laneBad (s : State) (l : Nat) : Bool :=
  let mux := (laneOf s.acq.r l).mux
  decide mux.Nodup == false ||
    (List.range 8).any fun m => (vget s.acq.chans (8 * l + m) {}).present && !inSequence s.acq.r (8 * l + m)

/-- The notch limit of R209 over the registers. -/
def notchBad (s : State) (a : Nat) : Bool :=
  (vget s.acq.chans a {}).present &&
    !notchOk (chanOf s.acq.r a) (getF s.acq.r (F.ACQ_SEQl_n (a / 8))) (fetchSlots s.acq.r (a / 8)) (strideLen s)

/-- The packing check over the registers (R131, R135). DEDUCED: log 26. -/
def regPack (s : State) : PackResult :=
  packCheck s.img.str.ctxs (dfOf s) (commitClk s) (~~~s.flt.fEng) s.img.str.spareEng

/-- The failure of R89, or none. DEDUCED: log 25. -/
def armCheck (s : State) : Option ImgErr :=
  match regCross s with
  | some o => some ⟨0x0F, 6, 0xFFFF, o⟩
  | none =>
    match (List.range 16).find? (laneBad s) with
    | some l => some ⟨0x0C, 5, 0xFFFF, barOfs 7 (R.ACQ_SEQl l)⟩
    | none =>
      match (List.range 128).find? (notchBad s) with
      | some a => some ⟨0x0C, 5, 0xFFFF, barOfs 7 (R.ACQ_CHn_FILT a)⟩
      | none =>
        let p := regPack s
        if p.reason = 0 then none
        else some ⟨0x12, 7, 0xFFFF, if p.reason = 4 then barOfs 4 R.CEA_ENG_STAT else barOfs 3 (R.PLC_CTX_MAPn p.ctx)⟩

/-! ## Requests (R326 to R329) -/

/-- The permitted transitions (R326). -/
def permitted (a b : Nat) : Bool :=
  [(1, 2), (1, 3), (2, 1), (2, 3), (3, 1), (3, 2), (3, 4), (4, 3), (4, 5), (5, 4), (5, 6), (6, 4), (6, 7), (7, 4),
   (7, 6)].contains (a, b)

/-- The request becomes pending (R327). -/
def acceptReq (t : Nat) (f : ReqPhase) (s : State) : State :=
  { s with sys := { s.sys with
    req := some { target := t, phase := f }
    r := setF (setF s.sys.r F.SYS_STATE_STAT_busy 1) F.SYS_STATE_STAT_target t } }

/-- A request while another is pending is refused, and the pending one goes on (R327). -/
def refuseSecond (s : State) : State :=
  irq 1 { s with sys := { s.sys with r := setFlag (setF s.sys.r F.SYS_STATE_STAT_reason 2) F.SYS_STATE_STAT_refused } }

/-- A request for LOADED (R84). DESIGN CHOICE: log 4. -/
def reqLoadedNow (s : State) : State :=
  if imgBusy s then refuseReq 10 s
  else if flag s.img.r F.IMG_STAT_checked then startBuild (acceptReq 4 .build s)
  else imgCheckStart true (acceptReq 4 .check s)

/-- A request for ARMED from LOADED (R44, R89, R216, R240, R263). -/
def reqArmedNow (s : State) : State :=
  match armCheck s with
  | some e =>
    let p := regPack s
    refuseReq 4 (setImgErr e (if e.code = 0x12 then setPack p s else s))
  | none =>
    let s := setPack {} s
    if !flag s.acq.r F.ACQ_STAT_ref_ready then refuseReq 5 s
    else if !ringsArmOk s then refuseReq 6 s
    else if s.img.str.role = 1 ∧ 1 < s.img.str.hSize then
      acceptReq 5 (.hive 4) { s with lnk := { s.lnk with reqMark := true, reports := [] } }
    else acceptReq 5 .boundary s

/-- A request for RUN (R337). -/
def reqRunNow (s : State) : State :=
  let total := getF s.bgt.r F.BGT_GD_CFG_gd_ma_total
  if total ≠ 0 ∧ total < gdUse s then refuseReq 9 s else acceptReq 6 .boundary s

/-- A write of `SYS_STATE_CMD` with request `t`. -/
def reqState (t : Nat) (s : State) : State :=
  let cur := opState s
  if s.sys.req.isSome then refuseSecond s
  else if t = cur then stateDone t s
  else if !permitted cur t then refuseReq 1 s
  else if t ≤ 3 ∧ cur ≤ 3 then
    if t = 3 ∧ ¬ coreReady s then refuseReq 8 s else arbitrate (acceptReq t .units s)
  else if t = 4 ∧ cur = 3 then reqLoadedNow s
  else if t = 5 then reqArmedNow s
  else if t = 6 then reqRunNow s
  else acceptReq t .boundary s

/-! ## Reports of a hive's followers (R44, R240) -/

/-- The largest delay of a follower (R44). -/
def hiveLimit (s : State) : Int := (strideLen s : Int) - commitClk s - 40

/-- The check of R44 on the reports so far: one over the limit refuses; all in, the request goes to the boundary.
DEDUCED: log 32. -/
def reportCheck (s : State) : State :=
  match s.sys.req with
  | some { target := _, phase := .hive _, woken := _ } =>
    if s.lnk.reports.any fun x => decide (hiveLimit s < (x.2 : Int)) then refuseReq 7 s
    else if s.img.str.hSize ≤ s.lnk.reports.length + 1 then setPhase .boundary s
    else s
  | _ => s

/-- A hive frame comes in. DEDUCED: log 32. -/
def hiveFrameIn (p : PortEnd) (f : RxFrame) (s : State) : State := reportCheck (hiveReceive (hivePort p) f s)

/-- A boundary passes for a request that waits for reports; the four strides start where the marks leave. DEDUCED: log 32, 61. -/
def hiveWait (s : State) : State :=
  match s.sys.req with
  | some { target := t, phase := .hive n, woken := w } =>
    if s.lnk.reqMark then s
    else { s with sys := { s.sys with req := some { target := t, phase := .hive (n - 1), woken := w } } }
  | _ => s

/-- HIVE_REPORT_TIMEOUT: a follower has not reported within 4 strides (R240). -/
def hiveTimeout (s : State) : State :=
  match s.sys.req with
  | some { target := _, phase := .hive 0, woken := _ } => refuseReq 7 s
  | _ => s

/-! ## Boundaries -/

/-- STRIDE_BOUNDARY: `chk` is what the checks find wrong at the boundary (R17, R94, R213). A state change applies ahead of step 1 (R328); where it stops the strides, step 3 still runs (R90). DEDUCED: log 33, 35. -/
def strideBoundary (chk : BoundaryChecks) (s : State) : State :=
  if !strides s then s
  else
    let n := s.flt.q9.length
    let s := spxCollect (hiveWait s)
    let old := strideCnt s
    let late : Bool := decide (s.tbs.len ≤ commitClk s + 64)
    let s := linkBoundary s.tbs.len (pacerBoundary s)
    let s := match s.sys.req with
      | some q => if q.phase = .boundary then applyState q.target s else s
      | none => s
    sortEvents n (if strides s then strideBody chk late old s else stepFields chk.staged s)

/-- LAP_BOUNDARY: the boundary at which the lap count expires (R37). -/
def lapBoundary (chk : BoundaryChecks) (s : State) : State :=
  if strideInLap s + 1 = lapLen s then strideBoundary chk s else s

/-! ## The build -/

/-- BUILD_COMPLETE (R84, R135): the device enters LOADED when its units are awake as well (R328); where the contexts cannot be
placed the request is refused and the structure in force stays. -/
def buildComplete (s : State) : State :=
  match s.img.job, s.img.next with
  | some .build, some im =>
    let p := imgPack im
    if p.reason = 0 then tryChange (endJob { s with img := { s.img with ready := some im } })
    else arbitrate (portsBack (refuseReq 3 (endJob (setPack p (setImgErr (packErr im p) s)))))
  | _, _ => s

/-- A unit has woken: a request that waited for it may take effect (R328, R335). DESIGN CHOICE: log 11. -/
def unitWakeDone (s : State) : State := tryChange (unitWake s)

/-- A unit has powered down: the next may move, and a request may take effect (R328, R335). -/
def unitDownDone (s : State) : State := tryChange (unitDown s)

/-! ## Commands -/

/-- STRIDE_BOUNDARY. -/
def execStrideBoundary (chk : BoundaryChecks) (s : State) : Host.Outcome State Fault Refusal := whenCore (strideBoundary chk) s
/-- LAP_BOUNDARY. -/
def execLapBoundary (chk : BoundaryChecks) (s : State) : Host.Outcome State Fault Refusal := whenCore (lapBoundary chk) s
/-- HIVE_MARK_RECEIVE. -/
def execHiveMarkReceive (port : PortEnd) (f : RxFrame) (s : State) : Host.Outcome State Fault Refusal :=
  whenCore (hiveFrameIn port f) s
/-- HIVE_COMMAND_RECEIVE. -/
def execHiveCommandReceive (port : PortEnd) (f : RxFrame) (s : State) : Host.Outcome State Fault Refusal :=
  whenCore (hiveFrameIn port f) s
/-- HIVE_REPORT_RECEIVE. -/
def execHiveReportReceive (port : PortEnd) (f : RxFrame) (s : State) : Host.Outcome State Fault Refusal :=
  whenCore (hiveFrameIn port f) s
/-- HIVE_REPORT_TIMEOUT. -/
def execHiveReportTimeout (s : State) : Host.Outcome State Fault Refusal := whenCore hiveTimeout s
/-- REQ_COLD. -/
def execReqCold (_path : Path) (s : State) : Host.Outcome State Fault Refusal := whenUp (reqState 1) s
/-- REQ_SERVICE. -/
def execReqService (_path : Path) (s : State) : Host.Outcome State Fault Refusal := whenUp (reqState 2) s
/-- REQ_IDLE. -/
def execReqIdle (_path : Path) (s : State) : Host.Outcome State Fault Refusal := whenUp (reqState 3) s
/-- REQ_LOADED. -/
def execReqLoaded (_path : Path) (s : State) : Host.Outcome State Fault Refusal := whenUp (reqState 4) s
/-- REQ_ARMED. -/
def execReqArmed (_path : Path) (s : State) : Host.Outcome State Fault Refusal := whenUp (reqState 5) s
/-- REQ_RUN. -/
def execReqRun (_path : Path) (s : State) : Host.Outcome State Fault Refusal := whenUp (reqState 6) s
/-- REQ_HOLD. -/
def execReqHold (_path : Path) (s : State) : Host.Outcome State Fault Refusal := whenUp (reqState 7) s
/-- STATE_CHANGE: a request that waits for no stride boundary takes effect once its wakes are complete. -/
def execStateChange (s : State) : Host.Outcome State Fault Refusal := whenUp tryChange s
/-- BUILD_COMPLETE. -/
def execBuildComplete (s : State) : Host.Outcome State Fault Refusal := whenCore buildComplete s
/-- UNIT_WAKE_COMPLETE. -/
def execUnitWakeComplete (s : State) : Host.Outcome State Fault Refusal := whenCore unitWakeDone s
/-- UNIT_POWER_DOWN_COMPLETE. -/
def execUnitPowerDownComplete (s : State) : Host.Outcome State Fault Refusal := whenCore unitDownDone s

end Sys2Proof.Machine
end

