-- ==== Sys2Proof/Machine/Tag.lean ====
section
/-! DEFINITION. The tag lines (R419 to R426): the search, CONFIRM and READ frames over what the tags answer. -/
namespace Sys2Proof.Machine

/-- What a command has found and sent: the answers left, the frames sent, the IDs found, presence, the error. -/
structure TagRun where
  ans   : List TagAnswer
  sent  : List Byte := []
  found : List (BitVec 64) := []
  pres  : Bool := false
  err   : Nat := 0
  full  : Bool := false
  data  : List Byte := []

/-- A line reset and its presence (R420). -/
def tagReset (x : TagRun) : TagRun :=
  match x.ans with
  | .presence b :: t => { x with ans := t, pres := b }
  | _ :: t => { x with ans := t, pres := false }
  | [] => { x with pres := false }

/-- Send a frame with its CRC-8 (R421). -/
def tagSend (l : List Byte) (x : TagRun) : TagRun := { x with sent := x.sent ++ l ++ [crc8 l] }

/-- The identity nibbles of a prefix of depth d, two to a byte, the first in bits 7:4 (R422). -/
def prefixBytes (d pre : Nat) : List Byte :=
  (List.range ((d + 1) / 2)).map fun i =>
    let hi := pre / 16 ^ (d - 1 - 2 * i) % 16
    let lo := if 2 * i + 1 < d then pre / 16 ^ (d - 2 - 2 * i) % 16 else 0
    BitVec.ofNat 8 (16 * hi + lo)

/-- QUERY (R422): its sixteen answer slots, slot k in bit k. -/
def tagQuery (d pre : Nat) (x : TagRun) : BitVec 16 × TagRun :=
  let x := tagSend ([0x5C, BitVec.ofNat 8 d] ++ prefixBytes d pre) x
  match x.ans with
  | .query s :: t => (s, { x with ans := t })
  | _ :: t => (0, { x with ans := t })
  | [] => (0, x)

/-- The seven identity bytes, bits 63:56 first. -/
def identBytes (pre : Nat) : List Byte := (List.range 7).map fun i => BitVec.ofNat 8 (pre / 256 ^ (6 - i))

/-- What CONFIRM ended with. -/
inductive Confirm where
  | ok (chk : Byte)
  | gone
  | fail

/-- CONFIRM with its retries (R423): `n` attempts are left, `silent` had no answer; `first` marks the first attempt. -/
def tagConfirm (pre : Nat) : Nat → Bool → Nat → TagRun → Confirm × TagRun
  | 0, _, silent, x => (if silent = 4 then .gone else .fail, x)
  | n + 1, first, silent, x =>
    let x := if first then x else tagReset x
    let x := tagSend (0x3A :: identBytes pre) x
    let (c, nc, x) := match x.ans with
      | .confirm c nc :: t => (c, nc, { x with ans := t })
      | _ :: t => (0, 0, { x with ans := t })
      | [] => (0, 0, x)
    if c ^^^ nc = 0xFF ∧ c = crc8 (identBytes pre) then (.ok c, x)
    else tagConfirm pre n false (if c = 0 ∧ nc = 0 then silent + 1 else silent) x

/-- Retries of a QUERY whose slots all read 0 below an answered parent (R423). -/
def tagRequery (d pre : Nat) : Nat → BitVec 16 × TagRun → BitVec 16 × TagRun
  | 0, p => p
  | n + 1, p => if p.1 = 0 then tagRequery d pre n (tagQuery d pre (tagReset p.2)) else p

/-- The walk of R423 over the branches left, each a depth and a prefix; `fuel` bounds it. -/
def tagWalk : Nat → List (Nat × Nat) → TagRun → TagRun
  | 0, _, x => x
  | _ + 1, [], x => x
  | fuel + 1, (d, pre) :: todo, x =>
    if d = 14 then
      match tagConfirm pre 4 true 0 x with
      | (.gone, x) => tagWalk fuel todo x
      | (.fail, x) => { x with err := 2 }
      | (.ok c, x) =>
        if x.found.length = 64 then { x with full := true }
        else tagWalk fuel todo { x with found := x.found ++ [BitVec.ofNat 64 (pre * 256 + c.toNat)] }
    else
      let p := tagRequery d pre (if d = 0 then 0 else 3) (tagQuery d pre x)
      tagWalk fuel ((bitsOf p.1).map (fun k => (d + 1, pre * 16 + k)) ++ todo) p.2

/-- A search (R423). DEDUCED: log 95. -/
def tagSearchRun (ans : List TagAnswer) : TagRun :=
  let x := tagReset { ans := ans }
  if !x.pres then { x with err := 1 } else tagWalk (16 * (ans.length + 1) + 1) [(0, 0)] x

/-- A READ with its retries (R422). -/
def tagReadRun (id : BitVec 64) (blk : Nat) : Nat → TagRun → TagRun
  | 0, x => x
  | n + 1, x =>
    let x := tagReset x
    if !x.pres then tagReadRun id blk n { x with err := 1 }
    else
      let idb := (List.range 8).map fun i => id.extractLsb' (8 * (7 - i)) 8
      let x := tagSend ([0x71] ++ idb ++ [BitVec.ofNat 8 blk]) x
      let (bs, x) := match x.ans with
        | .data l :: t => (l, { x with ans := t })
        | _ :: t => ([], { x with ans := t })
        | [] => ([], x)
      if bs.length = 33 ∧ crc8 (bs.take 32) = bs.getD 32 0 then { x with err := 0, data := bs.take 32 }
      else tagReadRun id blk n { x with err := 7 }

/-- Change a line's status. -/
def tagStat (f : RegFile → RegFile) (s : State) : State := { s with tag := { s.tag with r := f s.tag.r } }

/-- The list of line `l` holds these IDs. -/
def putIds (l : Nat) (ids : List (BitVec 64)) (r : RegFile) : RegFile :=
  let r := (List.range 64).foldl (fun r i =>
    let v := ids.getD i 0
    kvSet (kvSet r (R.TAG_IDl_i_LO l i) (v.setWidth 32)) (R.TAG_IDl_i_HI l i) ((v >>> 32).setWidth 32)) r
  setF r (F.TAG_STATl_count l) (min 64 ids.length)

/-- A command on a line is refused or starts (R426). DEDUCED: log 95. -/
def tagStart (l : Nat) (c : TagCmd) (s : State) : State :=
  let refuse := fun (e : Nat) => tagStat (fun r => setF r (F.TAG_STATl_err l) e) s
  if flag s.tag.r F.TAG_CFG_no_vtag then refuse 4
  else if !getBit s.tag.r R.TAG_CFG l || s.tag.off.getLsbD l then refuse 5
  else if (vget s.tag.cmd l none).isSome then refuse 6
  else
    let r := setFlag s.tag.r (F.TAG_STATl_busy l)
    let r := match c with
      | .read _ _ => r
      | _ => putIds l [] r
    { s with tag := { s.tag with cmd := vset s.tag.cmd l (some c), r := r } }

/-- A command of line `l` ends with `err`, 0 for `done` (R426). -/
def tagEnd (l err : Nat) (s : State) : State :=
  let r := setF (setF s.tag.r (F.TAG_STATl_busy l) 0) (F.TAG_STATl_err l) err
  irq 12 { s with tag := { s.tag with cmd := vset s.tag.cmd l none, r := if err = 0 then setFlag r (F.TAG_STATl_done l) else r } }

/-- TAG_COMMAND_END: the command of line `l` ends, with what the tags answered (R422 to R424). -/
def tagCommandEnd (l : Nat) (ans : List TagAnswer) (s : State) : State :=
  match vget s.tag.cmd l none with
  | none => s
  | some c =>
    let x := match c with
      | .reset => let x := tagReset { ans := ans }; { x with err := if x.pres then 0 else 1 }
      | .search => tagSearchRun ans
      | .read id blk => tagReadRun id blk 4 { ans := ans }
    let r := setF s.tag.r (F.TAG_STATl_presence l) x.pres.toNat
    let r := match c with
      | .search => if x.full then setFlag (putIds l x.found r) (F.TAG_STATl_overflow l) else putIds l x.found r
      | .read _ _ =>
        if x.err = 0 then (List.range 8).foldl (fun r i => kvSet r (R.TAG_DATAn i)
          (le32 (x.data.getD (4 * i) 0) (x.data.getD (4 * i + 1) 0) (x.data.getD (4 * i + 2) 0) (x.data.getD (4 * i + 3) 0))) r
        else r
      | .reset => r
    let event := match c with
      | .search => x.full || x.err == 2
      | .read _ _ => x.err != 0
      | .reset => false
    let s := tagEnd l x.err (emit (.tag l x.sent) { s with tag := { s.tag with r := r } })
    if event then raise 28 255 l s else s

/-- TAG_SHORT (R425). -/
def tagShort (l : Nat) (s : State) : State :=
  let s := { s with tag := { s.tag with off := s.tag.off ||| ofBits 4 [l], r := setFlag s.tag.r (F.TAG_STATl_short l) } }
  let s := if (vget s.tag.cmd l none).isSome then tagEnd l 3 s else irq 12 s
  raise 28 255 l s

/-- VTAG falls below 4.5 V: every line is undriven and running commands end (R425). -/
def vtagLoss (s : State) : State :=
  let s := tagStat (fun r => setFlag r F.TAG_CFG_no_vtag) s
  foldN 4 (fun s l => if (vget s.tag.cmd l none).isSome then tagEnd l 4 s else s) s

/-- A host write of `TAG_CFG.en` (R425): a line turned off by a short comes back on a rise of its bit, once `short` is
clear. -/
def tagEnable (v : BitVec 4) (s : State) : State :=
  let old := BitVec.ofNat 4 (getF s.tag.r F.TAG_CFG_en)
  let back := ofBits 4 ((List.range 4).filter fun l => v.getLsbD l && !old.getLsbD l && !flag s.tag.r (F.TAG_STATl_short l))
  { s with tag := { s.tag with off := s.tag.off &&& ~~~back, r := setF s.tag.r F.TAG_CFG_en v.toNat } }

/-- A host write of `TAG_CMD` (R426): commands 4 to 7 are refused with `err` 6. -/
def tagCmdWrite (val : Word) (s : State) : State :=
  let l := val.toNat / 16 % 4
  match val.toNat % 8 with
  | 0 => s
  | 1 => tagStart l .reset s
  | 2 => tagStart l .search s
  | 3 => tagStart l (.read (kvGet s.tag.r R.TAG_ARG_HI ++ kvGet s.tag.r R.TAG_ARG_LO) (val.toNat / 256 % 8)) s
  | _ => tagStat (fun r => setF r (F.TAG_STATl_err l) 6) s

/-! ## Commands -/

/-- TAG_RESET_PRESENCE: a host write of `TAG_CMD` 1. -/
def execTagResetPresence (_path : Path) (line : Fin 4) (s : State) : Host.Outcome State Fault Refusal :=
  whenUp (tagStart line .reset) s
/-- TAG_SEARCH: a host write of `TAG_CMD` 2. -/
def execTagSearch (_path : Path) (line : Fin 4) (s : State) : Host.Outcome State Fault Refusal := whenUp (tagStart line .search) s
/-- TAG_READ: a host write of `TAG_CMD` 3, for the ID in `TAG_ARG`. -/
def execTagRead (_path : Path) (line : Fin 4) (blk : Fin 8) (s : State) : Host.Outcome State Fault Refusal :=
  whenUp (fun s => tagStart line (.read (kvGet s.tag.r R.TAG_ARG_HI ++ kvGet s.tag.r R.TAG_ARG_LO) blk) s) s
/-- TAG_COMMAND_END. -/
def execTagCommandEnd (line : Fin 4) (ans : List TagAnswer) (s : State) : Host.Outcome State Fault Refusal :=
  whenUp (tagCommandEnd line ans) s
/-- TAG_SHORT. -/
def execTagShort (line : Fin 4) (s : State) : Host.Outcome State Fault Refusal := whenUp (tagShort line) s

end Sys2Proof.Machine
end

