-- ==== Sys2Proof/Machine/Power.lean ====
section
/-! DEFINITION. Supplies, clock and resets (R409, R441 to R445). -/
namespace Sys2Proof.Machine

/-- A change of the SYS registers. -/
def sysRegs_ (f : RegFile → RegFile) (s : State) : State := { s with sys := { s.sys with r := f s.sys.r } }

/-- Supply `i` is good or not, numbered as `SYS_PWR_STAT.good`. -/
def setGood (i : Nat) (b : Bool) (s : State) : State := sysRegs_ (fun r => putBit r R.SYS_PWR_STAT i b) s

/-- A fall of supply `i` is recorded. -/
def recordFall (i : Nat) (s : State) : State := setGood i false (sysRegs_ (fun r => putBit r R.SYS_PWR_STAT (8 + i) true) s)

/-! ## Reset of the core domain (R442, R444) -/

/-- A pending request that the core's reset leaves without its state is refused; a build ends with it (R442). DEDUCED: log 43. -/
def dropRequest (s : State) : State :=
  let s := match s.sys.req with
    | some q => if q.target ≤ 2 then s else refuseReq 8 s
    | none => s
  if s.img.job = some .build then endJob s
  else match s.img.job with
    | some (.check _) => { s with img := { s.img with job := some (.check false) } }
    | _ => s

/-- The fault collector at a reset of the core domain: sources in the service island keep the events they hold, and `seq`
and the log's position stand as the store has them (R353, R432). DEDUCED: log 43. -/
def fltAtReset (s : State) : Flt :=
  let r := fltReset
  let r := if flag s.nvm.r F.NVM_STAT_ready then
      setF (setF r F.FLT_SEQ_seq (ctrValue s.nvm.mem 0)) F.FLT_NVLOG_STAT_next (nvmLogNext s.nvm.mem)
    else r
  { r := r, held := s.flt.held.filter fun h => 26 ≤ h.src && h.src ≤ 31 }

/-- Everything outside the service island and the store resets; the device is in COLD, or stays in SERVICE (R442, R444).
DEDUCED: log 43. -/
def coreReset (s : State) : State :=
  let s := dropRequest (hostLinkReset false s)
  let st := if opState s = 2 then 2 else 1
  let f := fltAtReset s
  let s := sysRegs_ (fun r => setF (setF r F.SYS_PWR_STAT_core_ready 0) F.SYS_STATE_STAT_state st) s
  { s with sys := { s.sys with built := false, idled := false }, img := { s.img with str := {} }
           tbs := {}, plc := {}, cea := {}, bus := {}, pwm := {}, acq := {}, lnk := {}, rng := {}, csv := {}, spx := {}, bgt := {}
           flt := f }

/-- CORE_DOMAIN_READY: VCORE, VLNK and the clock's lock hold (R442), the state stays (R325); `REF_IN` runs on VIO18 (R445).
DESIGN CHOICE: log 4. DEDUCED: log 44. -/
def coreReadyNow (s : State) : State :=
  if !s.sys.up || coreReady s then s
  else
    let s := setGood 0 true (setGood 1 true (setGood 3 true s))
    arbitrate (sysRegs_ (fun r => setFlag (setFlag r F.SYS_PWR_STAT_ref_lock) F.SYS_PWR_STAT_core_ready) s)

/-- The core domain resets if it runs. -/
def loseCore (s : State) : State := if coreReady s then coreReset s else s

/-- CORE_SUPPLY_LOSS: VCORE or VLNK falls (R444). -/
def coreSupplyLoss (vlnk : Bool) (s : State) : State :=
  if s.sys.up then loseCore (recordFall vlnk.toNat s) else s

/-- CLOCK_LOCK_LOSS (R442, R444, R445). DEDUCED: log 45. -/
def clockLoss (s : State) : State :=
  if s.sys.up then loseCore (sysRegs_ (fun r => setF r F.SYS_PWR_STAT_ref_lock 0) s) else s

/-- SUPPLY_FALL: a supply falls; the core's supplies reset it, VIO18's loss stops `REF_IN` and with it the lock, VTAG's loss undrives
the tag lines (R425, R444, R445). DEDUCED: log 45. -/
def supplyFall (i : Nat) (s : State) : State :=
  if !s.sys.up then setGood i false s
  else
    let s := recordFall i s
    if i < 2 then loseCore s else if i = 3 then clockLoss s else if i = 5 then vtagLoss s else s

/-- SUPPLY_RISE. -/
def supplyRise (i : Nat) (s : State) : State :=
  let s := setGood i true s
  if i = 5 ∧ s.sys.up then { s with tag := { s.tag with r := setF s.tag.r F.TAG_CFG_no_vtag 0 } } else s

/-- VTAG_LOSS (R425). -/
def vtagFall (s : State) : State := if s.sys.up then vtagLoss (recordFall 5 s) else s

/-! ## Reset of the device (R409, R432, R442) -/

/-- The service island and with it the whole device are held in reset: every register and memory is at its reset value, but
for the store, whose running work is cut off; supplies and clock are as they were. DEDUCED: log 44. -/
def holdReset (s : State) : State :=
  let s := nvmCut (storeCut s)
  let sup := kvGet s.sys.r R.SYS_PWR_STAT &&& 0x7F
  { State.reset with
    sys := { State.reset.sys with r := kvSet sysReset R.SYS_PWR_STAT sup }
    nvm := nvmReset s.nvm
    pending := s.pending
    out := s.out
    free := s.free }

/-- DEVICE_RESET: `RST_N` goes low. -/
def deviceReset (s : State) : State := holdReset s

/-- VSVC_LOSS: VSVC falls away; the level of `RST_N` is as it was. DEDUCED: log 44. -/
def vsvcLoss (s : State) : State :=
  let s' := holdReset s
  { s' with sys := { s'.sys with rstN := s.sys.rstN } }

/-- RESET_RELEASE: `RST_N` is high with VSVC good; the pins `PCIE_EN` and `TWA_ADR` are latched (R355, R376, R442).
DESIGN CHOICE: log 4. DEDUCED: log 44. -/
def resetRelease (pcieEn : Bool) (adr : BitVec 3) (s : State) : State :=
  if s.sys.up then s
  else
    { s with
      sys := { s.sys with rstN := true, up := true }
      hst := { s.hst with r := setF s.hst.r F.HST_PCIE_CFG_en pcieEn.toNat }
      two := { s.two with r := setF s.two.r F.TWO_A_CFG_addr (0x60 + adr.toNat), clkA := true, clkB := true }
      tag := { s.tag with r := setF s.tag.r F.TAG_CFG_no_vtag (!getBit s.sys.r R.SYS_PWR_STAT 5).toNat }
      nvm := closeLocks s.nvm }

/-! ## Commands -/

/-- DEVICE_RESET. -/
def execDeviceReset (s : State) : Host.Outcome State Fault Refusal := .next (deviceReset s)
/-- RESET_RELEASE. -/
def execResetRelease (pcieEn : Bool) (adr : BitVec 3) (s : State) : Host.Outcome State Fault Refusal :=
  .next (resetRelease pcieEn adr s)
/-- CORE_DOMAIN_READY. -/
def execCoreDomainReady (s : State) : Host.Outcome State Fault Refusal := .next (coreReadyNow s)
/-- CORE_SUPPLY_LOSS. -/
def execCoreSupplyLoss (vlnk : Bool) (s : State) : Host.Outcome State Fault Refusal := .next (coreSupplyLoss vlnk s)
/-- CLOCK_LOCK_LOSS. -/
def execClockLockLoss (s : State) : Host.Outcome State Fault Refusal := .next (clockLoss s)
/-- SUPPLY_FALL. -/
def execSupplyFall (i : Fin 6) (s : State) : Host.Outcome State Fault Refusal := .next (supplyFall i s)
/-- SUPPLY_RISE. -/
def execSupplyRise (i : Fin 6) (s : State) : Host.Outcome State Fault Refusal := .next (supplyRise i s)
/-- VTAG_LOSS. -/
def execVtagLoss (s : State) : Host.Outcome State Fault Refusal := .next (vtagFall s)
/-- VSVC_LOSS. -/
def execVsvcLoss (s : State) : Host.Outcome State Fault Refusal := .next (vsvcLoss s)

end Sys2Proof.Machine
end

