-- ==== Sys2Proof/Machine/Access.lean ====
section
/-! DEFINITION. Host accesses to registers: the access codes of R7, the ranges of the register tables, what a write of each
block's registers does beside its fields (R80 to R93, R358 to R361), and what a read returns and clears. -/
namespace Sys2Proof.Machine

/-! ## Fields by their access codes (R7 to R9, R90 to R92) -/

/-- The named place of a field of the register at `ofs`. -/
def fldAt (ofs : Nat) (f : FieldDesc) : Fld := ⟨ofs, f.lo, f.hi - f.lo + 1⟩

/-- The value a written word gives a field. -/
def fieldVal (f : FieldDesc) (val : Word) : Nat := val.toNat / 2 ^ f.lo % 2 ^ (f.hi - f.lo + 1)

/-- The bits of the fields that satisfy `p`. -/
def fieldMask (d : RegDesc) (p : Acc → Bool) : Word :=
  ofBits 32 ((d.fields.filter fun f => p f.acc).flatMap fun f => (List.range (f.hi - f.lo + 1)).map (f.lo + ·))

/-- An RW-F field takes no writes now: from ARMED on, and three pacer fields from LOADED on (R7, R28). -/
def frozen (b ofs : Nat) (s : State) : Bool :=
  computing s || (strides s && b == 1 && (ofs == R.TBS_STRIDE || ofs == R.TBS_LAP))

/-- A value of the field at bit `lo` of the register at `ofs` lies outside its range, by the register tables. -/
def outOfRange (b ofs lo v : Nat) (s : State) : Bool :=
  match b with
  | 1 =>
    if ofs = R.TBS_STRIDE then v < 800 || 8000 < v
    else if ofs = R.TBS_LAP then (if lo = 16 then v < 50 || 95 < v else v < 50 || 1000 < v)
    else if ofs = R.TBS_SYNC_CFG then
      (if lo = 16 then v < 110 || 200 < v else if lo = 8 then v == 0 else lo == 0 && v == 3)
    else ofs == R.TBS_PACE_OFS && decide (strideLen s < 2 * (BitVec.ofNat 16 v).toInt.natAbs)
  | 2 => ofs == R.IMG_BUF_PAGE && v == 7
  | 3 =>
    if ofs = R.PLC_HR_REF then v == 0
    else if ofs = R.PLC_PHASE_CFG then lo == 16 && (v < 1 || 1000 < v)
    else ofs == R.PLC_ANG_CFG && (v < 1 || 4096 < v)
  | 5 => ofs == R.BUS_IMAX && v == 0
  | 6 => decide (R.PWM_TRIP_FILTn 0 ≤ ofs ∧ ofs ≤ R.PWM_TRIP_FILTn 3) && v == 0
  | 7 =>
    if R.ACQ_SEQl 0 ≤ ofs ∧ ofs < R.ACQ_FETCH_CFGl 0 then lo == 24 && (v < 1 || 8 < v)
    else if R.ACQ_FETCH_CFGl 0 ≤ ofs ∧ ofs < R.ACQ_FETCH_RESl 0 then
      (if lo = 24 then v < 1 || 8 < v else if lo = 16 then 47 < v else lo == 8 && 4 < v)
    else if 0x1000 ≤ ofs ∧ ofs % 32 = 4 then
      (if lo = 12 then v < 1 || 4 < v else lo == 0 && (v < 1 || 1024 < v))
    else false
  | 9 => ofs == R.RNG_CFG && v == 0
  | 12 => bgtBad ofs lo v
  | 17 =>
    if ofs = R.SEQ_CFG then lo == 0 && 16 < v
    else if 0x100 ≤ ofs ∧ ofs % 16 = 4 then v < 1 || 10000 < v
    else if 0x100 ≤ ofs ∧ ofs % 16 = 8 then lo == 16 && decide ((BitVec.ofNat 16 v).toInt < -8192 ∨ 8191 < (BitVec.ofNat 16 v).toInt)
    else false
  | 18 => ofs == R.THM_CFG && lo == 24 && v == 0
  | _ => false

/-- The live values of a block apply where no strides run (R90). DEDUCED: log 99. -/
def applyLive (b : Nat) (s : State) : State :=
  match b with
  | 10 => csvLive s
  | 13 => fltLive s
  | _ => liveRegs s

/-- A live field is written: it waits for the next stride boundary where strides run (R8, R90). DEDUCED: log 99. -/
def pushLive (b : Nat) (p : Pend) (s : State) : State :=
  let s :=
    match b with
    | 1 => { s with tbs := { s.tbs with live := s.tbs.live ++ [p] } }
    | 3 => { s with plc := { s.plc with live := s.plc.live ++ [p] } }
    | 4 => { s with cea := { s.cea with live := s.cea.live ++ [p] } }
    | 5 => { s with bus := { s.bus with live := s.bus.live ++ [p] } }
    | 7 => { s with acq := { s.acq with live := s.acq.live ++ [p] } }
    | 10 => { s with csv := { s.csv with live := s.csv.live ++ [p] } }
    | 12 => { s with bgt := { s.bgt with live := s.bgt.live ++ [p] } }
    | 13 => { s with flt := { s.flt with live := s.flt.live ++ [p] } }
    | _ => s
  if strides s then s else applyLive b s

/-- A staged field is written to its staging copy (R92). -/
def pushStaged (b : Nat) (p : Pend) (s : State) : State :=
  let t := stagingOf b s
  putStaging b { t with stg := t.stg ++ [p] } s

/-- A write of one field, by its access code (R7). -/
def writeField (b ofs : Nat) (val : Word) (s : State) (f : FieldDesc) : State :=
  let v := fieldVal f val
  let fl := fldAt ofs f
  let put := fun (s : State) => setRegs b (setF (blkRegs b s) fl v) s
  match f.acc with
  | .ro | .rc | .wo => s
  | .w1c => setRegs b (setF (blkRegs b s) fl (getF (blkRegs b s) fl &&& (2 ^ fl.width - 1 - v))) s
  | .rw => if outOfRange b ofs f.lo v s then cfgErr b s else put s
  | .rwf => if frozen b ofs s then s else if outOfRange b ofs f.lo v s then cfgErr b s else put s
  | .rwl =>
    if outOfRange b ofs f.lo v s then cfgErr b s
    else pushLive b { ofs := ofs, lo := f.lo, width := fl.width, val := v } s
  | .rws => pushStaged b { ofs := ofs, lo := f.lo, width := fl.width, val := v } s

/-- The write would change a frozen field from its value in force (R91). DEDUCED: log 58. -/
def wouldChange (b ofs : Nat) (d : RegDesc) (val : Word) (s : State) : Bool :=
  frozen b ofs s && d.fields.any fun f => f.acc == .rwf && getF (blkRegs b s) (fldAt ofs f) != fieldVal f val

/-- A write of a register by its fields' access codes (R7, R91). Flags that the host clears come first: one that the same
write sets reads set afterwards (R10). DEDUCED: log 58. -/
def writeFields (b ofs : Nat) (d : RegDesc) (val : Word) (s : State) : State :=
  let s := if wouldChange b ofs d val s then wrIgnored b ofs s else s
  let s := (d.fields.filter (·.acc == .w1c)).foldl (writeField b ofs val) s
  (d.fields.filter (·.acc != .w1c)).foldl (writeField b ofs val) s

/-- A write of 1 to `blk_COMMIT` (R92): the staged set is captured; where no strides run it is judged at once (R90), `bad`
where a staging copy fails its parity then (R94). DEDUCED: log 27. -/
def commitBlk (b : Nat) (bad : Bool) (s : State) : State :=
  let t := stagingOf b s
  let s := putStaging b { t with cap := some t.stg } s
  let s := setRegs b (setFlag (blkRegs b s) F.blk_COMMIT_STAT_pending) s
  if strides s then s else settleSet (if bad then BitVec.ofNat 21 (2 ^ b) else 0) s b

/-! ## Registers whose writes do more -/

/-- A write of `IMG_CTRL` (R80, R81); how far a fetch or store had come when an abort reaches it is open.
DESIGN CHOICE: log 23. -/
def imgCtrlWrite (p : Path) (val : Word) (s : State) : State :=
  let slot := val.toNat / 16 % 2
  match val.toNat % 8 with
  | 0 => s
  | 1 => imgClaim p s
  | 2 => imgRelease p s
  | 3 => ownerDo p (imgCheckStart false) s
  | 4 => imgFetch p slot s
  | 5 => imgStore p slot s
  | 6 => let (w, s1) := drawFree s; imgAbort p w.toNat s1
  | _ => imgTakeOver p s

/-- A write in the context window (R113, R115, R126). DEDUCED: log 97. -/
def windowWrite (o : Nat) (val : Word) (s : State) : State :=
  let c := getF s.cea.r F.CEA_WIN_SEL_ctx
  if o < 0x280 then coeffWrite o val s
  else if o < 0x380 then stateWrite o val s
  else if o = 0x380 ∨ o = 0x384 then
    if s.cea.ctxs.length ≤ c then s
    else pushStaged 4 { sel := c, ofs := 0x8000 + o, lo := 0, width := 32, val := val.toNat } s
  else if o = 0x3B4 then statusWrite val s
  else s

/-- The flags of the selected plausibility model that a write clears. -/
def plausWrite (val : Word) (s : State) : State :=
  let m := getF s.cea.r F.CEA_PLAUS_SEL_model
  { s with cea := { s.cea with models := s.cea.models.modify m fun x =>
      { x with hardDone := x.hardDone && !val.getLsbD 9, fired := x.fired && !val.getLsbD 8 } } }

/-- A write of `PWM_TRIP_LVLn` (R197): code 3 is ignored for its phase and sets `cfg_err`. DEDUCED: log 98. -/
def tripLvlWrite (ofs : Nat) (val : Word) (s : State) : State :=
  let old := kvGet s.pwm.r ofs
  if frozen 6 ofs s then if old = val then s else wrIgnored 6 ofs s
  else
    let code := fun (w : Word) (i : Nat) => w.toNat / 4 ^ i % 4
    let bad := (List.range 16).any fun i => code val i == 3
    let new := (List.range 16).foldl (fun (w : Word) i => if code val i = 3 then w else putBits w (2 * i) 2 (code val i)) old
    let r := kvSet s.pwm.r ofs new
    let s := { s with pwm := { s.pwm with r := r, ph := vmapI s.pwm.ph (atTripLevel r) } }
    if bad then cfgErr 6 s else s

/-- A write of `PWM_AUX_CFGn` (R192): a source that the build bound stays, and the host cannot choose that source.
DEDUCED: log 98. -/
def auxCfgWrite (i : Nat) (d : RegDesc) (val : Word) (s : State) : State :=
  let ofs := R.PWM_AUX_CFGn i
  let old := getF s.pwm.r (F.PWM_AUX_CFGn_src i)
  let src := val.toNat % 4
  let bad : Bool := src != old && (src == 3 || src == 1 || old == 1)
  if bad && !frozen 6 ofs s then
    cfgErr 6 (writeFields 6 ofs d (putBits val 0 2 old) s)
  else writeFields 6 ofs d val s

/-- A write of `ACQ_CAL_CMD` (R217). -/
def calCmdWrite (val : Word) (s : State) : State :=
  let ain := val.toNat % 128
  let count := val.toNat / 65536
  match val.toNat / 256 % 4 with
  | 0 => s
  | 1 => calStart false ain count s
  | 2 => calStart true ain count s
  | _ => calAbort s

/-- A write of `ACQ_OW_CMD` (R218). DEDUCED: log 57. -/
def owCmdWrite (val : Word) (s : State) : State :=
  let s := if val.getLsbD 1 then owAbort s else s
  if val.getLsbD 0 then owStart s else s

/-- A write of `ACQ_STRs_CFG` (R221): overwrite needs the sample buffer; an enabled stream keeps `dest` and `mode`; a region
that overlaps an enabled one is not enabled. DEDUCED: log 56. -/
def streamCfgWrite (i : Nat) (d : RegDesc) (val : Word) (s : State) : State :=
  let ofs := R.ACQ_STRs_CFG i
  let r := s.acq.r
  let en := flag r (F.ACQ_STRs_CFG_en i)
  let dest := val.toNat / 32 % 2
  let mode := val.toNat / 256 % 2
  if dest = 1 ∧ mode = 1 then
    cfgErr 7 { s with acq := { s.acq with r := if val.getLsbD 4 then setF r (F.ACQ_STRs_CFG_trip_stop i) 0 else r } }
  else
    let moved : Bool := en && (dest != getF r (F.ACQ_STRs_CFG_dest i) || mode != getF r (F.ACQ_STRs_CFG_mode i))
    let val := if moved then
        putBits (putBits val 5 1 (getF r (F.ACQ_STRs_CFG_dest i))) 8 1 (getF r (F.ACQ_STRs_CFG_mode i))
      else val
    let s := if moved then cfgErr 7 s else s
    let rises : Bool := !en && val.getLsbD 0
    let s := writeFields 7 ofs d val s
    if rises && streamsOverlap s.acq.r i then
      cfgErr 7 { s with acq := { s.acq with r := setF s.acq.r (F.ACQ_STRs_CFG_en i) 0 } }
    else if rises then { s with acq := { s.acq with strs := vmod s.acq.strs i fun x => { x with left := none } } }
    else s

/-- A write of `ACQ_STRs_BUF` (R221). -/
def streamBufWrite (i : Nat) (val : Word) (s : State) : State :=
  let base := val.toNat % 256
  let size := val.toNat / 256 % 512
  let r := s.acq.r
  let same := base == getF r (F.ACQ_STRs_BUF_base i) && size == getF r (F.ACQ_STRs_BUF_size i)
  if same then s
  else if size = 0 ∨ 256 < base + size ∨ flag r (F.ACQ_STRs_CFG_en i) then cfgErr 7 s
  else { s with acq := { s.acq with r := setF (setF r (F.ACQ_STRs_BUF_base i) base) (F.ACQ_STRs_BUF_size i) size } }

/-- A write of `ACQ_STRs_RPTR` (R221): room in the region lets waiting records through. DEDUCED: log 56. -/
def streamRptrWrite (i : Nat) (val : Word) (s : State) : State :=
  let r := s.acq.r
  if flag r (F.ACQ_STRs_CFG_en i) && flag r (F.ACQ_STRs_CFG_mode i) && !flag r (F.ACQ_STRs_CFG_dest i) then cfgErr 7 s
  else
    let q := { s.acq with r := setF r (F.ACQ_STRs_RPTR_rptr i) (val.toNat % 2 ^ 17) }
    { s with acq := drainStream i (vget q.strs i {}).q q }

/-- A write of a register of the ACQ block. DEDUCED: log 55. -/
def acqWrite (ofs : Nat) (d : RegDesc) (val : Word) (s : State) : State :=
  let i := (ofs - 0x200) / 16
  if ofs = R.ACQ_REF then refEnable (val.getLsbD 0) s
  else if ofs = R.ACQ_CAL_CMD then calCmdWrite val s
  else if ofs = R.ACQ_OW_CMD then owCmdWrite val s
  else if ofs = R.ACQ_FETCH_GO then fetchGo (val.setWidth 16) s
  else if 0x200 ≤ ofs ∧ ofs < 0x240 then
    match (ofs - 0x200) % 16 / 4 with
    | 0 => streamCfgWrite i d val s
    | 1 => streamBufWrite i val s
    | 3 => streamRptrWrite i val s
    | _ => s
  else if 0x1000 ≤ ofs ∧ ofs < 0x2000 then
    -- The registers of an input without a channel entry take no writes.
    let a := (ofs - 0x1000) / 32
    if !(vget s.acq.chans a {}).present then s
    else
      let froz := frozen 7 ofs s
      let s := writeFields 7 ofs d val s
      if ofs % 32 = 0 then fencedBeyond s.flt.fLane s
      else if ofs % 32 = 4 ∧ ¬ froz then { s with acq := setupChans (strideLen s) s.acq }
      else if ofs % 32 = 16 ∧ ¬ froz then
        { s with acq := { s.acq with chans := vmod s.acq.chans a fun x => { x with calDef := false } } }
      else s
  else
    let s := writeFields 7 ofs d val s
    if 0x100 ≤ ofs ∧ ofs < R.ACQ_FETCH_RESl 0 ∧ ¬ frozen 7 ofs s then { s with acq := setupChans (strideLen s) s.acq } else s

/-- A write of a register of the PWM block. -/
def pwmWrite (ofs : Nat) (d : RegDesc) (val : Word) (s : State) : State :=
  if ofs = R.PWM_TRIP_FLAGn 0 then tripClear 0 val s
  else if ofs = R.PWM_TRIP_FLAGn 1 then tripClear 1 val s
  else if R.PWM_TRIP_LVLn 0 ≤ ofs ∧ ofs ≤ R.PWM_TRIP_LVLn 2 then tripLvlWrite ofs val s
  else if R.PWM_AUX_CFGn 0 ≤ ofs ∧ ofs ≤ R.PWM_AUX_CFGn 7 then auxCfgWrite ((ofs - R.PWM_AUX_CFGn 0) / 4) d val s
  else if ofs = R.PWM_AUX_CWORD then auxCword (val.setWidth 8) s
  else if ofs = R.PWM_FLIM_MODEn 1 then writeFields 6 ofs d (val &&& 0xFFFF) s
  else writeFields 6 ofs d val s

/-- A write of a register of the CEA block. -/
def ceaWrite (ofs : Nat) (d : RegDesc) (val : Word) (s : State) : State :=
  if ofs = R.CEA_PLAUS_STAT then plausWrite val s
  else
    let s := writeFields 4 ofs d val s
    if ofs = R.CEA_SNAP ∧ val.getLsbD 0 then snapRequest s else s

/-- A write of a register of the BUS block. -/
def busWrite (ofs : Nat) (d : RegDesc) (val : Word) (s : State) : State :=
  if ofs = R.BUS_VCMD_HOST then hostTarget (val.toNat % 65536) s
  else if ofs = R.BUS_STAT then
    let s := if val.getLsbD 4 && flag s.bus.r F.BUS_STAT_leader_lost then clearLeaderLost s else s
    writeFields 5 ofs d val s
  else writeFields 5 ofs d val s

/-- A write of a register of the FLT block. -/
def fltWrite (ofs : Nat) (d : RegDesc) (val : Word) (s : State) : State :=
  if ofs = R.FLT_SRC_CFG then srcCfgWrite val s
  else if ofs = R.FLT_SRC_REACT then srcReactWrite val s
  else if R.FLT_ACTIVEn 0 ≤ ofs ∧ ofs ≤ R.FLT_ACTIVEn 3 then activeWrite ((ofs - R.FLT_ACTIVEn 0) / 4) val s
  else if ofs = R.FLT_RAISE then raiseWrite val s
  else writeFields 13 ofs d val s

/-- A write of a register of the SPX block (R305). -/
def spxRegWrite (ofs : Nat) (d : RegDesc) (val : Word) (s : State) : State :=
  if ofs = R.SPX_CMD then
    let s := if val.getLsbD 1 then campaignStop s else s
    if val.getLsbD 0 then campaignStart s else s
  else if ofs = R.SPX_NODE_STAT then spxNodeClear val s
  else if ofs = R.SPX_STAT ∨ ofs = R.SPX_SEL then writeFields 11 ofs d val s
  else if fieldMask d (· == .rw) = 0 then s
  else spxWrite ofs (fieldMask d (· == .rw)) val s

/-- A write of a register of the CSV block. -/
def csvWrite (ofs : Nat) (d : RegDesc) (val : Word) (s : State) : State :=
  if ofs = R.CSV_WIRE_CMD then wireTestCmd val s
  else if ofs = R.CSV_BAL_CMD then balCmd val s
  else if ofs = R.CSV_QUIET_DIS then quietDisWrite val s
  else writeFields 10 ofs d val s

/-- A write of a register of the RNG block. -/
def rngWrite (ofs : Nat) (d : RegDesc) (val : Word) (s : State) : State :=
  if ofs = R.RNG_CMD then rngCmd val s
  else
    let s := writeFields 9 ofs d val s
    if ofs = R.RNG_WAG_CTL ∧ val.getLsbD 0 then mailboxSend s else s

/-- A write of a register of the store. -/
def nvmRegWrite (ofs : Nat) (d : RegDesc) (val : Word) (s : State) : State :=
  if ofs = R.NVM_CMD then nvmCmdWrite val s
  else if ofs = R.NVM_PW_LO ∨ ofs = R.NVM_PW_HI then { s with nvm := { s.nvm with r := kvSet s.nvm.r ofs val } }
  else writeFields 20 ofs d val s

/-- A write of a register of the rail sequencer. DEDUCED: log 93. -/
def seqWrite (ofs : Nat) (d : RegDesc) (val : Word) (s : State) : State :=
  if ofs = R.SEQ_CMD then
    match val.toNat % 4 with
    | 0 => s
    | 1 => seqOn s
    | 2 => seqOff s
    | _ => cfgErr 17 s
  else writeFields 17 ofs d val s

/-- A write of a mapped register (R358). -/
def writeReg (p : Path) (b ofs : Nat) (d : RegDesc) (val : Word) (s : State) : State :=
  if stagedBlocks.contains b && ofs == R.blk_COMMIT then (if val.getLsbD 0 then commitBlk b false s else s)
  else
    match b with
    | 0 =>
      if ofs = R.SYS_STATE_CMD then (if val.toNat % 8 = 0 then s else reqState (val.toNat % 8) s) else writeFields 0 ofs d val s
    | 1 =>
      let old := paceSrc s
      let s := writeFields 1 ofs d val s
      if paceSrc s = old then s else srcWritten s
    | 2 => if ofs = R.IMG_CTRL then imgCtrlWrite p val s else writeFields 2 ofs d val s
    | 3 =>
      if R.PLC_BANK_CFGn 0 ≤ ofs ∧ ofs ≤ R.PLC_BANK_CFGn 23 then bankCfgWrite ((ofs - R.PLC_BANK_CFGn 0) / 4) val s
      else writeFields 3 ofs d val s
    | 4 => ceaWrite ofs d val s
    | 5 => busWrite ofs d val s
    | 6 => pwmWrite ofs d val s
    | 7 => acqWrite ofs d val s
    | 9 => rngWrite ofs d val s
    | 10 => csvWrite ofs d val s
    | 11 => spxRegWrite ofs d val s
    | 12 =>
      let s := writeFields 12 ofs d val s
      if ofs = R.BGT_HOST_OFF then arbitrateNow s else s
    | 13 => fltWrite ofs d val s
    | 14 =>
      let s := hstWrite ofs val s
      if ofs = R.HST_PCIE_CFG then arbitrateNow s else s
    | 15 => twoWrite ofs val s
    | 16 => svcWrite ofs val s
    | 17 => seqWrite ofs d val s
    | 19 =>
      if ofs = R.TAG_CFG then tagEnable (val.setWidth 4) s
      else if ofs = R.TAG_CMD then tagCmdWrite val s
      else writeFields 19 ofs d val s
    | 20 => nvmRegWrite ofs d val s
    | _ => writeFields b ofs d val s

/-! ## Accesses (R358, R359) -/

/-- The blocks of the service island, which answer while the core domain is in reset (R358, R442). -/
def islandBlock (b : Nat) : Bool := [0, 2, 14, 15, 16, 17, 18, 19, 20].contains b

/-- An access of a window that is no register: the image buffer, the context window, the MSI-X table and the PBA, the
store. -/
def inWindow (b ofs : Nat) : Bool :=
  (b == 2 && decide (0xC000 ≤ ofs)) || (b == 4 && decide (0x8000 ≤ ofs ∧ ofs < 0x8800)) ||
    (b == 14 && decide ((0x8000 ≤ ofs ∧ ofs < 0x8200) ∨ ofs = 0x9000)) || (b == 20 && decide (0x8000 ≤ ofs))

/-- A write in such a window. -/
def writeWindow (p : Path) (b ofs : Nat) (val : Word) (s : State) : State :=
  match b with
  | 2 => bufferWrite p ofs val s
  | 4 => windowWrite (ofs - 0x8000) val s
  | 14 => hstWrite ofs val s
  | _ => nvmRefuse 2 s

/-- An access to an offset that nothing occupies is counted (R358). -/
def countUnmapped (s : State) : State := hstRegs_ (fun r => incF r F.HST_STAT_unmapped_cnt 1) s
/-- A BAR0 request of another shape than one aligned word is counted (R359). -/
def countShape (s : State) : State := hstRegs_ (fun r => incF r F.HST_STAT_size_err_cnt 1) s

/-- A host write of the aligned word at BAR0 offset `a` (R358, R361). -/
def hostWrite (p : Path) (a : Nat) (val : Word) (s : State) : State :=
  let b := a / 65536
  let ofs := a % 65536
  if 20 < b then countUnmapped s
  else if !islandBlock b && !coreReady s then s
  else if inWindow b ofs then writeWindow p b ofs val s
  else
    match findReg b ofs with
    | some (d, _) => writeReg p b ofs d val s
    | none => countUnmapped s

/-- A host write of any shape: `be` are its byte enables; the address is its word's (R359). DEDUCED: log 13. -/
def hostWriteShaped (p : Path) (a : Nat) (be : BitVec 4) (val : Word) (s : State) : State :=
  if a % 4 = 0 ∧ be = 15 then hostWrite p a val s else countShape s

/-! ## Reads -/

/-- The producer's credits of queue `q` (R12, R16, R220). DEDUCED: log 100. -/
def creditsOf (s : State) (q ring : Nat) : Nat :=
  let x := ringOf s ring
  match q with
  | 0 => 512 - s.acq.q0.length
  | 1 => 4 - s.bus.q1.length
  | 2 => 2 - s.plc.q2.length
  | 3 => 96 - q3Count s.pwm
  | 4 => free4 x
  | 5 => free5 x
  | 6 => 256 - s.spx.q6.length
  | 7 => 48 - s.plc.q7.length
  | 8 => 2 - x.q8.length
  | 9 => 64 - s.flt.q9.length
  | _ => ((List.range 4).map fun i => 256 - q10Count s i).foldl min 256

/-- The queue `SYS_QUEUE_SEL` selects, where it selects one. -/
def queueSel (s : State) : Option (Nat × Nat) :=
  let q := getF s.sys.r F.SYS_QUEUE_SEL_qid
  let r := getF s.sys.r F.SYS_QUEUE_SEL_ring
  if 10 < q || ((q == 4 || q == 5 || q == 8) && 23 < r) then none else some (q, r)

/-- `SYS_QUEUE_STAT`; the credits of queues 4 and 5 are spent at a baton's launch (R249). DEDUCED: log 100. -/
def queueStat (s : State) : Word :=
  match queueSel s with
  | none => 0
  | some (q, r) => putBits (kvGet s.sys.qcnt (qKey q r)) 0 11 (creditsOf s q r)

/-- `PWM_TRIP_CAUSE` of the selected phase (R196). -/
def tripCause (s : State) : Word :=
  let p := getF s.pwm.r F.PWM_TRIP_SEL_phase
  if 48 ≤ p then 0
  else
    let x := vget s.pwm.ph p {}
    BitVec.ofNat 32 (x.ext.toNat * 65536 + x.react.toNat * 256 + x.crit.toNat * 128 + x.wd.toNat * 64 +
      (!x.plaus.isEmpty).toNat * 32 + x.ring.toNat * 16 + (!x.flim.isEmpty).toNat * 8)

/-- The registers of PWM that show state. DEDUCED: log 100. -/
def pwmView (s : State) (ofs : Nat) : Option Word :=
  if ofs = R.PWM_STAT then some (putBits (kvGet s.pwm.r ofs) 3 1 (anyTrip s.pwm).toNat)
  else if ofs = R.PWM_TRIP_FLAGn 0 ∨ ofs = R.PWM_TRIP_FLAGn 1 then
    let n := (ofs - R.PWM_TRIP_FLAGn 0) / 4
    some (ofBits 32 ((List.range 32).filter fun i => 32 * n + i < 48 && tripped (vget s.pwm.ph (32 * n + i) {})))
  else if ofs = R.PWM_TRIP_CAUSE then some (tripCause s)
  else none

/-- The registers of CEA that show the selected model (R119 to R124). -/
def plausView (s : State) (ofs : Nat) : Option Word :=
  let i := getF s.cea.r F.CEA_PLAUS_SEL_model
  if ofs = R.CEA_PLAUS_STAT ∨ ofs = R.CEA_PLAUS_RES then
    match s.cea.models[i]? with
    | none => some 0
    | some m =>
      some (if ofs = R.CEA_PLAUS_RES then m.xdiff ++ m.res
        else BitVec.ofNat 32 ((s.img.str.plaus.getD i {}).ctx * 2 ^ 24 + m.count % 256 * 65536 + m.lastAttr % 4 * 1024 +
          m.hardDone.toNat * 512 + m.fired.toNat * 256 + min 255 m.fireCnt))
  else none

/-- The value of a register that shows state the register file does not hold. -/
def regView (b ofs : Nat) (s : State) : Option Word :=
  match b with
  | 0 =>
    if ofs = R.SYS_WRITE_IGN then some (wignAll s)
    else if ofs = R.SYS_QUEUE_STAT then some (queueStat s)
    else none
  | 1 => if ofs = R.TBS_LAP_POS then some (putBits (kvGet s.tbs.r ofs) 16 13 s.tbs.clock) else none
  | 2 => imgView s ofs
  | 3 => (placeView s ofs).or (shareView s ofs)
  | 4 =>
    if ofs = R.CEA_ENG_STAT then some (s.flt.fEng ++ (kvGet s.cea.r ofs).setWidth 16) else plausView s ofs
  | 6 => pwmView s ofs
  | 7 =>
    if ofs = R.ACQ_LANE_STAT then some (s.flt.fLane ++ s.bgt.on.setWidth 16)
    else (List.range 4).findSome? fun i =>
      let f := F.ACQ_STRs_WPTR_wptr i
      if ofs = f.ofs && flag s.acq.r (F.ACQ_STRs_CFG_dest i) then some (putBits (kvGet s.acq.r ofs) f.lo f.width 0) else none
  | 8 => lnkView s ofs
  | 9 => rngView s ofs
  | 10 => csvView s ofs
  | 11 => spxView s ofs
  | 12 => bgtView s ofs
  | 13 => fltView s ofs
  | 16 => svcView s ofs
  | 17 => if ofs = R.SEQ_RAILS then some (seqRails s.seq) else none
  | 20 =>
    if R.NVM_CTRn 0 ≤ ofs ∧ ofs ≤ R.NVM_CTRn 7 then
      some (BitVec.ofNat 32 (ctrValue s.nvm.mem ((ofs - R.NVM_CTRn 0) / 4)))
    else none
  | _ => none

/-- The value a read of a mapped register returns: WO fields and reserved bits read 0 (R3, R7). -/
def regValue (b ofs : Nat) (d : RegDesc) (s : State) : Word :=
  ((regView b ofs s).getD (kvGet (blkRegs b s) ofs)) &&& fieldMask d (· != .wo)

/-- What a read clears (RC), beside the fields of the register file. -/
def readHook (b ofs : Nat) (s : State) : State :=
  match b with
  | 0 =>
    if ofs = R.SYS_QUEUE_STAT then
      match queueSel s with
      | some (q, r) => { s with sys := { s.sys with qcnt := kvSet s.sys.qcnt (qKey q r) 0 } }
      | none => s
    else s
  | 4 =>
    if ofs = R.CEA_PLAUS_STAT then
      { s with cea := { s.cea with models := s.cea.models.modify (getF s.cea.r F.CEA_PLAUS_SEL_model) fun x => { x with fireCnt := 0 } } }
    else s
  | 8 => lnkRead ofs s
  | 13 => if ofs = R.FLT_SRC_STAT then srcStatRead s else s
  | _ => s

/-- A read of a mapped register: the value, and the RC fields cleared (R7, R361). -/
def readReg (b ofs : Nat) (d : RegDesc) (s : State) : Word × State :=
  let rc := fieldMask d (· == .rc)
  let s1 := if rc = 0 then s else setRegs b (kvSet (blkRegs b s) ofs (kvGet (blkRegs b s) ofs &&& ~~~rc)) s
  (regValue b ofs d s, readHook b ofs s1)

/-- The word a window shows; a window read of the store may be refused (R438). -/
def readWindow (b ofs : Nat) (s : State) : Word × State :=
  match b with
  | 2 => (bufferRead s ofs, s)
  | 4 => (winRead s (ofs - 0x8000), s)
  | 14 => (kvGet s.hst.r ofs, s)
  | _ => nvmWinRead ofs s

/-- An access that waits for the power-up scan (R432): the counters, and the fault log's registers. DEDUCED: log 97. -/
def waitsScan (b ofs : Nat) : Bool :=
  (b == 20 && decide (R.NVM_CTRn 0 ≤ ofs ∧ ofs ≤ R.NVM_CTRn 7)) ||
    (b == 13 && (ofs == R.FLT_LOG_PTR || ofs == R.FLT_NVLOG_STAT || ofs == R.FLT_SEQ || decide (0x1000 ≤ ofs)))

/-- A host read of the aligned word at BAR0 offset `a` (R358, R361). DEDUCED: log 97. -/
def hostRead (a : Nat) (s : State) : Word × State :=
  let b := a / 65536
  let ofs := a % 65536
  if 20 < b then (0, countUnmapped s)
  else if !islandBlock b && !coreReady s then (0, s)
  else if inWindow b ofs then readWindow b ofs s
  else
    match findReg b ofs with
    | some (d, _) => readReg b ofs d (if waitsScan b ofs then nvmScan s else s)
    | none => (0, countUnmapped s)

/-! ## Commands -/

/-- COMMIT: a host write of 1 to the COMMIT register of block `blk`; `badPar` where the set is judged at once and a staging
copy fails its parity. DESIGN CHOICE: log 102. -/
def execCommit (path : Path) (blk : Fin 21) (badPar : Bool) (s : State) : Host.Outcome State Fault Refusal :=
  whenUp (fun s =>
    if badPar && stagedBlocks.contains blk.val && coreReady s then commitBlk blk true s
    else hostWrite path (blk * 65536 + R.blk_COMMIT) 1 s) s

/-- REGISTER_WRITE: a host write at BAR0 offset `ofs` with byte enables `be`. -/
def execRegisterWrite (path : Path) (ofs : Nat) (be : BitVec 4) (val : Word) (s : State) : Host.Outcome State Fault Refusal :=
  whenUp (hostWriteShaped path ofs be val) s

/-- A host read of BAR0 finds a register there: its block answers and its table has the offset (R358, R361). -/
def readsRegister (a : Nat) (s : State) : Bool :=
  decide (a / 65536 ≤ 20) && (islandBlock (a / 65536) || coreReady s) && !inWindow (a / 65536) (a % 65536) &&
    (findReg (a / 65536) (a % 65536)).isSome

/-- A byte of BAR2 (R299, R357): the comb, the sample buffer; the rest reads 0. DESIGN CHOICE: log 101. -/
def bar2Byte (s : State) (a : Nat) : Byte :=
  if !coreReady s then 0
  else if a < 0xC00000 then (combRead s (a / 2 * 2)).extractLsb' (8 * (a % 2)) 8
  else if a < 0xD00000 then s.acq.buf.read (a - 0xC00000)
  else 0

/-- A 32-bit read of BAR2 (R303, R360). DESIGN CHOICE: log 101. -/
def bar2Read (s : State) (a : Nat) : Word := le32 (bar2Byte s a) (bar2Byte s (a + 1)) (bar2Byte s (a + 2)) (bar2Byte s (a + 3))

/-- The shapes of a BAR2 read of `n` bytes at offset `a` (R360). DESIGN CHOICE: log 101. -/
def bar2Shape (a n : Nat) : Bool :=
  ((n == 2 || n == 4 || n == 8) && a % n == 0) || (8 < n && n % 4 == 0 && a % 4 == 0)

/-- A read of `n` bytes of BAR2: as they stand, with no effect; a shape the manual does not give returns open bytes (R303, R360).
DESIGN CHOICE: log 101. -/
def bar2Burst (path : Path) (a n : Nat) (s : State) : State :=
  if bar2Shape a n then emit (.bytes path ((List.range n).map fun i => bar2Byte s (a + i))) s
  else
    let (bs, s) := foldN n (fun (x : List Byte × State) _ =>
      let (w, s) := drawFree x.2
      (x.1 ++ [w.extractLsb' 0 8], s)) ([], s)
    emit (.bytes path bs) s

/-- REGISTER_READ: a host read of BAR0 with byte enables `be`, or of BAR2 (R360); `badPar` where the register read fails its parity (R17). DESIGN CHOICE: log 101, 102. -/
def execRegisterRead (path : Path) (place : ReadPlace) (be : BitVec 4) (badPar : Bool) (s : State) :
    Host.Outcome State Fault Refusal :=
  whenUp (fun s =>
    match place with
    | .bar2 ofs n => bar2Burst path ofs (n.val + 1) s
    | .bar0 ofs =>
      if ofs % 4 = 0 ∧ be = 15 then
        let (w, s1) := hostRead ofs s
        emit (.read path ofs w) (if badPar && readsRegister ofs s then raiseParity (ofs / 65536) s1 else s1)
      else emit (.read path ofs 0) (countShape s)) s

end Sys2Proof.Machine
end

