-- ==== Sys2Proof/Machine/Serial.lean ====
section
/-! DEFINITION. The host's serial transports: SPI and UART frames (R371 to R375, R403), DATA of two-wire port A (R379,
R380). -/
namespace Sys2Proof.Machine

/-! ## SPI and UART frames -/

/-- The header of a frame (R372). -/
structure FrameHdr where
  quad : Bool := false
  op   : Nat := 0
  rsv  : Bool := false
  addr : Nat := 0
  cnt  : Nat := 0
  crcOk : Bool := false
deriving DecidableEq, Repr

/-- The opcode of a frame; 0 where not one byte came. -/
def frameOp (bs : List Byte) : Nat := (bs.headD 0).toNat % 16

/-- Byte `i` of a frame as a number. -/
def frameByte (bs : List Byte) (i : Nat) : Nat := (bs.getD i 0).toNat

/-- Read a complete header (R372, R373). -/
def frameHdr (bs : List Byte) : FrameHdr :=
  { quad := (bs.headD 0).getLsbD 7
    op := frameOp bs
    rsv := frameByte bs 0 / 16 % 8 != 0
    addr := frameByte bs 1 * 65536 + frameByte bs 2 * 256 + frameByte bs 3
    cnt := frameByte bs 4
    crcOk := crc8 (bs.take 5) == bs.getD 5 0 }

/-- The bytes of one item: a word, or a point of opcode 4. -/
def itemBytes (h : FrameHdr) : Nat := if h.op = 4 then 2 else 4

/-- An address error (R372, R403): an opcode outside 1 to 5, a nonzero byte where 0 is required, a misaligned address, a
run that leaves BAR0 (2 MiB) or BAR2 (16 MiB), `quad` on the UART. -/
def frameAddrErr (uart : Bool) (h : FrameHdr) : Bool :=
  let n := h.cnt + 1
  (uart && h.quad) || h.rsv || h.op == 0 || 5 < h.op ||
    (if h.op = 5 then h.addr != 0 || h.cnt != 0
     else h.addr % itemBytes h != 0 || decide ((if h.op ≤ 2 then 0x200000 else 0x1000000) < h.addr + itemBytes h * n))

/-- The path of a port. -/
def framePath (uart : Bool) : Path := if uart then .svc else .spi

/-- The flag of status bit 2 of a port. -/
def frameShortFlag (uart : Bool) (h : Hst) : Bool := if uart then h.shortUart else h.shortSpi
def setShortFlag (uart b : Bool) (s : State) : State :=
  { s with hst := if uart then { s.hst with shortUart := b } else { s.hst with shortSpi := b } }

/-- Count in a field of `HST_SPI_STAT`. -/
def countSpi (f : Fld) (s : State) : State := hstRegs_ (fun r => incF r f 1) s

/-- Read `n` words from address `a` on, with opcode `op`: their bytes, byte 0 first (R374). -/
def frameReads (op : Nat) : Nat → Nat → State → List Byte × State
  | 0, _, s => ([], s)
  | n + 1, a, s =>
    let (w, s1) :=
      if op = 1 then hostRead a s
      else if op = 3 then (bar2Read s a, s)
      else (kvGet s.hst.r R.HST_SPI_STAT, s)
    let (t, s2) := frameReads op n (a + 4) s1
    (wordBytes w ++ t, s2)

/-- A read frame (opcodes 1, 3 and 5): the status byte, then the data, zeros where the header failed (R374). -/
def frameRead (uart : Bool) (h : FrameHdr) (bad : Bool × Bool) (s : State) : State :=
  let st := 128 + 4 * (frameShortFlag uart s.hst).toNat + 2 * bad.2.toNat + bad.1.toNat
  let s := setShortFlag uart false s
  let n := if h.op = 5 then 1 else h.cnt + 1
  if bad.1 || bad.2 then emit (.bytes (framePath uart) (BitVec.ofNat 8 st :: List.replicate (4 * n) 0)) s
  else
    let (data, s1) := frameReads h.op n h.addr s
    emit (.bytes (framePath uart) (BitVec.ofNat 8 st :: data)) s1

/-- Apply the complete items of a write frame, in order (R375). -/
def frameWrites (uart : Bool) (op : Nat) : Nat → Nat → List Byte → State → State
  | n + 1, a, b0 :: b1 :: t, s =>
    if op = 4 then
      frameWrites uart op n (a + 2) t (if coreReady s then combHostWrite a (le16 b0 b1) s else s)
    else
      match t with
      | b2 :: b3 :: t' => frameWrites uart op n (a + 4) t' (hostWrite (framePath uart) a (le32 b0 b1 b2 b3) s)
      | _ => s
  | _, _, _, s => s

/-- A write frame (opcodes 2 and 4; an unknown opcode is taken as one): items are applied as they arrive; a frame that ends
within an item discards it, is counted and sets status bit 2 (R375). `gap`: a gap of the UART ended it (R403). -/
def frameWrite (uart gap : Bool) (h : FrameHdr) (bad : Bool × Bool) (data : List Byte) (s : State) : State :=
  if bad.1 || bad.2 then setShortFlag uart true s
  else
    let s := frameWrites uart h.op (h.cnt + 1) h.addr data s
    let want := itemBytes h * (h.cnt + 1)
    if data.length < want ∧ (gap ∨ data.length % itemBytes h ≠ 0) then
      setShortFlag uart true (countSpi F.HST_SPI_STAT_short_cnt s)
    else s

/-- A frame as it came, whole or cut short (R372 to R375). DEDUCED: log 83. -/
def frameIn (uart gap : Bool) (bs : List Byte) (s : State) : State :=
  let read : Bool := frameOp bs == 1 || frameOp bs == 3 || frameOp bs == 5
  if bs.length < 6 then
    let s := countSpi F.HST_SPI_STAT_short_cnt s
    if read && !bs.isEmpty then s else setShortFlag uart true s
  else
    let h := frameHdr bs
    let crcBad := !h.crcOk
    let addrBad := h.crcOk && frameAddrErr uart h
    let s := if crcBad then countSpi F.HST_SPI_STAT_crc_err_cnt s
      else if addrBad then countSpi F.HST_SPI_STAT_addr_err_cnt s else s
    if read then frameRead uart h (crcBad, addrBad) s
    else frameWrite uart gap h (crcBad, addrBad) (bs.drop 6) s

/-- The port takes frames: SPI in every state; the UART while the mode is entered (R371, R403). DEDUCED: log 83. -/
def portTakes (uart : Bool) (s : State) : Bool := !uart || flag s.svc.r F.SVC_STAT_alt

/-- A frame with opcode `op`; the row's event is no other frame. -/
def opFrame (op : Nat) (uart : Bool) (bs : List Byte) (s : State) : State :=
  if portTakes uart s && frameOp bs == op then frameIn uart false bs s else s

/-- The frame ended within its header, a word or a point (R375). -/
def frameShort (bs : List Byte) : Bool :=
  let h := frameHdr bs
  bs.length < 6 || ((h.op == 2 || h.op == 4) && (bs.length - 6 < itemBytes h * (h.cnt + 1)) && (bs.length - 6) % itemBytes h != 0)

/-- The frame ended before its last byte (R403). DEDUCED: log 83. -/
def frameUnfinished (bs : List Byte) : Bool :=
  let h := frameHdr bs
  bs.length < 6 || ((h.op == 2 || h.op == 4) && bs.length - 6 < itemBytes h * (h.cnt + 1))

/-! ## DATA of port A (R379, R380) -/

/-- The word of a DATA write in progress: the bytes that arrived, by window address of the word. -/
abbrev PartWords := List (Nat × List (Nat × Byte))

/-- The bytes held of the word at `w`. DEDUCED: log 84. -/
def partOf (l : PartWords) (w : Nat) : List (Nat × Byte) := ((l.find? (·.1 == w)).map (·.2)).getD []

/-- Take the bytes of a DATA write one by one: a word is applied when its byte 3 arrives after bytes 0 to 2; the pointer
wraps within its 32-byte page. DEDUCED: log 84. -/
def dataWriteBytes (blk : Nat) : List Byte → Nat → PartWords → State → Nat × PartWords × State
  | [], ptr, l, s => (ptr, l, s)
  | b :: t, ptr, l, s =>
    let w := ptr / 4 * 4
    let j := ptr % 4
    let got := (j, b) :: (partOf l w).filter (·.1 != j)
    let byte := fun (k : Nat) => ((got.find? (·.1 == k)).map (·.2)).getD 0
    let full : Bool := j == 3 && [0, 1, 2].all fun k => got.any (·.1 == k)
    let rest := l.filter (·.1 != w)
    let s1 := if full then hostWrite .portA (blk * 65536 + w) (le32 (byte 0) (byte 1) (byte 2) (byte 3)) s else s
    dataWriteBytes blk t (ptr / 32 * 32 + (ptr + 1) % 32) (if full then rest else (w, got) :: rest) s1

/-- DATA_WRITE: words left incomplete at the end are discarded and counted (R380). -/
def dataWrite (bs : List Byte) (s : State) : State :=
  let (ptr, l, s1) := dataWriteBytes (getF s.two.r F.TWO_A_STAT_blk) bs (getF s.two.r F.TWO_A_STAT_ptr) [] s
  let s1 := twoRegs_ (fun r => setF r F.TWO_A_STAT_ptr ptr) s1
  if l.isEmpty then s1
  else twoRegs_ (fun r => incF (setFlag r F.TWO_A_STAT_part_word) F.TWO_A_CNT_part_cnt l.length) s1

/-- Send `n` bytes from the pointer on: each aligned word is read once, in one access (R380); the pointer runs on across
pages (R379). -/
def dataReadBytes (blk : Nat) : Nat → Nat → List (Nat × Word) → State → List Byte × Nat × State
  | 0, ptr, _, s => ([], ptr, s)
  | n + 1, ptr, l, s =>
    let w := ptr / 4 * 4
    let (v, l1, s1) :=
      match l.find? (·.1 == w) with
      | some (_, v) => (v, l, s)
      | none =>
        let (v, s1) := hostRead (blk * 65536 + w) (twoRegs_ (fun r => setF r F.TWO_A_STAT_ptr ptr) s)
        (v, (w, v) :: l, s1)
    let (t, p, s2) := dataReadBytes blk n ((ptr + 1) % 65536) l1 s1
    ((wordBytes v).getD (ptr % 4) 0 :: t, p, s2)

/-- DATA_READ. -/
def dataRead (n : Nat) (s : State) : State :=
  let (bs, ptr, s1) := dataReadBytes (getF s.two.r F.TWO_A_STAT_blk) n (getF s.two.r F.TWO_A_STAT_ptr) [] s
  sendA bs (twoRegs_ (fun r => setF r F.TWO_A_STAT_ptr ptr) s1)

/-! ## Commands -/

/-- SPI_READ_REGISTERS: a frame with opcode 1. -/
def execSpiReadRegisters (uart : Bool) (bytes : List Byte) (s : State) : Host.Outcome State Fault Refusal :=
  whenUp (opFrame 1 uart bytes) s
/-- SPI_WRITE_REGISTERS: opcode 2. -/
def execSpiWriteRegisters (uart : Bool) (bytes : List Byte) (s : State) : Host.Outcome State Fault Refusal :=
  whenUp (opFrame 2 uart bytes) s
/-- SPI_READ_BAR2: opcode 3. -/
def execSpiReadBar2 (uart : Bool) (bytes : List Byte) (s : State) : Host.Outcome State Fault Refusal :=
  whenUp (opFrame 3 uart bytes) s
/-- SPI_WRITE_COMB: opcode 4. -/
def execSpiWriteComb (uart : Bool) (bytes : List Byte) (s : State) : Host.Outcome State Fault Refusal :=
  whenUp (opFrame 4 uart bytes) s
/-- SPI_READ_STATUS: opcode 5. -/
def execSpiReadStatus (uart : Bool) (bytes : List Byte) (s : State) : Host.Outcome State Fault Refusal :=
  whenUp (opFrame 5 uart bytes) s
/-- SPI_INVALID_OPCODE: an opcode outside 1 to 5. -/
def execSpiInvalidOpcode (uart : Bool) (bytes : List Byte) (s : State) : Host.Outcome State Fault Refusal :=
  whenUp (fun s => if portTakes uart s && (frameOp bytes == 0 || 5 < frameOp bytes) then frameIn uart false bytes s else s) s
/-- SPI_FRAME_SHORT: `SPI_CS_N` rises within a header, word or point. -/
def execSpiFrameShort (bytes : List Byte) (s : State) : Host.Outcome State Fault Refusal :=
  whenUp (fun s => if frameShort bytes then frameIn false false bytes s else s) s
/-- UART_GAP_TIMEOUT: a gap of more than 1 ms within a UART frame ends it short. -/
def execUartGapTimeout (bytes : List Byte) (s : State) : Host.Outcome State Fault Refusal :=
  whenUp (fun s => if portTakes true s && frameUnfinished bytes then frameIn true true bytes s else s) s
/-- DATA_WRITE: the bytes of a port A DATA write. -/
def execDataWrite (bytes : List Byte) (s : State) : Host.Outcome State Fault Refusal := portA (dataWrite bytes) id s
/-- DATA_READ: `n` bytes of a port A DATA read. -/
def execDataRead (n : Nat) (s : State) : Host.Outcome State Fault Refusal := portA id (dataRead n) s

end Sys2Proof.Machine
end

