-- ==== Sys2Proof/Machine/Dispatch.lean ====
section
/-! DEFINITION. The dispatch of a command to its meaning: one arm per row of the opcode table. -/
namespace Sys2Proof.Machine

/-- The effect of a command on everything but the queue. -/
def exec (i : Instr) (s : State) : Host.Outcome State Fault Refusal :=
  match i with
  | .strideBoundary chk => Sys2Proof.Machine.execStrideBoundary chk s
  | .lapBoundary chk => Sys2Proof.Machine.execLapBoundary chk s
  | .currentPlacement => Sys2Proof.Machine.execCurrentPlacement s
  | .dataPlacement => Sys2Proof.Machine.execDataPlacement s
  | .commitPoint shadowBad => Sys2Proof.Machine.execCommitPoint shadowBad s
  | .engineAbortTimeout e => Sys2Proof.Machine.execEngineAbortTimeout e s
  | .contextStart e bad => Sys2Proof.Machine.execContextStart e bad s
  | .contextComplete e => Sys2Proof.Machine.execContextComplete e s
  | .strideWatchdogExpiry => Sys2Proof.Machine.execStrideWatchdogExpiry s
  | .paceInEdge pos high => Sys2Proof.Machine.execPaceInEdge pos high s
  | .holdoverEntry => Sys2Proof.Machine.execHoldoverEntry s
  | .hiveMarkReceive port f => Sys2Proof.Machine.execHiveMarkReceive port f s
  | .hiveCommandReceive port f => Sys2Proof.Machine.execHiveCommandReceive port f s
  | .hiveReportReceive port f => Sys2Proof.Machine.execHiveReportReceive port f s
  | .hiveReportTimeout => Sys2Proof.Machine.execHiveReportTimeout s
  | .lossHoldExpiry => Sys2Proof.Machine.execLossHoldExpiry s
  | .leaderLost => Sys2Proof.Machine.execLeaderLost s
  | .leaderLostClear path => Sys2Proof.Machine.execLeaderLostClear path s
  | .reqCold path => Sys2Proof.Machine.execReqCold path s
  | .reqService path => Sys2Proof.Machine.execReqService path s
  | .reqIdle path => Sys2Proof.Machine.execReqIdle path s
  | .reqLoaded path => Sys2Proof.Machine.execReqLoaded path s
  | .reqArmed path => Sys2Proof.Machine.execReqArmed path s
  | .reqRun path => Sys2Proof.Machine.execReqRun path s
  | .reqHold path => Sys2Proof.Machine.execReqHold path s
  | .stateChange => Sys2Proof.Machine.execStateChange s
  | .buildComplete => Sys2Proof.Machine.execBuildComplete s
  | .unitWakeComplete => Sys2Proof.Machine.execUnitWakeComplete s
  | .n1AnalysisComplete => Sys2Proof.Machine.execN1AnalysisComplete s
  | .claim path => Sys2Proof.Machine.execClaim path s
  | .release path => Sys2Proof.Machine.execRelease path s
  | .takeOver path => Sys2Proof.Machine.execTakeOver path s
  | .check path => Sys2Proof.Machine.execCheck path s
  | .checkComplete => Sys2Proof.Machine.execCheckComplete s
  | .fetch path slot => Sys2Proof.Machine.execFetch path slot s
  | .fetchComplete => Sys2Proof.Machine.execFetchComplete s
  | .store path slot => Sys2Proof.Machine.execStore path slot s
  | .storeComplete readBackOk => Sys2Proof.Machine.execStoreComplete readBackOk s
  | .abort path moved => Sys2Proof.Machine.execAbort path moved s
  | .imgBufferWrite path ofs val => Sys2Proof.Machine.execImgBufferWrite path ofs val s
  | .commit path blk badPar => Sys2Proof.Machine.execCommit path blk badPar s
  | .registerWrite path ofs be val => Sys2Proof.Machine.execRegisterWrite path ofs be val s
  | .contextCoeffWrite path ofs val => Sys2Proof.Machine.execContextCoeffWrite path ofs val s
  | .contextStateWrite path ofs val => Sys2Proof.Machine.execContextStateWrite path ofs val s
  | .snapshotRequest path => Sys2Proof.Machine.execSnapshotRequest path s
  | .hostVoltageTarget path val => Sys2Proof.Machine.execHostVoltageTarget path val s
  | .bankCfgWrite path b val => Sys2Proof.Machine.execBankCfgWrite path b val s
  | .carrierPeriodStart c => Sys2Proof.Machine.execCarrierPeriodStart c s
  | .carrierPeriodCentre c => Sys2Proof.Machine.execCarrierPeriodCentre c s
  | .pwmCompareEdge c on => Sys2Proof.Machine.execPwmCompareEdge c on s
  | .deadTimeExpiry p => Sys2Proof.Machine.execDeadTimeExpiry p s
  | .tripFilterAssert t => Sys2Proof.Machine.execTripFilterAssert t s
  | .tripFilterDeassert t => Sys2Proof.Machine.execTripFilterDeassert t s
  | .tripClear path n mask => Sys2Proof.Machine.execTripClear path n mask s
  | .auxCword path mask => Sys2Proof.Machine.execAuxCword path mask s
  | .adcConversion => Sys2Proof.Machine.execAdcConversion s
  | .rawCodeOut lane code => Sys2Proof.Machine.execRawCodeOut lane code s
  | .channelResult ain => Sys2Proof.Machine.execChannelResult ain s
  | .fetchGo path lanes => Sys2Proof.Machine.execFetchGo path lanes s
  | .refEnable path en => Sys2Proof.Machine.execRefEnable path en s
  | .refReady => Sys2Proof.Machine.execRefReady s
  | .calZero path ain count => Sys2Proof.Machine.execCalZero path ain count s
  | .calFullScale path ain count => Sys2Proof.Machine.execCalFullScale path ain count s
  | .calAbort path => Sys2Proof.Machine.execCalAbort path s
  | .calCaptureComplete => Sys2Proof.Machine.execCalCaptureComplete s
  | .owStart path => Sys2Proof.Machine.execOwStart path s
  | .owAbort path => Sys2Proof.Machine.execOwAbort path s
  | .owPhaseComplete => Sys2Proof.Machine.execOwPhaseComplete s
  | .streamTripStop str => Sys2Proof.Machine.execStreamTripStop str s
  | .linkAligned port => Sys2Proof.Machine.execLinkAligned port s
  | .linkEcho port => Sys2Proof.Machine.execLinkEcho port s
  | .echoRequest port wait => Sys2Proof.Machine.execEchoRequest port wait s
  | .echoReply port trip turn => Sys2Proof.Machine.execEchoReply port trip turn s
  | .linkUp port => Sys2Proof.Machine.execLinkUp port s
  | .trainTimeout port => Sys2Proof.Machine.execTrainTimeout port s
  | .lockLoss port errs cut => Sys2Proof.Machine.execLockLoss port errs cut s
  | .bypassClose => Sys2Proof.Machine.execBypassClose s
  | .bypassOpen => Sys2Proof.Machine.execBypassOpen s
  | .batonArrival ring port f => Sys2Proof.Machine.execBatonArrival ring port f s
  | .batonLost ring port => Sys2Proof.Machine.execBatonLost ring port s
  | .ringTrainTimeout ring => Sys2Proof.Machine.execRingTrainTimeout ring s
  | .enumerationReturn ring port f => Sys2Proof.Machine.execEnumerationReturn ring port f s
  | .enumerationTimeout ring => Sys2Proof.Machine.execEnumerationTimeout ring s
  | .probeReturn ring port f => Sys2Proof.Machine.execProbeReturn ring port f s
  | .waggleAck ring port => Sys2Proof.Machine.execWaggleAck ring port s
  | .waggleDesc ring port => Sys2Proof.Machine.execWaggleDesc ring port s
  | .waggleUplinkOther ring port => Sys2Proof.Machine.execWaggleUplinkOther ring port s
  | .waggleReplyTimeout ring port => Sys2Proof.Machine.execWaggleReplyTimeout ring port s
  | .waggleSendComplete ring port => Sys2Proof.Machine.execWaggleSendComplete ring port s
  | .mailboxSend path => Sys2Proof.Machine.execMailboxSend path s
  | .enumerate path ring => Sys2Proof.Machine.execEnumerate path ring s
  | .probeAgain path ring => Sys2Proof.Machine.execProbeAgain path ring s
  | .sleepBroadcast path ring => Sys2Proof.Machine.execSleepBroadcast path ring s
  | .wakeBroadcast path ring => Sys2Proof.Machine.execWakeBroadcast path ring s
  | .ringSplit ring => Sys2Proof.Machine.execRingSplit ring s
  | .ringWhole ring => Sys2Proof.Machine.execRingWhole ring s
  | .nodeSilent ring node => Sys2Proof.Machine.execNodeSilent ring node s
  | .sweepRunCheck ring => Sys2Proof.Machine.execSweepRunCheck ring s
  | .headroomDeadline bank => Sys2Proof.Machine.execHeadroomDeadline bank s
  | .diagRunJudge ring => Sys2Proof.Machine.execDiagRunJudge ring s
  | .wireTestCmd path val => Sys2Proof.Machine.execWireTestCmd path val s
  | .balCmd path val => Sys2Proof.Machine.execBalCmd path val s
  | .quietDisWrite path val => Sys2Proof.Machine.execQuietDisWrite path val s
  | .limitsRebroadcast ring => Sys2Proof.Machine.execLimitsRebroadcast ring s
  | .combHostWrite path ofs val => Sys2Proof.Machine.execCombHostWrite path ofs val s
  | .campaignStart path => Sys2Proof.Machine.execCampaignStart path s
  | .campaignStop path => Sys2Proof.Machine.execCampaignStop path s
  | .campaignBroadcast => Sys2Proof.Machine.execCampaignBroadcast s
  | .streamSampleTake ring => Sys2Proof.Machine.execStreamSampleTake ring s
  | .phasorRunReceive ring => Sys2Proof.Machine.execPhasorRunReceive ring s
  | .windowEnd ring node => Sys2Proof.Machine.execWindowEnd ring node s
  | .binWrite => Sys2Proof.Machine.execBinWrite s
  | .excitationRampEnd => Sys2Proof.Machine.execExcitationRampEnd s
  | .faultEventTake => Sys2Proof.Machine.execFaultEventTake s
  | .faultClear path n mask => Sys2Proof.Machine.execFaultClear path n mask s
  | .tripLatchRelease path n mask => Sys2Proof.Machine.execTripLatchRelease path n mask s
  | .hostFaultRaise path val => Sys2Proof.Machine.execHostFaultRaise path val s
  | .nvmLogWrite => Sys2Proof.Machine.execNvmLogWrite s
  | .hostLinkReset => Sys2Proof.Machine.execHostLinkReset s
  | .dmaWrite ring => Sys2Proof.Machine.execDmaWrite ring s
  | .dmaEnable path ring val => Sys2Proof.Machine.execDmaEnable path ring val s
  | .dmaRptrWrite path ring val => Sys2Proof.Machine.execDmaRptrWrite path ring val s
  | .dmaHoldExpiry ring => Sys2Proof.Machine.execDmaHoldExpiry ring s
  | .msixUnmask vec => Sys2Proof.Machine.execMsixUnmask vec s
  | .spiReadRegisters uart bytes => Sys2Proof.Machine.execSpiReadRegisters uart bytes s
  | .spiWriteRegisters uart bytes => Sys2Proof.Machine.execSpiWriteRegisters uart bytes s
  | .spiReadBar2 uart bytes => Sys2Proof.Machine.execSpiReadBar2 uart bytes s
  | .spiWriteComb uart bytes => Sys2Proof.Machine.execSpiWriteComb uart bytes s
  | .spiReadStatus uart bytes => Sys2Proof.Machine.execSpiReadStatus uart bytes s
  | .spiFrameShort bytes => Sys2Proof.Machine.execSpiFrameShort bytes s
  | .uartGapTimeout bytes => Sys2Proof.Machine.execUartGapTimeout bytes s
  | .pointer x => Sys2Proof.Machine.execPointer x s
  | .block x => Sys2Proof.Machine.execBlock x s
  | .dataWrite bytes => Sys2Proof.Machine.execDataWrite bytes s
  | .dataRead n => Sys2Proof.Machine.execDataRead n s
  | .vset x => Sys2Proof.Machine.execVset x s
  | .vtarget x => Sys2Proof.Machine.execVtarget x s
  | .vslewed x => Sys2Proof.Machine.execVslewed x s
  | .vlimits x => Sys2Proof.Machine.execVlimits x s
  | .status x => Sys2Proof.Machine.execStatus x s
  | .alertResponse port won => Sys2Proof.Machine.execAlertResponse port won s
  | .twoWireTimeout port rx => Sys2Proof.Machine.execTwoWireTimeout port rx s
  | .portABusStuck => Sys2Proof.Machine.execPortABusStuck s
  | .twoWireWake port => Sys2Proof.Machine.execTwoWireWake port s
  | .twbGo path val => Sys2Proof.Machine.execTwbGo path val s
  | .twbTransferStart => Sys2Proof.Machine.execTwbTransferStart s
  | .twbTransferEnd res => Sys2Proof.Machine.execTwbTransferEnd res s
  | .twbArbitrationLost winner => Sys2Proof.Machine.execTwbArbitrationLost winner s
  | .arbSrErr rx => Sys2Proof.Machine.execArbSrErr rx s
  | .twbAbort path rx => Sys2Proof.Machine.execTwbAbort path rx s
  | .twbRecover path sda => Sys2Proof.Machine.execTwbRecover path sda s
  | .mailboxWrite bytes => Sys2Proof.Machine.execMailboxWrite bytes s
  | .mailboxRead ofs n => Sys2Proof.Machine.execMailboxRead ofs n s
  | .twbAlertAssert path => Sys2Proof.Machine.execTwbAlertAssert path s
  | .twbAlertSeen => Sys2Proof.Machine.execTwbAlertSeen s
  | .serviceIslandPowerUp cc => Sys2Proof.Machine.execServiceIslandPowerUp cc s
  | .pdMessageReceive m => Sys2Proof.Machine.execPdMessageReceive m s
  | .pdSend path => Sys2Proof.Machine.execPdSend path s
  | .sendSoftReset path => Sys2Proof.Machine.execSendSoftReset path s
  | .sendHardReset path => Sys2Proof.Machine.execSendHardReset path s
  | .hardResetReceive => Sys2Proof.Machine.execHardResetReceive s
  | .hardResetRecovery => Sys2Proof.Machine.execHardResetRecovery s
  | .responseTimeout => Sys2Proof.Machine.execResponseTimeout s
  | .rxPop path => Sys2Proof.Machine.execRxPop path s
  | .hostPolicyTake path => Sys2Proof.Machine.execHostPolicyTake path s
  | .sourcePathRequest path => Sys2Proof.Machine.execSourcePathRequest path s
  | .sourcePathClose mv => Sys2Proof.Machine.execSourcePathClose mv s
  | .sourceGuardTimeout => Sys2Proof.Machine.execSourceGuardTimeout s
  | .prSwap path => Sys2Proof.Machine.execPrSwap path s
  | .prSwapTimeout => Sys2Proof.Machine.execPrSwapTimeout s
  | .vconnSwap path => Sys2Proof.Machine.execVconnSwap path s
  | .vconnOn => Sys2Proof.Machine.execVconnOn s
  | .detach mv => Sys2Proof.Machine.execDetach mv s
  | .seqOn path => Sys2Proof.Machine.execSeqOn path s
  | .seqOff path => Sys2Proof.Machine.execSeqOff path s
  | .seqTick pg => Sys2Proof.Machine.execSeqTick pg s
  | .pgTimeout rail => Sys2Proof.Machine.execPgTimeout rail s
  | .fallTimeout rail => Sys2Proof.Machine.execFallTimeout rail s
  | .thmMeasure sites => Sys2Proof.Machine.execThmMeasure sites s
  | .tagResetPresence path line => Sys2Proof.Machine.execTagResetPresence path line s
  | .tagSearch path line => Sys2Proof.Machine.execTagSearch path line s
  | .tagRead path line blk => Sys2Proof.Machine.execTagRead path line blk s
  | .tagCommandEnd line ans => Sys2Proof.Machine.execTagCommandEnd line ans s
  | .tagShort line => Sys2Proof.Machine.execTagShort line s
  | .vtagLoss => Sys2Proof.Machine.execVtagLoss s
  | .nvmWritePage path => Sys2Proof.Machine.execNvmWritePage path s
  | .nvmUnlockRead path => Sys2Proof.Machine.execNvmUnlockRead path s
  | .nvmUnlockWrite path => Sys2Proof.Machine.execNvmUnlockWrite path s
  | .nvmLock path => Sys2Proof.Machine.execNvmLock path s
  | .nvmSetReadPassword path => Sys2Proof.Machine.execNvmSetReadPassword path s
  | .nvmSetWritePassword path => Sys2Proof.Machine.execNvmSetWritePassword path s
  | .nvmIncrement path ctr => Sys2Proof.Machine.execNvmIncrement path ctr s
  | .nvmCommandComplete => Sys2Proof.Machine.execNvmCommandComplete s
  | .pwBackoffEnd => Sys2Proof.Machine.execPwBackoffEnd s
  | .nvmPowerUpScan => Sys2Proof.Machine.execNvmPowerUpScan s
  | .deviceReset => Sys2Proof.Machine.execDeviceReset s
  | .resetRelease pcieEn adr => Sys2Proof.Machine.execResetRelease pcieEn adr s
  | .coreDomainReady => Sys2Proof.Machine.execCoreDomainReady s
  | .coreSupplyLoss vlnk => Sys2Proof.Machine.execCoreSupplyLoss vlnk s
  | .supplyFall rail => Sys2Proof.Machine.execSupplyFall rail s
  | .dataPlacementComplete => Sys2Proof.Machine.execDataPlacementComplete s
  | .unitPowerDownComplete => Sys2Proof.Machine.execUnitPowerDownComplete s
  | .registerRead path place be badPar => Sys2Proof.Machine.execRegisterRead path place be badPar s
  | .pcieLinkUp speed lanes host => Sys2Proof.Machine.execPcieLinkUp speed lanes host s
  | .attach cc step => Sys2Proof.Machine.execAttach cc step s
  | .prSwapVbusArrival mv => Sys2Proof.Machine.execPrSwapVbusArrival mv s
  | .goodcrcTimeout => Sys2Proof.Machine.execGoodcrcTimeout s
  | .vsvcLoss => Sys2Proof.Machine.execVsvcLoss s
  | .supplyRise sup => Sys2Proof.Machine.execSupplyRise sup s
  | .clockLockLoss => Sys2Proof.Machine.execClockLockLoss s
  | .spiInvalidOpcode uart bytes => Sys2Proof.Machine.execSpiInvalidOpcode uart bytes s
  | .unknownCommandByte bytes => Sys2Proof.Machine.execUnknownCommandByte bytes s

end Sys2Proof.Machine
end

