-- ==== Sys2Proof/Laws/Sparse.lean ====
section
/-! SUPPORT. Laws of the sparse lists: what a read gives after a write, and that every operation keeps the canonical
form. -/
namespace Sys2Proof.Machine

variable {n : Nat}

/-! ## A read after a write -/

theorem kvGet_filter_ne (l : List (Nat × BitVec n)) {k k' : Nat} (h : k' ≠ k) :
    kvGet (l.filter fun p => p.1 != k) k' = kvGet l k' := by
  induction l with
  | nil => rfl
  | cons p t ih =>
    obtain ⟨a, w⟩ := p
    by_cases ha : a = k
    · subst ha
      simp [kvGet, ih, Ne.symm h]
    · simp [kvGet, ha, ih]

theorem kvGet_filter_self (l : List (Nat × BitVec n)) (k : Nat) :
    kvGet (l.filter fun p => p.1 != k) k = 0 := by
  induction l with
  | nil => rfl
  | cons p t ih =>
    obtain ⟨a, w⟩ := p
    by_cases ha : a = k <;> simp [kvGet, ha, ih]

theorem kvGet_kvIns_ne (l : List (Nat × BitVec n)) {k k' : Nat} (v : BitVec n) (h : k' ≠ k) :
    kvGet (kvIns l k v) k' = kvGet l k' := by
  induction l with
  | nil => simp [kvIns, kvGet, Ne.symm h]
  | cons p t ih =>
    obtain ⟨a, w⟩ := p
    by_cases ha : k < a <;> simp [kvIns, kvGet, ha, ih, Ne.symm h]

theorem kvGet_kvIns_self (l : List (Nat × BitVec n)) (k : Nat) (v : BitVec n) (h : ∀ p ∈ l, p.1 ≠ k) :
    kvGet (kvIns l k v) k = v := by
  induction l with
  | nil => simp [kvIns, kvGet]
  | cons p t ih =>
    obtain ⟨a, w⟩ := p
    have ha : a ≠ k := h (a, w) (by simp)
    by_cases hk : k < a
    · simp [kvIns, kvGet, hk]
    · simp [kvIns, kvGet, hk, ha, ih fun p hp => h p (by simp [hp])]

/-- A word reads as it was written. -/
@[simp] theorem kvGet_kvSet_self (l : List (Nat × BitVec n)) (k : Nat) (v : BitVec n) : kvGet (kvSet l k v) k = v := by
  unfold kvSet
  by_cases hv : v = 0
  · simp only [hv, if_true, kvGet_filter_self]
  · simp only [hv, if_false]
    exact kvGet_kvIns_self _ k v fun p hp => by simpa using (List.mem_filter.1 hp).2

/-- A write leaves every other word alone. -/
@[simp] theorem kvGet_kvSet_ne (l : List (Nat × BitVec n)) {k k' : Nat} (v : BitVec n) (h : k' ≠ k) :
    kvGet (kvSet l k v) k' = kvGet l k' := by
  unfold kvSet
  by_cases hv : v = 0
  · simp only [hv, if_true, kvGet_filter_ne l h]
  · simp only [hv, if_false, kvGet_kvIns_ne _ v h, kvGet_filter_ne l h]

theorem kvGet_kvSet (l : List (Nat × BitVec n)) (k k' : Nat) (v : BitVec n) :
    kvGet (kvSet l k v) k' = if k' = k then v else kvGet l k' := by
  by_cases h : k' = k
  · subst h; simp
  · simp [h]

/-! ## The canonical form -/

theorem kvOk_weaken {lo lo' : Option Nat} {l : List (Nat × BitVec n)}
    (h : kvOk lo l = true) (hl : ∀ b', lo' = some b' → ∃ b, lo = some b ∧ b' ≤ b) : kvOk lo' l = true := by
  cases l with
  | nil => rfl
  | cons p t =>
    obtain ⟨a, w⟩ := p
    simp only [kvOk, Bool.and_eq_true] at h ⊢
    refine ⟨⟨?_, h.1.2⟩, h.2⟩
    cases lo' with
    | none => rfl
    | some b' =>
      obtain ⟨b, rfl, hb⟩ := hl b' rfl
      have := of_decide_eq_true h.1.1
      exact decide_eq_true (by omega)

/-- The canonical form: rising keys above the bound, no zero. -/
theorem kvOk_cons {lo : Option Nat} {a : Nat} {w : BitVec n} {t : List (Nat × BitVec n)} :
    kvOk lo ((a, w) :: t) = true ↔ (∀ b, lo = some b → b < a) ∧ w ≠ 0 ∧ kvOk (some a) t = true := by
  cases lo <;> simp [kvOk, and_assoc]

theorem kvOk_filter (p : Nat × BitVec n → Bool) :
    ∀ (l : List (Nat × BitVec n)) (lo : Option Nat), kvOk lo l = true → kvOk lo (l.filter p) = true
  | [], _, _ => rfl
  | (a, w) :: t, lo, h => by
    obtain ⟨hb, hw, ht⟩ := kvOk_cons.1 h
    by_cases hp : p (a, w) = true
    · rw [List.filter_cons_of_pos hp]
      exact kvOk_cons.2 ⟨hb, hw, kvOk_filter p t _ ht⟩
    · rw [List.filter_cons_of_neg hp]
      exact kvOk_filter p t lo (kvOk_weaken ht fun b hb' => ⟨a, rfl, le_of_lt (hb b hb')⟩)

theorem kvOk_kvIns {v : BitVec n} (hv : v ≠ 0) (k : Nat) :
    ∀ (l : List (Nat × BitVec n)) (lo : Option Nat), (∀ q ∈ l, q.1 ≠ k) → (∀ b, lo = some b → b < k) →
      kvOk lo l = true → kvOk lo (kvIns l k v) = true
  | [], _, _, hk, _ => kvOk_cons.2 ⟨hk, hv, rfl⟩
  | (a, w) :: t, lo, hn, hk, h => by
    obtain ⟨hb, hw, ht⟩ := kvOk_cons.1 h
    have ha : a ≠ k := hn (a, w) (by simp)
    by_cases hlt : k < a
    · simp only [kvIns, hlt, if_true]
      exact kvOk_cons.2 ⟨hk, hv, kvOk_cons.2 ⟨fun b hb' => by cases hb'; exact hlt, hw, ht⟩⟩
    · simp only [kvIns, hlt, if_false]
      exact kvOk_cons.2 ⟨hb, hw, kvOk_kvIns hv k t _ (fun q hq => hn q (by simp [hq]))
        (fun b hb' => by cases hb'; omega) ht⟩

/-- A write keeps the canonical form. -/
theorem kvOk_kvSet {l : List (Nat × BitVec n)} (k : Nat) (v : BitVec n) (h : kvOk none l = true) :
    kvOk none (kvSet l k v) = true := by
  unfold kvSet
  by_cases hv : v = 0
  · simp only [hv, if_true]; exact kvOk_filter _ l none h
  · simp only [hv, if_false]
    exact kvOk_kvIns hv k _ none (fun q hq => by simpa using (List.mem_filter.1 hq).2) (by simp) (kvOk_filter _ l none h)

/-! ## Byte memories -/

@[simp] theorem Memory.read_write_self (m : Memory) (a : Nat) (b : Byte) : (m.write a b).read a = b := kvGet_kvSet_self m a b

@[simp] theorem Memory.read_write_ne (m : Memory) {a x : Nat} (b : Byte) (h : x ≠ a) : (m.write a b).read x = m.read x :=
  kvGet_kvSet_ne m b h

theorem Memory.wf_write {m : Memory} (a : Nat) (b : Byte) (h : m.wf = true) : (m.write a b).wf = true := kvOk_kvSet a b h

/-- A run of bytes leaves every byte outside it alone. -/
theorem Memory.read_writeBytes_out (x : Nat) : ∀ (bs : List Byte) (m : Memory) (a : Nat), (x < a ∨ a + bs.length ≤ x) →
    (m.writeBytes a bs).read x = m.read x
  | [], _, _, _ => rfl
  | b :: t, m, a, h => by
    simp only [List.length_cons] at h
    rw [Memory.writeBytes, Memory.read_writeBytes_out x t (m.write a b) (a + 1) (by omega), Memory.read_write_ne]
    omega

/-- A run of bytes reads back as written. -/
theorem Memory.read_writeBytes_in : ∀ (bs : List Byte) (m : Memory) (a i : Nat), i < bs.length →
    (m.writeBytes a bs).read (a + i) = bs.getD i 0
  | b :: t, m, a, 0, _ => by
    have h := Memory.read_writeBytes_out a t (m.write a b) (a + 1) (by omega)
    simpa [Memory.writeBytes] using h
  | b :: t, m, a, i + 1, h => by
    rw [Memory.writeBytes, show a + (i + 1) = (a + 1) + i by omega,
      Memory.read_writeBytes_in t (m.write a b) (a + 1) i (by simpa using h)]
    simp

theorem Memory.wf_writeBytes : ∀ (bs : List Byte) (m : Memory) (a : Nat), m.wf = true → (m.writeBytes a bs).wf = true
  | [], _, _, h => h
  | b :: t, m, a, h => Memory.wf_writeBytes t (m.write a b) (a + 1) (Memory.wf_write a b h)

/-- A part of a memory keeps the canonical form. -/
theorem Memory.wf_filter {m : Memory} (p : Host.Cell → Bool) (h : m.wf = true) : Memory.wf (m.filter p) = true :=
  kvOk_filter p m none h

end Sys2Proof.Machine
end

