-- ==== Sys2Proof/Laws/Fields.lean ====
section
/-! SUPPORT. Laws of register fields: what a field reads after a write of a field. -/
namespace Sys2Proof.Machine

/-- The bits that `putBits` writes, and those it keeps. -/
theorem putBits_getLsbD (w : Word) (lo width v i : Nat) (hi : i < 32) :
    (putBits w lo width v).getLsbD i = if lo ≤ i ∧ i < lo + width then v.testBit (i - lo) else w.getLsbD i := by
  have hm : ∀ x : Nat, x < 2 ^ width → (BitVec.ofNat 32 (x * 2 ^ lo)).getLsbD i = (decide (lo ≤ i) && x.testBit (i - lo)) := by
    intro x _
    simp only [BitVec.getLsbD_ofNat, hi, decide_true, Bool.true_and]
    rw [Nat.testBit_mul_two_pow]
  have h1 : 2 ^ width - 1 < 2 ^ width := Nat.sub_lt (Nat.two_pow_pos _) Nat.one_pos
  have h2 : v % 2 ^ width < 2 ^ width := Nat.mod_lt _ (Nat.two_pow_pos _)
  unfold putBits
  simp only [BitVec.getLsbD_or, BitVec.getLsbD_and, BitVec.getLsbD_not, hm _ h1, hm _ h2, hi, decide_true, Bool.true_and,
    Nat.testBit_two_pow_sub_one, Nat.testBit_mod_two_pow]
  by_cases hl : lo ≤ i
  · by_cases hr : i < lo + width
    · have : i - lo < width := by omega
      simp [hl, hr, this]
    · have : ¬ i - lo < width := by omega
      simp [hl, hr, this]
  · simp [hl]

/-- The bits of a field's value. -/
theorem getF_testBit (r : RegFile) (f : Fld) (i : Nat) :
    (getF r f).testBit i = (decide (i < f.width) && (kvGet r f.ofs).getLsbD (f.lo + i)) := by
  unfold getF
  rw [Nat.testBit_mod_two_pow, Nat.testBit_shiftRight]
  rfl

theorem getF_lt (r : RegFile) (f : Fld) : getF r f < 2 ^ f.width := Nat.mod_lt _ (Nat.two_pow_pos _)

/-- A field reads as it was written. -/
theorem getF_setF_self (r : RegFile) (f : Fld) (v : Nat) (h : f.lo + f.width ≤ 32) :
    getF (setF r f v) f = v % 2 ^ f.width := by
  apply Nat.eq_of_testBit_eq
  intro i
  rw [getF_testBit, Nat.testBit_mod_two_pow]
  by_cases hi : i < f.width
  · have h1 : f.lo + i < 32 := by omega
    simp only [setF, kvGet_kvSet_self, hi, decide_true, Bool.true_and]
    rw [putBits_getLsbD _ _ _ _ _ h1, if_pos (by omega)]
    congr 1; omega
  · simp [hi]

/-- A field of another register keeps its value. -/
theorem getF_setF_ofs (r : RegFile) {f g : Fld} (v : Nat) (h : g.ofs ≠ f.ofs) : getF (setF r f v) g = getF r g := by
  unfold getF setF
  rw [kvGet_kvSet_ne _ _ h]

/-- A field of the same register that shares no bit keeps its value. -/
theorem getF_setF_bits (r : RegFile) {f g : Fld} (v : Nat) (hg : g.lo + g.width ≤ 32)
    (h : g.lo + g.width ≤ f.lo ∨ f.lo + f.width ≤ g.lo) : getF (setF r f v) g = getF r g := by
  apply Nat.eq_of_testBit_eq
  intro i
  rw [getF_testBit, getF_testBit]
  by_cases hi : i < g.width
  · simp only [hi, decide_true, Bool.true_and]
    by_cases ho : g.ofs = f.ofs
    · rw [ho]
      simp only [setF, kvGet_kvSet_self]
      rw [putBits_getLsbD _ _ _ _ _ (by omega), if_neg (by omega)]
    · simp only [setF, kvGet_kvSet_ne _ _ ho]
  · simp [hi]

/-- What a field reads after a write of any field: the fields of this map share all their bits or none. -/
theorem getF_setF (r : RegFile) (f g : Fld) (v : Nat) (hf : f.lo + f.width ≤ 32) (hg : g.lo + g.width ≤ 32)
    (h : f = g ∨ g.ofs ≠ f.ofs ∨ g.lo + g.width ≤ f.lo ∨ f.lo + f.width ≤ g.lo) :
    getF (setF r f v) g = if f = g then v % 2 ^ f.width else getF r g := by
  by_cases hfg : f = g
  · subst hfg; rw [if_pos rfl]; exact getF_setF_self r f v hf
  · rw [if_neg hfg]
    rcases h with h | h | h
    · exact absurd h hfg
    · exact getF_setF_ofs r v h
    · exact getF_setF_bits r v hg h

@[simp] theorem flag_setFlag_self (r : RegFile) (f : Fld) (h : f.lo + f.width ≤ 32) (hw : 0 < f.width) :
    flag (setFlag r f) f = true := by
  unfold flag setFlag
  rw [getF_setF_self r f 1 h, Nat.mod_eq_of_lt (Nat.one_lt_two_pow (by omega))]
  rfl

/-- A write of a field keeps the canonical form. -/
theorem RegFile.wf_setF {r : RegFile} (f : Fld) (v : Nat) (h : r.wf = true) : (setF r f v).wf = true := kvOk_kvSet _ _ h

theorem RegFile.wf_kvSet {r : RegFile} (k : Nat) (v : Word) (h : r.wf = true) : RegFile.wf (kvSet r k v) = true := kvOk_kvSet k v h

end Sys2Proof.Machine
end

