-- ==== Sys2Proof/Laws/State.lean ====
section
/-! SUPPORT. Laws of the shared operations: which parts of the state each one may change, and what it does there. -/
namespace Sys2Proof.Machine

/-! ## What a command answers -/

@[simp] theorem whenUp_next (f : State → State) (s : State) : whenUp f s = .next (if s.sys.up then f s else s) := rfl
@[simp] theorem whenCore_next (f : State → State) (s : State) : whenCore f s = .next (if coreReady s then f s else s) := rfl

/-! ## Map bits -/

theorem getBit_putBit_self (r : RegFile) (ofs i : Nat) (b : Bool) (h : i < 32) : getBit (putBit r ofs i b) ofs i = b := by
  unfold getBit putBit
  rw [kvGet_kvSet_self, putBits_getLsbD _ _ _ _ _ h, if_pos (by omega)]
  cases b <;> simp

theorem getBit_putBit_ne (r : RegFile) (ofs i k j : Nat) (b : Bool) (h : k ≠ ofs ∨ j ≠ i) (hj : j < 32) :
    getBit (putBit r ofs i b) k j = getBit r k j := by
  unfold getBit putBit
  by_cases hk : k = ofs
  · subst hk
    rw [kvGet_kvSet_self, putBits_getLsbD _ _ _ _ _ hj, if_neg (by omega)]
  · rw [kvGet_kvSet_ne _ _ hk]

theorem kvGet_putBit_ne (r : RegFile) (ofs i k : Nat) (b : Bool) (h : k ≠ ofs) : kvGet (putBit r ofs i b) k = kvGet r k :=
  kvGet_kvSet_ne _ _ h

/-! ## Interrupt causes (R364, R365, R381): only the host interface, the alert line and what was sent may change -/

theorem sendMsi_frame (v : Nat) (s : State) :
    sendMsi v s = { s with hst := (sendMsi v s).hst, out := (sendMsi v s).out } := by
  unfold sendMsi emit; split
  · rfl
  · split <;> rfl

theorem irq_frame (v : Nat) (s : State) :
    irq v s = { s with hst := (irq v s).hst, two := (irq v s).two, out := (irq v s).out } := by
  unfold irq
  split
  · rfl
  · dsimp only
    split <;> split
    · rw [sendMsi_frame]; rfl
    · rfl
    · rw [sendMsi_frame]
    · rfl

theorem dmaIrq_frame (r : Nat) (s : State) : dmaIrq r s = { s with hst := (dmaIrq r s).hst, out := (dmaIrq r s).out } := by
  unfold dmaIrq
  split
  · rfl
  · dsimp only
    split
    · rw [sendMsi_frame]
    · rfl

/-- A cause leaves its bit of `HST_IRQ_STAT` set. -/
theorem irq_stat (v : Nat) (s : State) (h : v < 32) : getBit (irq v s).hst.r R.HST_IRQ_STAT v = true := by
  have hm : ∀ s : State, getBit s.hst.r R.HST_IRQ_STAT v = true → getBit (sendMsi v s).hst.r R.HST_IRQ_STAT v = true := by
    intro s hs
    unfold sendMsi emit
    split
    · simpa [getBit, kvGet_putBit_ne, R.HST_IRQ_STAT] using hs
    · split <;> exact hs
  unfold irq
  split
  · assumption
  · dsimp only
    have hb := getBit_putBit_self s.hst.r R.HST_IRQ_STAT v true h
    split <;> split
    · exact hm _ hb
    · exact hb
    · exact hm _ hb
    · exact hb

/-- A register of the host interface outside `HST_IRQ_STAT` and the PBA keeps its value at a cause. -/
theorem irq_hst (v : Nat) (s : State) (k : Nat) (h1 : k ≠ R.HST_IRQ_STAT) (h2 : k ≠ 0x9000) :
    kvGet (irq v s).hst.r k = kvGet s.hst.r k := by
  have hm : ∀ s : State, kvGet (sendMsi v s).hst.r k = kvGet s.hst.r k := by
    intro s
    unfold sendMsi emit
    split
    · exact kvGet_putBit_ne _ _ _ _ _ h2
    · split <;> rfl
  unfold irq
  split
  · rfl
  · dsimp only
    split <;> split <;> first | (rw [hm]; exact kvGet_putBit_ne _ _ _ _ _ h1) | exact kvGet_putBit_ne _ _ _ _ _ h1

section
variable (v : Nat) (s : State)

@[simp] theorem irq_sys : (irq v s).sys = s.sys := by rw [irq_frame]
@[simp] theorem irq_tbs : (irq v s).tbs = s.tbs := by rw [irq_frame]
@[simp] theorem irq_img : (irq v s).img = s.img := by rw [irq_frame]
@[simp] theorem irq_plc : (irq v s).plc = s.plc := by rw [irq_frame]
@[simp] theorem irq_cea : (irq v s).cea = s.cea := by rw [irq_frame]
@[simp] theorem irq_bus : (irq v s).bus = s.bus := by rw [irq_frame]
@[simp] theorem irq_pwm : (irq v s).pwm = s.pwm := by rw [irq_frame]
@[simp] theorem irq_acq : (irq v s).acq = s.acq := by rw [irq_frame]
@[simp] theorem irq_lnk : (irq v s).lnk = s.lnk := by rw [irq_frame]
@[simp] theorem irq_rng : (irq v s).rng = s.rng := by rw [irq_frame]
@[simp] theorem irq_csv : (irq v s).csv = s.csv := by rw [irq_frame]
@[simp] theorem irq_spx : (irq v s).spx = s.spx := by rw [irq_frame]
@[simp] theorem irq_bgt : (irq v s).bgt = s.bgt := by rw [irq_frame]
@[simp] theorem irq_flt : (irq v s).flt = s.flt := by rw [irq_frame]
@[simp] theorem irq_svc : (irq v s).svc = s.svc := by rw [irq_frame]
@[simp] theorem irq_seq : (irq v s).seq = s.seq := by rw [irq_frame]
@[simp] theorem irq_thm : (irq v s).thm = s.thm := by rw [irq_frame]
@[simp] theorem irq_tag : (irq v s).tag = s.tag := by rw [irq_frame]
@[simp] theorem irq_nvm : (irq v s).nvm = s.nvm := by rw [irq_frame]
@[simp] theorem irq_pending : (irq v s).pending = s.pending := by rw [irq_frame]
@[simp] theorem irq_free : (irq v s).free = s.free := by rw [irq_frame]

end

/-! ## Events (R339, R340): only the fault collector changes -/

@[simp] theorem raise_sys (a u b : Nat) (s : State) : (raise a u b s).sys = s.sys := rfl
@[simp] theorem raise_tbs (a u b : Nat) (s : State) : (raise a u b s).tbs = s.tbs := rfl
@[simp] theorem raise_img (a u b : Nat) (s : State) : (raise a u b s).img = s.img := rfl
@[simp] theorem raise_plc (a u b : Nat) (s : State) : (raise a u b s).plc = s.plc := rfl
@[simp] theorem raise_cea (a u b : Nat) (s : State) : (raise a u b s).cea = s.cea := rfl
@[simp] theorem raise_bus (a u b : Nat) (s : State) : (raise a u b s).bus = s.bus := rfl
@[simp] theorem raise_pwm (a u b : Nat) (s : State) : (raise a u b s).pwm = s.pwm := rfl
@[simp] theorem raise_acq (a u b : Nat) (s : State) : (raise a u b s).acq = s.acq := rfl
@[simp] theorem raise_lnk (a u b : Nat) (s : State) : (raise a u b s).lnk = s.lnk := rfl
@[simp] theorem raise_rng (a u b : Nat) (s : State) : (raise a u b s).rng = s.rng := rfl
@[simp] theorem raise_csv (a u b : Nat) (s : State) : (raise a u b s).csv = s.csv := rfl
@[simp] theorem raise_spx (a u b : Nat) (s : State) : (raise a u b s).spx = s.spx := rfl
@[simp] theorem raise_bgt (a u b : Nat) (s : State) : (raise a u b s).bgt = s.bgt := rfl
@[simp] theorem raise_hst (a u b : Nat) (s : State) : (raise a u b s).hst = s.hst := rfl
@[simp] theorem raise_two (a u b : Nat) (s : State) : (raise a u b s).two = s.two := rfl
@[simp] theorem raise_svc (a u b : Nat) (s : State) : (raise a u b s).svc = s.svc := rfl
@[simp] theorem raise_seq (a u b : Nat) (s : State) : (raise a u b s).seq = s.seq := rfl
@[simp] theorem raise_thm (a u b : Nat) (s : State) : (raise a u b s).thm = s.thm := rfl
@[simp] theorem raise_tag (a u b : Nat) (s : State) : (raise a u b s).tag = s.tag := rfl
@[simp] theorem raise_nvm (a u b : Nat) (s : State) : (raise a u b s).nvm = s.nvm := rfl
@[simp] theorem raise_pending (a u b : Nat) (s : State) : (raise a u b s).pending = s.pending := rfl
@[simp] theorem raise_out (a u b : Nat) (s : State) : (raise a u b s).out = s.out := rfl
@[simp] theorem raise_free (a u b : Nat) (s : State) : (raise a u b s).free = s.free := rfl
@[simp] theorem raise_flt (a u b : Nat) (s : State) : (raise a u b s).flt = postEvent a u b (strideTag s) s.flt := rfl

/-- An event of a source whose unit is not fenced and that has room in queue 9 goes to its end. -/
theorem postEvent_room (src unit sub tag : Nat) (f : Flt) (hf : unitFenced f src unit = false) (hq : f.q9.length < 64)
    (hh : f.held.any (·.src = src) = false) :
    postEvent src unit sub tag f = { f with q9 := f.q9 ++ [{ src := src, unit := unit, sub := sub, tag := tag }] } := by
  simp [postEvent, hf, hq, hh]

/-- Queue 9 never holds more than its 64 entries (R16): posting keeps the bound. -/
theorem postEvent_q9 (src unit sub tag : Nat) (f : Flt) (h : f.q9.length ≤ 64) : (postEvent src unit sub tag f).q9.length ≤ 64 := by
  unfold postEvent
  split
  · exact h
  · split
    · simp; omega
    · exact h

/-! ## Queue counters, sent items, free values -/

theorem qCount_frame (f : Fld) (q ring n : Nat) (s : State) :
    qCount f q ring n s = { s with sys := { s.sys with qcnt := incF s.sys.qcnt ⟨qKey q ring, f.lo, f.width⟩ n } } := rfl

@[simp] theorem emit_out (o : Out) (s : State) : (emit o s).out = s.out ++ [o] := rfl
theorem emit_frame (o : Out) (s : State) : emit o s = { s with out := s.out ++ [o] } := rfl

/-- A count never wraps: it stops at the field's highest value. -/
theorem getF_incF (r : RegFile) (f : Fld) (n : Nat) (h : f.lo + f.width ≤ 32) :
    getF (incF r f n) f = min (getF r f + n) (2 ^ f.width - 1) := by
  unfold incF
  rw [getF_setF_self _ _ _ h, Nat.mod_eq_of_lt]
  have := Nat.two_pow_pos f.width
  omega

/-- Every operation of the queue counters keeps the canonical form. -/
theorem RegFile.wf_incF {r : RegFile} (f : Fld) (n : Nat) (h : r.wf = true) : (incF r f n).wf = true := RegFile.wf_setF f _ h

theorem RegFile.wf_putBit {r : RegFile} (ofs i : Nat) (b : Bool) (h : r.wf = true) : (putBit r ofs i b).wf = true :=
  kvOk_kvSet _ _ h

/-! ## The register file of one block -/

theorem blkRegs_setRegs_self (b : Nat) (r : RegFile) (s : State) (hb : b < 21) : blkRegs b (setRegs b r s) = r := by
  interval_cases b <;> rfl

theorem blkRegs_setRegs_ne (b c : Nat) (r : RegFile) (s : State) (hb : b < 21) (hc : c < 21) (h : c ≠ b) :
    blkRegs c (setRegs b r s) = blkRegs c s := by
  have : ∀ x < 21, ∀ y < 21, y ≠ x → blkRegs y (setRegs x r s) = blkRegs y s := by
    intro x hx y hy
    interval_cases x <;> interval_cases y <;> first | exact fun h => absurd rfl h | exact fun _ => rfl
  exact this b hb c hc h

@[simp] theorem setRegs_pending (b : Nat) (r : RegFile) (s : State) : (setRegs b r s).pending = s.pending := by
  unfold setRegs; split <;> rfl

@[simp] theorem setRegs_out (b : Nat) (r : RegFile) (s : State) : (setRegs b r s).out = s.out := by
  unfold setRegs; split <;> rfl

@[simp] theorem setRegs_free (b : Nat) (r : RegFile) (s : State) : (setRegs b r s).free = s.free := by
  unfold setRegs; split <;> rfl

end Sys2Proof.Machine
end

