-- ==== Sys2Proof/Safety.lean ====
section
/-! DEFINITION. What counts as a safe state: the gate outputs exclude each other, the memories keep their one form. -/
namespace Sys2Proof.Machine

/-- The two gate outputs of a phase exclude each other, and an output that waits out its dead time waits with the other one
inactive (R186, R187): the half bridge never shorts. -/
def PhaseCh.exclusive (x : PhaseCh) : Prop :=
  ¬(x.h = true ∧ x.l = true) ∧ (x.rise = some true → x.l = false) ∧ (x.rise = some false → x.h = false)

/-- No phase drives both outputs (R187). -/
def State.outputsExclusive (s : State) : Prop := ∀ p : Fin 48, PhaseCh.exclusive s.pwm.ph[p]

/-- The store, the loader's buffer and the sample buffer are lists in their canonical form: addresses rising, no byte listed
that is 0, so that equal contents are equal data. -/
def State.memoriesCanonical (s : State) : Prop :=
  s.nvm.mem.wf = true ∧ s.img.buf.wf = true ∧ s.acq.buf.wf = true

end Sys2Proof.Machine
end

