-- ==== Sys2Proof/Certificates/Slice0/Obligations.lean ====
section
/-! DEFINITION. The statements about the block, for the provers: each follows the rules its docstring names. -/
open Sys2Proof Sys2Proof.Machine

/-! ## The whole machine -/

/-- A step takes the command at the front of the queue and answers what `exec` answers on the state with the queue's rest;
with nothing waiting the block idles: where strides run one clock of the stride passes, up to its last, and else, in COLD
and SERVICE alone, one clock of the two-wire ports' wait (the model's choice, log entry 3). Every command of the opcode
table completes in every state: none faults, none is refused. -/
def Obligations.StepRunsFrontCommand : Prop :=
  (∀ (c : Instr) (rest : List Instr) (s : State), step { s with pending := c :: rest } = exec c { s with pending := rest }) ∧
  (∀ s : State, s.pending = [] → ∃ t, step s = .next t ∧
    (strides s = true → t = { s with tbs := { s.tbs with clock := t.tbs.clock } } ∧
      (s.tbs.clock + 1 < s.tbs.len → t.tbs.clock = s.tbs.clock + 1) ∧ (s.tbs.len ≤ s.tbs.clock + 1 → t = s)) ∧
    (strides s = false → t = { s with two := { s.two with clkA := t.two.clkA, clkB := t.two.clkB, freeA := t.two.freeA, freeB := t.two.freeB } } ∧
      (3 ≤ opState s → t = s))) ∧
  ∀ (c : Instr) (s : State), ∃ t, exec c s = .next t

/-- Right after reset nothing waits and nothing was sent, the service island and the core domain are held in reset, the
sequencer is OFF with every enable low (R409), every register of every block holds the reset value of its table, and the
two invariants of `OutputsExclude` and `MemoriesStayCanonical` hold. That the memories read 0, that the gate outputs are
low and that every vector of the MSI-X table is masked are the model's own choices (log entries 2, 6 and 7). -/
def Obligations.ResetState : Prop :=
  State.reset.pending = [] ∧ State.reset.out = [] ∧ State.reset.sys.up = false ∧ coreReady State.reset = false ∧
  State.reset.seq.rails = [] ∧ seqState State.reset.seq = 0 ∧ opState State.reset = 1 ∧
  (∀ b o : Nat, b ≤ 20 → (b = 14 → o < 0x8000) → kvGet (blkRegs b State.reset) o =
    ((([(0, 0, 0x48500A01), (0, 0x104, 1), (1, 0, 0xFA0), (1, 4, 0x005000C8), (1, 8, 0x00960300), (3, 0x4C, 0x00640000),
      (3, 0x50, 0x400), (5, 0x1C, 0x00C80014), (8, 0, 4), (8, 0xC, 0x55), (9, 4, 0x402), (10, 4, 0x01F40010), (12, 0, 0x03E836B0),
      (13, 0, 1), (13, 4, 0x4003), (14, 4, 0x23), (15, 0, 0x360), (15, 0x20, 0x00031C00), (16, 0, 0x001B0A6A), (17, 0, 0x00640000),
      (18, 0, 0x05786900)] ++ (List.range 4).map (fun n => (6, 0x20 + 4 * n, 0x08080808)) ++
      (List.range 16).map (fun n => (17, 0x108 + 16 * n, 0xFF)) : List (Nat × Nat × Nat)).find? fun (x : Nat × Nat × Nat) => x.1 == b && x.2.1 == o).map
        fun (x : Nat × Nat × Nat) => BitVec.ofNat 32 x.2.2).getD 0) ∧
  (∀ v < 32, msixMasked State.reset.hst.r v = true) ∧ (∀ a, State.reset.nvm.mem.read a = 0) ∧
  State.reset.outputsExclusive ∧ State.reset.memoriesCanonical

/-- The two gate outputs of every phase exclude each other, and an output that waits out its dead time waits with the other
one inactive: whatever step the machine takes from a state where this holds, it holds afterwards (R186, R187). -/
def Obligations.OutputsExclude : Prop :=
 ∀ s t : State, s.outputsExclusive → step s = .next t → t.outputsExclusive

/-- The store, the loader's buffer and the sample buffer keep their canonical form in every step: addresses rise and no byte
listed is 0. -/
def Obligations.MemoriesStayCanonical : Prop :=
 ∀ s t : State, s.memoriesCanonical → step s = .next t → t.memoriesCanonical

/-! ## Rules stated whole -/

/-- NVM_WRITE_PAGE is refused where a masked byte lies where the host may not write (`err` 2), where the write lock is closed
(`err` 1), where a host command runs (`err` 3) and where the mask is 0 (`err` 7), with one of the codes that hold where
several do: `refused` and the code are set, cause 13 with them, and nothing else of the store changes (R434). -/
def Obligations.NvmWriteRefused : Prop :=
  ∀ (p : Path) (s : State), s.sys.up = true →
    (∃ q ∈ pageBytes s.nvm.r, hostWrites q.1 = false) ∨ flag s.nvm.r F.NVM_STAT_wr_unlocked = false ∨
      (s.nvm.cmds ≠ [] ∨ storeRuns s = true) ∨ (∀ i < 64, getMap s.nvm.r R.NVM_MASK_LO i = false) →
    ∃ t, exec (.nvmWritePage p) s = .next t ∧
      t = { s with nvm := { s.nvm with r := t.nvm.r }, hst := t.hst, two := t.two, out := t.out } ∧
      flag t.nvm.r F.NVM_STAT_refused = true ∧ getBit t.hst.r R.HST_IRQ_STAT 13 = true ∧
      (∀ o, o ≠ R.NVM_STAT → kvGet t.nvm.r o = kvGet s.nvm.r o) ∧
      (getF t.nvm.r F.NVM_STAT_err = 2 ∧ (∃ q ∈ pageBytes s.nvm.r, hostWrites q.1 = false) ∨
        getF t.nvm.r F.NVM_STAT_err = 1 ∧ flag s.nvm.r F.NVM_STAT_wr_unlocked = false ∨
        getF t.nvm.r F.NVM_STAT_err = 3 ∧ (s.nvm.cmds ≠ [] ∨ storeRuns s = true) ∨
        getF t.nvm.r F.NVM_STAT_err = 7 ∧ (∀ i < 64, getMap s.nvm.r R.NVM_MASK_LO i = false))

/-- TAG_RESET_PRESENCE, TAG_SEARCH and TAG_READ (R426): refused with `err` 4 while VTAG is low, with `err` 5 on a line that is
not enabled, with `err` 6 while a command runs on that line, with one of the codes that hold where several do, the line
left as it was but for `err`. Otherwise, on a line that no short has turned off, the command runs on its line and on no
other, and a search or a reset clears that line's ID list. -/
def Obligations.TagCommandsJudged : Prop :=
  ∀ (p : Path) (l : Fin 4) (blk : Fin 8) (s : State), s.sys.up = true →
    (∀ c ∈ [Instr.tagResetPresence p l, .tagSearch p l, .tagRead p l blk],
      flag s.tag.r F.TAG_CFG_no_vtag = true ∨ getBit s.tag.r R.TAG_CFG l = false ∨ (s.tag.cmd[l] ≠ none ∧ s.tag.off.getLsbD l = false) →
      ∃ t, exec c s = .next t ∧ t = { s with tag := { s.tag with r := t.tag.r } } ∧
        (getF t.tag.r (F.TAG_STATl_err l) = 4 ∧ flag s.tag.r F.TAG_CFG_no_vtag = true ∨
          getF t.tag.r (F.TAG_STATl_err l) = 5 ∧ getBit s.tag.r R.TAG_CFG l = false ∨
          getF t.tag.r (F.TAG_STATl_err l) = 6 ∧ s.tag.cmd[l] ≠ none) ∧
        (∀ o, o ≠ R.TAG_STATl l → kvGet t.tag.r o = kvGet s.tag.r o) ∧
        flag t.tag.r (F.TAG_STATl_busy l) = flag s.tag.r (F.TAG_STATl_busy l)) ∧
    (flag s.tag.r F.TAG_CFG_no_vtag = false → getBit s.tag.r R.TAG_CFG l = true → s.tag.off.getLsbD l = false → s.tag.cmd[l] = none →
      (∀ c ∈ [(Instr.tagResetPresence p l, TagCmd.reset), (.tagSearch p l, .search)], ∃ t, exec c.1 s = .next t ∧
        t = { s with tag := { s.tag with cmd := t.tag.cmd, r := t.tag.r } } ∧ t.tag.cmd[l] = some c.2 ∧
        (∀ k : Fin 4, k ≠ l → t.tag.cmd[k] = s.tag.cmd[k]) ∧ flag t.tag.r (F.TAG_STATl_busy l) = true ∧
        getF t.tag.r (F.TAG_STATl_count l) = 0 ∧
        (∀ i < 64, kvGet t.tag.r (R.TAG_IDl_i_LO l i) = 0 ∧ kvGet t.tag.r (R.TAG_IDl_i_HI l i) = 0)) ∧
      (∃ t, exec (.tagRead p l blk) s = .next t ∧ t = { s with tag := { s.tag with cmd := t.tag.cmd, r := t.tag.r } } ∧
        t.tag.cmd[l] = some (.read (kvGet s.tag.r R.TAG_ARG_HI ++ kvGet s.tag.r R.TAG_ARG_LO) blk) ∧
        (∀ k : Fin 4, k ≠ l → t.tag.cmd[k] = s.tag.cmd[k]) ∧ flag t.tag.r (F.TAG_STATl_busy l) = true ∧
        ∀ o, o ≠ R.TAG_STATl l → kvGet t.tag.r o = kvGet s.tag.r o))

/-- A host write of 1 to the bit of source 27 while it is active is refused exactly while the sequencer is ON and a rail of
the working table is enabled but not good (R414); one to the bit of source 26 exactly while a site that is not masked
reads at or above `t_crit` − `hyst`, as a broken site does (R418). A refused clear leaves the source as it was and says
so; any other ends its activity. -/
def Obligations.SensorClearsRefused : Prop :=
  ∀ (p : Path) (k : Fin 128) (holds : Prop) (s : State), coreReady s = true → s.flt.src[k].active = true →
    (k = 27 ∧ (holds ↔ seqState s.seq = 2 ∧ ∃ x ∈ s.seq.rails, x.en = true ∧ railGood x = false)) ∨
    (k = 26 ∧ (holds ↔ ∃ i < 12, siteMasked s.thm.r i = false ∧
      ((getF s.thm.r F.THM_CFG_t_crit : Int) - getF s.thm.r F.THM_CFG_hyst) * 100 ≤ getFI s.thm.r (F.THM_SITEn_temp i))) →
    ∃ t, exec (.faultClear p 0 (BitVec.ofNat 32 (2 ^ k.val))) s = .next t ∧
      (∀ j : Fin 128, j ≠ k → t.flt.src[j] = s.flt.src[j]) ∧ t.seq = s.seq ∧ t.thm = s.thm ∧
      (holds → t.flt.src[k] = s.flt.src[k] ∧ flag t.flt.r F.FLT_STAT_clr_refused = true ∧ getF t.flt.r F.FLT_STAT_clr_src = k) ∧
      (¬holds → t.flt.src[k] = { s.flt.src[k] with active := false, count := 0, isOpen := false })

/-- HOST_FAULT_RAISE (R354): a write of `FLT_RAISE` sends one event to source 112 + `idx` with `bank` as its unit and `sub` as
its sub; a `bank` above 23 that is not 0xFF is ignored and sets `cfg_err`. Such a source counts and reacts through the
table like any other: disabled it takes nothing, its first event opens its window, and at `thresh` it is active with the
reactions its `react` holds. -/
def Obligations.HostFaultRaise : Prop :=
  (∀ (p : Path) (v : Word) (s : State), coreReady s = true →
    (v.toNat % 256 ≤ 23 ∨ v.toNat % 256 = 255 → exec (.hostFaultRaise p v) s =
      .next { s with flt := postEvent (112 + v.toNat / 65536 % 16) (v.toNat % 256) (v.toNat / 256 % 256) (strideTag s) s.flt }) ∧
    (24 ≤ v.toNat % 256 → v.toNat % 256 ≠ 255 → ∃ t, exec (.hostFaultRaise p v) s = .next t ∧
      t = { s with flt := { s.flt with r := t.flt.r } } ∧ flag t.flt.r F.FLT_STAT_cfg_err = true ∧
      ∀ o, o ≠ R.FLT_STAT → kvGet t.flt.r o = kvGet s.flt.r o)) ∧
  (∀ (e : FltEvent) (rest : List FltEvent) (k : Fin 128) (s : State), coreReady s = true → 3 ≤ opState s → s.flt.held = [] →
    s.flt.q9 = e :: rest → e.src = k → e.summary = false → 112 ≤ k.val →
    (s.flt.src[k].cls < 128 → exec .faultEventTake s = .next { s with flt := { s.flt with q9 := rest } }) ∧
    (128 ≤ s.flt.src[k].cls → s.flt.src[k].active = false → s.flt.src[k].isOpen = false → 2 ≤ s.flt.src[k].thresh → ∃ t,
      exec .faultEventTake s = .next t ∧ t = { s with flt := { s.flt with q9 := rest, src := t.flt.src } } ∧
      t.flt.src[k] = { s.flt.src[k] with isOpen := true, start := strideCnt s, count := 1 }) ∧
    (128 ≤ s.flt.src[k].cls → s.flt.src[k].active = false → s.flt.src[k].isOpen = false → s.flt.src[k].thresh ≤ 1 → ∃ t,
      exec .faultEventTake s = .next t ∧ t.flt.src[k].active = true ∧ t.flt.src[k].unit = e.unit ∧ t.flt.src[k].sub = e.sub ∧
      t.flt.src[k].applied = s.flt.src[k].react))

/-- The `sat` flag (R111): a completion sets it where u lies beyond a clamp, clears it where u lies strictly between them, and
keeps it where u equals a clamp; a context that does not complete, because its engine aborts it, because its last clock
lies at or beyond the commit point or because no engine completes it there, keeps it. -/
def Obligations.SatFlag : Prop :=
  ∀ (e : Fin 16) (c : Nat) (s : State), coreReady s = true → c < s.cea.ctxs.length →
    (s.cea.eng[e].run = some c → s.cea.eng[e].aborting = false → lastClk s c < commitClk s → ∃ t, exec (.contextComplete e) s = .next t ∧
      ((ctxAt s c).clampHi.toInt < (ctxAt t c).u.toInt ∨ (ctxAt t c).u.toInt < (ctxAt s c).clampLo.toInt → (ctxAt t c).sat = true) ∧
      ((ctxAt s c).clampLo.toInt < (ctxAt t c).u.toInt → (ctxAt t c).u.toInt < (ctxAt s c).clampHi.toInt → (ctxAt t c).sat = false) ∧
      ((ctxAt t c).u.toInt = (ctxAt s c).clampLo.toInt ∨ (ctxAt t c).u.toInt = (ctxAt s c).clampHi.toInt →
        (ctxAt s c).clampLo.toInt ≤ (ctxAt s c).clampHi.toInt → (ctxAt t c).sat = (ctxAt s c).sat)) ∧
    (s.cea.eng[e].aborting = true ∨ (s.cea.eng[e].run = some c ∧ commitClk s ≤ lastClk s c) → exec (.contextComplete e) s = .next s) ∧
    (∀ bad, (∀ g : Fin 16, s.cea.eng[g].run = some c → s.cea.eng[g].aborting = true ∨ commitClk s ≤ lastClk s c) → ∃ t, exec (.commitPoint bad) s = .next t ∧ (ctxAt t c).sat = (ctxAt s c).sat)

/-! ## The loader -/

/-- With no job running (R80, R81, R82): CLAIM by a path with the loader free or its own, and TAKE_OVER by any path, make that
path the owner and clear `checked`, CLAIM also `buf_hwm`, `IMG_ERR` and `IMG_ERR_OFS`; RELEASE by the owner leaves no
owner and changes no register but `IMG_STAT`; a write of the buffer's window by the owner stores its four bytes at 16384 ×
page + offset − 0xC000 and no others, clears `checked` and raises `buf_hwm` to one more than the last of them. CLAIM while
another path owns the loader, and RELEASE, CHECK, FETCH, STORE and a buffer write from a path that is not the owner,
change nothing but to set `cmd_err`. Each leaves the rest of the device as it was. ABORT by the owner ends a host's check
with error 0x14 at the step `IMG_STAT.step` shows, a fetch with error 0x14, `buf_hwm` 0 and `checked` clear, a store with
`store_err` 5, its slot left invalid where it was and the active byte as it was; with no job running it changes nothing;
from a path that is not the owner it changes nothing but to set `cmd_err` (R81, R86, R98). (Where the manual leaves a
point open this is the model's reading: log entry 23.) -/
def Obligations.LoaderOwnership : Prop :=
  (∀ (p : Path) (s : State), s.sys.up = true → imgBusy s = false →
     (imgOwner s = 0 ∨ imgOwner s = pathCode p → ∃ t, exec (.claim p) s = .next t ∧
       t = { s with img := { s.img with r := t.img.r, next := none } } ∧ imgOwner t = pathCode p ∧
       getF t.img.r F.IMG_STAT_buf_hwm = 0 ∧ flag t.img.r F.IMG_STAT_checked = false ∧ kvGet t.img.r R.IMG_ERR = 0 ∧
       kvGet t.img.r R.IMG_ERR_OFS = 0) ∧
     (∃ t, exec (.takeOver p) s = .next t ∧ t = { s with img := { s.img with r := t.img.r, next := none } } ∧
       imgOwner t = pathCode p ∧ flag t.img.r F.IMG_STAT_checked = false ∧
       ∀ o, o ≠ R.IMG_STAT → kvGet t.img.r o = kvGet s.img.r o) ∧
     (imgOwner s = pathCode p → ∃ t, exec (.release p) s = .next t ∧ t = { s with img := { s.img with r := t.img.r } } ∧
       imgOwner t = 0 ∧ ∀ o, o ≠ R.IMG_STAT → kvGet t.img.r o = kvGet s.img.r o) ∧
     (∀ (ofs : Nat) (v : Word), imgOwner s = pathCode p → 0xC000 ≤ ofs → ∃ t, exec (.imgBufferWrite p ofs v) s = .next t ∧
       t = { s with img := { s.img with r := t.img.r, buf := t.img.buf, next := none } } ∧
       flag t.img.r F.IMG_STAT_checked = false ∧ (∀ o, o ≠ R.IMG_STAT → kvGet t.img.r o = kvGet s.img.r o) ∧
       (ofs ≤ 0xFFFC → getF s.img.r F.IMG_BUF_PAGE_page < 7 → getF t.img.r F.IMG_STAT_buf_hwm =
         max (getF s.img.r F.IMG_STAT_buf_hwm) (16384 * getF s.img.r F.IMG_BUF_PAGE_page + (ofs - 0xC000) + 4)) ∧
       (∀ k < 4, t.img.buf.read (16384 * getF s.img.r F.IMG_BUF_PAGE_page + (ofs - 0xC000) + k) = v.extractLsb' (8 * k) 8) ∧
       ∀ a, (a < 16384 * getF s.img.r F.IMG_BUF_PAGE_page + (ofs - 0xC000) ∨
         16384 * getF s.img.r F.IMG_BUF_PAGE_page + (ofs - 0xC000) + 4 ≤ a) → t.img.buf.read a = s.img.buf.read a) ∧
     (∀ (ofs : Nat) (v : Word) (sl : Bool), imgOwner s ≠ pathCode p →
       ∀ c ∈ [Instr.release p, .check p, .fetch p sl, .store p sl, .imgBufferWrite p ofs v, .claim p], (c = .claim p → imgOwner s ≠ 0) →
         ∃ t, exec c s = .next t ∧ t = { s with img := { s.img with r := t.img.r } } ∧ flag t.img.r F.IMG_STAT_cmd_err = true ∧
           ∀ o, o ≠ R.IMG_STAT → kvGet t.img.r o = kvGet s.img.r o)) ∧
  (∀ (p : Path) (n : Nat) (s : State), s.sys.up = true →
     (imgOwner s = pathCode p → s.img.job = some (.check false) → ∃ t, exec (.abort p n) s = .next t ∧
       t = { s with img := { s.img with r := t.img.r, job := none }, hst := t.hst, two := t.two, out := t.out } ∧
       imgBusy t = false ∧ getF t.img.r F.IMG_ERR_code = 0x14 ∧ getF t.img.r F.IMG_ERR_step = getF s.img.r F.IMG_STAT_step % 8) ∧
     (∀ sl, imgOwner s = pathCode p → s.img.job = some (.fetch sl) → ∃ t, exec (.abort p n) s = .next t ∧
       t = { s with img := { s.img with r := t.img.r, job := none, next := none, buf := t.img.buf }, hst := t.hst, two := t.two, out := t.out } ∧
       imgBusy t = false ∧ getF t.img.r F.IMG_ERR_code = 0x14 ∧ getF t.img.r F.IMG_STAT_buf_hwm = 0 ∧
       flag t.img.r F.IMG_STAT_checked = false) ∧
     (∀ sl < 2, imgOwner s = pathCode p → s.img.job = some (.store sl) → ∃ t, exec (.abort p n) s = .next t ∧
       t = { s with img := { s.img with r := t.img.r, job := none }, nvm := { s.nvm with mem := t.nvm.mem }, hst := t.hst, two := t.two,
                    out := t.out } ∧
       imgBusy t = false ∧ getF t.img.r F.IMG_NVM_STAT_store_err = 5 ∧
       (s.nvm.mem.wf = true → s.img.buf.wf = true → nvmActive t.nvm.mem = nvmActive s.nvm.mem ∧
         (nvmValid s.nvm.mem sl = false → nvmValid t.nvm.mem sl = false))) ∧
     (imgOwner s = pathCode p → s.img.job = none → exec (.abort p n) s = .next s) ∧
     (imgOwner s ≠ pathCode p → ∃ t, exec (.abort p n) s = .next t ∧ t = { s with img := { s.img with r := t.img.r } } ∧
       flag t.img.r F.IMG_STAT_cmd_err = true))

/-- With no job running the owner's CHECK, FETCH and STORE start one (R83, R96, R97): `busy` is set and nothing outside the
loader changes but that a store first marks its slot invalid, one byte of the store; a FETCH of a slot without a valid
copy records error 0x13 and starts none. CHECK_COMPLETE ends a host's check: with `checked` set and the image kept for the
build where every step of `checkBuffer` holds, with `checked` clear and the code and step of the failure in `IMG_ERR`
where one does not. FETCH_COMPLETE ends a fetch with the slot's `image_len` bytes in the buffer, the bytes beyond as they
were, `buf_hwm` that length and `checked` clear. STORE_COMPLETE ends a store: where the read-back compares equal, with
`store_err` 0, the slot holding the buffer's image, valid and active; where it does not, with `store_err` 3. Each end sets
cause 2. (Where the manual leaves a point open this is the model's reading: log entries 18, 19 and 20.) -/
def Obligations.LoaderJobs : Prop :=
  ∀ (p : Path) (sl : Bool) (s : State), s.sys.up = true →
    (imgBusy s = false → imgOwner s = pathCode p →
      (∃ t, exec (.check p) s = .next t ∧ t = { s with img := { s.img with r := t.img.r, job := some (.check false) }, free := t.free } ∧
        imgBusy t = true) ∧
      (nvmValid s.nvm.mem sl.toNat = true → 256 ≤ slotLen s.nvm.mem sl.toNat → slotLen s.nvm.mem sl.toNat ≤ 114688 →
        ∃ t, exec (.fetch p sl) s = .next t ∧ t = { s with img := { s.img with r := t.img.r, job := some (.fetch sl.toNat) } } ∧
          imgBusy t = true) ∧
      (nvmValid s.nvm.mem sl.toNat = false → ∃ t, exec (.fetch p sl) s = .next t ∧
        t = { s with img := { s.img with r := t.img.r } } ∧ getF t.img.r F.IMG_ERR_code = 0x13 ∧ imgBusy t = false) ∧
      (flag s.img.r F.IMG_STAT_checked = true → nvmActive s.nvm.mem ≠ sl.toNat → flag s.nvm.r F.NVM_STAT_wr_unlocked = true →
        ∃ t, exec (.store p sl) s = .next t ∧ imgBusy t = true ∧
          t = { s with img := { s.img with r := t.img.r, job := some (.store sl.toNat) }, nvm := { s.nvm with mem := t.nvm.mem } } ∧
          t.nvm.mem.read (nvmCtl + 1 + sl.toNat) = 0 ∧
          ∀ a, a ≠ nvmCtl + 1 + sl.toNat → t.nvm.mem.read a = s.nvm.mem.read a)) ∧
    (s.img.job = some (.check false) → ∃ t, exec .checkComplete s = .next t ∧
      t = { s with img := { s.img with r := t.img.r, job := none, next := t.img.next }, hst := t.hst, two := t.two, out := t.out } ∧
      imgBusy t = false ∧ getBit t.hst.r R.HST_IRQ_STAT 2 = true ∧
      match checkBuffer s with
      | .ok (im, _) => flag t.img.r F.IMG_STAT_checked = true ∧ t.img.next = some im
      | .error (e, _) => flag t.img.r F.IMG_STAT_checked = false ∧ t.img.next = none ∧
          getF t.img.r F.IMG_ERR_code = e.code % 256 ∧ getF t.img.r F.IMG_ERR_step = e.step % 8) ∧
    (s.img.job = some (.fetch sl.toNat) → slotLen s.nvm.mem sl.toNat ≤ 114688 → ∃ t, exec .fetchComplete s = .next t ∧
      t = { s with img := { s.img with r := t.img.r, job := none, next := none, buf := t.img.buf }, hst := t.hst, two := t.two, out := t.out } ∧
      imgBusy t = false ∧ flag t.img.r F.IMG_STAT_checked = false ∧ getF t.img.r F.IMG_STAT_buf_hwm = slotLen s.nvm.mem sl.toNat ∧
      getBit t.hst.r R.HST_IRQ_STAT 2 = true ∧
      (∀ a < slotLen s.nvm.mem sl.toNat, s.nvm.mem.wf = true → s.img.buf.wf = true →
        t.img.buf.read a = s.nvm.mem.read (nvmSlot sl.toNat + a)) ∧
      ∀ a, slotLen s.nvm.mem sl.toNat ≤ a → s.nvm.mem.wf = true → s.img.buf.wf = true → t.img.buf.read a = s.img.buf.read a) ∧
    (s.img.job = some (.store sl.toNat) → ∃ t, exec (.storeComplete true) s = .next t ∧
      t = { s with img := { s.img with r := t.img.r, job := none }, nvm := { s.nvm with mem := t.nvm.mem }, hst := t.hst, two := t.two,
                   out := t.out } ∧
      imgBusy t = false ∧ getF t.img.r F.IMG_NVM_STAT_store_err = 0 ∧ nvmValid t.nvm.mem sl.toNat = true ∧
      nvmActive t.nvm.mem = sl.toNat ∧ getBit t.hst.r R.HST_IRQ_STAT 2 = true ∧
      (s.nvm.mem.wf = true → s.img.buf.wf = true → ∀ a < bufLen s, t.nvm.mem.read (nvmSlot sl.toNat + a) = s.img.buf.read a)) ∧
    (s.img.job = some (.store sl.toNat) → ∃ t, exec (.storeComplete false) s = .next t ∧
      t = { s with img := { s.img with r := t.img.r, job := none }, nvm := { s.nvm with mem := t.nvm.mem }, hst := t.hst, two := t.two,
                   out := t.out } ∧
      imgBusy t = false ∧ getF t.img.r F.IMG_NVM_STAT_store_err = 3 ∧ getBit t.hst.r R.HST_IRQ_STAT 2 = true)

/-- BUILD_COMPLETE (R84, R328) ends the build of the image checked where its contexts can be placed: with a request for LOADED
pending in IDLE and its units awake the image is the structure in force, with its identity and version shown, the strides
run from stride 0, no path owns the loader and `done` is set; where the request's units are not awake yet the image waits
for them and nothing else changes. UNIT_WAKE_COMPLETE, with no request pending and no power-down left, turns on the unit
at the front of the wakes and no other, and only the wake of a PHY group changes the ports; UNIT_POWER_DOWN_COMPLETE then
ends the first power-down alone (R335). (Where the manual leaves a point open this is the model's reading: log entries 24,
25 and 41.) -/
def Obligations.BuildAndUnits : Prop :=
  ∀ (s : State), coreReady s = true →
    (∀ im, s.img.job = some .build → s.img.next = some im → (imgPack im).reason = 0 →
      (s.sys.req = some { target := 4, phase := .build } → opState s = 3 →
        unitsReady { s with img := { s.img with ready := some im } } = true →
        ∃ t, exec .buildComplete s = .next t ∧ t.img.job = none ∧ t.img.str = im ∧ t.sys.built = true ∧
          kvGet t.img.r R.IMG_ID_IN_FORCE = im.id ∧ kvGet t.img.r R.IMG_VER_IN_FORCE = im.ver ∧ opState t = 4 ∧ t.sys.req = none ∧
          strideCnt t = 0 ∧ strideInLap t = 0 ∧ imgOwner t = 0 ∧ flag t.sys.r F.SYS_STATE_STAT_done = true ∧ t.img.buf = s.img.buf ∧
          t.svc = s.svc ∧ t.thm = s.thm ∧ t.tag = s.tag ∧ t.nvm = s.nvm) ∧
      (s.sys.req = some { target := 4, phase := .build } → unitsReady { s with img := { s.img with ready := some im } } = false →
        ∃ t, exec .buildComplete s = .next t ∧
          t = { s with img := { s.img with r := t.img.r, job := none, ready := some im }, hst := t.hst, two := t.two, out := t.out } ∧
          imgBusy t = false ∧ (∀ o, o ≠ R.IMG_STAT → kvGet t.img.r o = kvGet s.img.r o) ∧ getBit t.hst.r R.HST_IRQ_STAT 2 = true)) ∧
    (∀ u rest, s.sys.req = none → s.bgt.down = [] → s.bgt.wake = u :: rest → ∃ t, exec .unitWakeComplete s = .next t ∧
      t = { s with bgt := { s.bgt with r := t.bgt.r, wake := rest, on := s.bgt.on ||| unitBit u }, lnk := t.lnk, out := t.out,
                   free := t.free } ∧
      (∀ o, o ≠ R.BGT_STAT → kvGet t.bgt.r o = kvGet s.bgt.r o) ∧
      (¬(16 ≤ u ∧ u < 23) → t.lnk = s.lnk ∧ t.out = s.out ∧ t.free = s.free)) ∧
    (s.sys.req = none → ∃ t, exec .unitPowerDownComplete s = .next t ∧
      t = { s with bgt := { s.bgt with r := t.bgt.r, down := s.bgt.down.drop 1 } } ∧
      ∀ o, o ≠ R.BGT_STAT → kvGet t.bgt.r o = kvGet s.bgt.r o)

/-! ## Operating states -/

/-- A state request while another is pending is refused with reason 2 and the pending one goes on; a request of the state in
force is done at once; a transition R326 does not permit is refused with reason 1, the state unchanged (R326, R327, R329).
A request that a stride boundary carries out becomes pending and waits for it: HOLD from RUN, LOADED from ARMED, RUN and
HOLD, IDLE from LOADED, RUN from ARMED and HOLD where the gate drives' budget holds, ARMED from LOADED where the check of
R89 passes, the reference is ready, the rings permit it and the device does not lead a hive of two or more; where it leads
one the request waits for the followers' reports (R44, R89, R216, R263, R327, R328, R337). A request that cannot be
carried out is refused with its reason, the state stays, and nothing else changes but the report of what the check for
ARMED found: 8 for IDLE with the core domain in reset, 10 for LOADED while the loader runs a job, 4 for ARMED where the
check of R89 fails, 5 where the reference is not ready, 6 where the rings do not permit it, 9 for RUN above the gate
drives' budget (R84, R89, R216, R263, R329, R337). -/
def Obligations.StateRequestsJudged : Prop :=
  (∀ (p : Path) (k : Nat) (c : Instr) (s : State),
     (k, c) ∈ [(1, Instr.reqCold p), (2, .reqService p), (3, .reqIdle p), (4, .reqLoaded p), (5, .reqArmed p), (6, .reqRun p), (7, .reqHold p)] →
     s.sys.up = true → ∃ t, exec c s = .next t ∧
       (s.sys.req ≠ none ∨ k = opState s ∨ permitted (opState s) k = false →
         t = { s with sys := { s.sys with req := t.sys.req, r := t.sys.r }, img := { s.img with ready := t.img.ready }, hst := t.hst,
                      two := t.two, out := t.out } ∧
         opState t = opState s ∧ getBit t.hst.r R.HST_IRQ_STAT 1 = true) ∧
       (s.sys.req ≠ none → t.sys.req = s.sys.req ∧ t.img = s.img ∧ flag t.sys.r F.SYS_STATE_STAT_refused = true ∧
         getF t.sys.r F.SYS_STATE_STAT_reason = 2) ∧
       (s.sys.req = none → k = opState s → t.sys.req = none ∧ flag t.sys.r F.SYS_STATE_STAT_done = true) ∧
       (s.sys.req = none → k ≠ opState s → permitted (opState s) k = false → t.sys.req = none ∧
         flag t.sys.r F.SYS_STATE_STAT_refused = true ∧ getF t.sys.r F.SYS_STATE_STAT_reason = 1)) ∧
  (∀ (p : Path) (k : Nat) (c : Instr) (s : State),
     (k, c) ∈ [(3, Instr.reqIdle p), (4, .reqLoaded p), (5, .reqArmed p), (6, .reqRun p), (7, .reqHold p)] →
     s.sys.up = true → s.sys.req = none → 4 ≤ opState s → permitted (opState s) k = true →
     (k = 6 → getF s.bgt.r F.BGT_GD_CFG_gd_ma_total = 0 ∨ gdUse s ≤ getF s.bgt.r F.BGT_GD_CFG_gd_ma_total) →
     (k = 5 → armCheck s = none ∧ flag s.acq.r F.ACQ_STAT_ref_ready = true ∧ ringsArmOk s = true) →
     ∃ t, exec c s = .next t ∧
       t = { s with sys := { s.sys with req := t.sys.req, r := t.sys.r }, plc := { s.plc with r := t.plc.r }, lnk := t.lnk } ∧
       (k ≠ 5 → t.plc = s.plc) ∧ opState t = opState s ∧
       (if k = 5 ∧ s.img.str.role = 1 ∧ 1 < s.img.str.hSize then
         t.sys.req = some { target := 5, phase := .hive 4 } ∧ t.lnk = { s.lnk with reqMark := true, reports := [] }
       else t.sys.req = some { target := k, phase := .boundary } ∧ t.lnk = s.lnk) ∧
       flag t.sys.r F.SYS_STATE_STAT_busy = true ∧ getF t.sys.r F.SYS_STATE_STAT_target = k ∧
       ∀ o, o ≠ R.SYS_STATE_STAT → kvGet t.sys.r o = kvGet s.sys.r o) ∧
  (∀ (p : Path) (n : Nat) (c : Instr) (s : State),
     (n, c) ∈ [(8, Instr.reqIdle p), (10, .reqLoaded p), (4, .reqArmed p), (5, .reqArmed p), (6, .reqArmed p), (9, .reqRun p)] →
     s.sys.up = true → s.sys.req = none →
     (match n with
       | 8 => (opState s = 1 ∨ opState s = 2) ∧ coreReady s = false
       | 10 => opState s = 3 ∧ imgBusy s = true
       | 4 => opState s = 4 ∧ armCheck s ≠ none
       | 5 => opState s = 4 ∧ armCheck s = none ∧ flag s.acq.r F.ACQ_STAT_ref_ready = false
       | 6 => opState s = 4 ∧ armCheck s = none ∧ flag s.acq.r F.ACQ_STAT_ref_ready = true ∧ ringsArmOk s = false
       | _ => (opState s = 5 ∨ opState s = 7) ∧ getF s.bgt.r F.BGT_GD_CFG_gd_ma_total ≠ 0 ∧
           getF s.bgt.r F.BGT_GD_CFG_gd_ma_total < gdUse s) →
     ∃ t, exec c s = .next t ∧
       t = { s with sys := { s.sys with r := t.sys.r }, img := { s.img with r := t.img.r, ready := none },
                    plc := { s.plc with r := t.plc.r }, hst := t.hst, two := t.two, out := t.out } ∧
       opState t = opState s ∧ flag t.sys.r F.SYS_STATE_STAT_refused = true ∧ getF t.sys.r F.SYS_STATE_STAT_reason = n ∧
       flag t.sys.r F.SYS_STATE_STAT_busy = false ∧ (n ≠ 4 → t.img.r = s.img.r) ∧ (n < 4 ∨ 6 < n → t.plc = s.plc) ∧
       getBit t.hst.r R.HST_IRQ_STAT 1 = true)

/-- Requests among COLD, SERVICE and IDLE become pending until their units are awake: with the core domain in reset those for
COLD and SERVICE; with it ready, all three, where the units they want are those granted and the reservations lie within
the budget (R326, R328, R334). REQ_LOADED in IDLE with the loader running no job (R84): with an image not yet checked the
check starts and the request is pending; with one checked the build starts beside it, or the request is refused with
reason 8 for want of a unit. The buffer and the structure in force stay. (Where the manual leaves a point open this is the
model's reading: log entry 45.) -/
def Obligations.IdleRequestsAccepted : Prop :=
  (∀ (p : Path) (k : Nat) (c : Instr) (s : State),
     (k, c) ∈ [(1, Instr.reqCold p), (2, .reqService p), (3, .reqIdle p)] →
     s.sys.up = true → s.sys.req = none → opState s ≤ 3 → permitted (opState s) k = true →
     (coreReady s = false ∧ k ≤ 2 ∨ coreReady s = true ∧ unitWant (acceptReq k .units s) = s.bgt.granted ∧
       reservedMa s.bgt ≤ getF s.bgt.r F.BGT_CORE_CFG_core_ma) →
     ∃ t, exec c s = .next t ∧
       t = { s with sys := { s.sys with req := t.sys.req, r := t.sys.r }, bgt := t.bgt } ∧
       t.sys.req = some { target := k, phase := .units } ∧ opState t = opState s ∧
       flag t.sys.r F.SYS_STATE_STAT_busy = true ∧ getF t.sys.r F.SYS_STATE_STAT_target = k ∧ t.bgt.granted = s.bgt.granted) ∧
  (∀ (p : Path) (s : State), s.sys.up = true → s.sys.req = none → opState s = 3 → imgBusy s = false →
     (flag s.img.r F.IMG_STAT_checked = false →
       ∃ t, exec (.reqLoaded p) s = .next t ∧ t = { s with sys := { s.sys with req := t.sys.req, r := t.sys.r }, img := t.img, free := t.free } ∧
         t.sys.req = some { target := 4, phase := .check } ∧ opState t = 3 ∧ flag t.sys.r F.SYS_STATE_STAT_busy = true ∧
         t.img.job = some (.check true) ∧ flag t.img.r F.IMG_STAT_busy = true ∧ t.img.buf = s.img.buf ∧ t.img.str = s.img.str) ∧
     (flag s.img.r F.IMG_STAT_checked = true →
       ∃ t, exec (.reqLoaded p) s = .next t ∧ opState t = 3 ∧ t.img.buf = s.img.buf ∧ t.img.str = s.img.str ∧ t.nvm = s.nvm ∧
         (t.sys.req = some { target := 4, phase := .build } ∧ t.img.job = some .build ∧ imgBusy t = true ∨
           t.sys.req = none ∧ flag t.sys.r F.SYS_STATE_STAT_refused = true ∧ getF t.sys.r F.SYS_STATE_STAT_reason = 8)))

/-- A request that waits for a boundary takes effect there (R328): after STRIDE_BOUNDARY its target is the state in force and
nothing is pending; the service port, the sequencer, the die sites, the tag lines and the store are as they were.
STATE_CHANGE: a request among COLD, SERVICE and IDLE whose units are awake takes effect (R328): the state is its target,
nothing is pending any more and `done` is set; IDLE starts the clocks of both two-wire ports, COLD and SERVICE leave them
to their wait (R392). The service port, the sequencer, the die sites, the tag lines, the store, the comb and the rings are
as they were. (Where the manual leaves a point open this is the model's reading: log entry 35.) -/
def Obligations.StateRequestsTakeEffect : Prop :=
  (∀ (chk : BoundaryChecks) (q : StateReq) (s : State), coreReady s = true → strides s = true → s.sys.req = some q →
     q.phase = .boundary → permitted (opState s) q.target = true →
     ∃ t, exec (.strideBoundary chk) s = .next t ∧ opState t = q.target ∧ t.sys.req = none ∧
       t.svc = s.svc ∧ t.seq = s.seq ∧ t.thm = s.thm ∧ t.tag = s.tag ∧ t.nvm = s.nvm) ∧
  (∀ (q : StateReq) (s : State), s.sys.up = true → s.sys.req = some q → q.phase = .units → 1 ≤ q.target → q.target ≤ 3 →
     opState s ≤ 3 → unitsReady s = true ∨ coreReady s = false →
     ∃ t, exec .stateChange s = .next t ∧ opState t = q.target ∧ t.sys.req = none ∧ flag t.sys.r F.SYS_STATE_STAT_done = true ∧
       flag t.sys.r F.SYS_STATE_STAT_busy = false ∧ t.two.clkA = (s.two.clkA || decide (q.target = 3)) ∧
       t.two.clkB = (s.two.clkB || decide (q.target = 3)) ∧
       (q.target = 3 → t.sys.idled = true) ∧
       t.svc = s.svc ∧ t.seq = s.seq ∧ t.thm = s.thm ∧ t.tag = s.tag ∧ t.nvm = s.nvm ∧ t.csv = s.csv ∧ t.rng = s.rng)

/-! ## Strides, laps, the pacer -/

/-- STRIDE_BOUNDARY with strides running, no state request pending and no live write of the pacer waiting: the stride count
advances by one modulo 2^32, the place in the lap by one or, at the lap's end, to 0 with the lap counted, and a new stride
begins at clock 0 before its commit point. LAP_BOUNDARY at the last stride of a lap does the same, and in every lap's
other strides it changes nothing. The operating state, the service port, the sequencer, the die sites, the tag lines and
the store are as they were (R29, R31, R37). COMMIT_POINT of a stride: the queued compare set of every phase and auxiliary
output is committed, the stride counts as committed and its clock has reached C (R31). Outside ARMED, RUN and HOLD nothing
else changes; a capture that was requested is made (R125). In them image, placement, rings, cells, campaigns, budget, the
service port, the sequencer, the die sites, the tag lines and the store are as they were. A second commit point of a
stride does nothing. -/
def Obligations.BoundaryAdvances : Prop :=
  (∀ (chk : BoundaryChecks) (s : State), coreReady s = true → strides s = true → s.sys.req = none → s.tbs.live = [] →
     (∃ t, exec (.strideBoundary chk) s = .next t ∧ strideCnt t = (strideCnt s + 1) % 2 ^ 32 ∧
       strideInLap t = (if lapLen s ≤ strideInLap s + 1 then 0 else strideInLap s + 1) ∧
       t.tbs.lap = (if lapLen s ≤ strideInLap s + 1 then s.tbs.lap + 1 else s.tbs.lap) ∧
       t.tbs.clock = 0 ∧ t.tbs.committed = false ∧ opState t = opState s ∧ t.sys.req = none ∧
       t.svc = s.svc ∧ t.seq = s.seq ∧ t.thm = s.thm ∧ t.tag = s.tag ∧ t.nvm = s.nvm) ∧
     (strideInLap s + 1 = lapLen s → ∃ t, exec (.lapBoundary chk) s = .next t ∧ strideCnt t = (strideCnt s + 1) % 2 ^ 32 ∧
       strideInLap t = 0 ∧ t.tbs.lap = s.tbs.lap + 1 ∧ t.tbs.clock = 0 ∧ t.tbs.committed = false ∧ opState t = opState s ∧
       t.sys.req = none ∧ t.svc = s.svc ∧ t.seq = s.seq ∧ t.thm = s.thm ∧ t.tag = s.tag ∧ t.nvm = s.nvm) ∧
     (strideInLap s + 1 ≠ lapLen s → exec (.lapBoundary chk) s = .next s)) ∧
  (∀ (bad : BitVec 16) (s : State), coreReady s = true → strides s = true →
     (s.tbs.committed = true → exec (.commitPoint bad) s = .next s) ∧
     (s.tbs.committed = false → ∃ t, exec (.commitPoint bad) s = .next t ∧ t.tbs.committed = true ∧ commitClk s ≤ t.tbs.clock ∧
       (∀ p : Fin 48, t.pwm.ph[p].c = commitSet s.pwm.ph[p].c) ∧ (∀ x : Fin 8, t.pwm.aux[x].c = commitSet s.pwm.aux[x].c) ∧
       (∀ c, s.cea.snapReq = some c → t.cea.snapReq = none ∧ flag t.cea.r F.CEA_SNAP_done = true ∧
         getF t.cea.r F.CEA_SNAP_snap_ctx = c % 256) ∧
       t.img = s.img ∧ t.plc = s.plc ∧ t.rng = s.rng ∧ t.csv = s.csv ∧ t.spx = s.spx ∧ t.bgt = s.bgt ∧ t.svc = s.svc ∧
       t.seq = s.seq ∧ t.thm = s.thm ∧ t.tag = s.tag ∧ t.nvm = s.nvm ∧
       (computing s = false → t = { s with tbs := { s.tbs with committed := true, clock := t.tbs.clock }, pwm := t.pwm, cea := t.cea })))

/-- The planning of stride L − 1 (R22, R31, R136, R154, R268), once each in a lap: CURRENT_PLACEMENT empties queue 7 and, in
ARMED, RUN and HOLD, leaves planned shares for both directions; DATA_PLACEMENT plans one schedule for each READY ring of
RINGMAP, in its order, and for no other; DATA_PLACEMENT_COMPLETE in that stride appends each schedule to its ring's queue
8 where one of its two places is free, and later counts the placement late and drops the schedules. N1_ANALYSIS_COMPLETE
makes `PLC_N1_STAT` valid and changes no other register. Repeated, or in another stride, the two placements do nothing.
(Where the manual leaves a point open this is the model's reading: log entries 31 and 37.) -/
def Obligations.PlanningRuns : Prop :=
  ∀ (s : State), coreReady s = true → strides s = true →
    (strideInLap s + 1 = lapLen s → s.plc.planned = false → ∃ t, exec .currentPlacement s = .next t ∧ t.plc.q7 = [] ∧
      t.plc.planned = true ∧ (computing s = true → t.plc.dis.plan ≠ none ∧ t.plc.chg.plan ≠ none) ∧
      t = { s with plc := t.plc, bgt := t.bgt } ∧ (computing s = false → t.bgt = s.bgt)) ∧
    (strideInLap s + 1 ≠ lapLen s ∨ s.plc.planned = true → exec .currentPlacement s = .next s) ∧
    (strideInLap s + 1 = lapLen s → s.plc.dpRun = false → ∃ t, exec .dataPlacement s = .next t ∧ t.plc.dpRun = true ∧
      t.rng.plans.map (·.1) = (mapRings s).filter (fun r => ringState s r == 6) ∧
      t = { s with plc := { s.plc with dpRun := true }, rng := { s.rng with plans := t.rng.plans, r := t.rng.r },
                   spx := t.spx, bgt := t.bgt }) ∧
    (strideInLap s + 1 ≠ lapLen s ∨ s.plc.dpRun = true → exec .dataPlacement s = .next s) ∧
    (s.plc.dpRun = true → ∃ t, exec .dataPlacementComplete s = .next t ∧ t.plc.dpRun = false ∧ t.rng.plans = [] ∧
      (strideInLap s + 1 ≠ lapLen s → t = { s with plc := { s.plc with dpRun := false, dpLate := s.plc.dpLate + 1 },
                                                   rng := { s.rng with plans := [] } }) ∧
      (strideInLap s + 1 = lapLen s → t = { s with plc := { s.plc with dpRun := false }, rng := { s.rng with plans := [], ring := t.rng.ring } } ∧
        ((s.rng.plans.map (·.1)).Nodup → ∀ x ∈ s.rng.plans, ∀ r : Fin 24, x.1 = r.val → t.rng.ring[r].q8 =
          if s.rng.ring[r].q8.length < 2 then s.rng.ring[r].q8 ++ [x.2] else s.rng.ring[r].q8))) ∧
    (s.plc.n1Run = true → ∃ t, exec .n1AnalysisComplete s = .next t ∧ t = { s with plc := { s.plc with n1Run := false, r := t.plc.r } } ∧
      flag t.plc.r F.PLC_PLACE_STAT_n1_valid = true ∧
      ∀ o, o ≠ R.PLC_PLACE_STAT → o ≠ R.PLC_N1_STAT → kvGet t.plc.r o = kvGet s.plc.r o)

/-- With strides running: STRIDE_WATCHDOG_EXPIRY sets `wd_expired`, the watchdog latch of every phase and the hold of the
auxiliary outputs, and sends one event to source 0; no other trip latch of a phase changes, and nothing beyond the trips
and what they record (R38, R39). HOLDOVER_ENTRY, with a source selected, not in HOLDOVER and marks missing for
`holdover_strides` strides, sets the lock state to HOLDOVER and `lock_lost` and sends one event to source 24; the stride
count and all else stay (R42). -/
def Obligations.WatchdogAndHoldover : Prop :=
  ∀ (s : State), strides s = true →
    (coreReady s = true → ∃ t, exec .strideWatchdogExpiry s = .next t ∧
      t = { s with tbs := { s.tbs with r := t.tbs.r }, pwm := t.pwm, acq := t.acq, hst := t.hst, two := t.two, out := t.out,
                   flt := postEvent 0 255 255 (strideTag s) s.flt } ∧
      flag t.tbs.r F.TBS_STAT_wd_expired = true ∧ t.pwm.auxWd = true ∧ (∀ p : Fin 48, t.pwm.ph[p].wd = true) ∧
      ∀ p : Fin 48, t.pwm.ph[p].ext = s.pwm.ph[p].ext ∧ t.pwm.ph[p].flim = s.pwm.ph[p].flim ∧ t.pwm.ph[p].ring = s.pwm.ph[p].ring ∧
        t.pwm.ph[p].plaus = s.pwm.ph[p].plaus ∧ t.pwm.ph[p].crit = s.pwm.ph[p].crit ∧ t.pwm.ph[p].react = s.pwm.ph[p].react) ∧
    (paceSrc s ≠ 0 → getF s.tbs.r F.TBS_STAT_lock_state ≠ 3 → getF s.tbs.r F.TBS_SYNC_CFG_holdover_strides ≤ s.tbs.missRun →
      ∃ t, exec .holdoverEntry s = .next t ∧
        t = { s with tbs := { s.tbs with goodRun := 0, r := t.tbs.r }, flt := postEvent 24 255 255 (strideTag s) s.flt } ∧
        getF t.tbs.r F.TBS_STAT_lock_state = 3 ∧ flag t.tbs.r F.TBS_STAT_lock_lost = true ∧ strideCnt t = strideCnt s)

/-- PACE_IN_EDGE at clock `pos` of a stride, with source 1 (R41): the phase error e of `pos` + `pace_ofs` against the nearest
boundary is shown, limited to ±127; outside LOADED the edge trims the next stride by one clock towards e at most and
leaves the clock alone; in LOADED, before any HOLDOVER, it sets the clock to `pos` − e, modulo the stride's length. The
stride count and everything outside the pacer are as they were. With another source the edge does nothing. (Where the
manual leaves a point open this is the model's reading: log entry 46.) -/
def Obligations.PaceInEdgeCorrects : Prop :=
  ∀ (pos high : Nat) (e k : Int) (s : State), paceSrc s = 1 → strides s = true → 0 < s.tbs.len →
    (e, k) = nearBoundary s.tbs.len ((pos : Int) + getFI s.tbs.r F.TBS_PACE_OFS_pace_ofs) →
    (∀ u : State, paceSrc u ≠ 1 → exec (.paceInEdge pos high) u = .next u) ∧
    ∃ t, exec (.paceInEdge pos high) s = .next t ∧ t = { s with tbs := t.tbs } ∧ strideCnt t = strideCnt s ∧
      getFI t.tbs.r F.TBS_STAT_phase_err = max (-127) (min 127 e) ∧
      (opState s ≠ 4 → t.tbs.clock = s.tbs.clock ∧ t.tbs.trim = max (-1) (min 1 e)) ∧
      (opState s = 4 → s.tbs.trimOnly = false → getF s.tbs.r F.TBS_STAT_lock_state ≠ 3 → 0 < strideLen s →
        t.tbs.trim = 0 ∧ (t.tbs.clock : Int) = ((pos : Int) - e) % (strideLen s : Int))

/-! ## Supplies and resets -/

/-- DEVICE_RESET and VSVC_LOSS, with no store command, no store of the loader and no log entry under way, hold the whole
device in reset: all state is at its reset value, every enable of the sequencer low with it, but for the supplies' levels
in `SYS_PWR_STAT`; the store's memory is as it was, and each lock is open where its password is 0 and closed where it is
not (R409, R436, R437, R442). DEVICE_RESET leaves `RST_N` low; VSVC_LOSS leaves its level as it was. (Where the manual
leaves a point open this is the model's reading: log entry 44.) -/
def Obligations.ResetLeaves : Prop :=
  ∀ (s : State), s.nvm.cmds = [] → storeRuns s = false → s.flt.nvPend = [] → s.flt.q9 = [] →
    (∃ t, exec .deviceReset s = .next t ∧ t.sys.rstN = false ∧
      t = { State.reset with sys := { State.reset.sys with r := t.sys.r }, nvm := nvmReset s.nvm, pending := s.pending,
                             out := s.out, free := s.free } ∧
      (∀ o, o ≠ R.SYS_PWR_STAT → kvGet t.sys.r o = kvGet sysReset o) ∧
      (∀ i < 6, getBit t.sys.r R.SYS_PWR_STAT i = getBit s.sys.r R.SYS_PWR_STAT i) ∧ coreReady t = false ∧ t.nvm.mem = s.nvm.mem ∧
      flag t.nvm.r F.NVM_STAT_rd_unlocked = decide (password s.nvm.mem false = 0) ∧
      flag t.nvm.r F.NVM_STAT_wr_unlocked = decide (password s.nvm.mem true = 0)) ∧
    (∃ t, exec .vsvcLoss s = .next t ∧
      t = { State.reset with sys := { State.reset.sys with r := t.sys.r, rstN := s.sys.rstN }, nvm := nvmReset s.nvm,
                             pending := s.pending, out := s.out, free := s.free } ∧
      (∀ o, o ≠ R.SYS_PWR_STAT → kvGet t.sys.r o = kvGet sysReset o) ∧
      (∀ i < 6, getBit t.sys.r R.SYS_PWR_STAT i = getBit s.sys.r R.SYS_PWR_STAT i) ∧ coreReady t = false ∧ t.nvm.mem = s.nvm.mem)

/-- RESET_RELEASE on a device held in reset brings the service island up, latches `PCIE_EN` and `TWA_ADR`, shows whether VTAG
is good and opens the locks whose password is 0; where the island is up it does nothing. CORE_DOMAIN_READY on an island
that is up and a core held in reset, in COLD or SERVICE, with no request pending, no unit wanted or granted and the base
within the core budget, makes the core domain ready with `ref_lock` set and the operating state as it was: COLD after a
reset (R325, R355, R376, R437, R442). (Where the manual leaves a point open this is the model's reading: log entries 4 and
44.) -/
def Obligations.ResetReleases : Prop :=
  ∀ (en : Bool) (adr : BitVec 3) (s : State),
    (s.sys.up = false → ∃ t, exec (.resetRelease en adr) s = .next t ∧
      t = { s with sys := { s.sys with rstN := true, up := true }, hst := { s.hst with r := t.hst.r }, two := { s.two with r := t.two.r, clkA := true, clkB := true },
                   tag := { s.tag with r := t.tag.r }, nvm := { s.nvm with r := t.nvm.r } } ∧
      flag t.hst.r F.HST_PCIE_CFG_en = en ∧ getF t.two.r F.TWO_A_CFG_addr = 0x60 + adr.toNat ∧
      flag t.tag.r F.TAG_CFG_no_vtag = !getBit s.sys.r R.SYS_PWR_STAT 5 ∧
      (password s.nvm.mem false = 0 → flag t.nvm.r F.NVM_STAT_rd_unlocked = true) ∧
      (password s.nvm.mem true = 0 → flag t.nvm.r F.NVM_STAT_wr_unlocked = true)) ∧
    (s.sys.up = true → exec (.resetRelease en adr) s = .next s) ∧
    (s.sys.up = true → coreReady s = false → opState s = 1 ∨ opState s = 2 → s.sys.req = none → flag s.hst.r F.HST_PCIE_CFG_en = false → s.bgt.granted = 0 →
      flag s.svc.r F.SVC_STAT_alt = false → reservedMa s.bgt ≤ getF s.bgt.r F.BGT_CORE_CFG_core_ma →
      ∃ t, exec .coreDomainReady s = .next t ∧ t = { s with sys := { s.sys with r := t.sys.r }, bgt := t.bgt } ∧
        coreReady t = true ∧ opState t = opState s ∧ flag t.sys.r F.SYS_PWR_STAT_ref_lock = true ∧ t.bgt.granted = 0)

/-- CORE_SUPPLY_LOSS, CLOCK_LOCK_LOSS and SUPPLY_FALL of VCORE, VLNK or VIO18 reset the core domain where it runs: COLD (or
SERVICE, where it was in force) is in force, every unit of the core is at its reset state, the bypass is closed, and the
service port, the sequencer, the die sites, the tag lines, the store and the loader's buffer stay; the fall of a supply is
recorded, `ref_lock` shows the loss of the clock and of VIO18 (R442, R444, R445). The other supplies (R425, R441, R445):
SUPPLY_RISE shows its supply good, VTAG's also clears `no_vtag`; SUPPLY_FALL of VANA and VIO33 records the fall and
changes nothing else; SUPPLY_FALL of VTAG and VTAG_LOSS record it, set `no_vtag` and end every tag command, a command that
ran with `err` 4. (Where the manual leaves a point open this is the model's reading: log entries 43 and 45.) -/
def Obligations.SupplyAndClockLoss : Prop :=
  (∀ (c : Instr) (i : Nat) (s : State),
     (i, c) ∈ [(0, Instr.coreSupplyLoss false), (1, .coreSupplyLoss true), (2, .clockLockLoss), (0, .supplyFall 0), (1, .supplyFall 1),
       (3, .supplyFall 3)] →
     s.sys.up = true → coreReady s = true →
     ∃ t, exec c s = .next t ∧ coreReady t = false ∧ opState t = (if opState s = 2 then 2 else 1) ∧ t.sys.built = false ∧
       t.tbs = {} ∧ t.plc = {} ∧ t.cea = {} ∧ t.bus = {} ∧ t.pwm = {} ∧ t.acq = {} ∧ t.lnk = {} ∧ t.rng = {} ∧ t.csv = {} ∧
       t.spx = {} ∧ t.bgt = {} ∧ t.img.str = {} ∧ t.img.buf = s.img.buf ∧ t.flt.q9 = [] ∧
       t.svc = s.svc ∧ t.seq = s.seq ∧ t.thm = s.thm ∧ t.tag = s.tag ∧ t.nvm = s.nvm ∧
       (i ≠ 2 → getBit t.sys.r R.SYS_PWR_STAT i = false ∧ getBit t.sys.r R.SYS_PWR_STAT (8 + i) = true) ∧
       (2 ≤ i → flag t.sys.r F.SYS_PWR_STAT_ref_lock = false)) ∧
  (∀ (s : State), s.sys.up = true →
     (∀ i : Fin 6, ∃ t, exec (.supplyRise i) s = .next t ∧
       t = { s with sys := { s.sys with r := t.sys.r }, tag := { s.tag with r := t.tag.r } } ∧
       getBit t.sys.r R.SYS_PWR_STAT i = true ∧ (i.val ≠ 5 → t.tag = s.tag) ∧ (i.val = 5 → flag t.tag.r F.TAG_CFG_no_vtag = false)) ∧
     (∀ i : Fin 6, i.val = 2 ∨ i.val = 4 → ∃ t, exec (.supplyFall i) s = .next t ∧ t = { s with sys := { s.sys with r := t.sys.r } } ∧
       getBit t.sys.r R.SYS_PWR_STAT i = false ∧ getBit t.sys.r R.SYS_PWR_STAT (8 + i) = true ∧
       ∀ o, o ≠ R.SYS_PWR_STAT → kvGet t.sys.r o = kvGet s.sys.r o) ∧
     (∀ c ∈ [Instr.supplyFall 5, .vtagLoss], ∃ t, exec c s = .next t ∧
       t = { s with sys := { s.sys with r := t.sys.r }, tag := t.tag, hst := t.hst, two := t.two, out := t.out } ∧
       flag t.tag.r F.TAG_CFG_no_vtag = true ∧ getBit t.sys.r R.SYS_PWR_STAT 5 = false ∧ getBit t.sys.r R.SYS_PWR_STAT 13 = true ∧
       ∀ l : Fin 4, t.tag.cmd[l] = none ∧ (s.tag.cmd[l] ≠ none → getF t.tag.r (F.TAG_STATl_err l) = 4)))

/-! ## The bus command -/

/-- A voltage target from the source that `vsrc` selects, on a device that is no follower and within `v_lo` to `v_hi`, is
accepted (R149, R150, R378): while strides run it waits for the next boundary with the target in force as it was,
otherwise it is in force; an accepted VSET also counts in `vset_cnt`. Any other target, and every target on a follower, is
counted in `vcmd_rej_cnt` and changes no target, slewed command or waiting target; one out of range from the selected
source, and every one on a follower, sets `vcmd_rej`; VSET then sends a NACK. Nothing outside the bus unit and port A
changes. The leader's loss while contexts compute and a loss state is shown (R176), with m the missing boundaries:
LOSS_HOLD_EXPIRY past `loss_hold` within the ramp sets state 3 with c = c_h scaled by what is left of the ramp, rounded to
nearest (the model's rounding); LEADER_LOST from the ramp's end on sets state 4, c = 0 and `leader_lost`, with one event
to source 23 where the state is new; clearing `leader_lost` in state 4 returns to state 0 with c = 0. Each shows c in
`BUS_CMD` and leaves all else. (Where the manual leaves a point open this is the model's reading: log entry 40.) -/
def Obligations.BusCommandInputs : Prop :=
  (∀ (p : Path) (v : BitVec 16) (n : Nat) (s : State), coreReady s = true →
     (s.img.str.role ≠ 2 → getF s.bus.r F.BUS_VLIM_v_lo ≤ v.toNat → v.toNat ≤ getF s.bus.r F.BUS_VLIM_v_hi →
       (getF s.bus.r F.BUS_VCMD_CFG_vsrc = 1 → ∃ t, exec (.hostVoltageTarget p (v.setWidth 32)) s = .next t ∧
         t = { s with bus := { s.bus with r := t.bus.r, live := t.bus.live, tgt := t.bus.tgt, tgtNext := t.bus.tgtNext } } ∧
         (if strides s = true then t.bus.tgtNext = some v.toNat ∧ t.bus.tgt = s.bus.tgt ∧ t.bus.r = s.bus.r else t.bus.tgt = v.toNat)) ∧
       (s.sys.up = true → getF s.bus.r F.BUS_VCMD_CFG_vsrc = 0 →
         ∃ t, exec (.vset ⟨[v.setWidth 8, (v >>> 8).setWidth 8], n⟩) s = .next t ∧
           t = { s with bus := { s.bus with r := t.bus.r, tgt := t.bus.tgt, tgtNext := t.bus.tgtNext },
                        two := { s.two with r := t.two.r, freeA := 0 }, out := t.out } ∧
           (if strides s = true then t.bus.tgtNext = some v.toNat ∧ t.bus.tgt = s.bus.tgt ∧ t.bus.r = s.bus.r else t.bus.tgt = v.toNat) ∧
           getF t.two.r F.TWO_A_CNT_vset_cnt = min (getF s.two.r F.TWO_A_CNT_vset_cnt + 1) 255 ∧
           (∀ o, o ≠ R.TWO_A_CNT → kvGet t.two.r o = kvGet s.two.r o) ∧ (n = 0 → t.out = s.out))) ∧
     (s.img.str.role = 2 ∨ getF s.bus.r F.BUS_VCMD_CFG_vsrc ≠ 1 ∨ v.toNat < getF s.bus.r F.BUS_VLIM_v_lo ∨
         getF s.bus.r F.BUS_VLIM_v_hi < v.toNat →
       ∃ t, exec (.hostVoltageTarget p (v.setWidth 32)) s = .next t ∧ t = { s with bus := { s.bus with r := t.bus.r } } ∧
         (s.img.str.role = 2 ∨ getF s.bus.r F.BUS_VCMD_CFG_vsrc = 1 → flag t.bus.r F.BUS_STAT_vcmd_rej = true) ∧
         (∀ o, o ≠ R.BUS_CNT → o ≠ R.BUS_STAT → kvGet t.bus.r o = kvGet s.bus.r o) ∧
         getF t.bus.r F.BUS_CNT_vcmd_rej_cnt = min (getF s.bus.r F.BUS_CNT_vcmd_rej_cnt + 1) (2 ^ F.BUS_CNT_vcmd_rej_cnt.width - 1)) ∧
     (s.sys.up = true → s.img.str.role = 2 ∨ getF s.bus.r F.BUS_VCMD_CFG_vsrc ≠ 0 ∨ v.toNat < getF s.bus.r F.BUS_VLIM_v_lo ∨
         getF s.bus.r F.BUS_VLIM_v_hi < v.toNat →
       ∃ t, exec (.vset ⟨[v.setWidth 8, (v >>> 8).setWidth 8], n⟩) s = .next t ∧
         t = { s with bus := { s.bus with r := t.bus.r }, two := { s.two with r := t.two.r, vsetRef := true, freeA := 0 }, out := t.out } ∧
         Out.nack .portA ∈ t.out ∧ getF t.bus.r F.BUS_CNT_vcmd_rej_cnt =
           min (getF s.bus.r F.BUS_CNT_vcmd_rej_cnt + 1) (2 ^ F.BUS_CNT_vcmd_rej_cnt.width - 1))) ∧
  (∀ (p : Path) (hold ramp : Nat) (s : State), coreReady s = true → computing s = true →
     getF s.bus.r F.BUS_HIVE_STAT_loss_state ≠ 0 → hold = getF s.bus.r F.BUS_LOSS_CFG_loss_hold →
     ramp = getF s.bus.r F.BUS_LOSS_CFG_loss_ramp →
     (hold < s.bus.m → s.bus.m < hold + ramp → ∃ t, exec .lossHoldExpiry s = .next t ∧
       t = { s with bus := { s.bus with r := t.bus.r, c := t.bus.c } } ∧ getF t.bus.r F.BUS_HIVE_STAT_loss_state = 3 ∧
       t.bus.c = wordOf (rround ((s.bus.cHeld.toInt * (ramp - (s.bus.m - hold) : Nat) : Int) / (ramp : Rat))) ∧
       kvGet t.bus.r R.BUS_CMD = t.bus.c) ∧
     (hold < s.bus.m → hold + ramp ≤ s.bus.m → ∃ t, exec .leaderLost s = .next t ∧
       t = { s with bus := { s.bus with r := t.bus.r, c := 0 }, flt := t.flt } ∧ getF t.bus.r F.BUS_HIVE_STAT_loss_state = 4 ∧
       flag t.bus.r F.BUS_STAT_leader_lost = true ∧
       t.flt = (if getF s.bus.r F.BUS_HIVE_STAT_loss_state = 4 then s.flt else postEvent 23 255 255 (strideTag s) s.flt) ∧
       kvGet t.bus.r R.BUS_CMD = 0) ∧
     (getF s.bus.r F.BUS_HIVE_STAT_loss_state = 4 → ∃ t, exec (.leaderLostClear p) s = .next t ∧
       t = { s with bus := { s.bus with r := t.bus.r, c := 0, cHeld := 0, m := 0, vEntry := none } } ∧
       getF t.bus.r F.BUS_HIVE_STAT_loss_state = 0 ∧ flag t.bus.r F.BUS_STAT_leader_lost = false))

/-! ## Control engines -/

/-- CONTEXT_START on an engine that may start a context now (`engineFree`), c being the earliest ready context of its run list
that has not run in the stride. With no parity failure among the words the engine fetches, c starts there at this clock:
the engine is taken for two clocks per section, c's scaled inputs are those that stand, of queue 0 only entries of its
channels leave, and those that stay of them bear the stride's tag; every other context and engine is as it was. With a new
failure in a fetched word, c is aborted instead with `par_err` and one event to source 3, its engine free in the following
clock (R99, R100, R116). An engine that may not start one, or has none ready, does nothing. -/
def Obligations.ContextStarts : Prop :=
  ∀ (e : Fin 16) (bad : List Nat) (s : State), coreReady s = true →
    (engineFree s e = false ∨ nextReady s e = none → exec (.contextStart e bad) s = .next s) ∧
    ∀ c, engineFree s e = true → nextReady s e = some c → c < s.cea.ctxs.length →
    ((∀ w ∈ fetchedWords s.cea c, w ∉ bad ∧ w ∉ (ctxAt s c).parBad) → ∃ t, exec (.contextStart e bad) s = .next t ∧
      t = { s with cea := { s.cea with ctxs := t.cea.ctxs, eng := t.cea.eng }, acq := { s.acq with q0 := t.acq.q0 },
                   plc := { s.plc with q2 := t.plc.q2 }, sys := { s.sys with qcnt := t.sys.qcnt } } ∧
      t.cea.eng[e].run = some c ∧ t.cea.eng[e].freeClk = s.tbs.clock + 2 * (ctxAt s c).cfg.nSec ∧
      (ctxAt t c).started = true ∧ (ctxAt t c).startClk = s.tbs.clock ∧ (ctxAt t c).v = (readInputs s (ctxAt s c)).2.1 ∧
      (∀ k, k ≠ c → ctxAt t k = ctxAt s k) ∧ (∀ g : Fin 16, g ≠ e → t.cea.eng[g] = s.cea.eng[g]) ∧
      (∀ x ∈ t.acq.q0, x ∈ s.acq.q0 ∧ ∀ b ∈ (ctxAt s c).cfg.ins, b.kind = 1 → b.idx = x.ain → x.tag = strideTag s) ∧
      (∀ x ∈ s.acq.q0, (∀ b ∈ (ctxAt s c).cfg.ins, b.kind = 1 → b.idx ≠ x.ain) → x ∈ t.acq.q0)) ∧
    ((∃ w ∈ fetchedWords s.cea c, w ∈ bad) → ∃ t, exec (.contextStart e bad) s = .next t ∧
      t = { s with cea := { s.cea with r := t.cea.r, ctxs := t.cea.ctxs, eng := t.cea.eng }, flt := t.flt } ∧
      flag t.cea.r F.CEA_STAT_par_err = true ∧ (ctxAt t c).parAbort = true ∧ (ctxAt t c).started = (ctxAt s c).started ∧
      t.cea.eng[e].run = s.cea.eng[e].run ∧ t.cea.eng[e].freeClk = s.tbs.clock + 1 ∧
      (∀ k, k ≠ c → ctxAt t k = ctxAt s k) ∧ (∀ g : Fin 16, g ≠ e → t.cea.eng[g] = s.cea.eng[g]) ∧
      t.flt = postEvent 3 c 255 (strideTag s) s.flt)

/-- CONTEXT_COMPLETE of a context that is not being aborted and whose last clock, its start plus two per section less one,
lies before the commit point: it is completed in that clock and its engine runs no context; its published value is the
unclamped output limited to the clamps, and is what its outputs are given, phases and auxiliary outputs as queued sets
with the stride's tag, the bus command as the command published; phases and contexts it does not drive, and the other
engines, are as they were. Of an engine that runs none, that waits for its abort, or whose context would end at the commit
point or later, it does nothing (R32, R99, R109, R112). -/
def Obligations.ContextCompletes : Prop :=
  ∀ (e : Fin 16) (s : State), coreReady s = true →
    (s.cea.eng[e].run = none ∨ s.cea.eng[e].aborting = true ∨ (∃ c, s.cea.eng[e].run = some c ∧ commitClk s ≤ lastClk s c) →
      exec (.contextComplete e) s = .next s) ∧
    ∀ c, s.cea.eng[e].run = some c → s.cea.eng[e].aborting = false → c < s.cea.ctxs.length → lastClk s c < commitClk s →
    ∃ t, exec (.contextComplete e) s = .next t ∧
      t = { s with cea := { s.cea with r := t.cea.r, ctxs := t.cea.ctxs, eng := t.cea.eng },
                   pwm := { s.pwm with ph := t.pwm.ph, aux := t.pwm.aux }, bus := { s.bus with pubCmd := t.bus.pubCmd },
                   tbs := { s.tbs with clock := max s.tbs.clock (lastClk s c) } } ∧
      lastClk s c = (ctxAt s c).startClk + 2 * (ctxAt s c).cfg.nSec - 1 ∧
      (ctxAt t c).completed = true ∧ (ctxAt t c).doneClk = lastClk s c ∧ t.cea.eng[e].run = none ∧ t.cea.eng[e].lastDone = some c ∧
      (ctxAt t c).pub.toInt = min (max (ctxAt t c).u.toInt (ctxAt s c).clampLo.toInt) (ctxAt s c).clampHi.toInt ∧
      (∀ k, k ≠ c → ctxAt t k = ctxAt s k) ∧ (∀ g : Fin 16, g ≠ e → t.cea.eng[g] = s.cea.eng[g]) ∧
      (∀ b ∈ (ctxAt s c).cfg.outs, b.kind = 0x11 → ∀ p : Fin 48, p.val = b.idx →
        t.pwm.ph[p].c.queued = some { duty := (ctxAt t c).pub, tag := strideTag s }) ∧
      (∀ b ∈ (ctxAt s c).cfg.outs, b.kind = 0x14 → ∀ x : Fin 8, x.val = b.idx →
        t.pwm.aux[x].c.queued = some { duty := (ctxAt t c).pub, tag := strideTag s }) ∧
      (∀ b ∈ (ctxAt s c).cfg.outs, b.kind = 0x12 → t.bus.pubCmd = some (ctxAt t c).pub) ∧
      (∀ p : Fin 48, (∀ b ∈ (ctxAt s c).cfg.outs, b.kind = 0x11 → b.idx ≠ p.val) → t.pwm.ph[p] = s.pwm.ph[p])

/-- ENGINE_ABORT_TIMEOUT of an engine whose abort is not acknowledged, in the stride of the commit point or the next, sets the
engine's bit of `CEA_ENG_STAT` and sends one event to its engine source, naming the context, and no other bit or register
changes; of an engine with no abort outstanding it does nothing (R34). SNAPSHOT_REQUEST marks the selected context for the
next commit point's capture and, while one waits, does nothing (R125). Host writes to the window of the context k that
`CEA_WIN_SEL` selects (R91, R113, R126). A coefficient word i of its sections: in bank A while no contexts compute, and in
bank B while bank A is in force and no strides run, it is written at once and no other word of any context changes; in
bank B while bank A is in force and strides run it waits for the boundary; in bank A while contexts compute, and in bank B
while bank B is in force, a write that would change it is ignored with `write_ignored`. A state's low word waits for its
high word, which takes it with it, and the snapshot shows both at once, while no contexts compute; a state word that would
change while they compute is ignored with `write_ignored`. (Where the manual leaves a point open this is the model's
reading: log entry 51.) -/
def Obligations.EngineAndWindowAccess : Prop :=
  (∀ (p : Path) (e : Fin 16) (s : State), coreReady s = true →
     (s.cea.eng[e].aborting = true ∨ s.cea.eng[e].lateCtx ≠ none → ∃ t, exec (.engineAbortTimeout e) s = .next t ∧
       t = { s with cea := { s.cea with r := t.cea.r, eng := s.cea.eng.set e { s.cea.eng[e] with aborting := false, lateCtx := none } },
                    flt := postEvent (32 + e) e
                      ((if s.cea.eng[e].aborting then s.cea.eng[e].run else s.cea.eng[e].lateCtx).getD 255) (strideTag s) s.flt } ∧
       getBit t.cea.r R.CEA_ENG_STAT e = true ∧ (∀ i, i ≠ e.val → getBit t.cea.r R.CEA_ENG_STAT i = getBit s.cea.r R.CEA_ENG_STAT i) ∧
       ∀ o, o ≠ R.CEA_ENG_STAT → kvGet t.cea.r o = kvGet s.cea.r o) ∧
     (s.cea.eng[e].aborting = false → s.cea.eng[e].lateCtx = none → exec (.engineAbortTimeout e) s = .next s) ∧
     (s.cea.snapReq = none → exec (.snapshotRequest p) s =
       .next { s with cea := { s.cea with snapReq := some (getF s.cea.r F.CEA_WIN_SEL_ctx) } }) ∧
     (s.cea.snapReq ≠ none → exec (.snapshotRequest p) s = .next s)) ∧
  (∀ (p : Path) (i k : Nat) (val : Word) (s : State), coreReady s = true → k = getF s.cea.r F.CEA_WIN_SEL_ctx → k < s.cea.ctxs.length →
     (i < 5 * (ctxAt s k).cfg.nSec → i < 80 → i < (ctxAt s k).bankA.length → i < (ctxAt s k).bankB.length →
       (computing s = false → ∃ t, exec (.contextCoeffWrite p (4 * i) val) s = .next t ∧
         t = { s with cea := { s.cea with ctxs := t.cea.ctxs } } ∧ (ctxAt t k).bankA = (ctxAt s k).bankA.set i val ∧
         (ctxAt t k).bankB = (ctxAt s k).bankB ∧ ∀ j, j ≠ k → ctxAt t j = ctxAt s j) ∧
       (strides s = false → bankSel s.cea k = false → ∃ t, exec (.contextCoeffWrite p (0x140 + 4 * i) val) s = .next t ∧
         t = { s with cea := { s.cea with ctxs := t.cea.ctxs } } ∧ (ctxAt t k).bankB = (ctxAt s k).bankB.set i val ∧
         (ctxAt t k).bankA = (ctxAt s k).bankA ∧ ∀ j, j ≠ k → ctxAt t j = ctxAt s j) ∧
       (strides s = true → bankSel s.cea k = false → ∃ t, exec (.contextCoeffWrite p (0x140 + 4 * i) val) s = .next t ∧
         t = { s with cea := { s.cea with ctxs := t.cea.ctxs, live := t.cea.live } } ∧ (ctxAt t k).bankB = (ctxAt s k).bankB ∧
         (ctxAt t k).bankA = (ctxAt s k).bankA ∧
         t.cea.live = s.cea.live ++ [{ sel := k, ofs := 0x8140 + 4 * i, lo := 0, width := 32, val := val.toNat }]) ∧
       (∀ b : Bool, (if b then bankSel s.cea k = true ∧ (ctxAt s k).bankB.getD i 0 ≠ val
           else computing s = true ∧ (ctxAt s k).bankA.getD i 0 ≠ val) →
         ∃ t, exec (.contextCoeffWrite p ((if b then 0x140 else 0) + 4 * i) val) s = .next t ∧
           t = { s with cea := { s.cea with r := t.cea.r }, sys := { s.sys with r := t.sys.r } } ∧
           flag t.cea.r F.CEA_STAT_write_ignored = true ∧ ∀ o, o ≠ R.CEA_STAT → kvGet t.cea.r o = kvGet s.cea.r o)) ∧
     (i < 16 → i < (ctxAt s k).cfg.nSec → i < (ctxAt s k).s1.length → ∀ lo : Word,
       (computing s = false →
         ∃ t u, exec (.contextStateWrite p (0x280 + 16 * i) lo) s = .next t ∧
         t = { s with cea := { s.cea with ctxs := t.cea.ctxs, snap := t.cea.snap } } ∧ (ctxAt t k).s1 = (ctxAt s k).s1 ∧
         exec (.contextStateWrite p (0x284 + 16 * i) val) t = .next u ∧
         u = { s with cea := { s.cea with ctxs := u.cea.ctxs, snap := u.cea.snap } } ∧
         (ctxAt u k).s1 = (ctxAt s k).s1.set i (val ++ lo) ∧ (ctxAt u k).s2 = (ctxAt s k).s2 ∧ (∀ j, j ≠ k → ctxAt u j = ctxAt s j) ∧
         kvGet u.cea.snap (0x284 + 16 * i) = val ∧ kvGet u.cea.snap (0x280 + 16 * i) = lo) ∧
       (computing s = true → lo ≠ ((ctxAt s k).s1.getD i 0).setWidth 32 → ∃ t, exec (.contextStateWrite p (0x280 + 16 * i) lo) s = .next t ∧
         t = { s with cea := { s.cea with r := t.cea.r }, sys := { s.sys with r := t.sys.r } } ∧
         flag t.cea.r F.CEA_STAT_write_ignored = true)))

/-! ## Pulse generation -/

/-- TRIP_FILTER_ASSERT shows the input asserted, sets the input's external latch in exactly the assigned phases whose
`trip_mask` holds it, whose compare sets stay, sends each of them that was not tripped to its trip level in the same clock
with a running dead time cancelled, and sends one event to source 8 where the input was not asserted before; every other
phase is as it was. TRIP_FILTER_DEASSERT shows it deasserted and changes nothing else: every latch stays (R195 to R198).
TRIP_CLEAR of one phase that is tripped (R200): where neither an asserted input of its `trip_mask` nor the last sample of
a channel that set its fast-limit latch holds it, its external and fast-limit latches clear, and its other latches, its
sets and every other phase are as they were; where one holds it no phase changes, `trip_clr_refused` is set and
`clr_phase` names the phase. Of a phase that is not tripped it does nothing. AUX_CWORD (R193): every output of its mask
copies its staging duty to its pending set, and nothing else changes. (Where the manual leaves a point open this is the
model's reading: log entries 54 and 103.) -/
def Obligations.TripsAndClears : Prop :=
  (∀ (t : Fin 16) (s : State), coreReady s = true →
     (∃ u, exec (.tripFilterAssert t) s = .next u ∧
       u = { s with pwm := { s.pwm with r := u.pwm.r, ph := u.pwm.ph }, acq := u.acq, hst := u.hst, two := u.two, out := u.out, flt := u.flt } ∧
       getBit u.pwm.r R.PWM_TRIP_IN (16 + t) = true ∧ (∀ o, o ≠ R.PWM_TRIP_IN → kvGet u.pwm.r o = kvGet s.pwm.r o) ∧
       u.flt = (if getBit s.pwm.r R.PWM_TRIP_IN (16 + t) = true then s.flt else postEvent 8 t 255 (strideTag s) s.flt) ∧
       ∀ p : Fin 48, (p.val ∉ tripReach s.img.str t → u.pwm.ph[p] = s.pwm.ph[p]) ∧
         (p.val ∈ tripReach s.img.str t → u.pwm.ph[p].ext.getLsbD t = true ∧ tripped u.pwm.ph[p] = true ∧
           u.pwm.ph[p].c = s.pwm.ph[p].c ∧
           (tripped s.pwm.ph[p] = false → (u.pwm.ph[p].h, u.pwm.ph[p].l) = tripLevel s.pwm.r p ∧ u.pwm.ph[p].rise = none))) ∧
     (∃ u, exec (.tripFilterDeassert t) s = .next u ∧ u = { s with pwm := { s.pwm with r := u.pwm.r } } ∧
       getBit u.pwm.r R.PWM_TRIP_IN (16 + t) = false ∧ ∀ o, o ≠ R.PWM_TRIP_IN → kvGet u.pwm.r o = kvGet s.pwm.r o)) ∧
  (∀ (path : Path) (n : Fin 2) (i : Nat) (mask : BitVec 8) (s : State), coreReady s = true →
     (i < 32 → 32 * n.val + i < 48 → tripped (vget s.pwm.ph (32 * n + i) {}) = true →
       ∃ u, exec (.tripClear path n (BitVec.ofNat 32 (2 ^ i))) s = .next u ∧
         u = { s with pwm := { s.pwm with r := u.pwm.r, ph := u.pwm.ph } } ∧
         (∀ p : Fin 48, p.val ≠ 32 * n + i → u.pwm.ph[p] = s.pwm.ph[p]) ∧
         (if tripHolds s (32 * n + i) = true then flag u.pwm.r F.PWM_STAT_trip_clr_refused = true ∧
           getF u.pwm.r F.PWM_STAT_clr_phase = 32 * n + i ∧ u.pwm.ph = s.pwm.ph
         else u.pwm.r = s.pwm.r ∧ ∀ p : Fin 48, p.val = 32 * n + i → u.pwm.ph[p].ext = 0 ∧ u.pwm.ph[p].flim = [] ∧
           u.pwm.ph[p].c = s.pwm.ph[p].c ∧ u.pwm.ph[p].ring = s.pwm.ph[p].ring ∧ u.pwm.ph[p].plaus = s.pwm.ph[p].plaus ∧
           u.pwm.ph[p].wd = s.pwm.ph[p].wd ∧ u.pwm.ph[p].crit = s.pwm.ph[p].crit ∧ u.pwm.ph[p].react = s.pwm.ph[p].react)) ∧
     (i < 32 → 32 * n.val + i < 48 → tripped (vget s.pwm.ph (32 * n + i) {}) = false →
       exec (.tripClear path n (BitVec.ofNat 32 (2 ^ i))) s = .next s) ∧
     (∃ u, exec (.auxCword path mask) s = .next u ∧ u = { s with pwm := { s.pwm with aux := u.pwm.aux } } ∧
       ∀ x : Fin 8, u.pwm.aux[x] = (if mask.getLsbD x = true
         then { s.pwm.aux[x] with pending := some (kvGet s.pwm.r (R.PWM_AUX_DUTYn x)) } else s.pwm.aux[x])))

/-- While strides run (R180, R181, R190, R194): a period start of a phase gives the period its length, by the angle's move of
an active phase, limited to `ang_slew` the shorter way, and by none of another; with `reload` other than 1 the eligible
set leaves whole, in force in RUN with its duty limited to 0 to 1.0, discarded in the other states. A period centre
reloads likewise where `reload` is not 0, and the period's second half begins. Every other phase is as it was, and of
acquisition only the fetches that the carrier triggers change. The nominal edges of a switching phase that is not tripped,
while strides run (R186, R187): the on-edge, which a period with w of 0 in both halves does not have, deactivates L and
activates H after `dt_rise`, at once where that is 0; the off-edge, which a period with w of its whole length does not
have, deactivates H and activates L after `dt_fall`. An edge the period does not have changes nothing. DEAD_TIME_EXPIRY
activates the output that waits. No other phase and nothing else changes. While strides run (R179, R192, R193): the
reference carrier takes `period_clk` at its period start. An auxiliary output, on the shared period, takes at a period
start, unless `reload` is 1, the bound context's eligible set (`src` 1) or the host's pending duty (`src` 2), and the same
at a period centre, unless `reload` is 0; its on-edge and its off-edge, where the period has them, begin and end its
active interval. Phases and every other output are as they were. -/
def Obligations.CarriersAndEdges : Prop :=
  (∀ (p : Fin 48) (q : CmpSet) (d : Int) (s : State), coreReady s = true → strides s = true → s.pwm.ph[p].c.eligible = some q →
     d = (if s.plc.ph[p].active = true then angleMove (getF s.plc.r F.PLC_ANG_CFG_ang_slew) s.plc.ph[p].angle s.plc.ph[p].target else 0) →
     (getF s.pwm.r F.PWM_CARRIER_reload ≠ 1 →
       ∃ u, exec (.carrierPeriodStart (.phase p)) s = .next u ∧
         u = { s with pwm := { s.pwm with r := u.pwm.r, ph := u.pwm.ph, clipped := u.pwm.clipped }, plc := { s.plc with ph := u.plc.ph },
                      acq := { s.acq with r := u.acq.r, lanes := u.acq.lanes } } ∧
         u.pwm.ph[p].c.eligible = none ∧ u.pwm.ph[p].c.past = false ∧
         u.pwm.ph[p].c.duty = (if opState s = 6 then usedDuty q.duty else s.pwm.ph[p].c.duty) ∧
         u.pwm.ph[p].c.pLen = movedPeriod (8 * getF s.pwm.r F.PWM_CARRIER_period_clk) d ∧
         (u.plc.ph[p].angle : Int) = (s.plc.ph[p].angle + d) % 65536 ∧
         ∀ k : Fin 48, k ≠ p → u.pwm.ph[k] = s.pwm.ph[k] ∧ u.plc.ph[k] = s.plc.ph[k]) ∧
     (getF s.pwm.r F.PWM_CARRIER_reload ≠ 0 → ∃ u, exec (.carrierPeriodCentre (.phase p)) s = .next u ∧
         u = { s with pwm := { s.pwm with r := u.pwm.r, ph := u.pwm.ph, clipped := u.pwm.clipped },
                      acq := { s.acq with r := u.acq.r, lanes := u.acq.lanes } } ∧
         u.pwm.ph[p].c.eligible = none ∧ u.pwm.ph[p].c.past = true ∧
         u.pwm.ph[p].c.duty = (if opState s = 6 then usedDuty q.duty else s.pwm.ph[p].c.duty) ∧
         ∀ k : Fin 48, k ≠ p → u.pwm.ph[k] = s.pwm.ph[k])) ∧
  (∀ (p : Fin 48) (s : State), coreReady s = true →
     (strides s = true → s.pwm.ph[p].sw = true → tripped s.pwm.ph[p] = false →
       ((s.pwm.ph[p].c.w1 ≠ 0 ∨ s.pwm.ph[p].c.w2 ≠ 0) → s.pwm.ph[p].h = false →
         exec (.pwmCompareEdge (.phase p) true) s = .next { s with pwm := { s.pwm with
         ph := s.pwm.ph.set p (if s.pwm.ph[p].dtRise = 0 then { s.pwm.ph[p] with l := false, h := true, rise := none }
           else { s.pwm.ph[p] with l := false, rise := some true }) } }) ∧
       ((s.pwm.ph[p].c.w1 < s.pwm.ph[p].c.pLen ∨ s.pwm.ph[p].c.w2 < s.pwm.ph[p].c.pLen) → s.pwm.ph[p].l = false →
         exec (.pwmCompareEdge (.phase p) false) s = .next { s with pwm := { s.pwm with
         ph := s.pwm.ph.set p (if s.pwm.ph[p].dtFall = 0 then { s.pwm.ph[p] with h := false, l := true, rise := none }
           else { s.pwm.ph[p] with h := false, rise := some false }) } }) ∧
       (s.pwm.ph[p].c.w1 = 0 → s.pwm.ph[p].c.w2 = 0 → exec (.pwmCompareEdge (.phase p) true) s = .next s) ∧
       (s.pwm.ph[p].c.pLen ≤ s.pwm.ph[p].c.w1 → s.pwm.ph[p].c.pLen ≤ s.pwm.ph[p].c.w2 →
         exec (.pwmCompareEdge (.phase p) false) s = .next s)) ∧
     (∀ hi, s.pwm.ph[p].rise = some hi → ∃ u, exec (.deadTimeExpiry p) s = .next u ∧ u = { s with pwm := { s.pwm with ph := u.pwm.ph } } ∧
       (∀ k : Fin 48, k ≠ p → u.pwm.ph[k] = s.pwm.ph[k]) ∧
       u.pwm.ph[p] = { s.pwm.ph[p] with rise := none, h := s.pwm.ph[p].h || hi, l := s.pwm.ph[p].l || !hi })) ∧
  (∀ (x : Fin 8) (s : State), coreReady s = true → strides s = true →
     exec (.carrierPeriodStart .ref) s = .next { s with pwm := { s.pwm with
       refClk := getF s.pwm.r F.PWM_CARRIER_period_clk, refLen := 8 * getF s.pwm.r F.PWM_CARRIER_period_clk } } ∧
     (∃ u, exec (.carrierPeriodStart (.aux x)) s = .next u ∧ u = { s with pwm := { s.pwm with r := u.pwm.r, aux := u.pwm.aux, clipped := u.pwm.clipped } } ∧
       u.pwm.aux[x].c.pLen = 8 * getF s.pwm.r F.PWM_CARRIER_period_clk ∧ u.pwm.aux[x].on = s.pwm.aux[x].on ∧
       (∀ k : Fin 8, k ≠ x → u.pwm.aux[k] = s.pwm.aux[k]) ∧
       (∀ q, getF s.pwm.r F.PWM_CARRIER_reload ≠ 1 → getF s.pwm.r (F.PWM_AUX_CFGn_src x) = 1 → s.pwm.aux[x].c.eligible = some q →
         u.pwm.aux[x].c.duty = usedDuty q.duty ∧ u.pwm.aux[x].c.eligible = none) ∧
       (∀ d, getF s.pwm.r F.PWM_CARRIER_reload ≠ 1 → getF s.pwm.r (F.PWM_AUX_CFGn_src x) = 2 → s.pwm.aux[x].pending = some d →
         u.pwm.aux[x].c.duty = usedDuty d ∧ u.pwm.aux[x].pending = none)) ∧
     (∃ u, exec (.carrierPeriodCentre (.aux x)) s = .next u ∧ u = { s with pwm := { s.pwm with r := u.pwm.r, aux := u.pwm.aux, clipped := u.pwm.clipped } } ∧
       u.pwm.aux[x].c.past = true ∧ (∀ k : Fin 8, k ≠ x → u.pwm.aux[k] = s.pwm.aux[k]) ∧
       (∀ q, getF s.pwm.r F.PWM_CARRIER_reload ≠ 0 → getF s.pwm.r (F.PWM_AUX_CFGn_src x) = 1 → s.pwm.aux[x].c.eligible = some q →
         u.pwm.aux[x].c.duty = usedDuty q.duty ∧ u.pwm.aux[x].c.eligible = none) ∧
       (∀ d, getF s.pwm.r F.PWM_CARRIER_reload ≠ 0 → getF s.pwm.r (F.PWM_AUX_CFGn_src x) = 2 → s.pwm.aux[x].pending = some d →
         u.pwm.aux[x].c.duty = usedDuty d ∧ u.pwm.aux[x].pending = none)) ∧
     ((s.pwm.aux[x].c.w1 ≠ 0 ∨ s.pwm.aux[x].c.w2 ≠ 0) → exec (.pwmCompareEdge (.aux x) true) s =
       .next { s with pwm := { s.pwm with aux := s.pwm.aux.set x { s.pwm.aux[x] with on := true } } }) ∧
     ((s.pwm.aux[x].c.w1 < s.pwm.aux[x].c.pLen ∨ s.pwm.aux[x].c.w2 < s.pwm.aux[x].c.pLen) → exec (.pwmCompareEdge (.aux x) false) s =
       .next { s with pwm := { s.pwm with aux := s.pwm.aux.set x { s.pwm.aux[x] with on := false } } }))

/-! ## Acquisition -/

/-- ADC_CONVERSION while strides run begins one conversion period in every lane that is running, has a sequence and has a
period of the stride left: a waiting fetch is converted in it, never in period 0, else the next sequence position, and the
conversion enters the lane's pipeline with its sampling clock 8j; a sequence conversion while a fetch waits leaves it
waiting, late. Every other lane is as it was, and nothing else changes (R29, R202, R204, R214, R215); while no strides run
it does nothing. RAW_CODE_OUT takes the oldest conversion out of its lane's pipeline and changes no other lane; of a
fenced lane that is all, and of an empty pipeline nothing happens (R203, R213). For an input with no channel entry a
sequence code changes nothing more, and a fetch's code, late bit and clock are shown in `ACQ_FETCH_RESl` with `valid`
(R202, R215). FETCH_GO leaves a fetch waiting in every lane of its mask that runs, selects a trigger and has fetches left
in the stride, and changes no other lane and no register but `ACQ_STAT` (R214, R215). REF_ENABLE writes `en` in IDLE and
LOADED, clearing `ref_ready` when it turns the buffer off; in COLD and SERVICE it is ignored with `cfg_err`; in ARMED, RUN
and HOLD a write that would change `en` is ignored with `write_ignored`, another does nothing (R91, R216). REF_READY sets
`ref_ready` while the buffer is on and does nothing while it is off (R216). -/
def Obligations.ConversionsAndFetches : Prop :=
  (∀ (s : State), coreReady s = true →
     (strides s = false → exec .adcConversion s = .next s) ∧
     (strides s = true → ∃ t, exec .adcConversion s = .next t ∧ t = { s with acq := { s.acq with lanes := t.acq.lanes } } ∧
       ∀ l : Fin 16,
         (s.acq.lanes[l].running = false ∨ (laneOf s.acq.r l).n = 0 ∨ s.tbs.len < 8 * s.acq.lanes[l].period + 8 →
           t.acq.lanes[l] = s.acq.lanes[l]) ∧
         (s.acq.lanes[l].running = true → (laneOf s.acq.r l).n ≠ 0 → 8 * s.acq.lanes[l].period + 8 ≤ s.tbs.len →
           (s.acq.lanes[l].fetch = true → s.acq.lanes[l].period ≠ 0 →
             t.acq.lanes[l] = { s.acq.lanes[l] with
               period := s.acq.lanes[l].period + 1, fetches := s.acq.lanes[l].fetches + 1, fetch := false, late := false,
               pipe := s.acq.lanes[l].pipe ++ [{
                 ain := 8 * l + getF s.acq.r (F.ACQ_FETCH_CFGl_mux l), fetch := true, late := s.acq.lanes[l].late,
                 clk := 8 * s.acq.lanes[l].period, stride := strideCnt s }] }) ∧
           (s.acq.lanes[l].fetch = false ∨ s.acq.lanes[l].period = 0 →
             t.acq.lanes[l] = { s.acq.lanes[l] with
               period := s.acq.lanes[l].period + 1, seqCnt := s.acq.lanes[l].seqCnt + 1, late := s.acq.lanes[l].fetch,
               pipe := s.acq.lanes[l].pipe ++ [{
                 ain := 8 * l + (laneOf s.acq.r l).mux.getD (s.acq.lanes[l].seqCnt % (laneOf s.acq.r l).n) 0,
                 round := s.acq.lanes[l].seqCnt / (laneOf s.acq.r l).n,
                 clk := 8 * s.acq.lanes[l].period, stride := strideCnt s }] }))) ∧
     (∀ (l : Fin 16) (code : BitVec 14), s.acq.lanes[l].pipe = [] → exec (.rawCodeOut l code) s = .next s) ∧
     (∀ (l : Fin 16) (code : BitVec 14) c rest, s.acq.lanes[l].pipe = c :: rest → c.ain / 8 = l.val →
       ∃ t, exec (.rawCodeOut l code) s = .next t ∧ t.acq.lanes = s.acq.lanes.set l { s.acq.lanes[l] with pipe := rest } ∧
         (s.flt.fLane.getLsbD l = true → t = { s with acq := { s.acq with lanes := t.acq.lanes } }) ∧
         (s.flt.fLane.getLsbD l = false → (vget s.acq.chans c.ain {}).present = false →
           t = { s with acq := { s.acq with r := t.acq.r, lanes := t.acq.lanes } } ∧
           (c.fetch = false → t.acq.r = s.acq.r) ∧
           (∀ o, o ≠ R.ACQ_FETCH_RESl l → kvGet t.acq.r o = kvGet s.acq.r o) ∧
           (c.fetch = true → flag t.acq.r (F.ACQ_FETCH_RESl_valid l) = true ∧ flag t.acq.r (F.ACQ_FETCH_RESl_late l) = c.late ∧
             getF t.acq.r (F.ACQ_FETCH_RESl_clock l) = c.clk % 8192 ∧
             getF t.acq.r (F.ACQ_FETCH_RESl_code l) = (code.signExtend 16).toNat)))) ∧
  (∀ (p : Path) (lanes : BitVec 16) (en : Bool) (s : State), coreReady s = true →
     (∃ t, exec (.fetchGo p lanes) s = .next t ∧ t = { s with acq := { s.acq with r := t.acq.r, lanes := t.acq.lanes } } ∧
       (∀ o, o ≠ R.ACQ_STAT → kvGet t.acq.r o = kvGet s.acq.r o) ∧
       ∀ l : Fin 16, t.acq.lanes[l] = { s.acq.lanes[l] with fetch := s.acq.lanes[l].fetch ||
         (lanes.getLsbD l && s.acq.lanes[l].running && getF s.acq.r (F.ACQ_FETCH_CFGl_trig l) != 0 &&
           decide (s.acq.lanes[l].fetches < getF s.acq.r (F.ACQ_FETCH_CFGl_fetch_max l))) }) ∧
     (opState s = 3 ∨ opState s = 4 → ∃ t, exec (.refEnable p en) s = .next t ∧ t = { s with acq := { s.acq with r := t.acq.r } } ∧
       flag t.acq.r F.ACQ_REF_en = en ∧ (en = false → flag t.acq.r F.ACQ_STAT_ref_ready = false) ∧
       (en = true → ∀ o, o ≠ R.ACQ_REF → kvGet t.acq.r o = kvGet s.acq.r o) ∧
       ∀ o, o ≠ R.ACQ_REF → o ≠ R.ACQ_STAT → kvGet t.acq.r o = kvGet s.acq.r o) ∧
     (opState s < 3 → exec (.refEnable p en) s = .next { s with acq := { s.acq with r := setFlag s.acq.r F.ACQ_STAT_cfg_err } }) ∧
     (5 ≤ opState s → flag s.acq.r F.ACQ_REF_en = en → exec (.refEnable p en) s = .next s) ∧
     (5 ≤ opState s → flag s.acq.r F.ACQ_REF_en = !en → ∃ t, exec (.refEnable p en) s = .next t ∧
       t = { s with acq := { s.acq with r := setFlag s.acq.r F.ACQ_STAT_write_ignored }, sys := { s.sys with r := t.sys.r } } ∧
       ∀ o, o ≠ R.SYS_WRITE_IGN_ADDR → kvGet t.sys.r o = kvGet s.sys.r o) ∧
     (flag s.acq.r F.ACQ_REF_en = true → ∃ t, exec .refReady s = .next t ∧ t = { s with acq := { s.acq with r := t.acq.r } } ∧
       flag t.acq.r F.ACQ_STAT_ref_ready = true ∧ ∀ o, o ≠ R.ACQ_STAT → kvGet t.acq.r o = kvGet s.acq.r o) ∧
     (flag s.acq.r F.ACQ_REF_en = false → exec .refReady s = .next s))

/-- A raw code that leaves a lane not fenced, of a channel whose records do not take raw codes, is the channel's last raw
code, and nothing outside acquisition, the phases, the collector and the interrupts changes (R203). With the fast limit
enabled, a code above `flim_hi` or below `flim_lo` counts the channel as beyond and leaves the channel's latch set in
every phase the limit reaches, each of which is then tripped; the phases it does not reach keep their latches, and one
event goes to source 7 where some reached phase did not hold the latch, none else. A code within the limits, or of a
channel without the fast limit, changes no phase and sends no event (R196, R199, R212). (Where the manual leaves a point
open this is the model's reading: log entry 54.) -/
def Obligations.FastLimitLatches : Prop :=
  ∀ (l : Fin 16) (code : BitVec 14) (c : Conv) (rest : List Conv) (s : State), coreReady s = true →
    s.acq.lanes[l].pipe = c :: rest → c.ain / 8 = l.val → s.flt.fLane.getLsbD l = false → (vget s.acq.chans c.ain {}).present = true →
    getF s.acq.r (F.ACQ_CHn_CFG_rec c.ain) < 2 →
    ∃ t, exec (.rawCodeOut l code) s = .next t ∧
      t = { s with acq := t.acq, pwm := { s.pwm with ph := t.pwm.ph }, hst := t.hst, two := t.two, out := t.out, flt := t.flt } ∧
      (vget t.acq.chans c.ain {}).lastRaw = some code.toInt ∧
      ((chanOf s.acq.r c.ain).fast = false → t.pwm = s.pwm ∧ t.flt = s.flt) ∧
      ((chanOf s.acq.r c.ain).fast = true → code.toInt ≤ (chanOf s.acq.r c.ain).flimHi → (chanOf s.acq.r c.ain).flimLo ≤ code.toInt →
        t.pwm = s.pwm ∧ t.flt = s.flt ∧ (vget t.acq.chans c.ain {}).beyond = false) ∧
      ((chanOf s.acq.r c.ain).fast = true →
        (chanOf s.acq.r c.ain).flimHi < code.toInt ∨ code.toInt < (chanOf s.acq.r c.ain).flimLo →
        (vget t.acq.chans c.ain {}).beyond = true ∧
        (∀ p : Fin 48, p.val ∈ flimReach s.img.str c.ain → c.ain ∈ t.pwm.ph[p].flim ∧ tripped t.pwm.ph[p] = true) ∧
        (∀ p : Fin 48, p.val ∉ flimReach s.img.str c.ain → t.pwm.ph[p] = s.pwm.ph[p]) ∧
        ((∃ p : Fin 48, p.val ∈ flimReach s.img.str c.ain ∧ c.ain ∉ s.pwm.ph[p].flim) →
          t.flt = postEvent 7 c.ain ((flimReach s.img.str c.ain).headD 255) (strideTag s) s.flt) ∧
        ((∀ p : Fin 48, p.val ∈ flimReach s.img.str c.ain → c.ain ∈ s.pwm.ph[p].flim) → t.flt = s.flt))

/-- CHANNEL_RESULT of a channel whose window is full, the round of its last code complete, in a lane not fenced, where the
channel writes no result records: its window is empty again and no other channel, no lane and no byte of the buffer
changes. A stride channel's result is shown in its register with its flags and counts as readable in this stride; where a
placed binding reads the channel it enters queue 0 with the stride's tag while that has room, and otherwise queue 0 keeps
its entries. A slow channel's result waits for its boundary, with no register and no queue entry changed (R205, R206,
R207, R210). Of a channel whose window is not full it does nothing. A record written to the sample buffer (R221): the
eight bytes at the stream's `wptr` hold it, low byte first, every other byte of the buffer is as it was, the buffer keeps
its canonical form, `wptr` moves on by one entry of its region, wrapping at its capacity, and no other register of the
block changes. -/
def Obligations.ChannelResultPublishes : Prop :=
  (∀ (a : Fin 128) (s : State), coreReady s = true →
     (windowFull s a = false → exec (.channelResult a) s = .next s) ∧
     (strides s = true → windowFull s a = true → roundFull s a = true →
     s.flt.fLane.getLsbD (a / 8) = false → getF s.acq.r (F.ACQ_CHn_CFG_rec a) = 0 →
     ∃ t, exec (.channelResult a) s = .next t ∧ t = { s with acq := t.acq, sys := { s.sys with qcnt := t.sys.qcnt } } ∧
       t.acq.buf = s.acq.buf ∧ t.acq.lanes = s.acq.lanes ∧ (∀ k : Fin 128, k ≠ a → t.acq.chans[k] = s.acq.chans[k]) ∧
       t.acq.chans[a].win = [] ∧
       (s.acq.chans[a].slow = true → t = { s with acq := { s.acq with chans := t.acq.chans } } ∧
         t.acq.chans[a].ready = some ((chanResult s a).2.1, (chanResult s a).1)) ∧
       (s.acq.chans[a].slow = false → kvGet t.acq.r (R.ACQ_CHn_RES a) = (chanResult s a).2.1.val ∧
         t.acq.chans[a].resAt = some (strideCnt s) ∧
         getF t.acq.r (F.ACQ_CHn_STAT_flags a) =
           (if owPhase s a 2 4 then (chanResult s a).2.1.flags ||| 2 else (chanResult s a).2.1.flags).toNat ∧
         (q0Wanted s a = false → t.acq.q0 = s.acq.q0 ∧ t.sys = s.sys) ∧
         (q0Wanted s a = true → s.acq.q0.length < 512 → t.sys = s.sys ∧
           ∃ r, t.acq.q0 = s.acq.q0 ++ [{ ain := a, res := r, tag := strideCnt s % 256 }] ∧ r.val = (chanResult s a).2.1.val)))) ∧
  (∀ (i : Fin 4) (v : BitVec 64) (q : Acq) (at_ : Nat), at_ = 4096 * getF q.r (F.ACQ_STRs_BUF_base i) + 8 * getF q.r (F.ACQ_STRs_WPTR_wptr i) →
     0 < regionCap q.r i → regionCap q.r i ≤ 131072 →
     (∀ k < 8, (bufWrite i v q).buf.read (at_ + k) = v.extractLsb' (8 * k) 8) ∧
     (∀ a, (a < at_ ∨ at_ + 8 ≤ a) → (bufWrite i v q).buf.read a = q.buf.read a) ∧
     (q.buf.wf = true → (bufWrite i v q).buf.wf = true) ∧
     getF (bufWrite i v q).r (F.ACQ_STRs_WPTR_wptr i) = (getF q.r (F.ACQ_STRs_WPTR_wptr i) + 1) % regionCap q.r i ∧
     (∀ o, o ≠ R.ACQ_STRs_WPTR i → kvGet (bufWrite i v q).r o = kvGet q.r o) ∧
     bufWrite i v q = { q with buf := (bufWrite i v q).buf, r := (bufWrite i v q).r })

/-- Calibration (R217). CAL_ZERO and CAL_FULL_SCALE with a count start a capture of that many results in LOADED, with the
reference ready, a channel entry there and no capture running; where one of these fails they are refused with `err` 1 to 4
in that order, `refused` and cause 7, and the capture running goes on. CAL_ABORT ends the running capture with `err` 7 and
writes no calibration value, and does nothing with none running. CAL_CAPTURE_COMPLETE of a zero capture that has its
results stores their mean, rounded half up, as the channel's offset; of a full-scale capture it stores `fs_value` over the
rounded mean less the offset as the gain, unless that difference is below 256 codes (`err` 5), the one case where the gain
could fall out of its range (`err` 6); each of these ends the capture and sets cause 7. A capture that still lacks results
goes on. The open-wire test (R218). OW_START is refused, with `refused` and nothing else changed, while a test runs, where
a masked channel has `pull` 0 or a figure of `ACQ_OW_CFG` is 0, or where contexts compute and a masked channel is the
input of a critical or normal context; else the test begins in phase 1 with the masked channels and the figures of
`ACQ_OW_CFG`. OW_ABORT ends it, judging nothing. OW_PHASE_COMPLETE of a phase 1 or 3 whose channels all have their
results, and of phase 2 whose settling has passed, goes on to the next phase; at the end of phase 4 it ends the test with
`done` and cause 7, sets the bit of each channel whose two means differ by more than the threshold and leaves every other
bit; a phase not done goes on. STREAM_TRIP_STOP of a stream whose post-trip records are written disables it with
`trip_stop` and cause 7 and changes no other stream; of another it does nothing (R222). (Where the manual leaves a point
open this is the model's reading: log entry 57.) -/
def Obligations.CaptureAndWireTests : Prop :=
  (∀ (p : Path) (a : Fin 128) (n : BitVec 16) (s : State), coreReady s = true →
     (n ≠ 0 → ∀ full : Bool,
       (opState s = 4 → flag s.acq.r F.ACQ_STAT_ref_ready = true → s.acq.chans[a].present = true → s.acq.cal = none →
         ∃ t, exec (if full then .calFullScale p a n else .calZero p a n) s = .next t ∧
           t = { s with acq := { s.acq with cal := t.acq.cal, r := t.acq.r } } ∧
           t.acq.cal = some { ain := a, full := full, count := n.toNat, left := n.toNat } ∧
           flag t.acq.r F.ACQ_CAL_STAT_busy = true ∧ getF t.acq.r F.ACQ_CAL_STAT_left = n.toNat ∧
           getF t.acq.r F.ACQ_CAL_STAT_err = 0 ∧ ∀ o, o ≠ R.ACQ_CAL_STAT → kvGet t.acq.r o = kvGet s.acq.r o) ∧
       (opState s ≠ 4 ∨ flag s.acq.r F.ACQ_STAT_ref_ready = false ∨ s.acq.chans[a].present = false ∨ s.acq.cal ≠ none →
         ∃ t, exec (if full then .calFullScale p a n else .calZero p a n) s = .next t ∧
           t = { s with acq := { s.acq with r := t.acq.r }, hst := t.hst, two := t.two, out := t.out } ∧
           flag t.acq.r F.ACQ_CAL_STAT_refused = true ∧
           getF t.acq.r F.ACQ_CAL_STAT_err = (if opState s ≠ 4 then 1 else if flag s.acq.r F.ACQ_STAT_ref_ready = false then 2
             else if s.acq.chans[a].present = false then 3 else 4) ∧
           (∀ o, o ≠ R.ACQ_CAL_STAT → kvGet t.acq.r o = kvGet s.acq.r o) ∧ getBit t.hst.r R.HST_IRQ_STAT 7 = true)) ∧
     (s.acq.cal = none → exec (.calAbort p) s = .next s ∧ exec .calCaptureComplete s = .next s) ∧
     (s.acq.cal ≠ none → ∃ t, exec (.calAbort p) s = .next t ∧
         t = { s with acq := { s.acq with cal := none, r := t.acq.r }, hst := t.hst, two := t.two, out := t.out } ∧
         flag t.acq.r F.ACQ_CAL_STAT_busy = false ∧ flag t.acq.r F.ACQ_CAL_STAT_refused = true ∧ getF t.acq.r F.ACQ_CAL_STAT_err = 7 ∧
         (∀ o, o ≠ R.ACQ_CAL_STAT → kvGet t.acq.r o = kvGet s.acq.r o) ∧ getBit t.hst.r R.HST_IRQ_STAT 7 = true) ∧
     (∀ c, s.acq.cal = some c → c.left ≠ 0 → exec .calCaptureComplete s = .next s) ∧
     (∀ c mean, s.acq.cal = some c → c.left = 0 → c.ain < 128 → mean = (2 * c.sum + c.count) / (2 * c.count) →
       ∃ t, exec .calCaptureComplete s = .next t ∧
         t = { s with acq := { s.acq with cal := none, r := t.acq.r, chans := t.acq.chans }, hst := t.hst, two := t.two, out := t.out } ∧
         flag t.acq.r F.ACQ_CAL_STAT_busy = false ∧ getBit t.hst.r R.HST_IRQ_STAT 7 = true ∧
         (∀ o, o ≠ R.ACQ_CAL_STAT → o ≠ R.ACQ_CHn_CAL_OFS c.ain → o ≠ R.ACQ_CHn_CAL_GAIN c.ain → kvGet t.acq.r o = kvGet s.acq.r o) ∧
         (c.full = false → kvGet t.acq.r (R.ACQ_CHn_CAL_OFS c.ain) = wordOf mean ∧ flag t.acq.r F.ACQ_CAL_STAT_done = true ∧
           t.acq.chans = s.acq.chans ∧ kvGet t.acq.r (R.ACQ_CHn_CAL_GAIN c.ain) = kvGet s.acq.r (R.ACQ_CHn_CAL_GAIN c.ain)) ∧
         (c.full = true → kvGet t.acq.r (R.ACQ_CHn_CAL_OFS c.ain) = kvGet s.acq.r (R.ACQ_CHn_CAL_OFS c.ain) ∧
           ∀ span gain, span = mean - (kvGet s.acq.r (R.ACQ_CHn_CAL_OFS c.ain)).toInt →
             gain = rround (((kvGet s.acq.r R.ACQ_CAL_FS).toInt * 1048576 : Int) / (span : Rat)) →
             (span.natAbs < 256 * 65536 → flag t.acq.r F.ACQ_CAL_STAT_refused = true ∧ getF t.acq.r F.ACQ_CAL_STAT_err = 5 ∧
               t.acq.chans = s.acq.chans ∧ kvGet t.acq.r (R.ACQ_CHn_CAL_GAIN c.ain) = kvGet s.acq.r (R.ACQ_CHn_CAL_GAIN c.ain)) ∧
             (256 * 65536 ≤ span.natAbs →
               flag t.acq.r F.ACQ_CAL_STAT_done = true ∧ kvGet t.acq.r (R.ACQ_CHn_CAL_GAIN c.ain) = wordOf gain ∧
               (vget t.acq.chans c.ain {}).calDef = false)))) ∧
  (∀ (p : Path) (s : State), coreReady s = true →
     ((s.acq.ow ≠ none ∨ (∃ a ∈ owMasked s.acq.r, getF s.acq.r (F.ACQ_CHn_CFG_pull a) = 0) ∨ getF s.acq.r F.ACQ_OW_CFG_ow_thr = 0 ∨
       getF s.acq.r F.ACQ_OW_CFG_settle = 0 ∨ getF s.acq.r F.ACQ_OW_CFG_m = 0 ∨
       (computing s = true ∧ ∃ a ∈ owMasked s.acq.r, boundCritical s.img.str a = true)) →
       exec (.owStart p) s = .next { s with acq := { s.acq with r := setFlag s.acq.r F.ACQ_OW_STAT_refused } }) ∧
     (s.acq.ow = none → (∀ a ∈ owMasked s.acq.r, getF s.acq.r (F.ACQ_CHn_CFG_pull a) ≠ 0) → getF s.acq.r F.ACQ_OW_CFG_ow_thr ≠ 0 →
       getF s.acq.r F.ACQ_OW_CFG_settle ≠ 0 → getF s.acq.r F.ACQ_OW_CFG_m ≠ 0 →
       (computing s = true → ∀ a ∈ owMasked s.acq.r, boundCritical s.img.str a = false) →
       ∃ t x, exec (.owStart p) s = .next t ∧ t = { s with acq := { s.acq with ow := some x, r := t.acq.r } } ∧ x.phase = 1 ∧
         x.m = getF s.acq.r F.ACQ_OW_CFG_m ∧ x.settle = getF s.acq.r F.ACQ_OW_CFG_settle ∧ x.thr = getF s.acq.r F.ACQ_OW_CFG_ow_thr ∧
         x.chans.map (·.ain) = owMasked s.acq.r ∧ getF t.acq.r F.ACQ_OW_STAT_phase = 1 ∧
         ∀ o, o ≠ R.ACQ_OW_STAT → kvGet t.acq.r o = kvGet s.acq.r o) ∧
     (s.acq.ow = none → exec (.owAbort p) s = .next s ∧ exec .owPhaseComplete s = .next s) ∧
     (s.acq.ow ≠ none → ∃ t, exec (.owAbort p) s = .next t ∧ t = { s with acq := { s.acq with ow := none, r := t.acq.r } } ∧
       getF t.acq.r F.ACQ_OW_STAT_phase = 0 ∧ ∀ o, o ≠ R.ACQ_OW_STAT → kvGet t.acq.r o = kvGet s.acq.r o) ∧
     (∀ x, s.acq.ow = some x →
       ((x.phase = 1 ∧ ∃ c ∈ x.chans, c.n1 < x.m) ∨ (x.phase = 3 ∧ ∃ c ∈ x.chans, c.n2 < x.m) ∨
         ((x.phase = 2 ∨ x.phase = 4) ∧ x.waited < x.settle) → exec .owPhaseComplete s = .next s) ∧
       ((x.phase = 1 ∧ ∀ c ∈ x.chans, x.m ≤ c.n1) ∨ (x.phase = 2 ∧ x.settle ≤ x.waited) ∨ (x.phase = 3 ∧ ∀ c ∈ x.chans, x.m ≤ c.n2) →
         ∃ t, exec .owPhaseComplete s = .next t ∧
           t = { s with acq := { s.acq with ow := some { x with phase := x.phase + 1, waited := 0 }, r := t.acq.r } } ∧
           getF t.acq.r F.ACQ_OW_STAT_phase = x.phase + 1 ∧ ∀ o, o ≠ R.ACQ_OW_STAT → kvGet t.acq.r o = kvGet s.acq.r o) ∧
       (x.phase = 4 → x.settle ≤ x.waited → (∀ c ∈ x.chans, c.ain < 128) → ∃ t, exec .owPhaseComplete s = .next t ∧
         t = { s with acq := { s.acq with ow := none, r := t.acq.r }, hst := t.hst, two := t.two, out := t.out, flt := t.flt } ∧
         flag t.acq.r F.ACQ_OW_STAT_done = true ∧ getF t.acq.r F.ACQ_OW_STAT_phase = 0 ∧
         (∀ a : Fin 128, getMap t.acq.r (R.ACQ_OW_OPENn 0) a =
           (getMap s.acq.r (R.ACQ_OW_OPENn 0) a || (x.chans.filter (owOpen x.thr)).any (·.ain == a.val))) ∧
         getBit t.hst.r R.HST_IRQ_STAT 7 = true)) ∧
     (∀ i : Fin 4, (s.acq.strs[i].left ≠ some 0 → exec (.streamTripStop i) s = .next s) ∧
       (s.acq.strs[i].left = some 0 → ∃ t, exec (.streamTripStop i) s = .next t ∧
       t = { s with acq := { s.acq with r := t.acq.r, strs := s.acq.strs.set i { s.acq.strs[i] with left := none } },
                    hst := t.hst, two := t.two, out := t.out } ∧
       flag t.acq.r (F.ACQ_STRs_CFG_en i) = false ∧ flag t.acq.r (F.ACQ_STRs_CFG_trip_stop i) = true ∧
       (∀ o, o ≠ R.ACQ_STRs_CFG i → kvGet t.acq.r o = kvGet s.acq.r o) ∧ getBit t.hst.r R.HST_IRQ_STAT 7 = true)))

/-! ## Links and the hive -/

/-- Training of a link port (R229, R231). Each word is sent from some running disparity within ±16, which the manual leaves
open. LINK_ALIGNED takes DOWN to ALIGN and sends `TS2`. LINK_ECHO takes ALIGN to ECHO, sends the first `ECH` and drops the
old segment delay. In ECHO, ECHO_REQUEST is answered with `ECR` and the turnaround, 80 half nanoseconds and the wait for
the word boundary; each ECHO_REPLY adds its round trip less the turnaround, the first seven send a further `ECH`, and the
eighth sends `IDL` and sets the segment delay, the mean of the eight halves rounded half up. Outside their state these
commands do nothing. TRAIN_TIMEOUT of a port in training counts and starts again at DOWN with `TS1`; of a port OFF or UP
it does nothing. No other port changes. LOCK_LOSS adds its code and disparity errors to the port's counts, saturating. A
port that is UP also counts a loss and trains again from DOWN with `TS1`; the frame it was sending, of which `sent` words
had left, ends with `ABT` after those words, and where it was receiving a hive frame the copy on the other hive port, if
one is due, ends with `ABT`; no other port changes its state or its counts. Of a port that is not UP only the errors count
(R227, R228, R230, R238). LINK_UP of a port in ECHO with its eight echoes brings the port UP (R229). Where it is a port of
a ring in TRAIN whose other port is UP, or whose 10 ms have passed, the ring enters ENUM, with cause 5, its node records
blank and its comb points gone, those of other rings kept, and no other ring changes its state (R256); else nothing but
the port changes. BYPASS_CLOSE closes an open switch once a condition for it fails: both hive links are down, counting a
loss where they were UP, and no ring port changes. BYPASS_OPEN opens a closed switch while every condition holds, changing
no other register. Each does nothing otherwise (R235, R236). (Where the manual leaves a point open this is the model's
reading: log entry 62.) -/
def Obligations.LinksAndBypass : Prop :=
  (∀ (p : Fin 50) (turn : Half) (trip : Nat) (wait : BitVec 7) (s : State),
     (s.lnk.port[p].st = 1 → ∃ t rd, exec (.linkAligned p) s = .next t ∧
       t = { s with lnk := { s.lnk with port := t.lnk.port }, out := s.out ++ [.link p [ctlTS2] (codeFrom rd ctlTS2 []).1], free := s.free + 1 } ∧
       -16 ≤ rd ∧ rd ≤ 16 ∧ t.lnk.port = s.lnk.port.set p { s.lnk.port[p] with st := 2, txRd := (codeFrom rd ctlTS2 []).2 }) ∧
     (s.lnk.port[p].st ≠ 1 → exec (.linkAligned p) s = .next s) ∧
     (s.lnk.port[p].st = 2 → ∃ t rd, exec (.linkEcho p) s = .next t ∧
       t = { s with lnk := { s.lnk with port := t.lnk.port }, out := s.out ++ [.link p [ctlECH] (codeFrom rd ctlECH []).1], free := s.free + 1 } ∧
       -16 ≤ rd ∧ rd ≤ 16 ∧ t.lnk.port = s.lnk.port.set p
         { s.lnk.port[p] with st := 3, echoN := 0, echoSum := 0, segValid := false, txRd := (codeFrom rd ctlECH []).2 }) ∧
     (s.lnk.port[p].st ≠ 2 → exec (.linkEcho p) s = .next s) ∧
     (s.lnk.port[p].st = 3 → ∃ t rd, exec (.echoRequest p wait) s = .next t ∧ -16 ≤ rd ∧ rd ≤ 16 ∧
       t = { s with
         lnk := { s.lnk with port := s.lnk.port.set p { s.lnk.port[p] with txRd := t.lnk.port[p].txRd } }
         out := s.out ++ [.link p [ctlECR, BitVec.ofNat 16 (80 + wait.toNat)] (codeFrom rd ctlECR [BitVec.ofNat 16 (80 + wait.toNat)]).1]
         free := s.free + 1 }) ∧
     (s.lnk.port[p].st ≠ 3 → exec (.echoRequest p wait) s = .next s) ∧
     (s.lnk.port[p].st = 3 → s.lnk.port[p].echoN < 7 → ∃ t rd, exec (.echoReply p trip turn) s = .next t ∧ -16 ≤ rd ∧ rd ≤ 16 ∧
       t = { s with
         lnk := { s.lnk with port := s.lnk.port.set p { s.lnk.port[p] with
           echoN := s.lnk.port[p].echoN + 1, echoSum := s.lnk.port[p].echoSum + (trip - turn.toNat), txRd := t.lnk.port[p].txRd } }
         out := s.out ++ [.link p [ctlECH] (codeFrom rd ctlECH []).1]
         free := s.free + 1 }) ∧
     (s.lnk.port[p].st = 3 → s.lnk.port[p].echoN = 7 → ∃ t rd, exec (.echoReply p trip turn) s = .next t ∧ -16 ≤ rd ∧ rd ≤ 16 ∧
       t = { s with
         lnk := { s.lnk with port := s.lnk.port.set p { s.lnk.port[p] with
           echoN := 8, echoSum := s.lnk.port[p].echoSum + (trip - turn.toNat), segValid := true,
           seg := min 65535 ((s.lnk.port[p].echoSum + (trip - turn.toNat) + 8) / 16), txRd := t.lnk.port[p].txRd } }
         out := s.out ++ [.link p [ctlIDL] (codeFrom rd ctlIDL []).1]
         free := s.free + 1 }) ∧
     (s.lnk.port[p].st ≠ 3 ∨ 8 ≤ s.lnk.port[p].echoN → exec (.echoReply p trip turn) s = .next s) ∧
     (1 ≤ s.lnk.port[p].st → s.lnk.port[p].st ≤ 3 → exec (.trainTimeout p) s = .next { s with
       lnk := { s.lnk with port := s.lnk.port.set p { s.lnk.port[p] with
         st := 1, errs := [], txRd := 2, trainTo := min 65535 (s.lnk.port[p].trainTo + 1) } }
       out := s.out ++ [.link p [ctlTS1] [(3 : BitVec 2) ++ ctlTS1]] }) ∧
     (s.lnk.port[p].st = 0 ∨ 4 ≤ s.lnk.port[p].st → exec (.trainTimeout p) s = .next s)) ∧
  (∀ (p : Fin 50) (ce de time : Nat) (sent : Option Nat) (rx : List Half) (s : State),
     (s.lnk.port[p].st ≠ 4 → exec (.lockLoss p ⟨ce, de⟩ ⟨sent, rx, time⟩) s = .next { s with
       lnk := { s.lnk with port := s.lnk.port.set p { s.lnk.port[p] with
         codeErr := min 65535 (s.lnk.port[p].codeErr + ce), dispErr := min 255 (s.lnk.port[p].dispErr + de) } } }) ∧
     (s.lnk.port[p].st = 4 → ∃ t, exec (.lockLoss p ⟨ce, de⟩ ⟨sent, rx, time⟩) s = .next t ∧
       t = { s with lnk := { s.lnk with port := t.lnk.port }, out := t.out } ∧
       t.lnk.port[p] = { s.lnk.port[p] with
         st := 1, lockLoss := min 255 (s.lnk.port[p].lockLoss + 1), errs := [], txRd := 2,
         codeErr := min 65535 (s.lnk.port[p].codeErr + ce), dispErr := min 255 (s.lnk.port[p].dispErr + de) } ∧
       (∀ q : Fin 50, q ≠ p → t.lnk.port[q].st = s.lnk.port[q].st ∧ t.lnk.port[q].codeErr = s.lnk.port[q].codeErr ∧
         t.lnk.port[q].dispErr = s.lnk.port[q].dispErr ∧ t.lnk.port[q].lockLoss = s.lnk.port[q].lockLoss) ∧
       (p.val < 48 ∨ rx = [] → (∀ q : Fin 50, q ≠ p → t.lnk.port[q] = s.lnk.port[q]) ∧
         t.out = s.out ++ (match sent with
           | some n => [.abort p (s.lnk.port[p].last.take n) (codeFrame s.lnk.port[p].lastRd (s.lnk.port[p].last.take n) ctlABT).1]
           | none => []) ++ [.link p [ctlTS1] [(3 : BitVec 2) ++ ctlTS1]]) ∧
       (48 ≤ p.val → rx ≠ [] → 1 < (rx.getD 0 0).toNat / 16 % 16 → portUp s (97 - p) = true → bypassed s = false →
         ∃ ws cs, Out.abort (97 - p) ws cs ∈ t.out ∧ ws.length = min 7 rx.length))) ∧
  (∀ (s : State),
     (∀ (r : Fin 24) (e : PortEnd) (p : Fin 50), p.val = ringPort r e → ringState s r = 1 → s.lnk.port[p].st = 3 →
       s.lnk.port[p].echoN = 8 → endUp s r (otherEnd e) = true ∨ (ringOf s r).late = true →
       ∃ t, exec (.linkUp p) s = .next t ∧
       t = { s with
         lnk := { s.lnk with port := t.lnk.port }, rng := t.rng, csv := t.csv, hst := t.hst, two := t.two, out := t.out
         free := s.free + 1 } ∧
       ringState t r = 2 ∧ portUp t p = true ∧ (∀ q : Fin 50, q ≠ p → t.lnk.port[q] = s.lnk.port[q]) ∧
       (ringOf t r).nodes = List.replicate 256 {} ∧ (∀ x ∈ t.csv.comb, x.1 / 262144 ≠ r.val) ∧
       (∀ x ∈ s.csv.comb, x.1 / 262144 ≠ r.val → x ∈ t.csv.comb) ∧
       getBit t.hst.r R.HST_IRQ_STAT 5 = true ∧ ∀ q : Fin 24, q ≠ r → ringState t q = ringState s q ∧ ringOf t q = ringOf s q) ∧
     (∀ p : Fin 50, s.lnk.port[p].st = 3 → s.lnk.port[p].echoN = 8 →
       48 ≤ p.val ∨ ringState s (p / 2) ≠ 1 ∨
         ((ringOf s (p / 2)).late = false ∧ ∀ e, p.val ≠ ringPort (p / 2) e → endUp s (p / 2) e = false) →
       ∃ t, exec (.linkUp p) s = .next t ∧ t = { s with lnk := { s.lnk with port := t.lnk.port }, free := s.free + 1 } ∧
         portUp t p = true ∧ t.lnk.port = s.lnk.port.set p { s.lnk.port[p] with
           st := 4, txRd := t.lnk.port[p].txRd, txEnd := 5 * s.tbs.clock, errs := [] }) ∧
     (bypassed s = false → bypassMayOpen s = false → ∃ t, exec .bypassClose s = .next t ∧ t = { s with lnk := t.lnk, out := t.out } ∧
       bypassed t = true ∧ portUp t 48 = false ∧ portUp t 49 = false ∧
       (∀ q : Fin 50, 48 ≤ q.val → t.lnk.port[q].lockLoss =
         if s.lnk.port[q].st = 4 then min 255 (s.lnk.port[q].lockLoss + 1) else s.lnk.port[q].lockLoss) ∧
       (∀ q : Fin 50, q.val < 48 → t.lnk.port[q] = s.lnk.port[q]) ∧ ∀ o, o ≠ R.LNK_STAT → kvGet t.lnk.r o = kvGet s.lnk.r o) ∧
     (bypassed s = true ∨ bypassMayOpen s = true → exec .bypassClose s = .next s) ∧
     (bypassed s = true → bypassMayOpen s = true → ∃ t, exec .bypassOpen s = .next t ∧
       t = { s with lnk := { s.lnk with r := t.lnk.r } } ∧ bypassed t = false ∧
       ∀ o, o ≠ R.LNK_STAT → kvGet t.lnk.r o = kvGet s.lnk.r o) ∧
     (bypassed s = false ∨ bypassMayOpen s = false → exec .bypassOpen s = .next s))

/-- A hive frame that comes in on a hive port that is UP with the bypass open, whole and with no word in error (R227, R237 to
R240), taken by any of the three receive commands. While no request waits for reports: with a wrong CRC it is counted and
used for nothing. With the device's own address it is not used. A follower uses a mark: `hive_delay` becomes the path
delay in whole clocks, rounded up, unless `corr` has saturated, when the mark is not used. A follower that computes takes
the first command with the tag of the stride in progress into queue 1, which has room, and no second one; a command with
another tag, other than a late copy of one taken, sets `late`, counts as stale and sends one event to source 25. While its
request for ARMED waits for reports, those taken being within S − C − 40 clocks, a leader takes the first report of each
follower: a delay over that refuses the request with reason 7, and the last report within that sends it on to the boundary
(R44). HIVE_REPORT_TIMEOUT refuses with reason 7 and cause 1 a request for ARMED that still waits for reports when its
four strides are over, the state unchanged, and otherwise does nothing (R44, R240). (Where the manual leaves a point open
this is the model's reading: log entries 32, 59 and 61.) -/
def Obligations.HiveFrames : Prop :=
  (∀ (port : PortEnd) (f : RxFrame) (s : State) (w : List Half), coreReady s = true → w = rxWords f →
     portUp s (hivePort port) = true → bypassed s = false → rxClean f 8 = true → (rxScan f).errAt = [] →
     ∀ c ∈ [Instr.hiveMarkReceive port f, .hiveCommandReceive port f, .hiveReportReceive port f],
     (crc16 0xFFFF (w.take 7) ≠ w.getD 7 0 → (∀ q, s.sys.req = some q → ∀ n, q.phase ≠ .hive n) →
       ∃ t, exec c s = .next t ∧ t = { s with lnk := t.lnk, out := t.out } ∧
         getF t.lnk.r F.LNK_HIVE_CNT_crc_fail_cnt = min (getF s.lnk.r F.LNK_HIVE_CNT_crc_fail_cnt + 1) 255) ∧
     (crc16 0xFFFF (w.take 7) = w.getD 7 0 → hiveRole s ≠ 0 → (w.getD 0 0).toNat / 256 % 16 = (hiveImg s).hAddr →
       (∀ q, s.sys.req = some q → ∀ n, q.phase ≠ .hive n) →
       ∃ t, exec c s = .next t ∧ t = { s with lnk := { s.lnk with port := t.lnk.port } } ∧
         ∀ q : Fin 50, t.lnk.port[q].st = s.lnk.port[q].st) ∧
     (crc16 0xFFFF (w.take 7) = w.getD 7 0 → hiveRole s = 2 → (w.getD 0 0).toNat / 256 % 16 ≠ (hiveImg s).hAddr →
       (∀ q, s.sys.req = some q → ∀ n, q.phase ≠ .hive n) →
       ((w.getD 0 0).toNat / 8192 ≤ 1 → w.getD 2 0 ≠ 65535 →
         ∃ t, exec c s = .next t ∧ t = { s with tbs := t.tbs, lnk := t.lnk, out := t.out } ∧
           getF t.tbs.r F.TBS_HIVE_STAT_hive_delay =
             min 4095 (((w.getD 2 0).toNat + (portOf s (hivePort port)).seg + 1152 + 4) / 5)) ∧
       ((w.getD 0 0).toNat / 8192 ≤ 1 → w.getD 2 0 = 65535 →
         ∃ t, exec c s = .next t ∧ t = { s with lnk := t.lnk, out := t.out }) ∧
       ((w.getD 0 0).toNat / 4096 = 4 → computing s = true →
         ((w.getD 6 0).toNat % 256 = (strideCnt s + s.lnk.leadOfs) % 256 → s.bus.gotCmd = false → s.bus.q1.length < 4 →
           ∃ t, exec c s = .next t ∧
             t = { s with bus := { s.bus with q1 := t.bus.q1, gotCmd := true }, lnk := t.lnk, out := t.out } ∧
             t.bus.q1 = s.bus.q1 ++ [{ c := w.getD 4 0 ++ w.getD 3 0, v := (w.getD 5 0).toNat, tag := strideTag s }]) ∧
         ((w.getD 6 0).toNat % 256 = (strideCnt s + s.lnk.leadOfs) % 256 → s.bus.gotCmd = true →
           ∃ t, exec c s = .next t ∧ t = { s with lnk := t.lnk, out := t.out }) ∧
         ((w.getD 6 0).toNat % 256 ≠ (strideCnt s + s.lnk.leadOfs) % 256 →
           s.bus.gotPrev = false ∨ (w.getD 6 0).toNat % 256 ≠ ((strideCnt s + s.lnk.leadOfs) % 256 + 255) % 256 →
           ∃ t, exec c s = .next t ∧
             t = { s with
               tbs := { s.tbs with r := t.tbs.r }, lnk := t.lnk, out := t.out, sys := { s.sys with qcnt := t.sys.qcnt }
               flt := postEvent 25 255 255 (strideTag s) s.flt } ∧
             flag t.tbs.r F.TBS_HIVE_STAT_late = true))) ∧
     (crc16 0xFFFF (w.take 7) = w.getD 7 0 → hiveRole s = 1 → (w.getD 0 0).toNat / 256 % 16 ≠ (hiveImg s).hAddr →
       (w.getD 0 0).toNat / 4096 = 6 → ∀ n u d a, a = (w.getD 0 0).toNat / 256 % 16 → d = (w.getD 3 0).toNat % 4096 →
       s.sys.req = some { target := 5, phase := .hive n, woken := u } → n ≠ 0 → (∀ x ∈ s.lnk.reports, x.1 ≠ a) →
       (∀ x ∈ s.lnk.reports, (x.2 : Int) ≤ hiveLimit s) →
       ∃ t, exec c s = .next t ∧ t.lnk.reports = s.lnk.reports ++ [(a, d)] ∧
         ((d : Int) ≤ hiveLimit s → t = { s with sys := { s.sys with req := t.sys.req }, lnk := t.lnk, out := t.out } ∧
           t.sys.req = some {
             target := 5, woken := u, phase := if s.img.str.hSize ≤ s.lnk.reports.length + 2 then .boundary else .hive n }) ∧
         (hiveLimit s < (d : Int) →
           t = { s with
             sys := { s.sys with req := none, r := t.sys.r }, img := { s.img with ready := none }, lnk := t.lnk
             hst := t.hst, two := t.two, out := t.out } ∧
           flag t.sys.r F.SYS_STATE_STAT_refused = true ∧ getF t.sys.r F.SYS_STATE_STAT_reason = 7 ∧ opState t = opState s))) ∧
  (∀ (s : State), coreReady s = true →
     (∀ v w, s.sys.req = some { target := v, phase := .hive 0, woken := w } → ∃ t, exec .hiveReportTimeout s = .next t ∧
       t = { s with
         sys := { s.sys with req := none, r := t.sys.r }, img := { s.img with ready := none }
         hst := t.hst, two := t.two, out := t.out } ∧
       flag t.sys.r F.SYS_STATE_STAT_refused = true ∧ getF t.sys.r F.SYS_STATE_STAT_reason = 7 ∧ opState t = opState s ∧
       (∀ o, o ≠ R.SYS_STATE_STAT → kvGet t.sys.r o = kvGet s.sys.r o) ∧ getBit t.hst.r R.HST_IRQ_STAT 1 = true) ∧
     ((∀ v w, s.sys.req ≠ some { target := v, phase := .hive 0, woken := w }) → exec .hiveReportTimeout s = .next s))

/-! ## Rings -/

/-- The host's ring commands. In LOADED, ENUMERATE of a ring in READY or FAILED puts it in ENUM with blank node records, its
mismatch bit and its comb points gone, and PROBE_AGAIN of a READY ring puts it in PROBE with its nodes and a probe for
each end that reaches one; both set cause 5 (R256, R261, R304). While a ring sends data batons, SLEEP_BROADCAST and
WAKE_BROADCAST queue one broadcast of type 0x03 or 0x04, with no reply, behind what waits at each port that is UP (R275).
A command that the state does not allow is refused with `cmd_refused` and cause 5 and changes no other register of the
block. No command changes another ring. MAILBOX_SEND (R265), n being the length its words give. While a message is busy it
does nothing. To a ring that is not READY, or that does not exist, the message fails with `err` 3; of a type 1 to 5, or
longer than 32 words, with `err` 4; to a node that no end serves, with `err` 2; each with cause 5. Else it is busy: a
unicast message waits at the end that serves its node and at no other, a broadcast at every end whose port is UP, with the
words of `RNG_WAG_TXn`; no other ring changes. (Where the manual leaves a point open this is the model's reading: log
entry 66.) -/
def Obligations.RingCommands : Prop :=
  (∀ (p : Path) (r : Fin 24) (s : State), coreReady s = true →
     (opState s = 4 → ringState s r = 6 ∨ ringState s r = 7 → ∃ t, exec (.enumerate p r) s = .next t ∧
       t = { s with rng := t.rng, csv := t.csv, hst := t.hst, two := t.two, out := t.out } ∧ ringState t r = 2 ∧
       (ringOf t r).nodes = List.replicate 256 {} ∧ getBit t.rng.r R.RNG_MISMATCH r = false ∧ (∀ x ∈ t.csv.comb, x.1 / 262144 ≠ r.val) ∧
       getBit t.hst.r R.HST_IRQ_STAT 5 = true ∧ ∀ q : Fin 24, q ≠ r → ringState t q = ringState s q ∧ ringOf t q = ringOf s q) ∧
     (opState s = 4 → ringState s r = 6 → ∃ t, exec (.probeAgain p r) s = .next t ∧
       t = { s with rng := t.rng, csv := t.csv, hst := t.hst, two := t.two, out := t.out } ∧ ringState t r = 4 ∧
       (ringOf t r).nodes = (ringOf s r).nodes ∧ (ringOf t r).probes = probeList (ringOf s r) ∧ (ringOf t r).probeOut = none ∧
       getBit t.hst.r R.HST_IRQ_STAT 5 = true ∧ ∀ q : Fin 24, q ≠ r → ringState t q = ringState s q ∧ ringOf t q = ringOf s q) ∧
     (∀ tc ∈ [(0x03, Instr.sleepBroadcast p r), (0x04, .wakeBroadcast p r)], sendsData s r = true →
       ∃ t, exec tc.2 s = .next t ∧ t = { s with rng := { s.rng with ring := t.rng.ring } } ∧
         (∀ e, endUp s r e = true → ∃ m, endOf (ringOf t r) e = { endOf (ringOf s r) e with todo := (endOf (ringOf s r) e).todo ++ [m] } ∧
           wagType m.words = tc.1 ∧ wagBcast m.words = true ∧ m.reply = false) ∧
         (∀ e, endUp s r e = false → endOf (ringOf t r) e = endOf (ringOf s r) e) ∧
         ∀ q : Fin 24, q ≠ r → ringOf t q = ringOf s q) ∧
     (∀ c, (c = Instr.enumerate p r ∧ ¬(opState s = 4 ∧ (ringState s r = 6 ∨ ringState s r = 7))) ∨
         (c = .probeAgain p r ∧ ¬(opState s = 4 ∧ ringState s r = 6)) ∨
         ((c = .sleepBroadcast p r ∨ c = .wakeBroadcast p r) ∧ sendsData s r = false) →
       ∃ t, exec c s = .next t ∧ t = { s with rng := { s.rng with r := t.rng.r }, hst := t.hst, two := t.two, out := t.out } ∧
         flag t.rng.r F.RNG_STAT_cmd_refused = true ∧ getBit t.hst.r R.HST_IRQ_STAT 5 = true ∧
         ∀ o, o ≠ R.RNG_STAT → kvGet t.rng.r o = kvGet s.rng.r o)) ∧
  (∀ (p : Path) (s : State) (w : Nat → Half) (n : Nat), coreReady s = true →
     (∀ i, w i = (kvGet s.rng.r (R.RNG_WAG_TXn (i / 2))).extractLsb' (16 * (i % 2)) 16) → n = (w 1).toNat % 64 →
     (flag s.rng.r F.RNG_WAG_CTL_busy = true → exec (.mailboxSend p) s = .next s) ∧
     (flag s.rng.r F.RNG_WAG_CTL_busy = false →
       (∀ err, (err = 3 ∧ ∀ r : Fin 24, r.val = getF s.rng.r F.RNG_WAG_CTL_ring → ringState s r ≠ 6) ∨
           (err = 4 ∧ (∃ r : Fin 24, r.val = getF s.rng.r F.RNG_WAG_CTL_ring ∧ ringState s r = 6) ∧
             ((1 ≤ (w 0).toNat / 256 ∧ (w 0).toNat / 256 ≤ 5) ∨ 32 < n)) ∨
           (err = 2 ∧ (∃ r : Fin 24, r.val = getF s.rng.r F.RNG_WAG_CTL_ring ∧ ringState s r = 6 ∧
               (nodeAt (ringOf s r) ((w 0).toNat % 256)).serve = none) ∧
             ((w 0).toNat / 256 = 0 ∨ 5 < (w 0).toNat / 256) ∧ n ≤ 32 ∧ (w 1).getLsbD 15 = false) →
         ∃ t, exec (.mailboxSend p) s = .next t ∧
           t = { s with rng := { s.rng with r := t.rng.r }, hst := t.hst, two := t.two, out := t.out } ∧
           flag t.rng.r F.RNG_WAG_CTL_failed = true ∧ getF t.rng.r F.RNG_WAG_CTL_err = err ∧ flag t.rng.r F.RNG_WAG_CTL_busy = false ∧
           (∀ o, o ≠ R.RNG_WAG_CTL → kvGet t.rng.r o = kvGet s.rng.r o) ∧ getBit t.hst.r R.HST_IRQ_STAT 5 = true) ∧
       (∀ r : Fin 24, r.val = getF s.rng.r F.RNG_WAG_CTL_ring → ringState s r = 6 → n ≤ 32 →
         (w 0).toNat / 256 = 0 ∨ 5 < (w 0).toNat / 256 →
         ((w 1).getLsbD 15 = false → (nodeAt (ringOf s r) ((w 0).toNat % 256)).serve ≠ none) →
         ∃ t m, exec (.mailboxSend p) s = .next t ∧ t = { s with rng := t.rng } ∧ flag t.rng.r F.RNG_WAG_CTL_busy = true ∧
           (∀ o, o ≠ R.RNG_WAG_CTL → kvGet t.rng.r o = kvGet s.rng.r o) ∧
           m.words = (List.range (n + 2)).map w ∧ m.use = .mailbox ∧ (∀ q : Fin 24, q ≠ r → ringOf t q = ringOf s q) ∧
           ∀ e, endOf (ringOf t r) e =
             if (w 1).getLsbD 15 = true ∧ endUp s r e = true ∨
                 (w 1).getLsbD 15 = false ∧ (nodeAt (ringOf s r) ((w 0).toNat % 256)).serve = some e
             then { endOf (ringOf s r) e with box := some m } else endOf (ringOf s r) e)))

/-- What time and evidence do to a ring. RING_TRAIN_TIMEOUT in TRAIN lets one port suffice: with a port UP the ring enters
ENUM, with none the ring waits for one (R256). ENUMERATION_TIMEOUT of a pass that is not back 4 strides after its `EOF`
left fails the attempt and blanks the node records; the fourth failure puts the ring in FAILED with one event to source
11; earlier, and with no pass out, it does nothing (R259). RING_SPLIT marks a whole ring split on one end's confirmed
evidence, and RING_WHOLE a split ring whole on both ends', all its claimed nodes then reached from both ends; without that
evidence neither does anything (R271). NODE_SILENT marks a served node of a READY ring that went `sil_laps` laps without
an acknowledged sweep grant, with one event to source 14 naming it (R273). LIMITS_REBROADCAST of a READY ring, 64 laps
after the last, queues LIMITS of every limit set in use at each port that is UP, and else does nothing (R281). No other
ring changes. -/
def Obligations.RingEvents : Prop :=
  ∀ (r : Fin 24) (s : State),
    (ringState s r = 1 → endUp s r .a = false → endUp s r .b = false → ∃ t, exec (.ringTrainTimeout r) s = .next t ∧
      t = { s with rng := { s.rng with ring := t.rng.ring } } ∧ ringOf t r = { ringOf s r with late := true } ∧
      ∀ q : Fin 24, q ≠ r → ringOf t q = ringOf s q) ∧
    (ringState s r = 1 → endUp s r .a = true ∨ endUp s r .b = true → ∃ t, exec (.ringTrainTimeout r) s = .next t ∧
      t = { s with rng := t.rng, csv := t.csv, hst := t.hst, two := t.two, out := t.out } ∧ ringState t r = 2 ∧
      ∀ q : Fin 24, q ≠ r → ringOf t q = ringOf s q ∧ ringState t q = ringState s q) ∧
    (ringState s r ≠ 1 → exec (.ringTrainTimeout r) s = .next s) ∧
    (ringState s r = 2 → (ringOf s r).passOut ≠ none → (ringOf s r).passLen + 4 ≤ strideAge s (ringOf s r).passAt →
      ((ringOf s r).fails < 3 → ∃ t, exec (.enumerationTimeout r) s = .next t ∧ t = { s with rng := { s.rng with ring := t.rng.ring } } ∧
        ringOf t r = { ringOf s r with
          fails := (ringOf s r).fails + 1, passOut := none, passNext := none, nodes := List.replicate 256 {} } ∧
        ∀ q : Fin 24, q ≠ r → ringOf t q = ringOf s q) ∧
      ((ringOf s r).fails = 3 → ∃ t, exec (.enumerationTimeout r) s = .next t ∧
        t = { s with rng := t.rng, hst := t.hst, two := t.two, out := t.out, flt := postEvent 11 r 255 (strideTag s) s.flt } ∧
        ringState t r = 7 ∧ (ringOf t r).nodes = List.replicate 256 {} ∧ getBit t.hst.r R.HST_IRQ_STAT 5 = true ∧
        ∀ q : Fin 24, q ≠ r → ringOf t q = ringOf s q ∧ ringState t q = ringState s q)) ∧
    (ringState s r ≠ 2 ∨ (ringOf s r).passOut = none ∨ strideAge s (ringOf s r).passAt < (ringOf s r).passLen + 4 →
      exec (.enumerationTimeout r) s = .next s) ∧
    (sendsData s r = true → (ringOf s r).split = false →
      getF s.rng.r F.RNG_CFG_brk_confirm ≤ (ringOf s r).a.splitRun ∨ getF s.rng.r F.RNG_CFG_brk_confirm ≤ (ringOf s r).b.splitRun →
      ∃ t, exec (.ringSplit r) s = .next t ∧ t = { s with rng := t.rng, flt := t.flt } ∧ (ringOf t r).split = true ∧
        getBit t.rng.r R.RNG_SPLIT r = true ∧ (∀ o, o ≠ R.RNG_SPLIT → kvGet t.rng.r o = kvGet s.rng.r o) ∧
        ∀ q : Fin 24, q ≠ r → ringOf t q = ringOf s q) ∧
    (sendsData s r = false ∨ (ringOf s r).split = true ∨ ((ringOf s r).a.splitRun < getF s.rng.r F.RNG_CFG_brk_confirm ∧
      (ringOf s r).b.splitRun < getF s.rng.r F.RNG_CFG_brk_confirm) → exec (.ringSplit r) s = .next s) ∧
    (sendsData s r = true → (ringOf s r).split = true →
      getF s.rng.r F.RNG_CFG_brk_confirm ≤ (ringOf s r).a.wholeRun → getF s.rng.r F.RNG_CFG_brk_confirm ≤ (ringOf s r).b.wholeRun →
      ∃ t, exec (.ringWhole r) s = .next t ∧ t = { s with rng := t.rng } ∧ (ringOf t r).split = false ∧
        getBit t.rng.r R.RNG_SPLIT r = false ∧ (∀ o, o ≠ R.RNG_SPLIT → kvGet t.rng.r o = kvGet s.rng.r o) ∧
        (∀ a < (ringOf s r).nodes.length, (nodeAt (ringOf s r) a).claimed = true →
          (nodeAt (ringOf t r) a).reachA = true ∧ (nodeAt (ringOf t r) a).reachB = true) ∧
        ∀ q : Fin 24, q ≠ r → ringOf t q = ringOf s q) ∧
    (sendsData s r = false ∨ (ringOf s r).split = false ∨ (ringOf s r).a.wholeRun < getF s.rng.r F.RNG_CFG_brk_confirm ∨
      (ringOf s r).b.wholeRun < getF s.rng.r F.RNG_CFG_brk_confirm → exec (.ringWhole r) s = .next s) ∧
    (∀ a : Fin 256,
      (ringState s r = 6 → (nodeAt (ringOf s r) a).claimed = true → (nodeAt (ringOf s r) a).serve ≠ none →
        (nodeAt (ringOf s r) a).silent = false → getF s.rng.r F.RNG_CFG_sil_laps ≤ (nodeAt (ringOf s r) a).noAck →
        ∃ t, exec (.nodeSilent r a) s = .next t ∧
          t = { s with rng := { s.rng with ring := t.rng.ring }, flt := postEvent 14 r a (strideTag s) s.flt } ∧
          nodeAt (ringOf t r) a = { nodeAt (ringOf s r) a with silent := true } ∧
          (∀ b, b ≠ a.val → nodeAt (ringOf t r) b = nodeAt (ringOf s r) b) ∧ ∀ q : Fin 24, q ≠ r → ringOf t q = ringOf s q) ∧
      (ringState s r ≠ 6 ∨ (nodeAt (ringOf s r) a).claimed = false ∨ (nodeAt (ringOf s r) a).serve = none ∨
        (nodeAt (ringOf s r) a).silent = true ∨ (nodeAt (ringOf s r) a).noAck < getF s.rng.r F.RNG_CFG_sil_laps →
        exec (.nodeSilent r a) s = .next s)) ∧
    (ringState s r = 6 → 64 ≤ (ringOf s r).limLaps → ∃ t, exec (.limitsRebroadcast r) s = .next t ∧
      t = { s with rng := { s.rng with ring := t.rng.ring } } ∧ (ringOf t r).limLaps = 0 ∧
      (∀ e, endUp s r e = true → ∃ ms, endOf (ringOf t r) e = { endOf (ringOf s r) e with todo := (endOf (ringOf s r) e).todo ++ ms } ∧
        ms.map (fun m => (wagType m.words, (m.words.getD 2 0).toNat)) = (ringSets s r).map (fun i => (0x11, i % 65536))) ∧
      ∀ q : Fin 24, q ≠ r → ringOf t q = ringOf s q) ∧
    (ringState s r ≠ 6 ∨ (ringOf s r).limLaps < 64 → exec (.limitsRebroadcast r) s = .next s)

/-- The waggle (R264 to R267); u is the state ahead of the steps that move a ring on when its messages are through and end a
campaign that is stopping: on a READY ring with no LIMITS due, and with no campaign stopping, these change nothing.
WAGGLE_SEND_COMPLETE of a message whose last bit has left frees the downlink; one that calls for a reply is then awaited;
one of the mailbox that calls for none and is left nowhere else ends it with `done`; before the last bit it does nothing.
WAGGLE_REPLY_TIMEOUT after 64 strides without a first bit ends the wait: with fewer than three tries the request waits
again, in front at the end through which it is to leave, and after the third a message of the mailbox fails, with `err` 1
where all three replies were bad and else 2, and a balancing command is refused with reason 3; before that it does
nothing. WAGGLE_ACK, WAGGLE_DESC and WAGGLE_UPLINK_OTHER each take a message of their kind: one of another node is dropped
and the wait goes on; the usable reply of the node asked ends the wait, fills `RNG_WAG_RXn` and sets `reply` and `done`
for the mailbox, gives the node its descriptor (DESC), and completes or refuses, with reason 2, a balancing command (ACK).
No other ring changes. (Where the manual leaves a point open this is the model's reading: log entry 65.) -/
def Obligations.WaggleMessages : Prop :=
  ∀ (r : Fin 24) (e : PortEnd) (m : WagMsg) (ws : List Half) (s : State),
    (∀ u : State, ringState u r = 6 → (ringOf u r).limDue = false → ringAdvance r u = u) ∧
    (∀ u : State, (∀ c, u.spx.camp = some c → c.phase ≠ .stopping) → stopDone u = u) ∧
    ((endOf (ringOf s r) e).cur = some (m, ws) →
      ((endOf (ringOf s r) e).bit < 16 * ws.length → exec (.waggleSendComplete r e) s = .next (stopDone s)) ∧
      (16 * ws.length ≤ (endOf (ringOf s r) e).bit → ∃ u, exec (.waggleSendComplete r e) s = .next (stopDone (ringAdvance r u)) ∧
        u = { s with rng := u.rng, csv := u.csv, hst := u.hst, two := u.two, out := u.out } ∧
        (m.use = .ring → u = { s with rng := { s.rng with ring := u.rng.ring } }) ∧ ringState u r = ringState s r ∧
        endOf (ringOf u r) e = { endOf (ringOf s r) e with
          cur := none, bit := 0, await := if m.reply then some m else (endOf (ringOf s r) e).await
          wait := if m.reply then 0 else (endOf (ringOf s r) e).wait, divs := (endOf (ringOf u r) e).divs } ∧
        (m.use = .mailbox → m.reply = false → (endOf (ringOf s r) (otherEnd e)).box = none →
          (endOf (ringOf s r) (otherEnd e)).cur = none → (endOf (ringOf s r) e).box = none →
          (∀ x ∈ (ringOf s r).a.todo ++ (ringOf s r).b.todo, x.use ≠ .mailbox) →
          flag u.rng.r F.RNG_WAG_CTL_done = true ∧ flag u.rng.r F.RNG_WAG_CTL_busy = false ∧ getBit u.hst.r R.HST_IRQ_STAT 5 = true) ∧
        endOf (ringOf u r) (otherEnd e) = endOf (ringOf s r) (otherEnd e) ∧ ∀ q : Fin 24, q ≠ r → ringOf u q = ringOf s q)) ∧
    ((endOf (ringOf s r) e).await = some m → (endOf (ringOf s r) e).inbox ≠ none ∨ (endOf (ringOf s r) e).rx ≠ none ∨
      (endOf (ringOf s r) e).wait < 64 → exec (.waggleReplyTimeout r e) s = .next s) ∧
    ((endOf (ringOf s r) e).await = some m → (endOf (ringOf s r) e).inbox = none → (endOf (ringOf s r) e).rx = none →
      64 ≤ (endOf (ringOf s r) e).wait → ∃ u, exec (.waggleReplyTimeout r e) s = .next (ringAdvance r u) ∧
      u = { s with rng := u.rng, csv := u.csv, hst := u.hst, two := u.two, out := u.out } ∧
      (endOf (ringOf u r) e).await = none ∧ (∀ q : Fin 24, q ≠ r → ringOf u q = ringOf s q) ∧
      (m.tries < 3 → u = { s with rng := { s.rng with ring := u.rng.ring } } ∧
        (m.use = .mailbox → (endOf (ringOf u r) (msgEnd (ringOf s r) e m)).box = some m) ∧
        (m.use ≠ .mailbox → (endOf (ringOf u r) (msgEnd (ringOf s r) e m)).todo =
          m :: (endOf (ringOf s r) (msgEnd (ringOf s r) e m)).todo)) ∧
      (3 ≤ m.tries → m.use = .mailbox → flag u.rng.r F.RNG_WAG_CTL_failed = true ∧ flag u.rng.r F.RNG_WAG_CTL_busy = false ∧
        getF u.rng.r F.RNG_WAG_CTL_err = (if m.crcs = 3 then 1 else 2)) ∧
      (3 ≤ m.tries → m.use = .bal → u.csv.bal = none ∧ flag u.csv.r F.CSV_BAL_STAT_refused = true ∧
        getF u.csv.r F.CSV_BAL_STAT_reason = 3)) ∧
    (∀ c, (c = Instr.waggleAck r e ∧ wagType ws = 0x81) ∨ (c = .waggleDesc r e ∧ wagType ws = 0x82) ∨
        (c = .waggleUplinkOther r e ∧ wagType ws ≠ 0x81 ∧ wagType ws ≠ 0x82) →
      (endOf (ringOf s r) e).await = some m → (endOf (ringOf s r) e).inbox = some ws →
      (wagNode ws ≠ wagNode m.words → ∃ t, exec c s = .next t ∧ t = { s with rng := { s.rng with ring := t.rng.ring } } ∧
        endOf (ringOf t r) e = { endOf (ringOf s r) e with inbox := none } ∧
        endOf (ringOf t r) (otherEnd e) = endOf (ringOf s r) (otherEnd e) ∧ (ringOf t r).nodes = (ringOf s r).nodes ∧
        ∀ q : Fin 24, q ≠ r → ringOf t q = ringOf s q) ∧
      (wagNode ws = wagNode m.words → m.use = .mailbox → ∃ u, exec c s = .next (ringAdvance r u) ∧
        u = { s with rng := u.rng, hst := u.hst, two := u.two, out := u.out } ∧
        (endOf (ringOf u r) e).await = none ∧ (endOf (ringOf u r) e).inbox = none ∧ flag u.rng.r F.RNG_WAG_CTL_reply = true ∧
        flag u.rng.r F.RNG_WAG_CTL_done = true ∧ flag u.rng.r F.RNG_WAG_CTL_busy = false ∧
        (∀ n < 17, kvGet u.rng.r (R.RNG_WAG_RXn n) = ws.getD (2 * n + 1) 0 ++ ws.getD (2 * n) 0) ∧
        getBit u.hst.r R.HST_IRQ_STAT 5 = true ∧ ∀ q : Fin 24, q ≠ r → ringOf u q = ringOf s q) ∧
      (wagNode ws = wagNode m.words → m.use = .ring → wagType m.words = 2 → c = .waggleDesc r e → wagLen ws = 16 →
        wagNode m.words < (ringOf s r).nodes.length → ∃ u, exec c s = .next (ringAdvance r u) ∧
        u = { s with rng := { s.rng with ring := u.rng.ring } } ∧
        nodeAt (ringOf u r) (wagNode m.words) =
          { nodeAt (ringOf s r) (wagNode m.words) with desc := some (descBits (ws.drop 2)) } ∧
        (∀ a, a ≠ wagNode m.words → nodeAt (ringOf u r) a = nodeAt (ringOf s r) a) ∧ (endOf (ringOf u r) e).await = none ∧
        ∀ q : Fin 24, q ≠ r → ringOf u q = ringOf s q) ∧
      (wagNode ws = wagNode m.words → m.use = .bal → wagType m.words ≠ 2 → c = .waggleAck r e →
        (ws.getD 2 0).toNat / 256 = wagType m.words → ∃ u, exec c s = .next (ringAdvance r u) ∧
        u = { s with rng := { s.rng with ring := u.rng.ring }, csv := u.csv, hst := u.hst, two := u.two, out := u.out } ∧
        (endOf (ringOf u r) e).await = none ∧ u.csv.bal = none ∧ (∀ q : Fin 24, q ≠ r → ringOf u q = ringOf s q) ∧
        ((ws.getD 2 0).toNat % 256 = 0 → s.csv.bal ≠ none → flag u.csv.r F.CSV_BAL_STAT_done = true) ∧
        ((ws.getD 2 0).toNat % 256 ≠ 0 → flag u.csv.r F.CSV_BAL_STAT_refused = true ∧ getF u.csv.r F.CSV_BAL_STAT_reason = 2 ∧
          u.csv.comb = s.csv.comb)))

/-- Data batons (R196, R248, R249). BATON_ARRIVAL of a baton of end e that passes its check, in order and with no word in
error, whose launch is the only one on the way and asked for no uplink bit, takes it off the way. With no alarm and one
grant: a filled sweep run's words go to queue 4, and a filled stream or phasor run's to queue 5, with the node and the
baton's stride tag; an empty sweep grant waits at the end that serves its node. With no grant and the `hard` alarm bit,
the ring latch is set in every phase of the ring's bank and `hard` is shown. A baton that fails its check counts in
`hdr_err_cnt` with one event to source 9, and the oldest launch of the end it is expected from is given up. BATON_LOST of
an end's oldest launch, 4 strides old, counts in `lost_cnt` and gives it up; before that it does nothing. No other ring
changes. Enumeration and probes (R257, R259, R261), for frames with no word in error. ENUMERATION_RETURN of the pass from
port A that came round, with its epoch and no node beyond the last address, claims the node of each claim word with its
cell count and leaves every other node as it was, and the pass from port B is next; of the pass from port B the ring
enters DESC, with cause 5, and shows the number of claimed nodes. One that fails its check fails the attempt, counts in
`hdr_err_cnt` and sends one event to source 9. PROBE_RETURN of the probe that is out, back at its own port, sets the
node's delay from that end and no other; a probe that fails its check, or that BATON_LOST reports in PROBE, is sent again
first. No other ring changes. (Where the manual leaves a point open this is the model's reading: log entries 63, 64 and
69.) -/
def Obligations.BatonsReturn : Prop :=
  (∀ (r : Fin 24) (port : PortEnd) (f : RxFrame) (s : State) (w : List Half), w = rxWords f →
     (strides s = true → endUp s r port = true → sendsData s r = true →
       (∀ (e : PortEnd) (l : Launch), batonOk f = true → (rxScan f).errAt = [] →
         (w.getD 0 0).toNat / 8192 = endBit e → (w.getD 2 0).getLsbD 15 = (port == e) → (ringOf s r).split = false →
         (endOf (ringOf s r) e).fly = [l] → l.stride % 256 = (w.getD 0 0).toNat % 256 → l.wagEn = false →
         (∀ g ack, w.getD 3 0 = 0 → l.grants = [g] → acksOf w = [ack] → g.kind ≤ 2 → g.len = 2 * (nodeAt (ringOf s r) g.node).cells ∨ g.kind ≠ 1 →
           ∃ t, exec (.batonArrival r port f) s = .next t ∧
           t = { s with lnk := { s.lnk with port := t.lnk.port }, rng := t.rng, spx := t.spx } ∧
           (endOf (ringOf t r) e).fly = [] ∧ (∀ q : Fin 24, q ≠ r → ringOf t q = ringOf s q) ∧ (s.spx.camp = none → t.spx = s.spx) ∧
           (ack = false ∨ g.kind = 1 → (ringOf t r).q4 = (ringOf s r).q4) ∧ (ack = false ∨ g.kind ≠ 1 → (ringOf t r).q5 = (ringOf s r).q5) ∧
           (ack = true → ∃ ws : List RingWord, ws.map (·.val) = (w.drop 7).take g.len ∧
             (∀ x ∈ ws, x.node = g.node ∧ x.tag = (w.getD 0 0).toNat % 256) ∧
             (g.kind = 1 → (ringOf t r).q5 = (ringOf s r).q5 ++ ws) ∧ (g.kind ≠ 1 → (ringOf t r).q4 = (ringOf s r).q4 ++ ws)) ∧
           (ack = false → g.kind = 0 → g ∈ (endOf (ringOf t r) ((nodeAt (ringOf s r) g.node).serve.getD e)).carried)) ∧
         ((w.getD 3 0).getLsbD 15 = true → l.grants = [] → ∃ t, exec (.batonArrival r port f) s = .next t ∧
           t = { s with
             lnk := { s.lnk with port := t.lnk.port }, rng := t.rng, pwm := { s.pwm with ph := t.pwm.ph }, flt := t.flt, spx := t.spx
             acq := { s.acq with strs := t.acq.strs }, hst := t.hst, two := t.two, out := t.out } ∧
           (endOf (ringOf t r) e).fly = [] ∧ flag t.rng.r (F.RNG_RINGr_ALM_hard r) = true ∧
           (∀ b, ringBank s.img.str r = some b → ∀ x : Fin 48, x.val ∈ bankPhases s.img.str b →
             t.pwm.ph[x].ring = true ∧ tripped t.pwm.ph[x] = true) ∧
           (∀ x : Fin 48, (∀ b, ringBank s.img.str r = some b → x.val ∉ bankPhases s.img.str b) → t.pwm.ph[x] = s.pwm.ph[x]) ∧
           ∀ q : Fin 24, q ≠ r → ringOf t q = ringOf s q)) ∧
       (batonOk f = false → ∃ t, exec (.batonArrival r port f) s = .next t ∧
         t = { s with lnk := { s.lnk with port := t.lnk.port }, rng := t.rng, spx := t.spx, flt := t.flt, out := t.out } ∧
         (endOf (ringOf t r) (expectedEnd (ringOf s r) port)).fly = (endOf (ringOf s r) (expectedEnd (ringOf s r) port)).fly.tail ∧
         getF t.rng.r (F.RNG_RINGr_CNT_hdr_err_cnt r) =
           min (getF s.rng.r (F.RNG_RINGr_CNT_hdr_err_cnt r) + 1) (2 ^ (F.RNG_RINGr_CNT_hdr_err_cnt r).width - 1) ∧
         ((endOf (ringOf s r) (expectedEnd (ringOf s r) port)).rx = none → t.flt = postEvent 9 r (endBit port) (strideTag s) s.flt) ∧
         ∀ q : Fin 24, q ≠ r → ringOf t q = ringOf s q)) ∧
     (ringState s r ≠ 4 → (∀ l ∈ (endOf (ringOf s r) port).fly.head?, strideAge s l.stride < 4) → exec (.batonLost r port) s = .next s) ∧
     (∀ (l : Launch) (rest : List Launch), ringState s r ≠ 4 → (endOf (ringOf s r) port).fly = l :: rest → 4 ≤ strideAge s l.stride →
       ∃ t, exec (.batonLost r port) s = .next t ∧ t = { s with rng := t.rng, spx := t.spx, flt := t.flt } ∧
       (endOf (ringOf t r) port).fly = rest ∧
       getF t.rng.r (F.RNG_RINGr_CNT_lost_cnt r) = min (getF s.rng.r (F.RNG_RINGr_CNT_lost_cnt r) + 1) (2 ^ (F.RNG_RINGr_CNT_lost_cnt r).width - 1) ∧
       ((ringOf s r).split = false → (endOf (ringOf s r) port).rx = none → t.flt = s.flt) ∧
       ∀ q : Fin 24, q ≠ r → ringOf t q = ringOf s q)) ∧
  (∀ (r : Fin 24) (port : PortEnd) (f : RxFrame) (s : State) (w : List Half), w = rxWords f →
     (ringState s r = 2 → endUp s r port = true → (ringOf s r).passOut = some port → (rxScan f).errAt = [] →
       (batonOk f = true → (w.getD 0 0).toNat / 8192 = 2 + endBit port → (w.getD 2 0).getLsbD 15 = true →
         (w.getD 1 0).toNat / 256 = (ringOf s r).epoch → (w.getD 262 0).getLsbD 15 = false → (ringOf s r).nodes.length = 256 →
         (port = .a → endUp s r .b = true → ∃ t, exec (.enumerationReturn r port f) s = .next t ∧
           t = { s with lnk := { s.lnk with port := t.lnk.port }, rng := { s.rng with ring := t.rng.ring } } ∧
           (ringOf t r).passOut = none ∧ (ringOf t r).passNext = some .b ∧ (∀ q : Fin 24, q ≠ r → ringOf t q = ringOf s q) ∧
           (∀ i < 256, (w.getD (6 + i) 0).getLsbD 15 = true → (nodeAt (ringOf t r) i).claimed = true ∧
             (nodeAt (ringOf t r) i).cells = (w.getD (6 + i) 0).toNat / 256 % 16 + 1 ∧ (nodeAt (ringOf t r) i).reachA = true ∧
             (nodeAt (ringOf t r) i).claim = .a) ∧
           ∀ i < 256, (w.getD (6 + i) 0).getLsbD 15 = false → nodeAt (ringOf t r) i = nodeAt (ringOf s r) i) ∧
         (port = .b → ∃ t, exec (.enumerationReturn r port f) s = .next t ∧
           t = { s with lnk := { s.lnk with port := t.lnk.port }, rng := t.rng, hst := t.hst, two := t.two, out := t.out } ∧
           ringState t r = 3 ∧ getF t.rng.r (F.RNG_RINGr_STAT_count r) = (claimedNodes (ringOf t r)).length % 2 ^ (F.RNG_RINGr_STAT_count r).width ∧
           getBit t.hst.r R.HST_IRQ_STAT 5 = true ∧ ∀ q : Fin 24, q ≠ r → ringOf t q = ringOf s q ∧ ringState t q = ringState s q)) ∧
       (batonOk f = false → (ringOf s r).fails < 3 → ∃ t, exec (.enumerationReturn r port f) s = .next t ∧
         t = { s with
           lnk := { s.lnk with port := t.lnk.port }, rng := t.rng, flt := postEvent 9 r (endBit port) (strideTag s) s.flt, out := t.out } ∧
         ringOf t r = { ringOf s r with
           fails := (ringOf s r).fails + 1, passOut := none, passNext := none, nodes := List.replicate 256 {} } ∧
         getF t.rng.r (F.RNG_RINGr_CNT_hdr_err_cnt r) =
           min (getF s.rng.r (F.RNG_RINGr_CNT_hdr_err_cnt r) + 1) (2 ^ (F.RNG_RINGr_CNT_hdr_err_cnt r).width - 1) ∧
         ∀ q : Fin 24, q ≠ r → ringOf t q = ringOf s q)) ∧
     (∀ a, ringState s r = 4 → endUp s r port = true → (ringOf s r).probeOut = some (port, a) → (rxScan f).errAt = [] →
       (a < (ringOf s r).nodes.length → (ringOf s r).probes ≠ [] → rxClean f 5 = true → crc16 0xFFFF (w.take 4) = w.getD 4 0 →
         (w.getD 0 0).toNat / 8192 = 4 + endBit port → (w.getD 2 0).getLsbD 15 = true → (w.getD 1 0).toNat / 256 = a →
         ∃ t, exec (.probeReturn r port f) s = .next t ∧
         t = { s with lnk := { s.lnk with port := t.lnk.port }, rng := { s.rng with ring := t.rng.ring } } ∧
         (ringOf t r).probeOut = none ∧ (ringOf t r).probes = (ringOf s r).probes ∧
         nodeAt (ringOf t r) a = (match port with
           | .a => { nodeAt (ringOf s r) a with dA := probeDelay (ringOf s r) (ringRec s r).nodes .a a f.time (w.getD 3 0).toNat }
           | .b => { nodeAt (ringOf s r) a with dB := probeDelay (ringOf s r) (ringRec s r).nodes .b a f.time (w.getD 3 0).toNat }) ∧
         (∀ b, b ≠ a → nodeAt (ringOf t r) b = nodeAt (ringOf s r) b) ∧ ∀ q : Fin 24, q ≠ r → ringOf t q = ringOf s q) ∧
       (rxClean f 5 = false ∨ crc16 0xFFFF (w.take 4) ≠ w.getD 4 0 → ∃ t, exec (.probeReturn r port f) s = .next t ∧
         t = { s with lnk := { s.lnk with port := t.lnk.port }, rng := { s.rng with ring := t.rng.ring }, out := t.out } ∧
         ringOf t r = { ringOf s r with probes := (port, a) :: (ringOf s r).probes, probeOut := none } ∧
         ∀ q : Fin 24, q ≠ r → ringOf t q = ringOf s q)) ∧
     (∀ a, ringState s r = 4 → (ringOf s r).probeOut = some (port, a) → ∃ t, exec (.batonLost r port) s = .next t ∧
       t = { s with rng := { s.rng with ring := t.rng.ring } } ∧
       ringOf t r = { ringOf s r with probes := (port, a) :: (ringOf s r).probes, probeOut := none } ∧
       ∀ q : Fin 24, q ≠ r → ringOf t q = ringOf s q))

/-! ## Cells -/

/-- SWEEP_RUN_CHECK of a sweep run at the head of queue 4, of a node of the ring in RINGMAP with at most 12 cells (R289, R294,
R301, R302): the run leaves the queue and the node's points hold its cell voltages, its stack voltage, reference,
temperature and status word; bit 0 of point 872 says whether the sum of the cells lies beyond `sum_tol` of the stack, bits
12 and 13 of each cell's point +4 whether it is beyond a soft and a hard limit, and point 873 shows the lap of the run:
the lap in progress or, for a run that came in after its boundary, the one before. No point of another node and no other
ring's controller changes. With no sweep run at the head it does nothing. HEADROOM_DEADLINE in stride L − 2 of a used bank
whose ring has not delivered, none of whose figures wait in queue 7, sends both figures with the lap and `valid` 0, and a
second time in the lap, or in another stride, it does nothing (R298). -/
def Obligations.SweepRunsAndFigures : Prop :=
  (∀ (r : Fin 24) (s : State), (∀ h ∈ (ringOf s r).q4.head?, h.flags / 4 % 2 = 1) → exec (.sweepRunCheck r) s = .next s) ∧
  (∀ (r : Fin 24) (h : RingWord) (rest : List RingWord) (a N : Nat) (ws : List Half) (s : State),
    (ringOf s r).q4 = h :: rest → h.flags / 4 % 2 = 0 → a = h.node → N = (nodeAt (ringOf s r) a).cells → N ≤ 12 →
    ws = ((ringOf s r).q4.take (N + 4)).map (·.val) → (ringRec s r).ring = r → a < (ringRec s r).nodes → a < 256 →
    ∃ t, exec (.sweepRunCheck r) s = .next t ∧
      t = { s with sys := { s.sys with qcnt := t.sys.qcnt }, plc := { s.plc with q7 := t.plc.q7 }, rng := { s.rng with ring := t.rng.ring },
                   csv := t.csv, flt := t.flt, free := t.free } ∧
      (ringOf t r).q4 = (ringOf s r).q4.drop (N + 4) ∧
      (∀ c < N, combGet t r a (72 * c) = ws.getD (c + 1) 0) ∧ combGet t r a 867 = ws.getD 0 0 ∧
      combGet t r a 864 = ws.getD (N + 1) 0 ∧ combGet t r a 866 = ws.getD (N + 2) 0 ∧
      combGet t r a (868 + (ws.getD 0 0).toNat / 4096 % 4) = ws.getD (N + 3) 0 ∧
      combN t r a 873 = (if (strideTag s + 256 - h.tag) % 256 ≤ strideInLap s then s.tbs.lap else s.tbs.lap - 1) % 65536 ∧
      ((combN t r a 872).testBit 0 = decide (limN s F.CSV_LIMn_4_sum_tol (nodeSet s r a) <
        iabs (((((List.range N).map fun c => (ws.getD (c + 1) 0).toNat).sum : Nat) : Int) - 10 * (ws.getD (N + 1) 0).toNat))) ∧
      (∀ c < N, ∀ k, k = coverOf (descOf (nodeAt (ringOf s r) a)) c →
        ((combN t r a (72 * c + 4)).testBit 12, (combN t r a (72 * c + 4)).testBit 13) =
          beyondLimits s (nodeSet s r a) (ws.getD (c + 1) 0).toNat
            (if (csvNode t r a).tsRead.getLsbD k then some (combGet t r a (868 + k)).toInt else none)) ∧
      (∀ p, p / 1024 ≠ r * 256 + a → kvGet t.csv.comb p = kvGet s.csv.comb p) ∧
      ∀ q : Fin 24, q ≠ r → ringOf t q = ringOf s q) ∧
  (∀ (b : Fin 24) (r : Nat) (s : State), r = (s.img.str.banks.getD b {}).ring →
    (strides s = true → (usedBanks s.img.str).contains b.val = true → r < 24 → strideInLap s + 2 = lapLen s →
      (vget s.csv.ring r {}).sent = false → (∀ f ∈ s.plc.q7, f.bank ≠ b.val) → ∃ t, exec (.headroomDeadline b) s = .next t ∧
      t = { s with plc := { s.plc with q7 := t.plc.q7 }, csv := { s.csv with r := t.csv.r, ring := t.csv.ring }, free := t.free } ∧
      (∃ d c : Figure, t.plc.q7 = s.plc.q7 ++ [d, c] ∧ d.bank = b ∧ c.bank = b ∧ d.chg = false ∧ c.chg = true ∧
        d.valid = false ∧ c.valid = false ∧ d.lap = s.tbs.lap % 256 ∧ c.lap = s.tbs.lap % 256) ∧
      (vget t.csv.ring r {}).sent = true ∧ flag t.csv.r F.CSV_STAT_hr_invalid = true ∧
      ∀ q : Fin 24, q.val ≠ r → t.csv.ring[q] = s.csv.ring[q]) ∧
    (strides s = false ∨ strideInLap s + 2 ≠ lapLen s ∨ (vget s.csv.ring r {}).sent = true → exec (.headroomDeadline b) s = .next s))

/-- Wire tests and balancing of the node and ring that `CSV_SEL` selects. A WIRE_TEST_CMD with its go bit is ignored with
`cfg_err` for a test time of 0 or two adjacent wires; is refused, with cause 6, where the ring is not READY, runs a test,
or no end serves the node; and else starts the test and queues WIRE_TEST at the end that serves the node (R293). A BAL_CMD
with its go bit is refused, with cause 6, with reason 4 where the ring is not READY, with reason 1 where the estimate with
it exceeds the ring's grant and with reason 3 where no end serves the node, each while no command is on its way; while one
is, it is refused too; else it is on its way with BAL_SET queued at the end that serves the node (R287). Without the go
bit both do nothing. QUIET_DIS_WRITE waits for the boundary while strides run and else applies at once (R8, R281).
COMB_HOST_WRITE writes offset +7 of a cell of the comb and no other point; any other write is ignored and counted (R303).
DIAG_RUN_JUDGE of a diagnostic run at the head of queue 4 takes it off (R293). Of the node whose test asked for it, with
no other test waiting, it judges each wire of the test's mask by the run less the sweep of the lap: some wire open gives
result 2, all passed result 1, and each ends the test with `done`, the ring and cause 6; a first run that says neither has
the test run again, a second one ends it with result 3. Points of other nodes and other rings do not change. With no test
of that node that asked for a run nothing else happens, and with no diagnostic run at the head it does nothing. (Where the
manual leaves a point open this is the model's reading: log entries 74 and 75.) -/
def Obligations.CellCommands : Prop :=
  (∀ (p : Path) (val : Word) (s : State), coreReady s = true →
     (val.getLsbD 31 = false → exec (.wireTestCmd p val) s = .next s) ∧
     (val.getLsbD 12 = false → exec (.balCmd p val) s = .next s) ∧
     (val.getLsbD 31 = true → val.toNat / 65536 % 256 = 0 ∨ adjacent (val.toNat % 8192) = true →
       exec (.wireTestCmd p val) s = .next { s with csv := { s.csv with r := setFlag s.csv.r F.CSV_STAT_cfg_err } }) ∧
     ((∀ r : Fin 24, r.val = getF s.csv.r F.CSV_SEL_ring → ringState s r ≠ 6 ∨ (vget s.csv.ring r {}).test ≠ none ∨
         (nodeAt (ringOf s r) (getF s.csv.r F.CSV_SEL_node)).serve = none) →
       val.getLsbD 31 = true → val.toNat / 65536 % 256 ≠ 0 → adjacent (val.toNat % 8192) = false →
       ∃ t, exec (.wireTestCmd p val) s = .next t ∧
         t = { s with csv := { s.csv with r := t.csv.r }, hst := t.hst, two := t.two, out := t.out } ∧
         flag t.csv.r F.CSV_WIRE_STAT_refused = true ∧ flag t.csv.r F.CSV_STAT_cmd_refused = true ∧
         getBit t.hst.r R.HST_IRQ_STAT 6 = true) ∧
     (∀ reason, (reason = 4 ∧ ∀ r : Fin 24, r.val = getF s.csv.r F.CSV_SEL_ring → ringState s r ≠ 6) ∨
         (s.csv.bal = none ∧ ∃ r : Fin 24, r.val = getF s.csv.r F.CSV_SEL_ring ∧ ringState s r = 6 ∧
           ((reason = 1 ∧ balGrant s r < balEst s r (some (getF s.csv.r F.CSV_SEL_node,
             if val.toNat / 65536 = 0 then 0 else BitVec.ofNat 12 val.toNat))) ∨
            (reason = 3 ∧ balEst s r (some (getF s.csv.r F.CSV_SEL_node,
             if val.toNat / 65536 = 0 then 0 else BitVec.ofNat 12 val.toNat)) ≤ balGrant s r ∧
             (nodeAt (ringOf s r) (getF s.csv.r F.CSV_SEL_node)).serve = none))) →
       val.getLsbD 12 = true → ∃ t, exec (.balCmd p val) s = .next t ∧
         t = { s with csv := { s.csv with r := t.csv.r }, hst := t.hst, two := t.two, out := t.out } ∧
         flag t.csv.r F.CSV_BAL_STAT_refused = true ∧ getF t.csv.r F.CSV_BAL_STAT_reason = reason ∧
         flag t.csv.r F.CSV_STAT_cmd_refused = true ∧ getBit t.hst.r R.HST_IRQ_STAT 6 = true) ∧
     (s.csv.bal ≠ none → val.getLsbD 12 = true → ∃ t, exec (.balCmd p val) s = .next t ∧
         t = { s with csv := { s.csv with r := t.csv.r }, hst := t.hst, two := t.two, out := t.out } ∧
         flag t.csv.r F.CSV_BAL_STAT_refused = true ∧ flag t.csv.r F.CSV_STAT_cmd_refused = true) ∧
     (∀ (r : Fin 24) (a : Nat) (e : PortEnd), getF s.csv.r F.CSV_SEL_ring = r → getF s.csv.r F.CSV_SEL_node = a → ringState s r = 6 →
       (nodeAt (ringOf s r) a).serve = some e →
       (val.getLsbD 31 = true → val.toNat / 65536 % 256 ≠ 0 → adjacent (val.toNat % 8192) = false → (vget s.csv.ring r {}).test = none →
         ∃ t, exec (.wireTestCmd p val) s = .next t ∧
         t = { s with rng := { s.rng with ring := t.rng.ring }, csv := { s.csv with r := t.csv.r, ring := t.csv.ring } } ∧
         (vget t.csv.ring r {}).test = some { node := a, mask := BitVec.ofNat 13 (val.toNat % 8192), tp := val.toNat / 65536 % 256 } ∧
         (∃ m, (endOf (ringOf t r) e).todo = (endOf (ringOf s r) e).todo ++ [m] ∧ wagType m.words = 0x13 ∧ wagNode m.words = a % 256 ∧
           m.words.drop 2 = [BitVec.ofNat 16 (val.toNat % 8192), BitVec.ofNat 16 (val.toNat / 65536 % 256)] ∧
           m.use = .wire ∧ m.reply = true) ∧ ∀ q : Fin 24, q ≠ r → ringOf t q = ringOf s q ∧ t.csv.ring[q] = s.csv.ring[q]) ∧
       (val.getLsbD 12 = true → s.csv.bal = none →
         balEst s r (some (a, if val.toNat / 65536 = 0 then 0 else BitVec.ofNat 12 val.toNat)) ≤ balGrant s r →
         ∃ t, exec (.balCmd p val) s = .next t ∧
         t = { s with rng := { s.rng with ring := t.rng.ring }, csv := { s.csv with bal := t.csv.bal } } ∧
         t.csv.bal = some { ring := r, node := a, laps := val.toNat / 65536, mask := BitVec.ofNat 12 val.toNat } ∧
         (∃ m, (endOf (ringOf t r) e).todo = (endOf (ringOf s r) e).todo ++ [m] ∧ wagType m.words = 0x12 ∧ wagNode m.words = a % 256 ∧
           m.words.drop 2 = [BitVec.ofNat 16 (val.toNat % 4096), BitVec.ofNat 16 (val.toNat / 65536)] ∧
           m.use = .bal ∧ m.reply = true) ∧ ∀ q : Fin 24, q ≠ r → ringOf t q = ringOf s q)) ∧
     (strides s = true → exec (.quietDisWrite p val) s = .next { s with csv := { s.csv with
       live := s.csv.live ++ [{ ofs := R.CSV_QUIET_DIS, lo := 0, width := 24, val := val.toNat % 2 ^ 24 }] } }) ∧
     (strides s = false → ∃ t, exec (.quietDisWrite p val) s = .next t ∧
       t = { s with rng := { s.rng with ring := t.rng.ring }, csv := { s.csv with r := t.csv.r } } ∧
       (∀ k < 24, getBit t.csv.r R.CSV_QUIET_DIS k = val.getLsbD k) ∧
       ∀ o, o ≠ R.CSV_QUIET_DIS → kvGet t.csv.r o = kvGet s.csv.r o) ∧
     (∀ (ofs : Nat) (v : Half),
       (combHas s (ofs / 2) = true ∧ ofs / 2 % 1024 < 864 ∧ ofs / 2 % 1024 % 72 = 7 → ∃ t, exec (.combHostWrite p ofs v) s = .next t ∧
         t = { s with csv := { s.csv with comb := t.csv.comb } } ∧ kvGet t.csv.comb (ofs / 2) = v ∧
         ∀ i, i ≠ ofs / 2 → kvGet t.csv.comb i = kvGet s.csv.comb i) ∧
       (¬(combHas s (ofs / 2) = true ∧ ofs / 2 % 1024 < 864 ∧ ofs / 2 % 1024 % 72 = 7) →
         exec (.combHostWrite p ofs v) s = .next { s with csv := { s.csv with r := incF s.csv.r F.CSV_STAT_host_wr_ign 1 } }))) ∧
  (∀ (r : Fin 24) (s : State), ((∀ h ∈ (ringOf s r).q4.head?, h.flags / 4 % 2 = 0) → exec (.diagRunJudge r) s = .next s) ∧
     ∀ (h : RingWord) (rest : List RingWord) (N : Nat), (ringOf s r).q4 = h :: rest → h.flags / 4 % 2 = 1 →
       N = (nodeAt (ringOf s r) h.node).cells →
       ((∀ w, (vget s.csv.ring r {}).test = some w → w.node ≠ h.node ∨ w.asked = false) → ∃ t, exec (.diagRunJudge r) s = .next t ∧
         t = { s with rng := { s.rng with ring := t.rng.ring } } ∧
         ringOf t r = { ringOf s r with q4 := (ringOf s r).q4.drop (N + 1) } ∧ ∀ q : Fin 24, q ≠ r → ringOf t q = ringOf s q) ∧
       (∀ (w : WireTest) (res : Nat → Option Bool),
         (∀ k, res k = judgeWire N (limN s F.CSV_LIMn_4_wire_thr (nodeSet s r h.node))
           (fun j => ((((ringOf s r).q4.take (N + 1)).map (·.val)).getD (j + 1) 0).toNat - combN s r h.node (72 * j)) k) →
         (vget s.csv.ring r {}).test = some w → (vget s.csv.ring r {}).auto = [] → w.node = h.node → w.asked = true →
         ∃ t, exec (.diagRunJudge r) s = .next t ∧
           t = { s with rng := { s.rng with ring := t.rng.ring }, csv := t.csv, flt := t.flt, hst := t.hst, two := t.two, out := t.out } ∧
           (ringOf t r).q4 = (ringOf s r).q4.drop (N + 1) ∧ (∀ i, i / 1024 ≠ r * 256 + h.node → kvGet t.csv.comb i = kvGet s.csv.comb i) ∧
           (∀ q : Fin 24, q ≠ r → ringOf t q = ringOf s q ∧ t.csv.ring[q] = s.csv.ring[q]) ∧
           (w.runs = 0 → (∀ k ∈ bitsOf w.mask, k ≤ N → res k ≠ some true) → (∃ k ∈ bitsOf w.mask, k ≤ N ∧ res k = none) →
             (vget t.csv.ring r {}).test = some { w with again := true, going := false, asked := false, runs := 1 } ∧ t.flt = s.flt) ∧
           (w.runs ≠ 0 ∨ (∃ k ∈ bitsOf w.mask, k ≤ N ∧ res k = some true) ∨ (∀ k ∈ bitsOf w.mask, k ≤ N → res k = some false) →
             (vget t.csv.ring r {}).test = none ∧
             flag t.csv.r F.CSV_WIRE_STAT_done = true ∧ getF t.csv.r F.CSV_WIRE_STAT_ring = r ∧
             getF t.csv.r F.CSV_WIRE_STAT_result = (if ((bitsOf w.mask).filter (· ≤ N)).any (fun k => res k == some true) then 2
               else if ((bitsOf w.mask).filter (· ≤ N)).all (fun k => res k == some false) then 1 else 3) ∧
             getBit t.hst.r R.HST_IRQ_STAT 6 = true)))

/-! ## Spectroscopy -/

/-- CAMPAIGN_START waits for the next stride boundary, and CAMPAIGN_STOP too where a campaign runs, else it does nothing
(R307, R321). CAMPAIGN_BROADCAST of an accepted campaign whose downlinks are all free puts STREAM in front of what waits
at each campaign ring's ports that are UP and fixes the start mark: a lap boundary at least 144 strides on; another
campaign, and one whose downlinks are not all free, it leaves alone (R308). EXCITATION_RAMP_END once the strides of the
ramp have passed sends the stop: where an end is left to tell, the campaign is stopping; with no ring, it is over, with
`run` clear, `stopped` set, its quads released and cause 8; before, and with no ramp down, it does nothing (R321, R336).
(Where the manual leaves a point open this is the model's reading: log entry 76.) -/
def Obligations.Campaigns : Prop :=
  ∀ (p : Path) (s : State),
    (coreReady s = true → exec (.campaignStart p) s = .next { s with spx := { s.spx with startReq := true } } ∧
      (s.spx.camp ≠ none → exec (.campaignStop p) s = .next { s with spx := { s.spx with stopReq := true } }) ∧
      (s.spx.camp = none → exec (.campaignStop p) s = .next s)) ∧
    ((∀ c, s.spx.camp = some c → c.phase ≠ .accepted ∨ downFree s c = false) → exec .campaignBroadcast s = .next s) ∧
    (∀ c, s.spx.camp = some c → c.phase = .accepted → downFree s c = true → 0 < lapLen s → ∃ t k, exec .campaignBroadcast s = .next t ∧
      t = { s with rng := { s.rng with ring := t.rng.ring }, spx := { s.spx with camp := some { c with phase := .waiting, k := -(k : Int) } } } ∧
      144 ≤ k ∧ (strideInLap s + k) % lapLen s = 0 ∧
      (∀ x ∈ c.rings, ∀ r : Fin 24, r.val = x.ring → ∀ e, endUp s r e = true → ∃ m rest, (endOf (ringOf t r) e).todo = m :: rest ∧
        wagType m.words = 0x20 ∧ wagBcast m.words = true ∧ m.words.getD 2 0 = BitVec.ofNat 16 c.ps) ∧
      ∀ r : Fin 24, (∀ x ∈ c.rings, x.ring ≠ r.val) → ringOf t r = ringOf s r) ∧
    (∀ c at_, s.spx.camp = some c → c.phase = .ramping at_ → at_ + rampStrides c ≤ c.k → ∃ t,
      exec .excitationRampEnd s = .next t ∧
      t = { s with rng := { s.rng with ring := t.rng.ring }, spx := { s.spx with r := t.spx.r, camp := t.spx.camp }, bgt := t.bgt,
                   hst := t.hst, two := t.two, out := t.out } ∧
      ((∃ x ∈ c.rings, x.ring < 24 ∧ (endUp s x.ring .a = true ∨ endUp s x.ring .b = true)) →
        t.spx.camp = some { c with phase := .stopping } ∧ t.bgt = s.bgt ∧ t.hst = s.hst ∧ t.out = s.out) ∧
      (c.rings = [] → t.spx.camp = none ∧ flag t.spx.r F.SPX_STAT_run = false ∧ flag t.spx.r F.SPX_STAT_stopped = true ∧
        t.rng = s.rng ∧ t.bgt = { s.bgt with quads := 0 } ∧ getBit t.hst.r R.HST_IRQ_STAT 8 = true)) ∧
    ((∀ c at_, s.spx.camp = some c → c.phase = .ramping at_ → c.k < at_ + rampStrides c) → exec .excitationRampEnd s = .next s)

/-- Queue 5 (R16, R317, R318). STREAM_SAMPLE_TAKE of the cell word of a stream at its head, with no bin waiting for credit:
with no campaign on the ring the word leaves; of the node's window in progress it leaves and joins the window, with the
reference value and the clipping of its sample, and of a window to come it stays; no other node of the ring changes.
PHASOR_RUN_RECEIVE of a phasor run at the head takes it off, and it joins the runs of its node's window if it names that
window. With another head each does nothing. WINDOW_END of a node whose window in progress is over (R319, R320, R322): out
of step with the node, with more exclusions than `drop_max`, or under node demodulation with a run missing or marked bad,
it counts as incomplete and writes no bin; else it counts in `ok_cnt` with no exclusion and in `part_cnt` with some, and
hands one bin per cell and tone that the node's rate can resolve to queue 6 or to those that wait for its credit. The
node's next window begins. Of a window not over it does nothing. BIN_WRITE writes both points of the bin at the head of
queue 6, where the comb has them, and no other point, and the oldest waiting bin takes its credit; with queue 6 empty it
does nothing (R16, R320). (Where the manual leaves a point open this is the model's reading: log entries 76 and 78.) -/
def Obligations.SpectroscopyRuns : Prop :=
  (∀ (r : Fin 24) (s : State),
     ((∀ w ∈ (ringOf s r).q5.head?, w.idx % 72 ≠ 0 ∨ 864 ≤ w.idx ∨ s.spx.bins ≠ []) → exec (.streamSampleTake r) s = .next s) ∧
     ((∀ w ∈ (ringOf s r).q5.head?, w.idx < 960) → exec (.phasorRunReceive r) s = .next s) ∧
     (∀ (w : RingWord) (rest : List RingWord), (ringOf s r).q5 = w :: rest → w.idx % 72 = 0 → w.idx < 864 → s.spx.bins = [] →
       ((∀ c, s.spx.camp = some c → ∀ x ∈ c.rings, x.ring ≠ r.val) → ∃ t, exec (.streamSampleTake r) s = .next t ∧
         t = { s with rng := { s.rng with ring := t.rng.ring } } ∧
         ringOf t r = { ringOf s r with q5 := rest } ∧ ∀ q : Fin 24, q ≠ r → ringOf t q = ringOf s q) ∧
       (∀ (c : Camp) (x : SpxRing), s.spx.camp = some c → (c.rings.find? fun y => y.ring == r.val) = some x → w.node < x.nodes.length →
         ((x.nodes.getD w.node {}).origin + c.nInt ≤ w.smp → exec (.streamSampleTake r) s = .next s) ∧
         (w.smp < (x.nodes.getD w.node {}).origin + c.nInt → ∃ t, exec (.streamSampleTake r) s = .next t ∧
           t = { s with rng := { s.rng with ring := t.rng.ring }, spx := { s.spx with camp := t.spx.camp } } ∧
           ringOf t r = { ringOf s r with q5 := rest } ∧ (∀ q : Fin 24, q ≠ r → ringOf t q = ringOf s q) ∧
           spxNodeOf t r w.node = some (takeSample c (refAt c w.smp (refOf s x w.node).1) (clippedAt c x.bank w.smp) w.smp (w.idx / 72) w.val
             (x.nodes.getD w.node {})) ∧
           ∀ a, a ≠ w.node → spxNodeOf t r a = spxNodeOf s r a))) ∧
     (∀ (w : RingWord) (rest : List RingWord) (n : Nat), (ringOf s r).q5 = w :: rest → 960 ≤ w.idx →
       n = 2 * (nodeAt (ringOf s r) w.node).cells + 1 → ∃ t,
       exec (.phasorRunReceive r) s = .next t ∧
       t = { s with rng := { s.rng with ring := t.rng.ring }, spx := { s.spx with camp := t.spx.camp } } ∧
       ringOf t r = { ringOf s r with q5 := (ringOf s r).q5.drop n } ∧ (∀ q : Fin 24, q ≠ r → ringOf t q = ringOf s q) ∧
       (∀ y, spxNodeOf s r w.node = some y → spxNodeOf t r w.node = some (if w.val.toNat % 256 = y.win % 256 then { y with
         runs := y.runs ++ [{ rank := w.val.toNat / 8192, x := w.val.toNat / 256 % 32, win := w.val.toNat % 256,
                              vals := (((ringOf s r).q5.take n).map (·.val)).drop 1 }] } else y)) ∧
       ∀ a, a ≠ w.node → spxNodeOf t r a = spxNodeOf s r a)) ∧
  (∀ (r : Fin 24) (s : State),
     (∀ (a : Fin 256) (c : Camp) (x : SpxRing) (y : SpxNode), s.spx.camp = some c → (c.rings.find? fun z => z.ring == r.val) = some x →
       x.nodes[a.val]? = some y →
       (windowOver s c x a = false → exec (.windowEnd r a) s = .next s) ∧
       (windowOver s c x a = true → y.step ≠ .inStep ∨ c.dropMax < exclOf s c x a ∨
           (x.place = 2 ∧ ((∃ z ∈ y.runs, z.x = 31) ∨ y.runs.length < c.tones.length)) →
         ∃ t, exec (.windowEnd r a) s = .next t ∧ t = { s with spx := { s.spx with r := t.spx.r, camp := t.spx.camp } } ∧
         spxNodeOf t r a = some (nextWindow c y) ∧
         getF t.spx.r (F.SPX_RINGr_STAT_inc_cnt r) = min (getF s.spx.r (F.SPX_RINGr_STAT_inc_cnt r) + 1) (2 ^ (F.SPX_RINGr_STAT_inc_cnt r).width - 1)) ∧
       (windowOver s c x a = true → y.step = .inStep → exclOf s c x a ≤ c.dropMax →
         (x.place = 2 → (∀ z ∈ y.runs, z.x ≠ 31) ∧ c.tones.length ≤ y.runs.length) → ∃ t, exec (.windowEnd r a) s = .next t ∧
         t = { s with spx := t.spx, free := t.free } ∧ spxNodeOf t r a = some (nextWindow c y) ∧
         (exclOf s c x a = 0 → getF t.spx.r (F.SPX_RINGr_OK_ok_cnt r) =
           min (getF s.spx.r (F.SPX_RINGr_OK_ok_cnt r) + 1) (2 ^ (F.SPX_RINGr_OK_ok_cnt r).width - 1)) ∧
         (0 < exclOf s c x a → getF t.spx.r (F.SPX_RINGr_OK_part_cnt r) =
           min (getF s.spx.r (F.SPX_RINGr_OK_part_cnt r) + 1) (2 ^ (F.SPX_RINGr_OK_part_cnt r).width - 1)) ∧
         t.spx.q6.length + t.spx.bins.length = s.spx.q6.length + s.spx.bins.length +
           (c.tones.filter fun k => !decide (c.nInt < k.cyc * 2 ^ (y.e + 2))).length * (nodeAt (ringOf s r) a).cells)) ∧
     (s.spx.q6 = [] → exec .binWrite s = .next s) ∧
     (∀ (b : BinEntry) (rest : List BinEntry) (i : Nat), s.spx.q6 = b :: rest → i = b.ring * 262144 + b.node * 1024 + b.idx →
       ∃ t, exec .binWrite s = .next t ∧
       t = { s with spx := { s.spx with q6 := rest ++ s.spx.bins.take 1, bins := s.spx.bins.drop 1 }, csv := { s.csv with comb := t.csv.comb } } ∧
       (combHas s i = true → kvGet t.csv.comb i = b.re) ∧ (combHas s (i + 1) = true → kvGet t.csv.comb (i + 1) = b.im) ∧
       ∀ k, k ≠ i → k ≠ i + 1 → kvGet t.csv.comb k = kvGet s.csv.comb k))

/-! ## Faults and the host link -/

/-- FAULT_EVENT_TAKE (R340 to R346). With the core held or in COLD and SERVICE it does nothing; with queue 9 empty only a held
entry is sent. Else the front entry leaves, a held one takes its credit, and the entry counts its events, a summary those
of its sub: of a source not enabled nothing more; of an active one in `post`; else in the window, which opens afresh where
none is open or `window` strides have passed. A count below `thresh` of a source from 2 on only counts. One that reaches
it, and any of sources 0 and 1, makes the source active with the unit and sub of the entry and the reactions that apply:
bit 0 writes the RAM log, bit 1 sets `alert` and cause 0, bits 4, 5 and 6 trip the phases reached, bit 7 drives `FAULT_N`
once IDLE has been entered. No other source changes. A held entry (R16, R340): with nothing held, or with 64 entries in
queue 9, nothing is sent; else the source that has held events longest sends one entry behind those that wait, of its last
event's unit and tag: a single event as it stands, two to 255 as one summary, of more than 255 a summary of 255, the rest
staying held. A write of one bit of `FLT_ACTIVEn`, by FAULT_CLEAR or TRIP_LATCH_RELEASE (R196, R342, R350). An active
source whose clear is not refused is no longer active, its count 0 and its window closed, with a RAM log entry of type 2,
and the latches it owns clear; one whose condition of R339 holds changes only `clr_refused`, `clr_src` and the logs' entry
of type 3. Of a source not active: with no latch of its own, or with its condition holding, nothing changes; else only the
latches it owns clear, of source 0 the watchdog's, of source 1 that of R141, of a source of `hard` models theirs. A mask
of 0 does nothing. (Where the manual leaves a point open this is the model's reading: log entry 79.) -/
def Obligations.FaultsAndClears : Prop :=
  (∀ (s : State),
     (coreReady s = false ∨ opState s < 3 → exec .faultEventTake s = .next s) ∧
     (coreReady s = true → 3 ≤ opState s → s.flt.q9 = [] → exec .faultEventTake s = .next { s with flt := sendHeld s.flt }) ∧
     ∀ (e : FltEvent) (rest : List FltEvent) (k : Fin 128) (x : Src) (f : Flt) (n base c : Nat), coreReady s = true → 3 ≤ opState s →
       s.flt.q9 = e :: rest → e.src = k → x = s.flt.src[k] → f = sendHeld { s.flt with q9 := rest } →
       n = (if e.summary then e.sub else 1) → base = (if x.isOpen && decide (strideAge s x.start < x.window) then x.count else 0) →
       c = min 255 (base + n) →
       (srcEnabled s.img.str k x = false → exec .faultEventTake s = .next { s with flt := f }) ∧
       (srcEnabled s.img.str k x = true → x.active = true →
         exec .faultEventTake s = .next { s with flt := { f with src := f.src.set k { x with post := min 255 (x.post + n) } } }) ∧
       (srcEnabled s.img.str k x = true → x.active = false → ∃ start,
         start = (if x.isOpen && decide (strideAge s x.start < x.window) then x.start else strideCnt s) ∧
         (2 ≤ k.val → c < x.thresh → exec .faultEventTake s = .next
           { s with flt := { f with src := f.src.set k { x with isOpen := true, start := start, count := c } } }) ∧
         (k.val < 2 ∨ x.thresh ≤ c → ∃ t y re bk, exec .faultEventTake s = .next t ∧ y = t.flt.src[k] ∧ re = srcReact k x ∧
           bk = (if (reachOf s k e.unit).2 then usedBanks s.img.str else banksOf s.img.str (reachOf s k e.unit).1) ∧
           t = { s with pwm := t.pwm, acq := t.acq, flt := t.flt, hst := t.hst, two := t.two, nvm := t.nvm, out := t.out } ∧
           t.flt.q9 = f.q9 ∧ t.flt.held = f.held ∧ (∀ j : Fin 128, j ≠ k → t.flt.src[j] = s.flt.src[j]) ∧
           y = { x with active := true, isOpen := true, start := start, count := c, unit := e.unit, sub := e.sub, applied := re,
                        safePh := y.safePh, safeBk := y.safeBk, degBk := y.degBk, degAll := y.degAll } ∧
           (re.testBit 0 = true → ∃ i, i = getF s.flt.r F.FLT_LOG_PTR_next ∧ getF t.flt.r F.FLT_LOG_PTR_next = (i + 1) % 64 ∧
             (vget t.flt.log i {}).w0 = BitVec.ofNat 32 (strideCnt s) ∧
             (vget t.flt.log i {}).w1 = BitVec.ofNat 32 (e.sub * 2 ^ 24 + e.unit * 2 ^ 16 + 2 ^ 12 + srcClass k x * 256 + k) ∧
             (vget t.flt.log i {}).w2 = BitVec.ofNat 32 (0x5A * 2 ^ 24 + c * 2 ^ 16 + opState s * 256 + re) ∧
             (vget t.flt.log i {}).w3 = kvGet t.flt.r R.FLT_SEQ) ∧
           (re.testBit 1 = true → flag t.flt.r F.FLT_STAT_alert = true ∧ getBit t.hst.r R.HST_IRQ_STAT 0 = true) ∧
           (∀ p : Fin 48, (re.testBit 4 = true ∧ p.val ∈ (reachOf s k e.unit).1) ∨
             (re.testBit 5 = true ∧ (s.img.str.phases.getD p {}).bank ∈ bk) ∨ re.testBit 6 = true → tripped t.pwm.ph[p] = true) ∧
           (re.testBit 6 = true → t.pwm.auxAll = true) ∧
           (re.testBit 7 = true → s.sys.idled = true → getF t.flt.r F.FLT_STAT_faultn_low = 1)))) ∧
  (∀ (f : Flt),
     (f.held = [] ∨ 64 ≤ f.q9.length → sendHeld f = f) ∧
     ∀ (h : Held) (l : List Held), f.held = h :: l → f.q9.length < 64 →
       (h.count = 1 → sendHeld f = { f with
         q9 := f.q9 ++ [{ src := h.src, summary := false, unit := h.unit, sub := h.sub, tag := h.tag }], held := l }) ∧
       (2 ≤ h.count → h.count ≤ 255 → sendHeld f = { f with
         q9 := f.q9 ++ [{ src := h.src, summary := true, unit := h.unit, sub := h.count, tag := h.tag }], held := l }) ∧
       (255 < h.count → sendHeld f = { f with
         q9 := f.q9 ++ [{ src := h.src, summary := true, unit := h.unit, sub := 255, tag := h.tag }],
         held := { h with count := h.count - 255 } :: l })) ∧
  (∀ (p : Path) (n : Fin 4) (i : Fin 32) (k : Fin 128) (m : Word) (s : State), coreReady s = true → k.val = 32 * n + i →
     m = BitVec.ofNat 32 (2 ^ i.val) → ∀ c ∈ [Instr.faultClear p n m, .tripLatchRelease p n m],
     (s.flt.src[k].active = true → clearHolds s k = false → ∃ t, exec c s = .next t ∧
       t = { s with pwm := t.pwm, acq := t.acq, flt := t.flt, hst := t.hst, two := t.two, nvm := t.nvm, out := t.out } ∧
       t.flt.src[k] = { s.flt.src[k] with active := false, count := 0, isOpen := false } ∧ t.flt.q9 = s.flt.q9 ∧
       (∀ j : Fin 128, j ≠ k → t.flt.src[j] = s.flt.src[j]) ∧
       (k.val = 0 → t.pwm.auxWd = false ∧ ∀ q : Fin 48, t.pwm.ph[q].wd = false) ∧ (k.val = 1 → ∀ q : Fin 48, t.pwm.ph[q].crit = false) ∧
       (∀ q : Fin 48, k.val ∉ t.pwm.ph[q].plaus ∧ t.pwm.ph[q].ext = s.pwm.ph[q].ext ∧ t.pwm.ph[q].flim = s.pwm.ph[q].flim) ∧
       ((vget t.flt.log (getF s.flt.r F.FLT_LOG_PTR_next) {}).w1.extractLsb' 0 16).toNat = 2 * 2 ^ 12 + srcClass k s.flt.src[k] * 256 + k) ∧
     (s.flt.src[k].active = true → clearHolds s k = true → ∃ t, exec c s = .next t ∧
       t = { s with flt := t.flt, hst := t.hst, nvm := t.nvm } ∧ t.flt.src = s.flt.src ∧ t.flt.q9 = s.flt.q9 ∧
       flag t.flt.r F.FLT_STAT_clr_refused = true ∧ getF t.flt.r F.FLT_STAT_clr_src = k ∧
       ((vget t.flt.log (getF s.flt.r F.FLT_LOG_PTR_next) {}).w1.extractLsb' 0 16).toNat = 3 * 2 ^ 12 + srcClass k s.flt.src[k] * 256 + k) ∧
     (s.flt.src[k].active = false → (2 ≤ k.val ∧ ownsLatch s.img.str k = false) ∨ clearHolds s k = true → exec c s = .next s) ∧
     (s.flt.src[k].active = false → k.val < 2 ∨ ownsLatch s.img.str k = true → clearHolds s k = false → ∃ t, exec c s = .next t ∧
       t = { s with pwm := t.pwm, acq := t.acq, hst := t.hst, two := t.two, out := t.out } ∧
       (k.val = 0 → t.pwm.auxWd = false ∧ ∀ q : Fin 48, t.pwm.ph[q].wd = false) ∧ (k.val = 1 → ∀ q : Fin 48, t.pwm.ph[q].crit = false) ∧
       ∀ q : Fin 48, k.val ∉ t.pwm.ph[q].plaus ∧ t.pwm.ph[q].ext = s.pwm.ph[q].ext ∧ t.pwm.ph[q].flim = s.pwm.ph[q].flim ∧
         t.pwm.ph[q].react = s.pwm.ph[q].react) ∧
     (∀ c ∈ [Instr.faultClear p n 0, .tripLatchRelease p n 0], exec c s = .next s))

/-- The host link (R355, R356, R363 to R366). PCIE_LINK_UP of a powered, enabled endpoint shows the link at the speed and
width brought, up to the limits set, with Bus Master Enable and the max payload as the host has set them; without enable
or power it does nothing. HOST_LINK_RESET disables every DMA ring, clears the MSI-X table and the causes and ends PCIe's
ownership of the loader; which of R356's events it was, and so whether the link stays up or goes down, is open (the
model's reading: log entry 82); it writes no other block's registers but those that follow the causes and the owner.
MSIX_UNMASK unmasks its vector, and its message goes out if it pended and Bus Master Enable lets it. DMA rings (R363, R367
to R370). DMA_ENABLE: a write that enables a ring with size and source in range sets them with `hold` and `thr` and
empties its pointers; one that disables a ring drops and counts what waits; while enabled, another size or source is
ignored and sets `cfg_err`. DMA_RPTR_WRITE takes a value within the filled span; another is ignored and sets `cfg_err`.
DMA_WRITE of an enabled ring with entries waiting, Bus Master Enable set, posts a burst of up to the max payload in order
from the write pointer on, moves it past them, and follows them with the write-back where that is enabled (R363, R367,
R368); with none of these it does nothing. DMA_HOLD_EXPIRY, once `hold` strides have passed since the first entry no cause
has told of, writes back and sets the ring's cause; before, and with `hold` 0, it does nothing (R370). (Where the manual
leaves a point open this is the model's reading: log entries 7, 81 and 82.) -/
def Obligations.HostLinkAndRings : Prop :=
  (∀ (s : State),
     (∀ (sp ln : BitVec 2) (bme mps : Bool), 
       (flag s.hst.r F.HST_PCIE_CFG_en = false ∨ s.bgt.on.getLsbD 23 = false → exec (.pcieLinkUp sp ln ⟨bme, mps⟩) s = .next s) ∧
       (flag s.hst.r F.HST_PCIE_CFG_en = true → s.bgt.on.getLsbD 23 = true → ∃ t, exec (.pcieLinkUp sp ln ⟨bme, mps⟩) s = .next t ∧
         t = { s with hst := { s.hst with r := t.hst.r, mps256 := mps } } ∧
         flag t.hst.r F.HST_STAT_link_up = true ∧ flag t.hst.r F.HST_STAT_bme = bme ∧
         getF t.hst.r F.HST_STAT_speed = max 1 (min sp.toNat (getF s.hst.r F.HST_PCIE_CFG_max_speed + 1)) ∧
         getF t.hst.r F.HST_STAT_lanes = max 1 (min ln.toNat (getF s.hst.r F.HST_PCIE_CFG_max_lanes + 1)) ∧
         ∀ o, o ≠ R.HST_STAT → kvGet t.hst.r o = kvGet s.hst.r o)) ∧
     (∃ t, exec .hostLinkReset s = .next t ∧
       t = { s with img := { s.img with r := t.img.r }, hst := t.hst, two := { s.two with r := t.two.r }, free := s.free + 1 } ∧
       (∀ f ∈ [F.HST_STAT_link_up, F.HST_STAT_speed, F.HST_STAT_lanes],
         getF t.hst.r f = if (Config.freeWord s.free).getLsbD 0 then getF s.hst.r f else 0) ∧
       flag t.hst.r F.HST_STAT_bme = false ∧ kvGet t.hst.r R.HST_IRQ_STAT = 0 ∧ getF t.hst.r F.HST_DMA_IRQ_cause = 0 ∧
       imgOwner t = (if imgOwner s = 1 then 0 else imgOwner s) ∧
       (∀ i : Fin 16, flag t.hst.r (F.HST_DMAr_CFG_en i) = false ∧ t.hst.dma[i] = {}) ∧
       ∀ v < 32, msixMasked t.hst.r v = true ∧ getBit t.hst.r 0x9000 v = false) ∧
     (∀ v : Fin 32, ∃ t, exec (.msixUnmask v) s = .next t ∧ t = { s with hst := { s.hst with r := t.hst.r }, out := t.out } ∧
       msixMasked t.hst.r v = false ∧
       (getBit s.hst.r 0x9000 v = true → canPost s.hst = true → getBit t.hst.r 0x9000 v = false ∧
         t.out = s.out ++ [.msi v (msixAddr s.hst.r v) (msixData s.hst.r v)]) ∧
       (getBit s.hst.r 0x9000 v = true → canPost s.hst = false → getBit t.hst.r 0x9000 v = true ∧ t.out = s.out) ∧
       (getBit s.hst.r 0x9000 v = false → t.out = s.out))) ∧
  (∀ (p : Path) (i : Fin 16) (v : Word) (s : State), s.sys.up = true →
     (flag s.hst.r (F.HST_DMAr_CFG_en i) = false → v.toNat / 2 ^ 31 = 1 → v.toNat / 2 ^ 29 % 4 ≠ 3 →
       6 ≤ v.toNat / 2 ^ 24 % 32 → v.toNat / 2 ^ 24 % 32 ≤ 20 → ∃ t, exec (.dmaEnable p i v) s = .next t ∧
       t = { s with hst := { s.hst with r := t.hst.r } } ∧ kvGet t.hst.r (R.HST_DMAr_CFG i) = v ∧
       getF t.hst.r (F.HST_DMAr_WPTR_wptr i) = 0 ∧ getF t.hst.r (F.HST_DMAr_RPTR_rptr i) = 0 ∧
       ∀ o, o ≠ R.HST_DMAr_CFG i → o ≠ R.HST_DMAr_WPTR i → o ≠ R.HST_DMAr_RPTR i → kvGet t.hst.r o = kvGet s.hst.r o) ∧
     (flag s.hst.r (F.HST_DMAr_CFG_en i) = true → v.toNat / 2 ^ 31 = 0 → ∃ t, exec (.dmaEnable p i v) s = .next t ∧
       t = { s with sys := { s.sys with qcnt := t.sys.qcnt }, acq := t.acq, hst := t.hst } ∧
       flag t.hst.r (F.HST_DMAr_CFG_en i) = false ∧ t.hst.dma[i].q = [] ∧ t.acq.buf = s.acq.buf ∧
       getF t.hst.r (F.HST_DMAr_WPTR_lost i) = min (getF s.hst.r (F.HST_DMAr_WPTR_lost i) + s.hst.dma[i].q.length)
         (2 ^ (F.HST_DMAr_WPTR_lost i).width - 1) ∧
       ∀ j : Fin 16, j ≠ i → t.hst.dma[j] = s.hst.dma[j]) ∧
     (flag s.hst.r (F.HST_DMAr_CFG_en i) = true → v.toNat / 2 ^ 31 = 1 →
       v.toNat / 2 ^ 24 % 128 ≠ (kvGet s.hst.r (R.HST_DMAr_CFG i)).toNat / 2 ^ 24 % 128 → ∃ t, exec (.dmaEnable p i v) s = .next t ∧
       t = { s with hst := { s.hst with r := t.hst.r } } ∧ flag t.hst.r F.HST_STAT_cfg_err = true ∧
       (v.toNat / 2 ^ 24 % 32 ≠ getF s.hst.r (F.HST_DMAr_CFG_size_log2 i) →
         getF t.hst.r (F.HST_DMAr_CFG_size_log2 i) = getF s.hst.r (F.HST_DMAr_CFG_size_log2 i)) ∧
       (v.toNat / 2 ^ 29 % 4 ≠ getF s.hst.r (F.HST_DMAr_CFG_src i) →
         getF t.hst.r (F.HST_DMAr_CFG_src i) = getF s.hst.r (F.HST_DMAr_CFG_src i)) ∧
       ∀ o, o ≠ R.HST_DMAr_CFG i → o ≠ R.HST_STAT → kvGet t.hst.r o = kvGet s.hst.r o) ∧
     (∀ size old span n, size = 2 ^ getF s.hst.r (F.HST_DMAr_CFG_size_log2 i) →
       old = getF s.hst.r (F.HST_DMAr_RPTR_rptr i) → span = (getF s.hst.r (F.HST_DMAr_WPTR_wptr i) + size - old) % size →
       n = v.toNat % 2 ^ 20 → ∃ t, exec (.dmaRptrWrite p i v) s = .next t ∧ t = { s with hst := { s.hst with r := t.hst.r } } ∧
       (n < size ∧ (n + size - old) % size ≤ span → getF t.hst.r (F.HST_DMAr_RPTR_rptr i) = n ∧
         ∀ o, o ≠ R.HST_DMAr_RPTR i → kvGet t.hst.r o = kvGet s.hst.r o) ∧
       (¬(n < size ∧ (n + size - old) % size ≤ span) → flag t.hst.r F.HST_STAT_cfg_err = true ∧
         ∀ o, o ≠ R.HST_STAT → kvGet t.hst.r o = kvGet s.hst.r o))) ∧
  (∀ (i : Fin 16) (s : State),
     (s.hst.dma[i].q = [] ∨ canPost s.hst = false ∨ flag s.hst.r (F.HST_DMAr_CFG_en i) = false → exec (.dmaWrite i) s = .next s) ∧
     (∀ w n b, w = getF s.hst.r (F.HST_DMAr_WPTR_wptr i) → n = getF s.hst.r (F.HST_DMAr_CFG_size_log2 i) → w < 2 ^ n → n ≤ 20 →
       b = s.hst.dma[i].q.take (if s.hst.mps256 then 32 else 16) →
       s.hst.dma[i].q ≠ [] → canPost s.hst = true → flag s.hst.r (F.HST_DMAr_CFG_en i) = true → ∃ t wb irq, exec (.dmaWrite i) s = .next t ∧
       t = { s with hst := t.hst, out := t.out } ∧ t.hst.dma[i].q = s.hst.dma[i].q.drop b.length ∧
       getF t.hst.r (F.HST_DMAr_WPTR_wptr i) = (w + b.length) % 2 ^ n ∧
       t.out = s.out ++ b.mapIdx (fun k e =>
         Out.post (dmaAddr s.hst.r (R.HST_DMAr_BASE_HI i) (R.HST_DMAr_BASE_LO i) + BitVec.ofNat 64 (8 * ((w + k) % 2 ^ n))) e.2) ++ wb ++ irq ∧
       (flag s.hst.r (F.HST_DMAr_WB_LO_wb_en i) = false → wb = []) ∧
       (flag s.hst.r (F.HST_DMAr_WB_LO_wb_en i) = true → wb = [Out.post
         ((dmaAddr s.hst.r (R.HST_DMAr_WB_HI i) (R.HST_DMAr_WB_LO i) >>> 3) <<< 3)
         (BitVec.ofNat 64 (strideCnt s * 2 ^ 32 + (w + b.length) % 2 ^ n))]) ∧
       (irq = [] ∨ ∃ v a d, irq = [Out.msi v a d]) ∧
       ∀ j : Fin 16, j ≠ i → t.hst.dma[j] = s.hst.dma[j]) ∧
     (getF s.hst.r (F.HST_DMAr_CFG_hold i) ≠ 0 → s.hst.dma[i].since ≠ 0 → getF s.hst.r (F.HST_DMAr_CFG_hold i) ≤ s.hst.dma[i].age →
       canPost s.hst = true → ∃ t, exec (.dmaHoldExpiry i) s = .next t ∧ t = { s with hst := { s.hst with r := t.hst.r }, out := t.out } ∧
       getBit t.hst.r R.HST_DMA_IRQ i = true) ∧
     (getF s.hst.r (F.HST_DMAr_CFG_hold i) = 0 ∨ s.hst.dma[i].since = 0 ∨ s.hst.dma[i].age < getF s.hst.r (F.HST_DMAr_CFG_hold i) ∨
       canPost s.hst = false → exec (.dmaHoldExpiry i) s = .next s))

/-! ## Serial transports -/

/-- Frames of SPI, and of the UART in service mode, whose header is whole, passes its CRC and has no address error (R371 to
R375, R403). The frame of a read row that spells its opcode is answered with the status byte, whose bit 2 tells of the
last frame on that path and is then cleared, and the data: opcode 1 the words that host reads of rising addresses return,
in order, opcode 3 the words of BAR2, opcode 5 `HST_SPI_STAT`. The frame of a write row, with all its items, is the
register writes, or the comb writes, of its items in order. A frame of another opcode is not the row's and does nothing,
and none does on a port that takes no frames. Frames that fail (R373 to R375, R403). A header that fails its CRC, or has
an address error, is counted; a read then answers zeros with status bit 0 or 1, a write applies nothing and sets status
bit 2 for the next frame. SPI_INVALID_OPCODE counts an address error. SPI_FRAME_SHORT and UART_GAP_TIMEOUT of a frame that
ends within its header are counted, and set status bit 2 unless it was a read; of a write cut within an item they apply
the items that are whole, count the frame and set status bit 2. Of another frame SPI_FRAME_SHORT and SPI_INVALID_OPCODE do
nothing. DATA on two-wire port A (R379, R380). Four bytes written to an aligned pointer make one register write of the
block's word, the pointer moving on by four within its page of 32. One to three bytes written to an aligned pointer make
no register write: the pointer moves past them, and the word left incomplete is dropped, counted, and sets `part_word`.
Four bytes read from an aligned pointer are one host read of the block's word, low byte first, and the pointer moves on by
four. With no byte each only shows that the bus is not free. (Where the manual leaves a point open this is the model's
reading: log entries 83 and 84.) -/
def Obligations.SerialFrames : Prop :=
  ((∀ (uart : Bool) (bs : List Byte) (h : FrameHdr) (st : Byte) (s0 s : State), s.sys.up = true → portTakes uart s = true → h = frameHdr bs →
     6 ≤ bs.length → h.crcOk = true → frameAddrErr uart h = false → st = BitVec.ofNat 8 (128 + 4 * (frameShortFlag uart s.hst).toNat) →
     s0 = setShortFlag uart false s →
     (h.op = 1 → exec (.spiReadRegisters uart bs) s = .next (emit (.bytes (framePath uart)
       (st :: (frameReads 1 (h.cnt + 1) h.addr s0).1)) (frameReads 1 (h.cnt + 1) h.addr s0).2)) ∧
     (h.op = 3 → exec (.spiReadBar2 uart bs) s = .next (emit (.bytes (framePath uart)
       (st :: (List.range (h.cnt + 1)).flatMap fun k => wordBytes (bar2Read s0 (h.addr + 4 * k)))) s0)) ∧
     (h.op = 5 → exec (.spiReadStatus uart bs) s = .next (emit (.bytes (framePath uart) (st :: wordBytes (kvGet s.hst.r R.HST_SPI_STAT))) s0)) ∧
     (h.op = 2 → bs.length = 6 + 4 * (h.cnt + 1) →
       exec (.spiWriteRegisters uart bs) s = .next (frameWrites uart 2 (h.cnt + 1) h.addr (bs.drop 6) s)) ∧
     (h.op = 4 → bs.length = 6 + 2 * (h.cnt + 1) →
       exec (.spiWriteComb uart bs) s = .next (frameWrites uart 4 (h.cnt + 1) h.addr (bs.drop 6) s))) ∧
   (∀ (n a : Nat) (s : State), frameReads 1 0 a s = ([], s) ∧
     frameReads 1 (n + 1) a s = (wordBytes (hostRead a s).1 ++ (frameReads 1 n (a + 4) (hostRead a s).2).1,
       (frameReads 1 n (a + 4) (hostRead a s).2).2)) ∧
   (∀ (uart : Bool) (n a : Nat) (b0 b1 b2 b3 : Byte) (l : List Byte) (s : State), frameWrites uart 2 0 a l s = s ∧ frameWrites uart 4 0 a l s = s ∧
     frameWrites uart 2 (n + 1) a (b0 :: b1 :: b2 :: b3 :: l) s =
       frameWrites uart 2 n (a + 4) l (hostWrite (framePath uart) a (le32 b0 b1 b2 b3) s) ∧
     frameWrites uart 4 (n + 1) a (b0 :: b1 :: l) s =
       frameWrites uart 4 n (a + 2) l (if coreReady s then combHostWrite a (le16 b0 b1) s else s)) ∧
   (∀ (uart : Bool) (bs : List Byte) (s : State), s.sys.up = true →
     ∀ x ∈ [(Instr.spiReadRegisters uart bs, 1), (.spiWriteRegisters uart bs, 2), (.spiReadBar2 uart bs, 3), (.spiWriteComb uart bs, 4),
       (.spiReadStatus uart bs, 5)], portTakes uart s = false ∨ frameOp bs ≠ x.2 → exec x.1 s = .next s)) ∧
  (∀ (uart : Bool) (bs : List Byte) (h : FrameHdr) (s : State), s.sys.up = true → h = frameHdr bs →
     (portTakes uart s = true → 6 ≤ bs.length → h.crcOk = false ∨ frameAddrErr uart h = true →
       ∀ f, f = (if h.crcOk = false then F.HST_SPI_STAT_crc_err_cnt else F.HST_SPI_STAT_addr_err_cnt) →
       (∀ c n, (c = Instr.spiReadRegisters uart bs ∧ h.op = 1 ∧ n = h.cnt + 1) ∨ (c = .spiReadBar2 uart bs ∧ h.op = 3 ∧ n = h.cnt + 1) ∨
         (c = .spiReadStatus uart bs ∧ h.op = 5 ∧ n = 1) → exec c s = .next (emit (.bytes (framePath uart)
           (BitVec.ofNat 8 (128 + 4 * (frameShortFlag uart s.hst).toNat + (if h.crcOk = false then 1 else 2)) :: List.replicate (4 * n) 0))
           (setShortFlag uart false (countSpi f s)))) ∧
       (∀ c, (c = Instr.spiWriteRegisters uart bs ∧ h.op = 2) ∨ (c = .spiWriteComb uart bs ∧ h.op = 4) ∨
         (c = .spiInvalidOpcode uart bs ∧ (h.op = 0 ∨ 5 < h.op)) → exec c s = .next (setShortFlag uart true (countSpi f s)))) ∧
     (portTakes uart s = false ∨ (frameOp bs ≠ 0 ∧ frameOp bs ≤ 5) → exec (.spiInvalidOpcode uart bs) s = .next s) ∧
     (∀ c, (uart = false ∧ c = Instr.spiFrameShort bs) ∨ (uart = true ∧ portTakes true s = true ∧ c = .uartGapTimeout bs) →
       (bs.length < 6 → exec c s = .next
         (if bs ≠ [] ∧ (frameOp bs = 1 ∨ frameOp bs = 3 ∨ frameOp bs = 5) then countSpi F.HST_SPI_STAT_short_cnt s
          else setShortFlag uart true (countSpi F.HST_SPI_STAT_short_cnt s))) ∧
       (6 ≤ bs.length → h.op = 2 ∨ h.op = 4 → h.crcOk = true → frameAddrErr uart h = false → bs.length - 6 < itemBytes h * (h.cnt + 1) →
         (bs.length - 6) % itemBytes h ≠ 0 → exec c s = .next (setShortFlag uart true (countSpi F.HST_SPI_STAT_short_cnt
           (frameWrites uart h.op (h.cnt + 1) h.addr (bs.drop 6) s))))) ∧
     (6 ≤ bs.length → h.op ≠ 2 → h.op ≠ 4 → exec (.spiFrameShort bs) s = .next s ∧ exec (.uartGapTimeout bs) s = .next s)) ∧
  (∀ (a b c d : Byte) (l : List Byte) (ptr blk : Nat) (s0 s1 s : State), s.sys.up = true → s0 = { s with two := { s.two with freeA := 0 } } →
     ptr = getF s.two.r F.TWO_A_STAT_ptr → blk = getF s.two.r F.TWO_A_STAT_blk → s1 = twoRegs_ (fun r => setF r F.TWO_A_STAT_ptr ptr) s0 →
     (ptr % 4 = 0 → exec (.dataWrite [a, b, c, d]) s = .next (twoRegs_ (fun r => setF r F.TWO_A_STAT_ptr (ptr / 32 * 32 + (ptr + 4) % 32))
       (hostWrite .portA (blk * 65536 + ptr) (le32 a b c d) s0))) ∧
     (ptr % 4 = 0 → l ≠ [] → l.length < 4 → ∃ t, exec (.dataWrite l) s = .next t ∧ t = { s0 with two := { s0.two with r := t.two.r } } ∧
       flag t.two.r F.TWO_A_STAT_part_word = true ∧ getF t.two.r F.TWO_A_STAT_ptr = ptr + l.length ∧
       getF t.two.r F.TWO_A_CNT_part_cnt = min (getF s.two.r F.TWO_A_CNT_part_cnt + 1) 255 ∧
       ∀ o, o ≠ R.TWO_A_STAT → o ≠ R.TWO_A_CNT → kvGet t.two.r o = kvGet s.two.r o) ∧
     (ptr % 4 = 0 → exec (.dataRead 4) s = .next (sendA (wordBytes (hostRead (blk * 65536 + ptr) s1).1)
       (twoRegs_ (fun r => setF r F.TWO_A_STAT_ptr ((ptr + 4) % 65536)) (hostRead (blk * 65536 + ptr) s1).2))) ∧
     (∀ c, c = Instr.dataWrite [] ∨ c = .dataRead 0 → ∃ t, exec c s = .next t ∧ t = { s0 with two := { s0.two with r := t.two.r } } ∧
       ∀ o, kvGet t.two.r o = kvGet s.two.r o))

/-- The commands of port A, each with the bytes written after its command byte and the count read after them (R377, R379,
R381). POINTER and BLOCK set the window of DATA; fewer bytes than they take set nothing, and a block above 20 is NACKed.
VTARGET, VSLEWED, VLIMITS and STATUS answer their bytes, low byte first, and 0xFF beyond them; a byte written to them is
NACKed. The STATUS read clears bit 5. UNKNOWN_COMMAND_BYTE is NACKed and counted. ALERT_RESPONSE won by a port that drives
its line is answered with its address and releases the line; lost, or of a port that drives none, it is not answered.
Nothing else changes. -/
def Obligations.PortACommands : Prop :=
  ∀ (n : Nat) (s0 s : State), s.sys.up = true → s0 = { s with two := { s.two with freeA := 0 } } →
    (∀ hi lo : Byte, ∃ t, exec (.pointer ⟨[hi, lo], 0⟩) s = .next t ∧ t = { s0 with two := { s0.two with r := t.two.r } } ∧
      getF t.two.r F.TWO_A_STAT_ptr = 256 * hi.toNat + lo.toNat ∧ getF t.two.r F.TWO_A_STAT_blk = getF s.two.r F.TWO_A_STAT_blk ∧
      ∀ o, o ≠ R.TWO_A_STAT → kvGet t.two.r o = kvGet s.two.r o) ∧
    (∀ bs : List Byte, bs.length < 2 → exec (.pointer ⟨bs, 0⟩) s = .next s0) ∧ exec (.block ⟨[], 0⟩) s = .next s0 ∧
    (∀ b : Byte, b.toNat ≤ 20 → ∃ t, exec (.block ⟨[b], 0⟩) s = .next t ∧ t = { s0 with two := { s0.two with r := t.two.r } } ∧
      getF t.two.r F.TWO_A_STAT_blk = b.toNat ∧ getF t.two.r F.TWO_A_STAT_ptr = getF s.two.r F.TWO_A_STAT_ptr ∧
      ∀ o, o ≠ R.TWO_A_STAT → kvGet t.two.r o = kvGet s.two.r o) ∧
    (∀ b : Byte, 20 < b.toNat → ∃ t, exec (.block ⟨[b], 0⟩) s = .next t ∧
      t = { s0 with two := { s0.two with r := t.two.r }, out := s.out ++ [.nack .portA] } ∧ flag t.two.r F.TWO_A_STAT_nack_cmd = true ∧
      getF t.two.r F.TWO_A_STAT_blk = getF s.two.r F.TWO_A_STAT_blk) ∧
    (0 < n → ∀ c ∈ [Instr.pointer ⟨[], n⟩, .block ⟨[], n⟩], exec c s = .next { s0 with out := s.out ++ [.bytes .portA (List.replicate n 0xFF)] }) ∧
    (coreReady s = true → 0 < n → ∀ x ∈ [(Instr.vtarget ⟨[], n⟩, le2 (getF s.bus.r F.BUS_VCMD_STAT_target)),
        (.vslewed ⟨[], n⟩, le2 (getF s.bus.r F.BUS_VCMD_STAT_slewed)),
        (.vlimits ⟨[], n⟩, le2 (getF s.bus.r F.BUS_VLIM_v_lo) ++ le2 (getF s.bus.r F.BUS_VLIM_v_hi) ++ le2 (getF s.bus.r F.BUS_VSLEW_v_slew))],
      exec x.1 s = .next { s0 with out := s.out ++ [.bytes .portA ((x.2 ++ List.replicate n 0xFF).take n)] }) ∧
    (0 < n → ∃ b : Byte, exec (.status ⟨[], n⟩) s = .next { s0 with
        out := s.out ++ [.bytes .portA (b :: List.replicate (n - 1) 0xFF)], two := { s0.two with vsetRef := false } } ∧
      b.toNat % 8 = opState s % 8 ∧ b.getLsbD 3 = (s.bus.slew != 100 * s.bus.tgt) ∧ b.getLsbD 4 = (s.img.str.role == 2) ∧
      b.getLsbD 5 = s.two.vsetRef ∧ b.getLsbD 6 = (getF s.bus.r F.BUS_VCMD_CFG_vsrc == 0) ∧ b.getLsbD 7 = flag s.flt.r F.FLT_STAT_faultn_low) ∧
    (∀ bs c, c = Instr.unknownCommandByte bs ∨ (bs ≠ [] ∧ (c = .vtarget ⟨bs, 0⟩ ∨ c = .vslewed ⟨bs, 0⟩ ∨ c = .vlimits ⟨bs, 0⟩ ∨ c = .status ⟨bs, 0⟩)) → ∃ t, exec c s = .next t ∧ t = { s0 with two := { s0.two with r := t.two.r }, out := s.out ++ [.nack .portA] } ∧
      flag t.two.r F.TWO_A_STAT_nack_cmd = true ∧
      getF t.two.r F.TWO_A_CNT_nack_cnt = min (getF s.two.r F.TWO_A_CNT_nack_cnt + 1) 255) ∧
    (∀ won : Bool, flag s.two.r F.TWO_A_STAT_alert = false ∨ won = false → exec (.alertResponse .a won) s = .next s0) ∧
    (flag s.two.r F.TWO_A_STAT_alert = true → ∃ t, exec (.alertResponse .a true) s = .next t ∧
      t = { s0 with two := { s0.two with r := t.two.r },
                    out := s.out ++ [.bytes .portA [BitVec.ofNat 8 (2 * getF s.two.r F.TWO_A_CFG_addr)]] } ∧
      flag t.two.r F.TWO_A_STAT_alert = false ∧ ∀ o, o ≠ R.TWO_A_STAT → kvGet t.two.r o = kvGet s.two.r o) ∧
    (flag s.two.r F.TWO_B_CFG_alert_assert = true → flag s.two.r F.TWO_B_CFG_en = true → ∃ t, exec (.alertResponse .b true) s = .next t ∧
      t = { s with two := { s.two with r := t.two.r, freeB := 0 },
                   out := s.out ++ [.twbTarget [BitVec.ofNat 8 (2 * getF s.two.r F.TWO_B_CFG_addr)]] } ∧
      flag t.two.r F.TWO_B_CFG_alert_assert = false ∧ ∀ o, o ≠ R.TWO_B_CFG → kvGet t.two.r o = kvGet s.two.r o) ∧
    (∀ won : Bool, flag s.two.r F.TWO_B_CFG_alert_assert = false ∨ flag s.two.r F.TWO_B_CFG_en = false ∨ won = false →
      exec (.alertResponse .b won) s = .next { s with two := { s.two with freeB := 0 } })

/-- TWB_GO (R382): with port B enabled and no transfer in hand, of 0 to 32 bytes each way and not 0 both ways, the transfer
waits and `busy` is set; else the request is refused: `failed` with `err` 8 and cause 11, the transfer in hand unchanged.
TWB_TRANSFER_START of a waiting transfer sends its address, the bytes of `TWO_B_TX` and the count to read; it does nothing
to one that runs, while port B is addressed as a target, or while it is disabled (R384). TWB_TRANSFER_END of a running
transfer (R382) stores the bytes received, as far as they were asked for, with their count, and sets `done`, or sets
`failed` with `err` 1 or 2 on a NACK of the address or of a byte. TWB_ABORT ends a transfer in hand, waiting or running,
with `err` 7. Each end clears `busy` and sets cause 11; with nothing to end each does nothing. -/
def Obligations.PortBTransfer : Prop :=
  (∀ (p : Path) (val : Word) (wr rd : Nat) (s0 s : State), s.sys.up = true → wr = val.toNat / 256 % 64 → rd = val.toNat / 65536 % 64 →
     s0 = { s with two := { s.two with freeB := 0 } } →
     (flag s.two.r F.TWO_B_CFG_en = true → s.two.xfer = none → rd ≤ 32 → wr ≤ 32 → 0 < rd + wr → ∃ t, exec (.twbGo p val) s = .next t ∧
       t = { s with two := { s.two with r := t.two.r, xfer := some { addr := val.toNat % 128, wr := wr, rd := rd } } } ∧
       flag t.two.r F.TWO_B_STAT_busy = true ∧ ∀ o, o ≠ R.TWO_B_STAT → kvGet t.two.r o = kvGet s.two.r o) ∧
     (flag s.two.r F.TWO_B_CFG_en = false ∨ s.two.xfer ≠ none ∨ 32 < rd ∨ 32 < wr ∨ rd + wr = 0 → ∃ t, exec (.twbGo p val) s = .next t ∧
       t = { s with two := { s.two with r := t.two.r }, hst := { s.hst with r := t.hst.r }, out := t.out } ∧
       flag t.two.r F.TWO_B_STAT_failed = true ∧ getF t.two.r F.TWO_B_STAT_err = 8 ∧ getBit t.hst.r R.HST_IRQ_STAT 11 = true) ∧
     (∀ x, s.two.xfer = some x →
       (flag s.two.r F.TWO_B_CFG_en = true → x.running = false → flag s.two.r F.TWO_B_STAT_as_target = false →
         exec .twbTransferStart s = .next { s0 with
           two := { s0.two with xfer := some { x with running := true } },
           out := s.out ++ [.twb x.addr ((List.range x.wr).map (regByte (R.TWO_B_TXn 0) s.two.r)) x.rd] }) ∧
       (flag s.two.r F.TWO_B_CFG_en = false ∨ x.running = true ∨ flag s.two.r F.TWO_B_STAT_as_target = true →
         exec .twbTransferStart s = .next s0)) ∧
     (s.two.xfer = none → exec .twbTransferStart s = .next s0)) ∧
  (∀ (p : Path) (rx : List Byte) (res : TwbResult) (s : State), s.sys.up = true →
     (∀ x, s.two.xfer = some x → x.running = true → ∃ t, exec (.twbTransferEnd res) s = .next t ∧
       t = { s with two := { s.two with r := t.two.r, xfer := none, freeB := 0 }, hst := { s.hst with r := t.hst.r }, out := t.out } ∧
       flag t.two.r F.TWO_B_STAT_busy = false ∧ getBit t.hst.r R.HST_IRQ_STAT 11 = true ∧
       (match res with
         | .ok l => flag t.two.r F.TWO_B_STAT_done = true ∧ getF t.two.r F.TWO_B_STAT_err = 0 ∧
             (x.rd ≤ 32 → getF t.two.r F.TWO_B_CNT_rx_cnt = (l.take x.rd).length ∧
               ∀ i < (l.take x.rd).length, regByte (R.TWO_B_RXn 0) t.two.r i = l.getD i 0)
         | .addrNack => flag t.two.r F.TWO_B_STAT_failed = true ∧ getF t.two.r F.TWO_B_STAT_err = 1
         | .dataNack => flag t.two.r F.TWO_B_STAT_failed = true ∧ getF t.two.r F.TWO_B_STAT_err = 2)) ∧
     (∀ x, s.two.xfer = some x → ∃ t, exec (.twbAbort p rx) s = .next t ∧
       t = { s with two := { s.two with r := t.two.r, xfer := none }, hst := { s.hst with r := t.hst.r }, out := t.out } ∧
       flag t.two.r F.TWO_B_STAT_busy = false ∧
       flag t.two.r F.TWO_B_STAT_failed = true ∧ getF t.two.r F.TWO_B_STAT_err = 7 ∧ getBit t.hst.r R.HST_IRQ_STAT 11 = true) ∧
     (s.two.xfer = none → exec (.twbAbort p rx) s = .next s) ∧
     (xferRuns s = false → exec (.twbTransferEnd res) s = .next { s with two := { s.two with freeB := 0 } }))

/-- Lost arbitration of port B (R383, R385). TWB_ARBITRATION_LOST, and ARB_SR_ERR in mode 1, count the loss and make the
running transfer wait again while retries are left; after that it ends with `err` 3. ARB_SR_ERR in mode 0 ends it with
`err` 4 and one event to source 29, counting no loss. A loss of an address byte to port B's own address, where it answers
as a target, also sets `switched` and `as_target`. An end sets cause 11. With no transfer running each does nothing.
TWB_RECOVER (R389): with SDA free it does nothing more; with SDA free after one to nine pulses it sends those and a STOP;
with SDA low throughout it sends nine pulses, sets `bus_stuck`, ends a transfer in hand with `err` 6, and sends one event
to source 29, with cause 11. TWO_WIRE_TIMEOUT of a port whose `timeout_en` is set sets its flag, counts, and sends one
event to source 29 with the port as sub, with cause 11; of port B it ends a running transfer with `err` 5 and port B's
part as a target (R388); with `timeout_en` clear it does nothing. PORT_A_BUS_STUCK sets its flag, with its event and cause
11 (R390). TWO_WIRE_WAKE starts a port's clock in COLD and SERVICE, of port B where it answers as a target; in other
states it does nothing (R392). (Where the manual leaves a point open this is the model's reading: log entry 86.) -/
def Obligations.PortBArbitration : Prop :=
  (∀ (x : TwbXfer) (rx : List Byte) (win : Option (BitVec 7)) (s : State), s.sys.up = true →
     (xferRuns s = false → exec (.twbArbitrationLost win) s = .next s ∧ exec (.arbSrErr rx) s = .next s) ∧
     (s.two.xfer = some x → x.running = true →
       ∀ c, c = Instr.twbArbitrationLost win ∨ (c = .arbSrErr rx ∧ flag s.two.r F.TWO_B_CFG_mode = true) → ∃ t, exec c s = .next t ∧
       t = { s with two := { s.two with r := t.two.r, xfer := t.two.xfer }, hst := { s.hst with r := t.hst.r }, out := t.out } ∧
       getF t.two.r F.TWO_B_CNT_arb_lost_cnt = min (getF s.two.r F.TWO_B_CNT_arb_lost_cnt + 1) 255 ∧
       (x.tries < getF s.two.r F.TWO_B_CFG_retries → t.two.xfer = some { x with running := false, tries := x.tries + 1 }) ∧
       (getF s.two.r F.TWO_B_CFG_retries ≤ x.tries → t.two.xfer = none ∧ getF t.two.r F.TWO_B_STAT_err = 3 ∧
         flag t.two.r F.TWO_B_STAT_failed = true ∧ getBit t.hst.r R.HST_IRQ_STAT 11 = true) ∧
       (c = .twbArbitrationLost win → ∀ a : BitVec 7, win = some a → targetOn s = true → a.toNat = getF s.two.r F.TWO_B_CFG_addr →
         flag t.two.r F.TWO_B_STAT_switched = true ∧ flag t.two.r F.TWO_B_STAT_as_target = true ∧ getBit t.hst.r R.HST_IRQ_STAT 11 = true)) ∧
     (s.two.xfer = some x → x.running = true → flag s.two.r F.TWO_B_CFG_mode = false → ∃ t, exec (.arbSrErr rx) s = .next t ∧
       t = { s with two := { s.two with r := t.two.r, xfer := none }, hst := { s.hst with r := t.hst.r }, out := t.out,
                    flt := postEvent 29 255 1 (strideTag s) s.flt } ∧
       getF t.two.r F.TWO_B_STAT_err = 4 ∧ flag t.two.r F.TWO_B_STAT_failed = true ∧ getBit t.hst.r R.HST_IRQ_STAT 11 = true ∧
       getF t.two.r F.TWO_B_CNT_arb_lost_cnt = getF s.two.r F.TWO_B_CNT_arb_lost_cnt)) ∧
  (∀ (pp : Option Path) (rx : List Byte) (s : State), s.sys.up = true →
     (∀ l, exec (.twbRecover pp (true :: l)) s = .next { s with two := { s.two with recover := false } }) ∧
     (∀ n l, 1 ≤ n → n ≤ 9 → exec (.twbRecover pp (List.replicate n false ++ true :: l)) s =
       .next { s with two := { s.two with recover := false }, out := s.out ++ [.twbPulses n true] }) ∧
     (∃ t, exec (.twbRecover pp (List.replicate 10 false)) s = .next t ∧
       t = { s with two := { s.two with r := t.two.r, xfer := none, recover := false }, hst := { s.hst with r := t.hst.r }, out := t.out,
                    flt := postEvent 29 255 1 (strideTag s) s.flt } ∧
       flag t.two.r F.TWO_B_STAT_bus_stuck = true ∧ (∃ post, t.out = s.out ++ .twbPulses 9 false :: post) ∧
       (s.two.xfer ≠ none → getF t.two.r F.TWO_B_STAT_err = 6 ∧ flag t.two.r F.TWO_B_STAT_failed = true) ∧
       getBit t.hst.r R.HST_IRQ_STAT 11 = true) ∧
     (flag s.two.r F.TWO_A_CFG_timeout_en = true → ∃ t, exec (.twoWireTimeout .a rx) s = .next t ∧
       t = { s with two := { s.two with r := t.two.r }, hst := { s.hst with r := t.hst.r }, out := t.out,
                    flt := postEvent 29 255 0 (strideTag s) s.flt } ∧ flag t.two.r F.TWO_A_STAT_timeout = true ∧
       getF t.two.r F.TWO_A_CNT_timeout_cnt = min (getF s.two.r F.TWO_A_CNT_timeout_cnt + 1) 255 ∧ getBit t.hst.r R.HST_IRQ_STAT 11 = true) ∧
     (flag s.two.r F.TWO_B_CFG_timeout_en = true → ∃ t, exec (.twoWireTimeout .b rx) s = .next t ∧
       t = { s with two := { s.two with r := t.two.r, xfer := t.two.xfer }, hst := { s.hst with r := t.hst.r }, out := t.out,
                    flt := postEvent 29 255 1 (strideTag s) s.flt } ∧
       flag t.two.r F.TWO_B_STAT_timeout = true ∧ flag t.two.r F.TWO_B_STAT_as_target = false ∧
       getF t.two.r F.TWO_B_CNT_timeout_cnt = min (getF s.two.r F.TWO_B_CNT_timeout_cnt + 1) 255 ∧
       (xferRuns s = true → t.two.xfer = none ∧ getF t.two.r F.TWO_B_STAT_err = 5 ∧ flag t.two.r F.TWO_B_STAT_failed = true) ∧
       (xferRuns s = false → t.two.xfer = s.two.xfer) ∧ getBit t.hst.r R.HST_IRQ_STAT 11 = true) ∧
     (∀ q : PortEnd, flag s.two.r (if q = .a then F.TWO_A_CFG_timeout_en else F.TWO_B_CFG_timeout_en) = false →
       exec (.twoWireTimeout q rx) s = .next s) ∧
     (∃ t, exec .portABusStuck s = .next t ∧ t = { s with two := { s.two with r := t.two.r }, hst := { s.hst with r := t.hst.r },
                                                          out := t.out, flt := postEvent 29 255 0 (strideTag s) s.flt } ∧
       flag t.two.r F.TWO_A_STAT_bus_stuck = true ∧ getBit t.hst.r R.HST_IRQ_STAT 11 = true) ∧
     (opState s < 3 → exec (.twoWireWake .a) s = .next { s with two := { s.two with clkA := true, freeA := 0 } } ∧
       (targetOn s = true → exec (.twoWireWake .b) s = .next { s with two := { s.two with clkB := true, freeB := 0 } }) ∧
       (targetOn s = false → exec (.twoWireWake .b) s = .next s)) ∧
     (3 ≤ opState s → ∀ q, exec (.twoWireWake q) s = .next s))

/-- Port B as target (R386, R387), where it answers as one: MAILBOX_WRITE stores its bytes, up to 32, from its offset on,
wrapping from 31 to 0, and leaves every other mailbox byte alone; MAILBOX_READ answers the bytes from its offset on; each
sets its flag and cause 11. An offset above 31 stands for a free one (the model's reading: log entry 86). An offset with
no byte behind it writes nothing. Where port B does not answer, neither does anything. TWB_ALERT_ASSERT drives the line;
TWB_ALERT_SEEN sets `alert_seen` and cause 11 where port B does not drive it, and else does nothing. -/
def Obligations.PortBMailbox : Prop :=
  ∀ (p : Path) (b : Byte) (o n : Nat) (bs : List Byte) (s : State), s.sys.up = true →
    o = (if 31 < b.toNat then (Config.freeWord s.free).toNat % 32 else b.toNat) →
    (targetOn s = true → bs ≠ [] → bs.length ≤ 32 → ∃ t, exec (.mailboxWrite (b :: bs)) s = .next t ∧
      t = { s with two := { s.two with r := t.two.r, freeB := 0 }, hst := { s.hst with r := t.hst.r }, out := t.out,
                   free := if 31 < b.toNat then s.free + 1 else s.free } ∧
      (∀ i < bs.length, regByte (R.TWO_B_MBXn 0) t.two.r ((o + i) % 32) = bs.getD i 0) ∧
      (∀ j < 32, (∀ i < bs.length, j ≠ (o + i) % 32) → regByte (R.TWO_B_MBXn 0) t.two.r j = regByte (R.TWO_B_MBXn 0) s.two.r j) ∧
      flag t.two.r F.TWO_B_STAT_mbx_wr = true ∧ getBit t.hst.r R.HST_IRQ_STAT 11 = true) ∧
    (targetOn s = true → ∃ t, exec (.mailboxWrite [b]) s = .next t ∧
      t = { s with two := { s.two with r := t.two.r, freeB := 0 } } ∧ ∀ k, k ≠ R.TWO_B_STAT → kvGet t.two.r k = kvGet s.two.r k) ∧
    (targetOn s = true → ∃ t, exec (.mailboxRead b n) s = .next t ∧
      t = { s with two := { s.two with r := t.two.r, freeB := 0 }, hst := { s.hst with r := t.hst.r }, out := t.out,
                   free := if 31 < b.toNat then s.free + 1 else s.free } ∧
      (∃ post, t.out = s.out ++ [.twbTarget ((List.range n).map fun i => regByte (R.TWO_B_MBXn 0) s.two.r ((o + i) % 32))] ++ post) ∧
      (∀ k, k ≠ R.TWO_B_STAT → k ≠ R.TWO_A_STAT → kvGet t.two.r k = kvGet s.two.r k) ∧
      flag t.two.r F.TWO_B_STAT_mbx_rd = true ∧ getBit t.hst.r R.HST_IRQ_STAT 11 = true) ∧
    (targetOn s = false → ∀ c ∈ [Instr.mailboxWrite bs, .mailboxRead b n], exec c s = .next { s with two := { s.two with freeB := 0 } }) ∧
    (∃ t, exec (.twbAlertAssert p) s = .next t ∧ t = { s with two := { s.two with r := t.two.r } } ∧
      flag t.two.r F.TWO_B_CFG_alert_assert = true ∧ ∀ k, k ≠ R.TWO_B_CFG → kvGet t.two.r k = kvGet s.two.r k) ∧
    (flag s.two.r F.TWO_B_CFG_alert_assert = false → ∃ t, exec .twbAlertSeen s = .next t ∧
      t = { s with two := { s.two with r := t.two.r }, hst := { s.hst with r := t.hst.r }, out := t.out } ∧
      flag t.two.r F.TWO_B_STAT_alert_seen = true ∧ getBit t.hst.r R.HST_IRQ_STAT 11 = true) ∧
    (flag s.two.r F.TWO_B_CFG_alert_assert = true → exec .twbAlertSeen s = .next s)

/-! ## The service port -/

/-- SERVICE_ISLAND_POWER_UP of a CC logic that has not started (R395): it starts, with `role` and `try` taken; with VBUS above
4.0 V and Rp seen it enters Attached.SNK and sets `dead_batt`, else Unattached; once started it does nothing. ATTACH,
while the logic runs and no partner is attached, waits for the connection to settle, tries the other role as a DRP with
`try` set, falls back to Unattached, or attaches: as source or sink by the role in force, what the partner presented and
`try`, a sink only where it sees Rp, with the roles, orientation, Ra, VBUS and fresh MessageIDs; before the start, or with
a partner attached, it does nothing. DETACH of an attached partner (R80, R395, R405): Unattached, both paths and VCONN
off, VBUS discharged until it is below 800 mV, the message in hand, the timers, the contract and the swap dropped, the
mode left, the service port's ownership of the loader ended, `detach` set with cause 10, `det_trans` too where a source
path, a recovery or a swap was under way, and one event to source 31. With no partner attached only VBUS is read.
HOST_POLICY_TAKE sets `host_pol` and changes nothing else (R397). (Where the manual leaves a point open this is the
model's reading: log entry 91.) -/
def Obligations.SvcAttachment : Prop :=
  (∀ (cc : CcSense) (rd turned : Bool) (st : AttachStep) (s : State), s.sys.up = true →
     (s.svc.started = false → ∃ t, exec (.serviceIslandPowerUp cc) s = .next t ∧ t = { s with svc := t.svc } ∧
       t.svc.started = true ∧ t.svc.roleF = getF s.svc.r F.SVC_CFG_role ∧ t.svc.tryF = getF s.svc.r F.SVC_CFG_try ∧
       getF t.svc.r F.SVC_VBUS_mv = cc.mv.toNat ∧ t.svc.fifo = s.svc.fifo ∧
       (4000 < cc.mv.toNat → cc.rp = true → getF t.svc.r F.SVC_STAT_cc_state = 2 ∧ svcSource t = false ∧ flag t.svc.r F.SVC_STAT_dead_batt = true) ∧
       (cc.mv.toNat ≤ 4000 ∨ cc.rp = false → getF t.svc.r F.SVC_STAT_cc_state = 0 ∧
         ∀ o, o ≠ R.SVC_STAT → o ≠ R.SVC_VBUS → kvGet t.svc.r o = kvGet s.svc.r o)) ∧
     (s.svc.started = true → exec (.serviceIslandPowerUp cc) s = .next s) ∧
     (s.svc.started = false ∨ svcAttached s = true → exec (.attach cc st) s = .next s) ∧
     (s.svc.started = true → svcAttached s = false → ∀ c, c = getF s.svc.r F.SVC_STAT_cc_state →
       (∀ x n, (x = AttachStep.wait ∧ c = 0 ∧ n = 1) ∨ (x = .trial ∧ c = 1 ∧ s.svc.roleF = 2 ∧ s.svc.tryF ≠ 0 ∧ n = 4) → ∃ t,
         exec (.attach cc x) s = .next t ∧ t = { s with svc := { s.svc with r := t.svc.r } } ∧ getF t.svc.r F.SVC_STAT_cc_state = n ∧
         ∀ o, o ≠ R.SVC_STAT → kvGet t.svc.r o = kvGet s.svc.r o) ∧
       (c ≠ 0 → exec (.attach cc .wait) s = .next s) ∧
       (c ≠ 1 ∨ s.svc.roleF ≠ 2 ∨ s.svc.tryF = 0 → exec (.attach cc .trial) s = .next s) ∧
       (∃ t, exec (.attach cc .gone) s = .next t ∧
           t = { s with svc := { s.svc with r := t.svc.r, roleF := getF s.svc.r F.SVC_CFG_role, tryF := getF s.svc.r F.SVC_CFG_try } } ∧
           getF t.svc.r F.SVC_STAT_cc_state = 0 ∧
         ∀ o, o ≠ R.SVC_STAT → kvGet t.svc.r o = kvGet s.svc.r o) ∧
       (∀ src : Bool, (s.svc.roleF = 0 → src = false) → (s.svc.roleF = 1 → src = true) → (s.svc.roleF ≠ 0 → s.svc.roleF ≠ 1 →
           (s.svc.tryF = 1 → src = (rd || turned)) ∧ (s.svc.tryF = 2 → src = (rd && !turned)) ∧
           (s.svc.tryF ≠ 1 → s.svc.tryF ≠ 2 → src = rd)) →
         (src = false → cc.rp = false → exec (.attach cc (.done rd turned)) s = .next s) ∧
         (src = true ∨ cc.rp = true → ∃ t, exec (.attach cc (.done rd turned)) s = .next t ∧
           t = { s with svc := { s.svc with r := t.svc.r, prole0 := src, drole0 := src, lastId := Vector.replicate 3 none,
                                            txId := Vector.replicate 3 0 } } ∧
           getF t.svc.r F.SVC_STAT_cc_state = (if src then 3 else 2) ∧ svcSource t = src ∧ flag t.svc.r F.SVC_STAT_drole = src ∧
           flag t.svc.r F.SVC_STAT_orient = cc.cc2 ∧ flag t.svc.r F.SVC_STAT_ra = cc.ra ∧ getF t.svc.r F.SVC_VBUS_mv = cc.mv.toNat ∧
           ∀ o, o ≠ R.SVC_STAT → o ≠ R.SVC_VBUS → kvGet t.svc.r o = kvGet s.svc.r o)))) ∧
  (∀ (mv : BitVec 16) (p : Path) (s : State), s.sys.up = true →
     (svcAttached s = true → ∃ t, exec (.detach mv) s = .next t ∧
       (flag s.svc.r F.SVC_STAT_alt = false → t = { s with
         svc := t.svc, img := { s.img with r := t.img.r }, hst := { s.hst with r := t.hst.r }, two := { s.two with r := t.two.r },
         out := t.out, flt := postEvent 31 255 255 (strideTag s) s.flt }) ∧
       (flag s.svc.r F.SVC_STAT_alt = true → flag t.svc.r F.SVC_STAT_alt = false ∧ flag t.svc.r F.SVC_EVT_alt_exit = true ∧
         t.tbs = s.tbs ∧ t.plc = s.plc ∧ t.cea = s.cea ∧ t.bus = s.bus ∧ t.pwm = s.pwm ∧ t.rng = s.rng ∧ t.csv = s.csv ∧ t.spx = s.spx ∧
         t.seq = s.seq ∧ t.thm = s.thm ∧ t.tag = s.tag ∧ t.nvm = s.nvm) ∧
       getF t.svc.r F.SVC_STAT_cc_state = 0 ∧ flag t.svc.r F.SVC_STAT_snk_en = false ∧ flag t.svc.r F.SVC_STAT_src_en = false ∧
       flag t.svc.r F.SVC_STAT_vconn_on = false ∧ t.svc.vconnEn = false ∧ t.svc.disch = decide (800 ≤ mv.toNat) ∧
       flag t.svc.r F.SVC_STAT_contract = false ∧ t.svc.tx = none ∧ t.svc.resp = none ∧ t.svc.swap = none ∧ t.svc.srcWait = false ∧
       t.svc.hrWait = false ∧ t.svc.fifo = s.svc.fifo ∧ imgOwner t = (if imgOwner s = 4 then 0 else imgOwner s) ∧
       flag t.svc.r F.SVC_EVT_detach = true ∧ getBit t.hst.r R.HST_IRQ_STAT 10 = true ∧
       (s.svc.srcWait = true ∨ s.svc.hrWait = true ∨ s.svc.swap ≠ none → flag t.svc.r F.SVC_EVT_det_trans = true)) ∧
     (svcAttached s = false → ∃ t, exec (.detach mv) s = .next t ∧ t = { s with svc := { s.svc with r := t.svc.r } } ∧
       getF t.svc.r F.SVC_VBUS_mv = mv.toNat ∧ ∀ o, o ≠ R.SVC_VBUS → kvGet t.svc.r o = kvGet s.svc.r o) ∧
     (∃ t, exec (.hostPolicyTake p) s = .next t ∧ t = { s with svc := { s.svc with r := t.svc.r } } ∧
       flag t.svc.r F.SVC_CFG_host_pol = true ∧ ∀ o, o ≠ R.SVC_CFG → kvGet t.svc.r o = kvGet s.svc.r o))

/-- PD_MESSAGE_RECEIVE (R396, R397). Unattached, or with the FIFO full and no GoodCRC received, it does nothing. A GoodCRC for
the message that waits ends it and moves its MessageID on; another changes nothing. A repeated message only gets its
GoodCRC. A new one gets its GoodCRC, and under the host's policy, or to SOP' or SOP'', enters the FIFO, with `rx` and
cause 10. Under the fallback policy it enters no FIFO: capabilities as sink are answered with a Request for PDO 1 at the
lesser of `fb_ma` times 50 mA and the offer, DR_Swap with Accept as DFP and Reject as UFP, PR_Swap and VCONN_Swap with
Reject, another control message with Not_Supported. PD_SEND (R396) of the message in the transmit registers, with none in
hand, sends it with the next MessageID of its SOP type and keeps it until its GoodCRC; with one in hand it sets `cfg_err`
and no more. SEND_SOFT_RESET empties the FIFO and the transmit buffer, restarts the MessageIDs and sends Soft_Reset, whose
Accept the response timer awaits (R398). GOODCRC_TIMEOUT sends the message in hand again, twice, and then drops it with
`tx_fail` and cause 10; with none in hand it does nothing. RESPONSE_TIMEOUT sets `resp_to`, with cause 10; under `auto_sr`
a response awaited is followed by a Soft_Reset, an Accept awaited by a Hard_Reset; with no timer running it does nothing.
RX_POP takes the oldest message off the FIFO. (Where the manual leaves a point open this is the model's reading: log
entries 88 and 90.) -/
def Obligations.SvcMessages : Prop :=
  (∀ (m : PdMsg) (s : State), s.sys.up = true →
     (svcAttached s = false → exec (.pdMessageReceive m) s = .next s) ∧
     (svcAttached s = true → isCtl m.header 1 = true →
       (∀ x, s.svc.tx = some x → x.sop = m.sop → hdrId x.header = hdrId m.header → ∃ t, exec (.pdMessageReceive m) s = .next t ∧
         t = { s with svc := { s.svc with tx := none, txId := t.svc.txId } } ∧
         t.svc.txId[m.sop] = (s.svc.txId[m.sop] + 1) % 8 ∧ ∀ i : Fin 3, i ≠ m.sop → t.svc.txId[i] = s.svc.txId[i]) ∧
       ((∀ x, s.svc.tx = some x → x.sop ≠ m.sop ∨ hdrId x.header ≠ hdrId m.header) → exec (.pdMessageReceive m) s = .next s)) ∧
     (svcAttached s = true → isCtl m.header 1 = false →
       (4 ≤ s.svc.fifo.length → exec (.pdMessageReceive m) s = .next s) ∧
       (s.svc.fifo.length < 4 → isCtl m.header 13 = false → s.svc.lastId[m.sop] = some (hdrId m.header) → ∃ hd,
         exec (.pdMessageReceive m) s = .next { s with out := s.out ++ [.pd m.sop hd []] } ∧ hdrType hd = 1 ∧ hdrId hd = hdrId m.header) ∧
       (s.svc.fifo.length < 4 → isCtl m.header 13 = false → s.svc.lastId[m.sop] ≠ some (hdrId m.header) → ∃ t hd more,
         exec (.pdMessageReceive m) s = .next t ∧ t.out = s.out ++ .pd m.sop hd [] :: more ∧ hdrType hd = 1 ∧ hdrId hd = hdrId m.header ∧
         t.svc.lastId[m.sop] = some (hdrId m.header) ∧
         (flag s.svc.r F.SVC_CFG_host_pol = true ∨ m.sop.val ≠ 0 →
           t = { s with svc := t.svc, hst := { s.hst with r := t.hst.r }, two := { s.two with r := t.two.r }, out := t.out } ∧
           t.svc.fifo = s.svc.fifo ++ [m] ∧ flag t.svc.r F.SVC_EVT_rx = true ∧ getBit t.hst.r R.HST_IRQ_STAT 10 = true ∧ t.svc.tx = s.svc.tx) ∧
         (flag s.svc.r F.SVC_CFG_host_pol = false → m.sop.val = 0 → isData m.header 15 = false → ∃ x,
           t = { s with svc := t.svc, out := t.out } ∧ t.svc.fifo = s.svc.fifo ∧ more = [.pd 0 x.header x.objs] ∧ t.svc.tx = some x ∧
           (isData m.header 1 = true → svcSource s = false → ∃ i, i = min (5 * getF s.svc.r F.SVC_CFG_fb_ma) ((m.objs.getD 0 0).toNat % 1024) ∧
             hdrType x.header = 2 ∧ x.objs = [BitVec.ofNat 32 (2 ^ 28 + 1024 * i + i)]) ∧
           (isCtl m.header 9 = true → hdrType x.header = (if flag s.svc.r F.SVC_STAT_drole then 3 else 4) ∧ x.objs = []) ∧
           (isCtl m.header 10 = true ∨ isCtl m.header 11 = true → hdrType x.header = 4 ∧ x.objs = []) ∧
           (hdrObjs m.header = 0 → isCtl m.header 9 = false → isCtl m.header 10 = false → isCtl m.header 11 = false →
             hdrType x.header = 16 ∧ x.objs = []))))) ∧
  (∀ (p : Path) (s : State), s.sys.up = true →
     (s.svc.tx = none → getF s.svc.r F.SVC_TX_sop ≤ 2 → ∃ t x,
       exec (.pdSend p) s = .next t ∧ t.svc.tx = some x ∧ x.sop = getF s.svc.r F.SVC_TX_sop ∧
       x.tries = 0 ∧ x.objs = (List.range (getF s.svc.r F.SVC_TX_n_obj)).map (fun i => kvGet s.svc.r (R.SVC_TX_DOn i)) ∧
       hdrId x.header = (vget s.svc.txId x.sop 0) % 8 ∧ hdrType x.header = getF s.svc.r F.SVC_TX_header % 32 ∧
       (∃ more, t.out = s.out ++ .pd x.sop x.header x.objs :: more) ∧ t.svc.fifo = s.svc.fifo ∧ t.svc.txId = s.svc.txId ∧
       (hdrType x.header ≠ 15 → t = { s with svc := t.svc, out := s.out ++ [.pd x.sop x.header x.objs] })) ∧
     (s.svc.tx ≠ none → ∃ t, exec (.pdSend p) s = .next t ∧ t = { s with svc := { s.svc with r := t.svc.r } } ∧
       flag t.svc.r F.SVC_STAT_cfg_err = true ∧ ∀ o, o ≠ R.SVC_STAT → kvGet t.svc.r o = kvGet s.svc.r o) ∧
     (∃ t x, exec (.sendSoftReset p) s = .next t ∧
       t = { s with svc := t.svc, hst := { s.hst with r := t.hst.r }, two := { s.two with r := t.two.r }, out := t.out } ∧
       t.svc.tx = some x ∧ isCtl x.header 13 = true ∧ x.sop = getF s.svc.r F.SVC_TX_sop ∧ hdrId x.header = 0 ∧ t.svc.fifo = [] ∧
       (∃ more, t.out = s.out ++ .pd x.sop x.header [] :: more) ∧
       t.svc.resp = some .softAccept ∧ flag t.svc.r F.SVC_EVT_soft_reset = true ∧ getBit t.hst.r R.HST_IRQ_STAT 10 = true) ∧
     (s.svc.tx = none → exec .goodcrcTimeout s = .next s) ∧
     (∀ x, s.svc.tx = some x →
       (x.tries < 2 → exec .goodcrcTimeout s =
         .next { s with svc := { s.svc with tx := some { x with tries := x.tries + 1 } }, out := s.out ++ [.pd x.sop x.header x.objs] }) ∧
       (2 ≤ x.tries → ∃ t, exec .goodcrcTimeout s = .next t ∧
         t = { s with svc := { s.svc with tx := none, r := t.svc.r }, hst := { s.hst with r := t.hst.r }, two := { s.two with r := t.two.r },
                      out := t.out } ∧
         flag t.svc.r F.SVC_EVT_tx_fail = true ∧ getBit t.hst.r R.HST_IRQ_STAT 10 = true)) ∧
     (s.svc.resp = none → exec .responseTimeout s = .next s) ∧
     (∀ w, s.svc.resp = some w → ∃ t, exec .responseTimeout s = .next t ∧ flag t.svc.r F.SVC_EVT_resp_to = true ∧
       getBit t.hst.r R.HST_IRQ_STAT 10 = true ∧
       (flag s.svc.r F.SVC_CFG_auto_sr = false → t = { s with
         svc := { s.svc with resp := none, r := t.svc.r }, hst := { s.hst with r := t.hst.r }, two := { s.two with r := t.two.r },
         out := t.out }) ∧
       (flag s.svc.r F.SVC_CFG_auto_sr = true → (∀ n, w = .response n → ∃ x, t.svc.tx = some x ∧ isCtl x.header 13 = true ∧ x.sop = n ∧
           t.svc.resp = some .softAccept ∧ .pd n x.header [] ∈ t.out) ∧
         (w = .softAccept → .pdHardReset ∈ t.out ∧ t.svc.resp = none ∧ flag t.svc.r F.SVC_EVT_hard_reset = true))) ∧
     exec (.rxPop p) s = .next { s with svc := { s.svc with fifo := s.svc.fifo.drop 1 } })

/-- Hard reset and the source path, outside the service mode (R399, R400, R406). SEND_HARD_RESET, which sends it, and
HARD_RESET_RECEIVE drop the contract, the FIFO, the message in hand and the timer, set `hard_reset` with cause 10 and send
one event to source 31; an attached source opens its path, discharges from 800 mV on and waits; a swap in progress ends
with `err` 4 in the roles held at attach. HARD_RESET_RECOVERY closes that path once VBUS is below 800 mV, and else does
nothing. SOURCE_PATH_REQUEST closes the path below 800 mV, and from there on discharges and waits; with the sink path
requested it is refused with `cfg_err`. SOURCE_PATH_CLOSE below 800 mV ends the discharge and closes the path that waits,
or moves a power-role swap on to its sink; at or above it only reads VBUS. SOURCE_GUARD_TIMEOUT withdraws a request that
waits, with `guard_to` and one event; else it does nothing. The swaps, outside the service mode (R401, R402). With a swap
in progress PR_SWAP and VCONN_SWAP are refused with `cfg_err`. PR_SWAP of a fed sink fails with `err` 1; of another sink
it opens the sink path, turns source and closes the source path by the rule of R399; of a source it opens the source path,
and from 800 mV on discharges. PR_SWAP_VBUS_ARRIVAL above 4.0 V ends a swap that waits for it, closing the sink path of a
new sink; else it only reads VBUS. PR_SWAP_TIMEOUT ends a power-role swap with `err` 2 and a hard reset; with none in
progress it does nothing. VCONN_SWAP drops VCONN at once, fails without Ra with `err` 3, or drives it until VCONN_ON,
which sets `vconn_on` and ends the swap; with no such swap VCONN_ON does nothing. (Where the manual leaves a point open
this is the model's reading: log entries 91 and 92.) -/
def Obligations.SvcPathAndSwaps : Prop :=
  (∀ (p : Path) (mv : BitVec 16) (s : State), s.sys.up = true → flag s.svc.r F.SVC_STAT_alt = false →
     (∀ sc ∈ [(true, Instr.sendHardReset p), (false, .hardResetReceive)], ∃ t, exec sc.2 s = .next t ∧
       t = { s with svc := t.svc, hst := { s.hst with r := t.hst.r }, two := { s.two with r := t.two.r }, out := t.out,
                    flt := postEvent 31 255 255 (strideTag s) s.flt } ∧
       flag t.svc.r F.SVC_STAT_contract = false ∧ t.svc.fifo = [] ∧ t.svc.tx = none ∧ t.svc.resp = none ∧ t.svc.swap = none ∧
       flag t.svc.r F.SVC_EVT_hard_reset = true ∧ getBit t.hst.r R.HST_IRQ_STAT 10 = true ∧ (sc.1 = true → .pdHardReset ∈ t.out) ∧
       (s.svc.swap = none → svcSource t = svcSource s) ∧
       (s.svc.swap ≠ none → getF t.svc.r F.SVC_SWAP_err = 4 ∧ flag t.svc.r F.SVC_EVT_swap_fail = true ∧ svcSource t = s.svc.prole0 ∧
         flag t.svc.r F.SVC_STAT_drole = s.svc.drole0 ∧ t.svc.vconnEn = false) ∧
       (svcSource t = true → svcAttached t = true → t.svc.hrWait = true ∧ t.svc.disch = decide (800 ≤ getF s.svc.r F.SVC_VBUS_mv) ∧
         flag t.svc.r F.SVC_STAT_src_en = false)) ∧
     (s.svc.hrWait = true → getF s.svc.r F.SVC_VBUS_mv < 800 → ∃ t, exec .hardResetRecovery s = .next t ∧
       t = { s with svc := { s.svc with hrWait := false, disch := false, r := t.svc.r } } ∧ flag t.svc.r F.SVC_STAT_src_en = true ∧
       ∀ o, o ≠ R.SVC_STAT → kvGet t.svc.r o = kvGet s.svc.r o) ∧
     (s.svc.hrWait = false ∨ 800 ≤ getF s.svc.r F.SVC_VBUS_mv → exec .hardResetRecovery s = .next s) ∧
     (flag s.svc.r F.SVC_PATH_snk_req = false → flag s.svc.r F.SVC_STAT_src_en = false → ∃ t, exec (.sourcePathRequest p) s = .next t ∧
       flag t.svc.r F.SVC_PATH_src_req = true ∧
       (getF s.svc.r F.SVC_VBUS_mv < 800 → t = { s with svc := { s.svc with r := t.svc.r, srcWait := false, disch := false } } ∧
         flag t.svc.r F.SVC_STAT_src_en = true) ∧
       (800 ≤ getF s.svc.r F.SVC_VBUS_mv → t = { s with svc := { s.svc with r := t.svc.r, srcWait := true, disch := true } } ∧
         flag t.svc.r F.SVC_STAT_src_en = false)) ∧
     (flag s.svc.r F.SVC_PATH_snk_req = true → ∃ t, exec (.sourcePathRequest p) s = .next t ∧
       t = { s with svc := { s.svc with r := t.svc.r } } ∧ flag t.svc.r F.SVC_STAT_cfg_err = true ∧
       ∀ o, o ≠ R.SVC_STAT → kvGet t.svc.r o = kvGet s.svc.r o) ∧
     (∃ t, exec (.sourcePathClose mv) s = .next t ∧ getF t.svc.r F.SVC_VBUS_mv = mv.toNat ∧
       (800 ≤ mv.toNat → t = { s with svc := { s.svc with r := t.svc.r } } ∧ ∀ o, o ≠ R.SVC_VBUS → kvGet t.svc.r o = kvGet s.svc.r o) ∧
       (mv.toNat < 800 → s.svc.swap ≠ some .discharge →
         t = { s with svc := { s.svc with r := t.svc.r, disch := false, srcWait := false } } ∧
         flag t.svc.r F.SVC_STAT_src_en = (s.svc.srcWait || flag s.svc.r F.SVC_STAT_src_en)) ∧
       (mv.toNat < 800 → s.svc.swap = some .discharge →
         t = { s with svc := { s.svc with r := t.svc.r, disch := false, swap := some .asSink } } ∧ svcSource t = false ∧
         getF t.svc.r F.SVC_STAT_cc_state = 2)) ∧
     (s.svc.srcWait = true → ∃ t, exec .sourceGuardTimeout s = .next t ∧
       t = { s with svc := { s.svc with r := t.svc.r, srcWait := false, disch := false }, hst := { s.hst with r := t.hst.r },
                    two := { s.two with r := t.two.r }, out := t.out, flt := postEvent 31 255 255 (strideTag s) s.flt } ∧
       flag t.svc.r F.SVC_EVT_guard_to = true ∧ flag t.svc.r F.SVC_PATH_src_req = false ∧ getBit t.hst.r R.HST_IRQ_STAT 10 = true) ∧
     (s.svc.srcWait = false → exec .sourceGuardTimeout s = .next s)) ∧
  (∀ (p : Path) (mv : BitVec 16) (s : State), s.sys.up = true → flag s.svc.r F.SVC_STAT_alt = false →
     (s.svc.swap ≠ none → ∀ c ∈ [Instr.prSwap p, .vconnSwap p], ∃ t, exec c s = .next t ∧ t = { s with svc := { s.svc with r := t.svc.r } } ∧
       flag t.svc.r F.SVC_STAT_cfg_err = true ∧ ∀ o, o ≠ R.SVC_STAT → kvGet t.svc.r o = kvGet s.svc.r o) ∧
     (s.svc.swap = none → ∃ t, exec (.prSwap p) s = .next t ∧
       t = { s with svc := t.svc, hst := { s.hst with r := t.hst.r }, two := { s.two with r := t.two.r }, out := t.out } ∧
       (svcSource s = false → flag s.svc.r F.SVC_CFG_vbus_fed = true → getF t.svc.r F.SVC_SWAP_err = 1 ∧ t.svc = { s.svc with r := t.svc.r } ∧
         flag t.svc.r F.SVC_EVT_swap_fail = true ∧ flag t.svc.r F.SVC_STAT_snk_en = flag s.svc.r F.SVC_STAT_snk_en) ∧
       (svcSource s = false → flag s.svc.r F.SVC_CFG_vbus_fed = false → t.svc.swap = some .asSource ∧ svcSource t = true ∧
         flag t.svc.r F.SVC_STAT_snk_en = false ∧ flag t.svc.r F.SVC_SWAP_busy = true ∧ t.svc.fifo = s.svc.fifo ∧ t.svc.tx = s.svc.tx ∧
         (flag s.svc.r F.SVC_STAT_src_en = false → getF s.svc.r F.SVC_VBUS_mv < 800 → flag t.svc.r F.SVC_STAT_src_en = true) ∧
         (flag s.svc.r F.SVC_STAT_src_en = false → 800 ≤ getF s.svc.r F.SVC_VBUS_mv → flag t.svc.r F.SVC_STAT_src_en = false ∧
           t.svc.srcWait = true ∧ t.svc.disch = true)) ∧
       (svcSource s = true → flag t.svc.r F.SVC_STAT_src_en = false ∧ flag t.svc.r F.SVC_SWAP_busy = true ∧ t.svc.fifo = s.svc.fifo ∧
         t.svc.tx = s.svc.tx ∧
         (800 ≤ getF s.svc.r F.SVC_VBUS_mv → t.svc.swap = some .discharge ∧ t.svc.disch = true ∧ svcSource t = true) ∧
         (getF s.svc.r F.SVC_VBUS_mv < 800 → t.svc.swap = some .asSink ∧ t.svc.disch = false ∧ svcSource t = false))) ∧
     (∃ t, exec (.prSwapVbusArrival mv) s = .next t ∧ getF t.svc.r F.SVC_VBUS_mv = mv.toNat ∧
       (4000 < mv.toNat → (s.svc.swap = some .asSink ∨ s.svc.swap = some .asSource ∧ flag s.svc.r F.SVC_STAT_src_en = true) →
         t = { s with svc := { s.svc with r := t.svc.r, swap := none }, hst := { s.hst with r := t.hst.r }, two := { s.two with r := t.two.r },
                      out := t.out } ∧
         getF t.svc.r F.SVC_SWAP_err = 0 ∧ flag t.svc.r F.SVC_SWAP_busy = false ∧ flag t.svc.r F.SVC_EVT_swap_done = true ∧
         (s.svc.swap = some .asSink → flag t.svc.r F.SVC_STAT_snk_en = true)) ∧
       (mv.toNat ≤ 4000 ∨ ¬(s.svc.swap = some .asSink ∨ s.svc.swap = some .asSource ∧ flag s.svc.r F.SVC_STAT_src_en = true) →
         t = { s with svc := { s.svc with r := t.svc.r } } ∧ ∀ o, o ≠ R.SVC_VBUS → kvGet t.svc.r o = kvGet s.svc.r o)) ∧
     (s.svc.swap ≠ none → s.svc.swap ≠ some .vconn → ∃ t, exec .prSwapTimeout s = .next t ∧
       t = { s with svc := t.svc, hst := { s.hst with r := t.hst.r }, two := { s.two with r := t.two.r }, out := t.out,
                    flt := postEvent 31 255 255 (strideTag s) s.flt } ∧
       t.svc.swap = none ∧ getF t.svc.r F.SVC_SWAP_err = 2 ∧ flag t.svc.r F.SVC_EVT_swap_fail = true ∧ .pdHardReset ∈ t.out ∧
       flag t.svc.r F.SVC_EVT_hard_reset = true) ∧
     (s.svc.swap = none ∨ s.svc.swap = some .vconn → exec .prSwapTimeout s = .next s) ∧
     (s.svc.swap = none → ∃ t, exec (.vconnSwap p) s = .next t ∧
       t = { s with svc := { s.svc with r := t.svc.r, vconnEn := t.svc.vconnEn, swap := t.svc.swap }, hst := { s.hst with r := t.hst.r },
                    two := { s.two with r := t.two.r }, out := t.out } ∧
       (s.svc.vconnEn = true → t.svc.vconnEn = false ∧ flag t.svc.r F.SVC_STAT_vconn_on = false ∧ getF t.svc.r F.SVC_SWAP_err = 0 ∧
         t.svc.swap = none) ∧
       (s.svc.vconnEn = false → flag s.svc.r F.SVC_STAT_ra = false → getF t.svc.r F.SVC_SWAP_err = 3 ∧ flag t.svc.r F.SVC_EVT_swap_fail = true ∧
         t.svc.swap = none ∧ t.svc.vconnEn = false) ∧
       (s.svc.vconnEn = false → flag s.svc.r F.SVC_STAT_ra = true → t.svc.swap = some .vconn ∧ t.svc.vconnEn = true ∧
         flag t.svc.r F.SVC_SWAP_busy = true ∧ t.hst = s.hst ∧ t.out = s.out)) ∧
     (s.svc.swap = some .vconn → ∃ t, exec .vconnOn s = .next t ∧
       t = { s with svc := { s.svc with r := t.svc.r, swap := none }, hst := { s.hst with r := t.hst.r }, two := { s.two with r := t.two.r },
                    out := t.out } ∧
       flag t.svc.r F.SVC_STAT_vconn_on = true ∧ flag t.svc.r F.SVC_EVT_swap_done = true) ∧
     (s.svc.swap ≠ some .vconn → exec .vconnOn s = .next s))

/-! ## Board supervision -/

/-- TAG_COMMAND_END ends the command of its line with what the tags answered: no command runs there, `busy` is clear, cause 12
is set (R420, R422 to R424, R426). After a reset `presence` is the answer, with `done` where tags answered and `err` 1
where none did. After a search by the walk of R423 the IDs found are listed, with its `err` and `overflow`, and one event
to source 28 on an overflow or a failed CONFIRM. After a READ with its retries the 32 bytes of the answer whose CRC-8 is
good stand in `TAG_DATA`; else `err` says why, with one event. With no command there it does nothing. TAG_SHORT turns its
line off, ends its command with `err` 3, sets `short` and cause 12 and sends one event (R425). On a line so turned off a
command is refused with `err` 5. (Where the manual leaves a point open this is the model's reading: log entry 95.) -/
def Obligations.TagLinesEnd : Prop :=
  ∀ (p : Path) (l : Fin 4) (blk : Fin 8) (ans : List TagAnswer) (s : State), s.sys.up = true →
    (s.tag.cmd[l] = none → exec (.tagCommandEnd l ans) s = .next s) ∧
    (∀ c, s.tag.cmd[l] = some c → ∃ t, exec (.tagCommandEnd l ans) s = .next t ∧
      t = { s with tag := { s.tag with cmd := t.tag.cmd, r := t.tag.r }, hst := { s.hst with r := t.hst.r }, two := { s.two with r := t.two.r },
                   out := t.out, flt := t.flt } ∧
      t.tag.cmd[l] = none ∧ (∀ k : Fin 4, k ≠ l → t.tag.cmd[k] = s.tag.cmd[k]) ∧
      flag t.tag.r (F.TAG_STATl_busy l) = false ∧ getBit t.hst.r R.HST_IRQ_STAT 12 = true ∧
      (∀ b rest, c = .reset → ans = .presence b :: rest →
        flag t.tag.r (F.TAG_STATl_presence l) = b ∧ getF t.tag.r (F.TAG_STATl_err l) = (if b then 0 else 1) ∧
        (b = true → flag t.tag.r (F.TAG_STATl_done l) = true) ∧ t.flt = s.flt) ∧
      (∀ x, c = .search → x = tagSearchRun ans → flag t.tag.r (F.TAG_STATl_presence l) = x.pres ∧
        getF t.tag.r (F.TAG_STATl_err l) = x.err % 8 ∧ getF t.tag.r (F.TAG_STATl_count l) = min 64 x.found.length ∧
        (∀ i < 64, kvGet t.tag.r (R.TAG_IDl_i_HI l i) ++ kvGet t.tag.r (R.TAG_IDl_i_LO l i) = x.found.getD i 0) ∧
        (x.full = true → flag t.tag.r (F.TAG_STATl_overflow l) = true) ∧ (x.err = 0 → flag t.tag.r (F.TAG_STATl_done l) = true) ∧
        t.flt = (if x.full || x.err == 2 then postEvent 28 255 l (strideTag s) s.flt else s.flt)) ∧
      (∀ id b x, c = .read id b → x = tagReadRun id b 4 { ans := ans } → getF t.tag.r (F.TAG_STATl_err l) = x.err % 8 ∧
        (x.err = 0 → flag t.tag.r (F.TAG_STATl_done l) = true ∧ t.flt = s.flt ∧ ∀ i < 8, kvGet t.tag.r (R.TAG_DATAn i) =
          le32 (x.data.getD (4 * i) 0) (x.data.getD (4 * i + 1) 0) (x.data.getD (4 * i + 2) 0) (x.data.getD (4 * i + 3) 0)) ∧
        (x.err ≠ 0 → t.flt = postEvent 28 255 l (strideTag s) s.flt ∧ ∀ i < 8, kvGet t.tag.r (R.TAG_DATAn i) = kvGet s.tag.r (R.TAG_DATAn i)))) ∧
    (∃ t, exec (.tagShort l) s = .next t ∧
      t = { s with tag := { s.tag with cmd := t.tag.cmd, off := s.tag.off ||| BitVec.ofNat 4 (2 ^ l.val), r := t.tag.r },
                   hst := { s.hst with r := t.hst.r }, two := { s.two with r := t.two.r }, out := t.out,
                   flt := postEvent 28 255 l (strideTag s) s.flt } ∧
      flag t.tag.r (F.TAG_STATl_short l) = true ∧ t.tag.cmd[l] = none ∧ (∀ k : Fin 4, k ≠ l → t.tag.cmd[k] = s.tag.cmd[k]) ∧
      (s.tag.cmd[l] ≠ none → getF t.tag.r (F.TAG_STATl_err l) = 3 ∧ flag t.tag.r (F.TAG_STATl_busy l) = false) ∧
      getBit t.hst.r R.HST_IRQ_STAT 12 = true) ∧
    (s.tag.off.getLsbD l = true → flag s.tag.r F.TAG_CFG_no_vtag = false →
      ∀ c ∈ [Instr.tagResetPresence p l, .tagSearch p l, .tagRead p l blk], ∃ t, exec c s = .next t ∧
      t = { s with tag := { s.tag with r := t.tag.r } } ∧ getF t.tag.r (F.TAG_STATl_err l) = 5 ∧
      ∀ o, o ≠ R.TAG_STATl l → kvGet t.tag.r o = kvGet s.tag.r o)

/-- THM_MEASURE shows each of the twelve readings (32,767 with `broken` where a site gives none in range) and judges `warn`
and `crit` of each site with the hysteresis of R417, a masked site having neither (R415 to R417). A rise of `warn` sets
cause 12, each rise of `crit` sends one event to source 26. `THM_SUM` names the hottest site that is not masked, the lower
on a tie. (Where the manual leaves a point open this is the model's reading: log entry 94.) -/
def Obligations.ThmMeasureJudges : Prop :=
  ∀ (xs : List SiteReading) (s : State), s.sys.up = true → xs.length = 12 →
    ∃ t, exec (.thmMeasure xs) s = .next t ∧
      t = { s with thm := { s.thm with r := t.thm.r }, hst := { s.hst with r := t.hst.r }, two := { s.two with r := t.two.r }, out := t.out,
                   flt := t.flt, free := t.free } ∧
      (∀ i < 12, getFI t.thm.r (F.THM_SITEn_temp i) = (siteRead (xs.getD i none)).1 ∧
        flag t.thm.r (F.THM_SITEn_broken i) = (siteRead (xs.getD i none)).2 ∧
        getBit t.thm.r R.THM_STAT i = (!siteMasked s.thm.r i &&
          siteLevel (getBit s.thm.r R.THM_STAT i) (getF s.thm.r F.THM_CFG_t_warn) (getF s.thm.r F.THM_CFG_hyst) (siteRead (xs.getD i none)).1) ∧
        getBit t.thm.r R.THM_STAT (16 + i) = (!siteMasked s.thm.r i &&
          siteLevel (getBit s.thm.r R.THM_STAT (16 + i)) (getF s.thm.r F.THM_CFG_t_crit) (getF s.thm.r F.THM_CFG_hyst) (siteRead (xs.getD i none)).1) ∧
        (getBit t.thm.r R.THM_STAT i = true → getBit s.thm.r R.THM_STAT i = false → getBit t.hst.r R.HST_IRQ_STAT 12 = true)) ∧
      t.flt = ((List.range 12).filter fun i => getBit t.thm.r R.THM_STAT (16 + i) && !getBit s.thm.r R.THM_STAT (16 + i)).foldl
        (fun f i => postEvent 26 255 i (strideTag s) f) s.flt ∧
      ((∃ i < 12, siteMasked s.thm.r i = false) → ∃ i < 12, t.free = s.free ∧ siteMasked s.thm.r i = false ∧
        getF t.thm.r F.THM_SUM_site = i ∧ getFI t.thm.r F.THM_SUM_max = (siteRead (xs.getD i none)).1 ∧
        ∀ j < 12, siteMasked s.thm.r j = false → (siteRead (xs.getD j none)).1 < (siteRead (xs.getD i none)).1 ∨
          ((siteRead (xs.getD j none)).1 = (siteRead (xs.getD i none)).1 ∧ i ≤ j))

/-- SEQ_ON (R410, R413): in OFF, with a table that may be copied, it starts the power-up from that table with no rail enabled;
with another it sets `bad_table` and cause 12; in power-down it is kept as `on_pending`; in HELD it is refused with
`cmd_refused` and cause 12; in power-up and ON it does nothing. SEQ_OFF in power-up or ON starts the power-down of the
rails enabled; in HELD it goes on with the power-down, the rails that were stuck waiting afresh; in OFF and in power-down
it only takes `on_pending` back. SEQ_TICK (R408, R411 to R413) samples every rail. In OFF and HELD nothing else happens,
but that an on command kept starts. In power-up a rail that stops being good starts the power-down with `pu_fail` and one
event to source 27 each; else a rail is enabled once its condition has held for the gap, and once all have been good that
long the state is ON. In ON it stays ON, and a rail that stops being good sets its bit of `SEQ_FLAGS` and sends one event.
In power-down a rail whose fall test has held counts as fallen, one is disabled once its condition has held for the gap,
and once all have fallen that long the state is OFF, every enable low. PG_TIMEOUT of a rail enabled in power-up and not
good in its time starts the power-down with `pu_fail`, cause 12 and one event to source 27 (R412). FALL_TIMEOUT of a rail
disabled in power-down and not fallen in its time sends one event and, as its `on_stuck` says, holds the sequencer with
`stuck` and cause 12, or counts the rail as fallen (R413). Of another rail each does nothing. (Where the manual leaves a
point open this is the model's reading: log entry 93.) -/
def Obligations.RailSequencer : Prop :=
  (∀ (p : Path) (s : State), s.sys.up = true →
     (seqState s.seq = 0 → tableOk s = true → ∃ t, exec (.seqOn p) s = .next t ∧
       t = { s with seq := { s.seq with r := t.seq.r, rails := t.seq.rails, dep := flag s.seq.r F.SEQ_CFG_mode,
                                        gap := getF s.seq.r F.SEQ_CFG_gap, fin := none } } ∧
       seqState t.seq = 1 ∧ t.seq.rails.map (·.cfg) = railTable s.seq.r ∧ (∀ x ∈ t.seq.rails, x.en = false) ∧
       ∀ o, o ≠ R.SEQ_STAT → kvGet t.seq.r o = kvGet s.seq.r o) ∧
     (∀ f, (seqState s.seq = 0 ∧ tableOk s = false ∧ f = F.SEQ_STAT_bad_table) ∨ (seqState s.seq = 4 ∧ f = F.SEQ_STAT_cmd_refused) → ∃ t,
       exec (.seqOn p) s = .next t ∧ t = { s with seq := { s.seq with r := t.seq.r }, hst := { s.hst with r := t.hst.r },
                                                  two := { s.two with r := t.two.r }, out := t.out } ∧
       flag t.seq.r f = true ∧ seqState t.seq = seqState s.seq ∧ getBit t.hst.r R.HST_IRQ_STAT 12 = true) ∧
     (seqState s.seq = 3 → ∃ t, exec (.seqOn p) s = .next t ∧ t = { s with seq := { s.seq with r := t.seq.r } } ∧
       flag t.seq.r F.SEQ_STAT_on_pending = true ∧ seqState t.seq = 3 ∧ ∀ o, o ≠ R.SEQ_STAT → kvGet t.seq.r o = kvGet s.seq.r o) ∧
     (seqState s.seq = 1 ∨ seqState s.seq = 2 → exec (.seqOn p) s = .next s) ∧
     (seqState s.seq = 1 ∨ seqState s.seq = 2 → ∃ t, exec (.seqOff p) s = .next t ∧
       t = { s with seq := { s.seq with r := t.seq.r, rails := t.seq.rails, fin := t.seq.fin } } ∧
       seqState t.seq = 3 ∧ t.seq.rails.map (·.en) = s.seq.rails.map (·.en) ∧ (∀ x ∈ t.seq.rails, x.inDown = x.en ∧ x.fallen = false) ∧
       ∀ o, o ≠ R.SEQ_STAT → kvGet t.seq.r o = kvGet s.seq.r o) ∧
     (seqState s.seq = 4 → ∃ t, exec (.seqOff p) s = .next t ∧ t.seq.rails = (s.seq.rails.map fun x =>
         if x.stuck then { x with stuck := false, downAge := 0 } else x) ∧
       t = { s with seq := { s.seq with r := t.seq.r, fin := none, rails := t.seq.rails } } ∧
       seqState t.seq = 3 ∧ ∀ o, o ≠ R.SEQ_STAT → kvGet t.seq.r o = kvGet s.seq.r o) ∧
     (seqState s.seq = 0 ∨ seqState s.seq = 3 → ∃ t, exec (.seqOff p) s = .next t ∧ t = { s with seq := { s.seq with r := t.seq.r } } ∧
       flag t.seq.r F.SEQ_STAT_on_pending = false ∧ seqState t.seq = seqState s.seq ∧ ∀ o, o ≠ R.SEQ_STAT → kvGet t.seq.r o = kvGet s.seq.r o)) ∧
  (∀ (pg : BitVec 16) (q : Seq) (bad : List Nat) (s : State), s.sys.up = true →
     q = { s.seq with rails := s.seq.rails.map (sampleRail s pg) } → bad = goneBad s.seq.rails q.rails →
     ((seqState s.seq = 0 ∧ flag s.seq.r F.SEQ_STAT_on_pending = false) ∨ seqState s.seq = 4 → ∃ t, exec (.seqTick pg) s = .next t ∧
       t = { s with seq := { q with r := t.seq.r } } ∧ seqState t.seq = seqState s.seq ∧
       ∀ o, o ≠ R.SEQ_STAT → kvGet t.seq.r o = kvGet s.seq.r o) ∧
     (seqState s.seq = 0 → flag s.seq.r F.SEQ_STAT_on_pending = true → tableOk s = true → ∃ t, exec (.seqTick pg) s = .next t ∧
       t = { s with seq := t.seq, hst := { s.hst with r := t.hst.r }, two := { s.two with r := t.two.r }, out := t.out } ∧
       flag t.seq.r F.SEQ_STAT_on_pending = false ∧ t.seq.rails.map (·.cfg) = railTable s.seq.r) ∧
     (seqState s.seq = 1 → bad ≠ [] → ∃ t, exec (.seqTick pg) s = .next t ∧
       t = { s with seq := t.seq, hst := { s.hst with r := t.hst.r }, two := { s.two with r := t.two.r }, out := t.out, flt := t.flt } ∧
       t.flt = bad.foldl (fun f i => postEvent 27 255 i (strideTag s) f) s.flt ∧ seqState t.seq = 3 ∧
       flag t.seq.r F.SEQ_STAT_pu_fail = true ∧ t.seq.rails.map (·.en) = q.rails.map (·.en) ∧ getBit t.hst.r R.HST_IRQ_STAT 12 = true) ∧
     (seqState s.seq = 1 → bad = [] → ∃ t, exec (.seqTick pg) s = .next t ∧
       t = { s with seq := t.seq, hst := { s.hst with r := t.hst.r }, two := { s.two with r := t.two.r }, out := t.out } ∧
       t.seq.rails.map (·.en) = q.rails.mapIdx (fun j x => x.en || gapOver q.gap (age (upCond q j) x.wait)) ∧
       seqState t.seq = (if gapOver q.gap (age (q.rails.all railGood) q.fin) then 2 else 1) ∧
       (seqState t.seq = 2 → getBit t.hst.r R.HST_IRQ_STAT 12 = true)) ∧
     (seqState s.seq = 2 → ∃ t, exec (.seqTick pg) s = .next t ∧
       t = { s with seq := { q with r := t.seq.r }, hst := { s.hst with r := t.hst.r }, two := { s.two with r := t.two.r }, out := t.out,
                    flt := bad.foldl (fun f i => postEvent 27 255 i (strideTag s) f) s.flt } ∧ seqState t.seq = 2 ∧
       ∀ i < 16, getBit t.seq.r R.SEQ_FLAGS i = (getBit s.seq.r R.SEQ_FLAGS i || bad.contains i)) ∧
     (∀ q1 : Seq, seqState s.seq = 3 → q1 = { q with
         rails := q.rails.mapIdx fun i (x : SeqRail) => (if (newFallen q).contains i then { x with fallen := true } else x) } → ∃ t, exec (.seqTick pg) s = .next t ∧
       t = { s with seq := t.seq, hst := { s.hst with r := t.hst.r }, two := { s.two with r := t.two.r }, out := t.out, flt := t.flt } ∧
       t.seq.rails.map (·.fallen) = q1.rails.map (·.fallen) ∧
       (gapOver q.gap (age (q1.rails.all fun x => !x.inDown || x.fallen) q.fin) = true → seqState t.seq = 0 ∧ ∀ x ∈ t.seq.rails, x.en = false) ∧
       (gapOver q.gap (age (q1.rails.all fun x => !x.inDown || x.fallen) q.fin) = false → seqState t.seq = 3 ∧
         t.seq.rails.map (·.en) = q1.rails.mapIdx (fun j x => x.en && !gapOver q.gap (age (downCond q1 j) x.wait))))) ∧
  (∀ (i : Fin 16) (x : SeqRail) (s : State), s.sys.up = true → x = s.seq.rails.getD i {} →
     (seqState s.seq = 1 → x.en = true → x.goodSince = false → 100 * x.cfg.pgTo ≤ x.upAge → ∃ t, exec (.pgTimeout i) s = .next t ∧
       t = { s with seq := t.seq, hst := { s.hst with r := t.hst.r }, two := { s.two with r := t.two.r }, out := t.out,
                    flt := postEvent 27 255 i (strideTag s) s.flt } ∧
       seqState t.seq = 3 ∧ flag t.seq.r F.SEQ_STAT_pu_fail = true ∧ getF t.seq.r F.SEQ_STAT_last_rail = i ∧
       t.seq.rails.map (·.en) = s.seq.rails.map (·.en) ∧ getBit t.hst.r R.HST_IRQ_STAT 12 = true) ∧
     (seqState s.seq ≠ 1 ∨ x.en = false ∨ x.goodSince = true ∨ x.upAge < 100 * x.cfg.pgTo → exec (.pgTimeout i) s = .next s) ∧
     (seqState s.seq = 3 → i.val < s.seq.rails.length → x.en = false → x.inDown = true → x.fallen = false →
       100 * x.cfg.fallTo ≤ x.downAge → ∃ t, exec (.fallTimeout i) s = .next t ∧
       t = { s with seq := t.seq, hst := { s.hst with r := t.hst.r }, two := { s.two with r := t.two.r }, out := t.out,
                    flt := postEvent 27 255 i (strideTag s) s.flt } ∧
       getF t.seq.r F.SEQ_STAT_last_rail = i ∧
       (x.cfg.onStuck = 0 → seqState t.seq = 4 ∧ flag t.seq.r F.SEQ_STAT_stuck = true ∧
         t.seq.rails = s.seq.rails.set i { x with stuck := true } ∧ getBit t.hst.r R.HST_IRQ_STAT 12 = true) ∧
       (x.cfg.onStuck ≠ 0 → seqState t.seq = 3 ∧ t.seq.rails = s.seq.rails.set i { x with fallen := true } ∧ t.hst = s.hst ∧ t.out = s.out)) ∧
     (seqState s.seq ≠ 3 ∨ x.en = true ∨ x.inDown = false ∨ x.fallen = true ∨ x.downAge < 100 * x.cfg.fallTo →
       exec (.fallTimeout i) s = .next s))

/-! ## The nonvolatile store -/

/-- NVM_WRITE_PAGE of permitted bytes with the write lock open, NVM_SET_READ_PASSWORD and NVM_SET_WRITE_PASSWORD with the
locks they need open, each while no host command and no store of the loader runs, wait for the write engine with `busy`
set, and so does NVM_INCREMENT of counter 4 to 7 below its end, behind what runs (R433, R435 to R437, R439). A set
password command wipes the password registers in any case; without its locks it is refused with `err` 1, else while
another runs with `err` 3; NVM_INCREMENT of counter 0 to 3 is refused with `err` 7, of one at its end with `err` 6. A
refusal sets `refused` and cause 13 and leaves store and queue as they were. (Where the manual leaves a point open this is
the model's reading: log entry 96.) -/
def Obligations.NvmHostCommandsQueue : Prop :=
  ∀ (p : Path) (c : Fin 8) (s : State), s.sys.up = true →
    (storeRuns s = false → s.nvm.cmds = [] → flag s.nvm.r F.NVM_STAT_wr_unlocked = true →
      (∀ q ∈ pageBytes s.nvm.r, hostWrites q.1 = true) → pageBytes s.nvm.r ≠ [] →
      exec (.nvmWritePage p) s = .next { s with nvm := { s.nvm with
        cmds := [.writePage (pageBytes s.nvm.r)], r := setFlag s.nvm.r F.NVM_STAT_busy } }) ∧
    (∀ w x ok, (w = false ∧ x = Instr.nvmSetReadPassword p ∧ ok = (flag s.nvm.r F.NVM_STAT_wr_unlocked && flag s.nvm.r F.NVM_STAT_rd_unlocked)) ∨
        (w = true ∧ x = .nvmSetWritePassword p ∧ ok = flag s.nvm.r F.NVM_STAT_wr_unlocked) →
      ∃ t, exec x s = .next t ∧ pwArg t = 0 ∧
      (ok = true → storeRuns s = false → s.nvm.cmds = [] →
        t = { s with nvm := { s.nvm with r := t.nvm.r, cmds := [.setPw w (pwArg s)] } } ∧ flag t.nvm.r F.NVM_STAT_busy = true) ∧
      (ok = false ∨ storeRuns s = true ∨ s.nvm.cmds ≠ [] →
        t = { s with nvm := { s.nvm with r := t.nvm.r }, hst := { s.hst with r := t.hst.r }, two := { s.two with r := t.two.r },
                     out := t.out } ∧
        flag t.nvm.r F.NVM_STAT_refused = true ∧ getF t.nvm.r F.NVM_STAT_err = (if ok then 3 else 1) ∧
        getBit t.hst.r R.HST_IRQ_STAT 13 = true)) ∧
    (4 ≤ c.val → ctrValue s.nvm.mem c < 0xFFFFFFFF →
      exec (.nvmIncrement p c) s = .next { s with nvm := { s.nvm with
        cmds := s.nvm.cmds ++ [.incr c], r := setFlag s.nvm.r F.NVM_STAT_busy } }) ∧
    (c.val < 4 ∨ 0xFFFFFFFF ≤ ctrValue s.nvm.mem c → ∃ t, exec (.nvmIncrement p c) s = .next t ∧
      t = { s with nvm := { s.nvm with r := t.nvm.r }, hst := { s.hst with r := t.hst.r }, two := { s.two with r := t.two.r }, out := t.out } ∧
      flag t.nvm.r F.NVM_STAT_refused = true ∧ getF t.nvm.r F.NVM_STAT_err = (if c.val < 4 then 7 else 6) ∧
      getBit t.hst.r R.HST_IRQ_STAT 13 = true)

/-- NVM_COMMAND_COMPLETE takes the oldest host command off the queue, with cause 13, and clears `busy` behind the last (R440).
A page write (R433) leaves its bytes in the store, a set password command (R436) its password in force, an increment
(R435) its counter one higher; a lock command closes the locks but for one with a password of 0 (R436, R439): each sets
`done` and changes no other byte of the store than those it writes. An increment of a counter found at its end is refused
with `err` 6. With nothing queued it does nothing. NVM_POWER_UP_SCAN completes (R432): `ready` is set, `FLT_SEQ` takes the
value of counter 0 and the log its next index, counter 1 is one higher, and no other byte of the store changes; once
`ready` is set it does nothing. NVM_LOG_WRITE (R353): with no entry waiting it does nothing. The store being ready, with
none dropped it writes the entry that has waited longest, its commit byte 0x5A, at the log's next index, and moves the
index on. Where entries were dropped it writes there an entry of type 4 with their number, up to 255, under the next value
of counter 0, and what waits goes on waiting. No other byte of the log changes, and in the first case no other byte of the
store. -/
def Obligations.NvmCommandCompletes : Prop :=
  (∀ (s : State), s.sys.up = true →
     (s.nvm.cmds = [] → exec .nvmCommandComplete s = .next s) ∧
     ∀ (c : NvmCmd) (rest : List NvmCmd), s.nvm.cmds = c :: rest → ∃ t, exec .nvmCommandComplete s = .next t ∧
       t = { s with nvm := { s.nvm with r := t.nvm.r, mem := t.nvm.mem, cmds := rest }, hst := { s.hst with r := t.hst.r },
                    two := { s.two with r := t.two.r }, out := t.out } ∧
       getBit t.hst.r R.HST_IRQ_STAT 13 = true ∧ (rest = [] → flag t.nvm.r F.NVM_STAT_busy = false) ∧
       ((∀ k, c = .incr k → ctrValue s.nvm.mem k < 0xFFFFFFFF) → flag t.nvm.r F.NVM_STAT_done = true) ∧
       (c = .lock → t.nvm.mem = s.nvm.mem ∧ flag t.nvm.r F.NVM_STAT_rd_unlocked = (password s.nvm.mem false == 0) ∧
         flag t.nvm.r F.NVM_STAT_wr_unlocked = (password s.nvm.mem true == 0)) ∧
       (∀ w v, c = .setPw w v → password t.nvm.mem w = v ∧ ∀ a, (a < nvmPw ∨ nvmPw + 34 ≤ a) → t.nvm.mem.read a = s.nvm.mem.read a) ∧
       (∀ k, c = .incr k → ctrValue s.nvm.mem k < 0xFFFFFFFF → ctrValue t.nvm.mem k = ctrValue s.nvm.mem k + 1 ∧
         ∀ a, (a < nvmCtr k ((ctrValue s.nvm.mem k + 1) % 64) ∨ nvmCtr k ((ctrValue s.nvm.mem k + 1) % 64) + 8 ≤ a) →
           t.nvm.mem.read a = s.nvm.mem.read a) ∧
       (∀ k, c = .incr k → 0xFFFFFFFF ≤ ctrValue s.nvm.mem k → t.nvm.mem = s.nvm.mem ∧ flag t.nvm.r F.NVM_STAT_refused = true ∧
         getF t.nvm.r F.NVM_STAT_err = 6) ∧
       (∀ l, c = .writePage l → (∀ a, (∀ q ∈ l, q.1 ≠ a) → t.nvm.mem.read a = s.nvm.mem.read a) ∧
         ∀ a b, (a, b) ∈ l → (∀ q ∈ l, q.1 = a → q.2 = b) → t.nvm.mem.read a = b)) ∧
  (∀ (s : State), s.sys.up = true →
     (flag s.nvm.r F.NVM_STAT_ready = true → exec .nvmPowerUpScan s = .next s) ∧
     (flag s.nvm.r F.NVM_STAT_ready = false → ctrValue s.nvm.mem 1 < 0xFFFFFFFF → ∃ t, exec .nvmPowerUpScan s = .next t ∧
       t = { s with nvm := { s.nvm with r := t.nvm.r, mem := t.nvm.mem }, flt := { s.flt with r := t.flt.r } } ∧
       flag t.nvm.r F.NVM_STAT_ready = true ∧ ctrValue t.nvm.mem 1 = ctrValue s.nvm.mem 1 + 1 ∧
       getF t.flt.r F.FLT_SEQ_seq = ctrValue s.nvm.mem 0 % 2 ^ F.FLT_SEQ_seq.width ∧
       getF t.flt.r F.FLT_NVLOG_STAT_next = nvmLogNext s.nvm.mem ∧
       (∀ a, (a < nvmCtr 1 ((ctrValue s.nvm.mem 1 + 1) % 64) ∨ nvmCtr 1 ((ctrValue s.nvm.mem 1 + 1) % 64) + 8 ≤ a) →
         t.nvm.mem.read a = s.nvm.mem.read a))) ∧
  (∀ (s : State),
     (s.flt.nvPend = [] → exec .nvmLogWrite s = .next s) ∧
     ∀ (e : LogEntry) (rest : List LogEntry) (i a : Nat), s.flt.nvPend = e :: rest → (s.sys.up = false ∨ flag s.nvm.r F.NVM_STAT_ready = true) →
       i = getF s.flt.r F.FLT_NVLOG_STAT_next → a = nvmLog i →
       (s.flt.nvLost = 0 → ∃ t, exec .nvmLogWrite s = .next t ∧
         t = { s with nvm := { s.nvm with mem := t.nvm.mem }, flt := { s.flt with nvPend := rest, r := t.flt.r } } ∧
         getF t.flt.r F.FLT_NVLOG_STAT_next = (i + 1) % 1024 ∧ t.nvm.mem.read (a + 11) = 0x5A ∧
         (∀ k < 4, t.nvm.mem.read (a + k) = e.w0.extractLsb' (8 * k) 8) ∧ (∀ k < 4, t.nvm.mem.read (a + 4 + k) = e.w1.extractLsb' (8 * k) 8) ∧
         (∀ k < 3, t.nvm.mem.read (a + 8 + k) = e.w2.extractLsb' (8 * k) 8) ∧ (∀ k < 4, t.nvm.mem.read (a + 12 + k) = e.w3.extractLsb' (8 * k) 8) ∧
         ∀ b, (b < a ∨ a + 16 ≤ b) → t.nvm.mem.read b = s.nvm.mem.read b) ∧
       (s.flt.nvLost ≠ 0 → ∃ t, exec .nvmLogWrite s = .next t ∧
         t = { s with nvm := { s.nvm with mem := t.nvm.mem }, flt := { s.flt with nvLost := 0, r := t.flt.r }, free := t.free } ∧
         getF t.flt.r F.FLT_NVLOG_STAT_next = (i + 1) % 1024 ∧ t.nvm.mem.read (a + 11) = 0x5A ∧
         (t.nvm.mem.read (a + 5)).extractLsb' 4 3 = 4 ∧ t.nvm.mem.read (a + 7) = BitVec.ofNat 8 (min s.flt.nvLost 255) ∧
         (∀ k < 4, t.nvm.mem.read (a + 12 + k) = (BitVec.ofNat 32 (ctrValue (ctrIncr s.nvm.mem 0) 0)).extractLsb' (8 * k) 8) ∧
         ∀ b, nvmLog 0 ≤ b → b < nvmLog 0 + 16 * 1024 → (b < a ∨ a + 16 ≤ b) → t.nvm.mem.read b = s.nvm.mem.read b))

/-- NVM_UNLOCK_READ and NVM_UNLOCK_WRITE (R437) wipe the password registers. With the password in force, outside the backoff,
they open their lock, set `done` and clear the run of mismatches; within the backoff they are refused with `err` 5.
NVM_LOCK with nothing queued closes both locks, but for one with a password of 0, and else waits behind what runs (R436,
R439). PW_BACKOFF_END ends the backoff. None of them writes the store. An unlock with a wrong password outside the backoff
is refused with `err` 4: both locks stay as they were, it counts in counter 3 where that is below its end, one event goes
to source 30, cause 13 is set, and from the fourth in a row on the backoff starts (R437). (Where the manual leaves a point
open this is the model's reading: log entry 96.) -/
def Obligations.NvmLocks : Prop :=
  (∀ (p : Path) (s : State), s.sys.up = true →
     (∀ w x, (w = false ∧ x = Instr.nvmUnlockRead p) ∨ (w = true ∧ x = .nvmUnlockWrite p) →
       flag s.nvm.r F.NVM_STAT_pw_backoff = true ∨ pwArg s = password s.nvm.mem w → ∃ t, exec x s = .next t ∧
         t = { s with nvm := { s.nvm with r := t.nvm.r, fails := t.nvm.fails }, hst := { s.hst with r := t.hst.r },
                      two := { s.two with r := t.two.r }, out := t.out } ∧ pwArg t = 0 ∧ getBit t.hst.r R.HST_IRQ_STAT 13 = true ∧
         (flag s.nvm.r F.NVM_STAT_pw_backoff = false → t.nvm.fails = 0 ∧ flag t.nvm.r F.NVM_STAT_done = true ∧
           flag t.nvm.r F.NVM_STAT_rd_unlocked = (!w || flag s.nvm.r F.NVM_STAT_rd_unlocked) ∧
           flag t.nvm.r F.NVM_STAT_wr_unlocked = (w || flag s.nvm.r F.NVM_STAT_wr_unlocked)) ∧
         (flag s.nvm.r F.NVM_STAT_pw_backoff = true → t.nvm.fails = s.nvm.fails ∧ flag t.nvm.r F.NVM_STAT_refused = true ∧
           getF t.nvm.r F.NVM_STAT_err = 5 ∧ flag t.nvm.r F.NVM_STAT_rd_unlocked = flag s.nvm.r F.NVM_STAT_rd_unlocked ∧
           flag t.nvm.r F.NVM_STAT_wr_unlocked = flag s.nvm.r F.NVM_STAT_wr_unlocked)) ∧
     (s.nvm.cmds = [] → ∃ t, exec (.nvmLock p) s = .next t ∧
       t = { s with nvm := { s.nvm with r := t.nvm.r }, hst := { s.hst with r := t.hst.r }, two := { s.two with r := t.two.r }, out := t.out } ∧
       flag t.nvm.r F.NVM_STAT_rd_unlocked = (password s.nvm.mem false == 0) ∧ flag t.nvm.r F.NVM_STAT_done = true ∧
       flag t.nvm.r F.NVM_STAT_wr_unlocked = (password s.nvm.mem true == 0) ∧ getBit t.hst.r R.HST_IRQ_STAT 13 = true) ∧
     (s.nvm.cmds ≠ [] → exec (.nvmLock p) s = .next { s with nvm := { s.nvm with
       cmds := s.nvm.cmds ++ [.lock], r := setFlag s.nvm.r F.NVM_STAT_busy } }) ∧
     (∃ t, exec .pwBackoffEnd s = .next t ∧ t = { s with nvm := { s.nvm with r := t.nvm.r, fails := 0 } } ∧
       flag t.nvm.r F.NVM_STAT_pw_backoff = false ∧
       flag t.nvm.r F.NVM_STAT_rd_unlocked = flag s.nvm.r F.NVM_STAT_rd_unlocked ∧
       flag t.nvm.r F.NVM_STAT_wr_unlocked = flag s.nvm.r F.NVM_STAT_wr_unlocked ∧
       ∀ o, o ≠ R.NVM_STAT → kvGet t.nvm.r o = kvGet s.nvm.r o)) ∧
  (∀ (p : Path) (w : Bool) (s : State), s.sys.up = true → flag s.nvm.r F.NVM_STAT_pw_backoff = false →
     pwArg s ≠ password s.nvm.mem w →
     ∃ t, exec (if w then .nvmUnlockWrite p else .nvmUnlockRead p) s = .next t ∧
       t = { s with nvm := { s.nvm with r := t.nvm.r, mem := ctrIncr s.nvm.mem 3, fails := s.nvm.fails + 1 },
                    hst := { s.hst with r := t.hst.r }, two := { s.two with r := t.two.r }, out := t.out,
                    flt := postEvent 30 255 255 (strideTag s) s.flt } ∧
       flag t.nvm.r F.NVM_STAT_rd_unlocked = flag s.nvm.r F.NVM_STAT_rd_unlocked ∧
       flag t.nvm.r F.NVM_STAT_wr_unlocked = flag s.nvm.r F.NVM_STAT_wr_unlocked ∧ pwArg t = 0 ∧
       getF t.nvm.r F.NVM_STAT_err = 4 ∧ flag t.nvm.r F.NVM_STAT_refused = true ∧ getBit t.hst.r R.HST_IRQ_STAT 13 = true ∧
       flag t.nvm.r F.NVM_STAT_pw_backoff = decide (4 ≤ s.nvm.fails + 1) ∧
       (ctrValue s.nvm.mem 3 < 0xFFFFFFFF → ctrValue t.nvm.mem 3 = ctrValue s.nvm.mem 3 + 1))

/-! ## Host accesses -/

/-- REGISTER_WRITE of an aligned word (R7, R91, R358, R359), of a register of LNK, the core domain up, or of THM. With every
value in range each RW field takes the written value, an RW-F field too unless it is frozen, W1C bits written as 1 clear,
RO and RC fields stay, and no other register and no other block changes, but that a write that would change a frozen field
sets the block's `write_ignored`, the first such offset being held. A THM field written out of range keeps its value and
`cfg_err` is set. A write of another shape, or to an offset that nothing occupies, is only counted, and one to a block
whose domain is in reset does nothing. REGISTER_READ of an aligned word of BAR0 (R7, R358, R359) returns the register's
value, and clears its RC fields alone, in the blocks that hold all their state in registers; where the word fails its
parity the event of its block's parity source is sent too (R17). A read of another shape, or of an offset that nothing
occupies, is counted and returns 0, and one of a block whose domain is in reset returns 0. A read of 2, 4 or 8 aligned
bytes of BAR2, or of more whole aligned words, returns the bytes there and changes nothing (R303, R360). (Where the manual
leaves a point open this is the model's reading: log entries 58, 100 and 102.) -/
def Obligations.RegisterAccess : Prop :=
  (∀ (p : Path) (b ofs : Nat) (d : RegDesc) (x : Nat × Nat) (v : Word) (s : State), s.sys.up = true →
     ofs < 65536 → ofs % 4 = 0 →
     (b = 8 ∧ coreReady s = true ∨ b = 18 → findReg b ofs = some (d, x) →
       (∀ f ∈ d.fields, outOfRange b ofs f.lo (fieldVal f v) s = false) →
       ∃ t, exec (.registerWrite p (b * 65536 + ofs) 15 v) s = .next t ∧
         t = setRegs b (blkRegs b t) { s with sys := { s.sys with r := t.sys.r } } ∧
         (wouldChange b ofs d v s = false → t.sys = s.sys) ∧
         (wouldChange b ofs d v s = true → wignSet b t = true) ∧
         (wouldChange b ofs d v s = true → wignAll s = 0 → flag t.sys.r F.SYS_WRITE_IGN_ADDR_valid = true ∧
           getF t.sys.r F.SYS_WRITE_IGN_ADDR_ofs = b * 65536 + ofs) ∧
         (∀ f ∈ d.fields, f.acc = .rwf →
           getF (blkRegs b t) (fldAt ofs f) = (if frozen b ofs s then getF (blkRegs b s) (fldAt ofs f) else fieldVal f v)) ∧
         (∀ f ∈ d.fields, f.acc = .rw → getF (blkRegs b t) (fldAt ofs f) = fieldVal f v) ∧
         (∀ f ∈ d.fields, f.acc = .ro ∨ f.acc = .rc → getF (blkRegs b t) (fldAt ofs f) = getF (blkRegs b s) (fldAt ofs f)) ∧
         (∀ f ∈ d.fields, f.acc = .w1c → ∀ i ≤ f.hi, f.lo ≤ i →
           (kvGet (blkRegs b t) ofs).getLsbD i = ((kvGet (blkRegs b s) ofs).getLsbD i && !v.getLsbD i)) ∧
         ∀ o, o ≠ ofs → (wouldChange b ofs d v s = true → o ≠ R.LNK_STAT) → kvGet (blkRegs b t) o = kvGet (blkRegs b s) o) ∧
     (b = 18 → findReg b ofs = some (d, x) → ∀ f ∈ d.fields, f.acc = .rw ∨ (f.acc = .rwf ∧ frozen b ofs s = false) →
       outOfRange b ofs f.lo (fieldVal f v) s = true → ∃ t, exec (.registerWrite p (b * 65536 + ofs) 15 v) s = .next t ∧
       t = { s with thm := { s.thm with r := t.thm.r }, sys := { s.sys with r := t.sys.r } } ∧
       getF t.thm.r (fldAt ofs f) = getF s.thm.r (fldAt ofs f) ∧ ∀ g, cfgFld 18 = some g → flag t.thm.r g = true) ∧
     (∀ (a : Nat) (be : BitVec 4), ¬(a % 4 = 0 ∧ be = 15) →
       exec (.registerWrite p a be v) s = .next { s with hst := { s.hst with r := incF s.hst.r F.HST_STAT_size_err_cnt 1 } }) ∧
     (20 < b ∨ (islandBlock b = true ∨ coreReady s = true) ∧ inWindow b ofs = false ∧ findReg b ofs = none →
       exec (.registerWrite p (b * 65536 + ofs) 15 v) s =
         .next { s with hst := { s.hst with r := incF s.hst.r F.HST_STAT_unmapped_cnt 1 } }) ∧
     (b ≤ 20 → islandBlock b = false → coreReady s = false → exec (.registerWrite p (b * 65536 + ofs) 15 v) s = .next s)) ∧
  (∀ (p : Path) (b ofs : Nat) (d : RegDesc) (x : Nat × Nat) (s : State), s.sys.up = true → ofs < 65536 → ofs % 4 = 0 →
     (b ≤ 20 → b ≠ 0 → b ≠ 4 → b ≠ 8 → b ≠ 13 → islandBlock b = true ∨ coreReady s = true → inWindow b ofs = false →
       waitsScan b ofs = false → findReg b ofs = some (d, x) →
       ∃ t, exec (.registerRead p (.bar0 (b * 65536 + ofs)) 15 false) s = .next t ∧ exec (.registerRead p (.bar0 (b * 65536 + ofs)) 15 true) s = .next (raiseParity b t) ∧
         t = setRegs b (blkRegs b t) { s with out := t.out } ∧
         t.out = s.out ++ [.read p (b * 65536 + ofs) (regValue b ofs d s)] ∧
         kvGet (blkRegs b t) ofs = kvGet (blkRegs b s) ofs &&& ~~~ fieldMask d (· == .rc) ∧
         ∀ o, o ≠ ofs → kvGet (blkRegs b t) o = kvGet (blkRegs b s) o) ∧
     (∀ (a : Nat) (be : BitVec 4) (bad : Bool), ¬(a % 4 = 0 ∧ be = 15) → exec (.registerRead p (.bar0 a) be bad) s =
       .next { s with hst := { s.hst with r := incF s.hst.r F.HST_STAT_size_err_cnt 1 }, out := s.out ++ [.read p a 0] }) ∧
     (∀ bad : Bool, 20 < b ∨ (islandBlock b = true ∨ coreReady s = true) ∧ inWindow b ofs = false ∧ findReg b ofs = none →
       exec (.registerRead p (.bar0 (b * 65536 + ofs)) 15 bad) s =
         .next { s with hst := { s.hst with r := incF s.hst.r F.HST_STAT_unmapped_cnt 1 }, out := s.out ++ [.read p (b * 65536 + ofs) 0] }) ∧
     (∀ bad : Bool, b ≤ 20 → islandBlock b = false → coreReady s = false →
       exec (.registerRead p (.bar0 (b * 65536 + ofs)) 15 bad) s = .next { s with out := s.out ++ [.read p (b * 65536 + ofs) 0] }) ∧
     (∀ (n : Fin 64) (a : Nat) (be : BitVec 4) (bad : Bool), bar2Shape a (n.val + 1) = true → exec (.registerRead p (.bar2 a n) be bad) s =
       .next { s with out := s.out ++ [.bytes p ((List.range (n.val + 1)).map fun i => bar2Byte s (a + i))] }) ∧
     (∀ a : Nat, (coreReady s = false ∨ 0xD00000 ≤ a → bar2Byte s a = 0) ∧
       (coreReady s = true → 0xC00000 ≤ a → a < 0xD00000 → bar2Byte s a = s.acq.buf.read (a - 0xC00000)) ∧
       (coreReady s = true → a < 0xC00000 → bar2Byte s a = (combRead s (a / 2 * 2)).extractLsb' (8 * (a % 2)) 8)))

/-- COMMIT of a block with staged fields captures the set staged so far (R90, R92 to R94). While strides run it waits for the
next boundary with `pending` set. Without strides it is judged at once: nothing stays captured, `accepted` is set, or
`refused` with a reason, and cause 3; with a staging copy that fails its parity it is refused with reason 0x05, applies
nothing and sends the event of the block's parity source. Of another block it is the register write of that offset.
BANK_CFG_WRITE of a used bank with values in range waits for the next boundary while strides run, and else is in force at
once; out of range it is ignored with `cfg_err`, and of a bank not used it does nothing (R178). With the core in reset
neither does anything. (Where the manual leaves a point open this is the model's reading: log entries 27, 98 and 102.) -/
def Obligations.CommitAndBankWrites : Prop :=
  (∀ (p : Path) (blk : Fin 21) (b : Fin 24) (bad : Bool) (v : Word) (s : State), coreReady s = false → islandBlock blk = false →
    exec (.commit p blk bad) s = .next s ∧ exec (.bankCfgWrite p b v) s = .next s) ∧
  ∀ (p : Path) (s : State), s.sys.up = true → coreReady s = true →
    (∀ blk : Fin 21, blk.val ∈ [4, 5, 6, 7, 10] → ∃ t, exec (.commit p blk false) s = .next t ∧
      (strides s = true → t = setRegs blk (blkRegs blk t) (putStaging blk (stagingOf blk t) s) ∧
        (stagingOf blk t).cap = some (stagingOf blk s).stg ∧ (stagingOf blk t).stg = (stagingOf blk s).stg ∧
        flag (blkRegs blk t) F.blk_COMMIT_STAT_pending = true ∧
        ∀ o, o ≠ R.blk_COMMIT_STAT → kvGet (blkRegs blk t) o = kvGet (blkRegs blk s) o) ∧
      (strides s = false → (stagingOf blk t).cap = none ∧ (stagingOf blk t).stg = [] ∧
        flag (blkRegs blk t) F.blk_COMMIT_STAT_pending = false ∧ getBit t.hst.r R.HST_IRQ_STAT 3 = true ∧
        (flag (blkRegs blk t) F.blk_COMMIT_STAT_accepted = true ∨ (flag (blkRegs blk t) F.blk_COMMIT_STAT_refused = true ∧
          getF (blkRegs blk t) F.blk_COMMIT_STAT_reason ≠ 0)) ∧
        (∀ b ∈ [4, 5, 6, 7, 10], b ≠ blk.val → stagingOf b t = stagingOf b s ∧ blkRegs b t = blkRegs b s) ∧
        t.sys = s.sys ∧ t.tbs = s.tbs ∧ t.img = s.img ∧ t.plc = s.plc ∧ t.lnk = s.lnk ∧ t.rng = s.rng ∧ t.spx = s.spx ∧ t.bgt = s.bgt ∧
        t.flt = s.flt ∧ t.svc = s.svc ∧ t.seq = s.seq ∧ t.thm = s.thm ∧ t.tag = s.tag ∧ t.nvm = s.nvm)) ∧
    (∀ blk : Fin 21, blk.val ∈ [4, 5, 6, 7, 10] → strides s = false → ∃ t, exec (.commit p blk true) s = .next t ∧
      (stagingOf blk t).cap = none ∧ (stagingOf blk t).stg = [] ∧ flag (blkRegs blk t) F.blk_COMMIT_STAT_refused = true ∧
      getF (blkRegs blk t) F.blk_COMMIT_STAT_reason = 5 ∧ getBit t.hst.r R.HST_IRQ_STAT 3 = true ∧
      t = setRegs blk (blkRegs blk t) { putStaging blk (stagingOf blk t) (raiseParity blk s) with hst := t.hst, two := t.two, out := t.out } ∧
      ∀ o, o ≠ R.blk_COMMIT_STAT → kvGet (blkRegs blk t) o = kvGet (blkRegs blk s) o) ∧
    (∀ blk : Fin 21, blk.val ∈ [4, 5, 6, 7, 10] → strides s = true → exec (.commit p blk true) s = exec (.commit p blk false) s) ∧
    (∀ (blk : Fin 21) (bad : Bool), blk.val ∉ [4, 5, 6, 7, 10] →
      exec (.commit p blk bad) s = exec (.registerWrite p (blk * 65536 + R.blk_COMMIT) 15 1) s) ∧
    (∀ (b : Fin 24) (v : Word), (usedBanks s.img.str).contains b.val = true → ∃ t, exec (.bankCfgWrite p b v) s = .next t ∧
      t = { s with plc := { s.plc with r := t.plc.r, live := t.plc.live } } ∧
      (bankCfgOk s b v = true → strides s = true → t.plc.r = s.plc.r ∧
        t.plc.live = s.plc.live ++ [{ ofs := R.PLC_BANK_CFGn b, lo := 0, width := 32, val := v.toNat }]) ∧
      (bankCfgOk s b v = true → strides s = false → t.plc.live = s.plc.live ∧ kvGet t.plc.r (R.PLC_BANK_CFGn b) = v ∧
        ∀ o, o ≠ R.PLC_BANK_CFGn b → kvGet t.plc.r o = kvGet s.plc.r o) ∧
      (bankCfgOk s b v = false → flag t.plc.r F.PLC_SHARE_STAT_cfg_err = true ∧ t.plc.live = s.plc.live ∧
        ∀ o, o ≠ R.PLC_SHARE_STAT → kvGet t.plc.r o = kvGet s.plc.r o)) ∧
    (∀ (b : Fin 24) (v : Word), (usedBanks s.img.str).contains b.val = false → exec (.bankCfgWrite p b v) s = .next s)
end

