-- ==== Sys2Proof/Laws/Frames.lean ====
section
/-! SUPPORT. The line code read back: a frame sent at running disparity 0 and received without an error gives the receiver its
data words, whole (R224 to R228). -/
namespace Sys2Proof.Laws

open Sys2Proof.Machine

theorem readCode_codeData (rd : Int) (d : Half) : readCode (codeData rd d).1 = some (.inl d) := by
  have h1 (c : BitVec 2) (x : BitVec 16) : BitVec.extractLsb' 16 2 (c ++ x) = c := by
    ext i hi
    simp only [BitVec.getElem_extractLsb']
    erw [BitVec.getLsbD_append]
    simp [hi]
  have h2 (c : BitVec 2) (x : BitVec 16) : BitVec.extractLsb' 0 16 (c ++ x) = x := by
    ext i hi
    simp only [BitVec.getElem_extractLsb']
    erw [BitVec.getLsbD_append]
    simp [hi]
  unfold codeData readCode
  split <;> simp [h1, h2]

theorem readCode_codeCtrl_eof (rd : Int) : readCode (codeCtrl rd ctlEOF).1 = some (.inr ctlEOF) := by
  unfold codeCtrl
  split
  · exact (by decide : readCode ((0 : BitVec 2) ++ ctlEOF) = some (.inr ctlEOF))
  · exact (by decide : readCode ((3 : BitVec 2) ++ ctlEOF) = some (.inr ctlEOF))

/-- A scan inside a frame that holds the data words `ws` and no error. -/
def Within (a : RxScan) (ws : List Half) : Prop :=
  a.words = ws ∧ a.open_ = true ∧ a.done = false ∧ a.abt = false ∧ a.bad = false

theorem Within.data {a : RxScan} {ws : List Half} (h : Within a ws) (rd : Int) (d : Half) :
    Within (a.word (codeData rd d).1) (ws ++ [d]) := by
  obtain ⟨h1, h2, h3, h4, h5⟩ := h
  simp [Within, RxScan.word, readCode_codeData, h1, h2, h3, h4, h5]

theorem within_codeFrom (ws : List Half) : Within ((codeFrom 0 ctlSOF ws).1.foldl RxScan.word { rd := 0 }) ws := by
  induction ws using List.reverseRecOn with
  | nil => unfold Within; decide +kernel
  | append_singleton ws w ih =>
    have step : (codeFrom 0 ctlSOF (ws ++ [w])).1 =
        (codeFrom 0 ctlSOF ws).1 ++ [(codeData (codeFrom 0 ctlSOF ws).2 w).1] := by
      simp [codeFrom, codeWords, List.foldl_append]
    rw [step, List.foldl_append]
    exact ih.data _ _

/-- The frame of the data words `ws`, sent and received from running disparity 0, at time `t`. -/
def frameOf (t : Nat) (ws : List Half) : RxFrame := { codes := (codeFrame 0 ws ctlEOF).1, rd := 0, time := t }

@[simp] theorem rxWords_frameOf (t : Nat) (ws : List Half) : rxWords (frameOf t ws) = ws := by
  obtain ⟨h1, h2, h3, h4, h5⟩ := within_codeFrom ws
  simp [rxWords, rxScan, frameOf, codeFrame, List.foldl_append, RxScan.word, readCode_codeCtrl_eof, h1, h2]

@[simp] theorem rxClean_frameOf (t n : Nat) (ws : List Half) : rxClean (frameOf t ws) n = (ws.length == n) := by
  obtain ⟨h1, h2, h3, h4, h5⟩ := within_codeFrom ws
  simp [rxClean, rxScan, frameOf, codeFrame, List.foldl_append, RxScan.word, readCode_codeCtrl_eof, h1, h2, h4, h5]

end Sys2Proof.Laws
end

