-- ==== Sys2Proof/WellFormed.lean ====
section
/-! DEFINITION. Which commands can arise: the ranges that the manual gives an operand and that its type does not. Every
meaning is total, so a command outside these ranges stops nothing; a sender has no way to form it. -/
namespace Sys2Proof

/-- An access of the buffer's window: 16 KiB at block offsets 0xC000 to 0xFFFC, by aligned words (R2, R82). -/
def bufferOfsOk (ofs : Nat) : Bool := 0xC000 ≤ ofs && ofs ≤ 0xFFFC && ofs % 4 == 0

/-- A coefficient word of the context window: banks A and B, offsets 0x000 to 0x27C (R126). -/
def coeffOfsOk (ofs : Nat) : Bool := ofs ≤ 0x27C && ofs % 4 == 0

/-- A state word of the context window: offsets 0x280 to 0x37C (R126). -/
def stateOfsOk (ofs : Nat) : Bool := 0x280 ≤ ofs && ofs ≤ 0x37C && ofs % 4 == 0

/-- An address of BAR0, which spans 2 MiB (R357). -/
def bar0Ok (ofs : Nat) : Bool := ofs < 0x200000

/-- An address of BAR2, which spans 16 MiB (R357). -/
def bar2Ok (ofs : Nat) : Bool := ofs < 0x1000000

/-- A block with staged fields (R95): CEA, BUS, PWM, ACQ, CSV. -/
def stagedBlock (b : Nat) : Bool := b == 4 || b == 5 || b == 6 || b == 7 || b == 10

/-- A point of the comb in BAR2: even byte offsets up to 0x00BF_FFFE (R299). -/
def combOfsOk (ofs : Nat) : Bool := ofs ≤ 0xBFFFFE && ofs % 2 == 0

/-- The die has twelve temperature sites, and each gives one count or none (R415, R416). -/
def sitesOk (l : List SiteReading) : Bool := l.length == 12

/-- SDA as it is read before the recovery and after each of its nine clock pulses (R389). -/
def sdaOk (l : List Bool) : Bool := l.length == 10

/-- The header of a PD message counts its data objects in bits 14:12 (R396). -/
def pdOk (m : PdMsg) : Bool := m.objs.length == m.header.toNat / 4096 % 8

/-- A transfer of port B moves at most 32 bytes each way (R382). -/
def rxOk (l : List Byte) : Bool := l.length ≤ 32

/-- A command that a sender of the block can form. -/
def Instr.wf : Instr → Bool
  | .imgBufferWrite _ ofs _ => bufferOfsOk ofs
  | .contextCoeffWrite _ ofs _ => coeffOfsOk ofs
  | .contextStateWrite _ ofs _ => stateOfsOk ofs
  | .registerWrite _ ofs _ _ => bar0Ok ofs
  | .registerRead _ (.bar0 ofs) _ _ => bar0Ok ofs
  | .registerRead _ (.bar2 ofs _) _ _ => bar2Ok ofs
  | .commit _ blk _ => stagedBlock blk
  | .combHostWrite _ ofs _ => combOfsOk ofs
  | .thmMeasure l => sitesOk l
  | .twbRecover _ l => sdaOk l
  | .pdMessageReceive m => pdOk m
  | .twbTransferEnd (.ok rx) => rxOk rx
  | .arbSrErr rx => rxOk rx
  | .twbAbort _ rx => rxOk rx
  | .twoWireTimeout _ rx => rxOk rx
  | _ => true

end Sys2Proof
end

