-- ==== Sys2Proof/Laws/PerInstr.lean ====
section
/-! SUPPORT. Per command: the family Ranges says, for each command, exactly which of its operands a sender can form. A
command that is not named below takes every operand its type admits. -/
namespace Sys2Proof.Laws

/-- What a well-formed command's operands satisfy, and nothing more. -/
def Ranges.Statement (i : Instr) : Prop :=
  match i with
  | .imgBufferWrite _ ofs _ => i.wf = true ↔ 0xC000 ≤ ofs ∧ ofs ≤ 0xFFFC ∧ ofs % 4 = 0
  | .commit _ blk _ => i.wf = true ↔ blk = 4 ∨ blk = 5 ∨ blk = 6 ∨ blk = 7 ∨ blk = 10
  | .registerWrite _ ofs _ _ => i.wf = true ↔ ofs < 0x200000
  | .contextCoeffWrite _ ofs _ => i.wf = true ↔ ofs ≤ 0x27C ∧ ofs % 4 = 0
  | .contextStateWrite _ ofs _ => i.wf = true ↔ 0x280 ≤ ofs ∧ ofs ≤ 0x37C ∧ ofs % 4 = 0
  | .combHostWrite _ ofs _ => i.wf = true ↔ ofs ≤ 0xBFFFFE ∧ ofs % 2 = 0
  | .twoWireTimeout _ rx => i.wf = true ↔ rx.length ≤ 32
  | .twbTransferEnd res => i.wf = true ↔ (∀ rx, res = .ok rx → rx.length ≤ 32)
  | .arbSrErr rx => i.wf = true ↔ rx.length ≤ 32
  | .twbAbort _ rx => i.wf = true ↔ rx.length ≤ 32
  | .twbRecover _ sda => i.wf = true ↔ sda.length = 10
  | .pdMessageReceive m => i.wf = true ↔ m.objs.length = m.header.toNat / 4096 % 8
  | .thmMeasure sites => i.wf = true ↔ sites.length = 12
  | .registerRead _ place _ _ => i.wf = true ↔ (match place with | .bar0 ofs => ofs < 0x200000 | .bar2 ofs _ => ofs < 0x1000000)
  | _ => i.wf = true

theorem Ranges.strideBoundary (chk : BoundaryChecks) : Ranges.Statement (.strideBoundary chk) := rfl
theorem Ranges.lapBoundary (chk : BoundaryChecks) : Ranges.Statement (.lapBoundary chk) := rfl
theorem Ranges.currentPlacement : Ranges.Statement (.currentPlacement) := rfl
theorem Ranges.dataPlacement : Ranges.Statement (.dataPlacement) := rfl
theorem Ranges.commitPoint (shadowBad : BitVec 16) : Ranges.Statement (.commitPoint shadowBad) := rfl
theorem Ranges.engineAbortTimeout (e : Fin 16) : Ranges.Statement (.engineAbortTimeout e) := rfl
theorem Ranges.contextStart (e : Fin 16) (bad : List Nat) : Ranges.Statement (.contextStart e bad) := rfl
theorem Ranges.contextComplete (e : Fin 16) : Ranges.Statement (.contextComplete e) := rfl
theorem Ranges.strideWatchdogExpiry : Ranges.Statement (.strideWatchdogExpiry) := rfl
theorem Ranges.paceInEdge (pos : Nat) (high : Nat) : Ranges.Statement (.paceInEdge pos high) := rfl
theorem Ranges.holdoverEntry : Ranges.Statement (.holdoverEntry) := rfl
theorem Ranges.hiveMarkReceive (port : PortEnd) (f : RxFrame) : Ranges.Statement (.hiveMarkReceive port f) := rfl
theorem Ranges.hiveCommandReceive (port : PortEnd) (f : RxFrame) : Ranges.Statement (.hiveCommandReceive port f) := rfl
theorem Ranges.hiveReportReceive (port : PortEnd) (f : RxFrame) : Ranges.Statement (.hiveReportReceive port f) := rfl
theorem Ranges.hiveReportTimeout : Ranges.Statement (.hiveReportTimeout) := rfl
theorem Ranges.lossHoldExpiry : Ranges.Statement (.lossHoldExpiry) := rfl
theorem Ranges.leaderLost : Ranges.Statement (.leaderLost) := rfl
theorem Ranges.leaderLostClear (path : Path) : Ranges.Statement (.leaderLostClear path) := rfl
theorem Ranges.reqCold (path : Path) : Ranges.Statement (.reqCold path) := rfl
theorem Ranges.reqService (path : Path) : Ranges.Statement (.reqService path) := rfl
theorem Ranges.reqIdle (path : Path) : Ranges.Statement (.reqIdle path) := rfl
theorem Ranges.reqLoaded (path : Path) : Ranges.Statement (.reqLoaded path) := rfl
theorem Ranges.reqArmed (path : Path) : Ranges.Statement (.reqArmed path) := rfl
theorem Ranges.reqRun (path : Path) : Ranges.Statement (.reqRun path) := rfl
theorem Ranges.reqHold (path : Path) : Ranges.Statement (.reqHold path) := rfl
theorem Ranges.stateChange : Ranges.Statement (.stateChange) := rfl
theorem Ranges.buildComplete : Ranges.Statement (.buildComplete) := rfl
theorem Ranges.unitWakeComplete : Ranges.Statement (.unitWakeComplete) := rfl
theorem Ranges.n1AnalysisComplete : Ranges.Statement (.n1AnalysisComplete) := rfl
theorem Ranges.claim (path : Path) : Ranges.Statement (.claim path) := rfl
theorem Ranges.release (path : Path) : Ranges.Statement (.release path) := rfl
theorem Ranges.takeOver (path : Path) : Ranges.Statement (.takeOver path) := rfl
theorem Ranges.check (path : Path) : Ranges.Statement (.check path) := rfl
theorem Ranges.checkComplete : Ranges.Statement (.checkComplete) := rfl
theorem Ranges.fetch (path : Path) (slot : Bool) : Ranges.Statement (.fetch path slot) := rfl
theorem Ranges.fetchComplete : Ranges.Statement (.fetchComplete) := rfl
theorem Ranges.store (path : Path) (slot : Bool) : Ranges.Statement (.store path slot) := rfl
theorem Ranges.storeComplete (readBackOk : Bool) : Ranges.Statement (.storeComplete readBackOk) := rfl
theorem Ranges.abort (path : Path) (moved : Nat) : Ranges.Statement (.abort path moved) := rfl
theorem Ranges.imgBufferWrite (path : Path) (ofs : Nat) (val : Word) : Ranges.Statement (.imgBufferWrite path ofs val) := by
  simp [Ranges.Statement, Instr.wf, bufferOfsOk, and_assoc]
theorem Ranges.commit (path : Path) (blk : Fin 21) (badPar : Bool) : Ranges.Statement (.commit path blk badPar) := by
  show stagedBlock blk = true ↔ _
  revert blk; decide
theorem Ranges.registerWrite (path : Path) (ofs : Nat) (be : BitVec 4) (val : Word) : Ranges.Statement (.registerWrite path ofs be val) := by
  simp [Ranges.Statement, Instr.wf, bar0Ok]
theorem Ranges.contextCoeffWrite (path : Path) (ofs : Nat) (val : Word) : Ranges.Statement (.contextCoeffWrite path ofs val) := by
  simp [Ranges.Statement, Instr.wf, coeffOfsOk]
theorem Ranges.contextStateWrite (path : Path) (ofs : Nat) (val : Word) : Ranges.Statement (.contextStateWrite path ofs val) := by
  simp [Ranges.Statement, Instr.wf, stateOfsOk, and_assoc]
theorem Ranges.snapshotRequest (path : Path) : Ranges.Statement (.snapshotRequest path) := rfl
theorem Ranges.hostVoltageTarget (path : Path) (val : Word) : Ranges.Statement (.hostVoltageTarget path val) := rfl
theorem Ranges.bankCfgWrite (path : Path) (b : Fin 24) (val : Word) : Ranges.Statement (.bankCfgWrite path b val) := rfl
theorem Ranges.carrierPeriodStart (c : Carrier) : Ranges.Statement (.carrierPeriodStart c) := rfl
theorem Ranges.carrierPeriodCentre (c : Carrier) : Ranges.Statement (.carrierPeriodCentre c) := rfl
theorem Ranges.pwmCompareEdge (c : Carrier) (on : Bool) : Ranges.Statement (.pwmCompareEdge c on) := rfl
theorem Ranges.deadTimeExpiry (p : Fin 48) : Ranges.Statement (.deadTimeExpiry p) := rfl
theorem Ranges.tripFilterAssert (t : Fin 16) : Ranges.Statement (.tripFilterAssert t) := rfl
theorem Ranges.tripFilterDeassert (t : Fin 16) : Ranges.Statement (.tripFilterDeassert t) := rfl
theorem Ranges.tripClear (path : Path) (n : Fin 2) (mask : Word) : Ranges.Statement (.tripClear path n mask) := rfl
theorem Ranges.auxCword (path : Path) (mask : BitVec 8) : Ranges.Statement (.auxCword path mask) := rfl
theorem Ranges.adcConversion : Ranges.Statement (.adcConversion) := rfl
theorem Ranges.rawCodeOut (lane : Fin 16) (code : BitVec 14) : Ranges.Statement (.rawCodeOut lane code) := rfl
theorem Ranges.channelResult (ain : Fin 128) : Ranges.Statement (.channelResult ain) := rfl
theorem Ranges.fetchGo (path : Path) (lanes : BitVec 16) : Ranges.Statement (.fetchGo path lanes) := rfl
theorem Ranges.refEnable (path : Path) (en : Bool) : Ranges.Statement (.refEnable path en) := rfl
theorem Ranges.refReady : Ranges.Statement (.refReady) := rfl
theorem Ranges.calZero (path : Path) (ain : Fin 128) (count : BitVec 16) : Ranges.Statement (.calZero path ain count) := rfl
theorem Ranges.calFullScale (path : Path) (ain : Fin 128) (count : BitVec 16) : Ranges.Statement (.calFullScale path ain count) := rfl
theorem Ranges.calAbort (path : Path) : Ranges.Statement (.calAbort path) := rfl
theorem Ranges.calCaptureComplete : Ranges.Statement (.calCaptureComplete) := rfl
theorem Ranges.owStart (path : Path) : Ranges.Statement (.owStart path) := rfl
theorem Ranges.owAbort (path : Path) : Ranges.Statement (.owAbort path) := rfl
theorem Ranges.owPhaseComplete : Ranges.Statement (.owPhaseComplete) := rfl
theorem Ranges.streamTripStop (str : Fin 4) : Ranges.Statement (.streamTripStop str) := rfl
theorem Ranges.linkAligned (port : Fin 50) : Ranges.Statement (.linkAligned port) := rfl
theorem Ranges.linkEcho (port : Fin 50) : Ranges.Statement (.linkEcho port) := rfl
theorem Ranges.echoRequest (port : Fin 50) (wait : BitVec 7) : Ranges.Statement (.echoRequest port wait) := rfl
theorem Ranges.echoReply (port : Fin 50) (trip : Nat) (turn : Half) : Ranges.Statement (.echoReply port trip turn) := rfl
theorem Ranges.linkUp (port : Fin 50) : Ranges.Statement (.linkUp port) := rfl
theorem Ranges.trainTimeout (port : Fin 50) : Ranges.Statement (.trainTimeout port) := rfl
theorem Ranges.lockLoss (port : Fin 50) (errs : LockErrors) (cut : LockCut) : Ranges.Statement (.lockLoss port errs cut) := rfl
theorem Ranges.bypassClose : Ranges.Statement (.bypassClose) := rfl
theorem Ranges.bypassOpen : Ranges.Statement (.bypassOpen) := rfl
theorem Ranges.batonArrival (ring : Fin 24) (port : PortEnd) (f : RxFrame) : Ranges.Statement (.batonArrival ring port f) := rfl
theorem Ranges.batonLost (ring : Fin 24) (port : PortEnd) : Ranges.Statement (.batonLost ring port) := rfl
theorem Ranges.ringTrainTimeout (ring : Fin 24) : Ranges.Statement (.ringTrainTimeout ring) := rfl
theorem Ranges.enumerationReturn (ring : Fin 24) (port : PortEnd) (f : RxFrame) : Ranges.Statement (.enumerationReturn ring port f) := rfl
theorem Ranges.enumerationTimeout (ring : Fin 24) : Ranges.Statement (.enumerationTimeout ring) := rfl
theorem Ranges.probeReturn (ring : Fin 24) (port : PortEnd) (f : RxFrame) : Ranges.Statement (.probeReturn ring port f) := rfl
theorem Ranges.waggleAck (ring : Fin 24) (port : PortEnd) : Ranges.Statement (.waggleAck ring port) := rfl
theorem Ranges.waggleDesc (ring : Fin 24) (port : PortEnd) : Ranges.Statement (.waggleDesc ring port) := rfl
theorem Ranges.waggleUplinkOther (ring : Fin 24) (port : PortEnd) : Ranges.Statement (.waggleUplinkOther ring port) := rfl
theorem Ranges.waggleReplyTimeout (ring : Fin 24) (port : PortEnd) : Ranges.Statement (.waggleReplyTimeout ring port) := rfl
theorem Ranges.waggleSendComplete (ring : Fin 24) (port : PortEnd) : Ranges.Statement (.waggleSendComplete ring port) := rfl
theorem Ranges.mailboxSend (path : Path) : Ranges.Statement (.mailboxSend path) := rfl
theorem Ranges.enumerate (path : Path) (ring : Fin 24) : Ranges.Statement (.enumerate path ring) := rfl
theorem Ranges.probeAgain (path : Path) (ring : Fin 24) : Ranges.Statement (.probeAgain path ring) := rfl
theorem Ranges.sleepBroadcast (path : Path) (ring : Fin 24) : Ranges.Statement (.sleepBroadcast path ring) := rfl
theorem Ranges.wakeBroadcast (path : Path) (ring : Fin 24) : Ranges.Statement (.wakeBroadcast path ring) := rfl
theorem Ranges.ringSplit (ring : Fin 24) : Ranges.Statement (.ringSplit ring) := rfl
theorem Ranges.ringWhole (ring : Fin 24) : Ranges.Statement (.ringWhole ring) := rfl
theorem Ranges.nodeSilent (ring : Fin 24) (node : Fin 256) : Ranges.Statement (.nodeSilent ring node) := rfl
theorem Ranges.sweepRunCheck (ring : Fin 24) : Ranges.Statement (.sweepRunCheck ring) := rfl
theorem Ranges.headroomDeadline (bank : Fin 24) : Ranges.Statement (.headroomDeadline bank) := rfl
theorem Ranges.diagRunJudge (ring : Fin 24) : Ranges.Statement (.diagRunJudge ring) := rfl
theorem Ranges.wireTestCmd (path : Path) (val : Word) : Ranges.Statement (.wireTestCmd path val) := rfl
theorem Ranges.balCmd (path : Path) (val : Word) : Ranges.Statement (.balCmd path val) := rfl
theorem Ranges.quietDisWrite (path : Path) (val : Word) : Ranges.Statement (.quietDisWrite path val) := rfl
theorem Ranges.limitsRebroadcast (ring : Fin 24) : Ranges.Statement (.limitsRebroadcast ring) := rfl
theorem Ranges.combHostWrite (path : Path) (ofs : Nat) (val : Half) : Ranges.Statement (.combHostWrite path ofs val) := by
  simp [Ranges.Statement, Instr.wf, combOfsOk]
theorem Ranges.campaignStart (path : Path) : Ranges.Statement (.campaignStart path) := rfl
theorem Ranges.campaignStop (path : Path) : Ranges.Statement (.campaignStop path) := rfl
theorem Ranges.campaignBroadcast : Ranges.Statement (.campaignBroadcast) := rfl
theorem Ranges.streamSampleTake (ring : Fin 24) : Ranges.Statement (.streamSampleTake ring) := rfl
theorem Ranges.phasorRunReceive (ring : Fin 24) : Ranges.Statement (.phasorRunReceive ring) := rfl
theorem Ranges.windowEnd (ring : Fin 24) (node : Fin 256) : Ranges.Statement (.windowEnd ring node) := rfl
theorem Ranges.binWrite : Ranges.Statement (.binWrite) := rfl
theorem Ranges.excitationRampEnd : Ranges.Statement (.excitationRampEnd) := rfl
theorem Ranges.faultEventTake : Ranges.Statement (.faultEventTake) := rfl
theorem Ranges.faultClear (path : Path) (n : Fin 4) (mask : Word) : Ranges.Statement (.faultClear path n mask) := rfl
theorem Ranges.tripLatchRelease (path : Path) (n : Fin 4) (mask : Word) : Ranges.Statement (.tripLatchRelease path n mask) := rfl
theorem Ranges.hostFaultRaise (path : Path) (val : Word) : Ranges.Statement (.hostFaultRaise path val) := rfl
theorem Ranges.nvmLogWrite : Ranges.Statement (.nvmLogWrite) := rfl
theorem Ranges.hostLinkReset : Ranges.Statement (.hostLinkReset) := rfl
theorem Ranges.dmaWrite (ring : Fin 16) : Ranges.Statement (.dmaWrite ring) := rfl
theorem Ranges.dmaEnable (path : Path) (ring : Fin 16) (val : Word) : Ranges.Statement (.dmaEnable path ring val) := rfl
theorem Ranges.dmaRptrWrite (path : Path) (ring : Fin 16) (val : Word) : Ranges.Statement (.dmaRptrWrite path ring val) := rfl
theorem Ranges.dmaHoldExpiry (ring : Fin 16) : Ranges.Statement (.dmaHoldExpiry ring) := rfl
theorem Ranges.msixUnmask (vec : Fin 32) : Ranges.Statement (.msixUnmask vec) := rfl
theorem Ranges.spiReadRegisters (uart : Bool) (bytes : List Byte) : Ranges.Statement (.spiReadRegisters uart bytes) := rfl
theorem Ranges.spiWriteRegisters (uart : Bool) (bytes : List Byte) : Ranges.Statement (.spiWriteRegisters uart bytes) := rfl
theorem Ranges.spiReadBar2 (uart : Bool) (bytes : List Byte) : Ranges.Statement (.spiReadBar2 uart bytes) := rfl
theorem Ranges.spiWriteComb (uart : Bool) (bytes : List Byte) : Ranges.Statement (.spiWriteComb uart bytes) := rfl
theorem Ranges.spiReadStatus (uart : Bool) (bytes : List Byte) : Ranges.Statement (.spiReadStatus uart bytes) := rfl
theorem Ranges.spiFrameShort (bytes : List Byte) : Ranges.Statement (.spiFrameShort bytes) := rfl
theorem Ranges.uartGapTimeout (bytes : List Byte) : Ranges.Statement (.uartGapTimeout bytes) := rfl
theorem Ranges.pointer (x : CmdBytes) : Ranges.Statement (.pointer x) := rfl
theorem Ranges.block (x : CmdBytes) : Ranges.Statement (.block x) := rfl
theorem Ranges.dataWrite (bytes : List Byte) : Ranges.Statement (.dataWrite bytes) := rfl
theorem Ranges.dataRead (n : Nat) : Ranges.Statement (.dataRead n) := rfl
theorem Ranges.vset (x : CmdBytes) : Ranges.Statement (.vset x) := rfl
theorem Ranges.vtarget (x : CmdBytes) : Ranges.Statement (.vtarget x) := rfl
theorem Ranges.vslewed (x : CmdBytes) : Ranges.Statement (.vslewed x) := rfl
theorem Ranges.vlimits (x : CmdBytes) : Ranges.Statement (.vlimits x) := rfl
theorem Ranges.status (x : CmdBytes) : Ranges.Statement (.status x) := rfl
theorem Ranges.alertResponse (port : PortEnd) (won : Bool) : Ranges.Statement (.alertResponse port won) := rfl
theorem Ranges.twoWireTimeout (port : PortEnd) (rx : List Byte) : Ranges.Statement (.twoWireTimeout port rx) := by
  simp [Ranges.Statement, Instr.wf, rxOk]
theorem Ranges.portABusStuck : Ranges.Statement (.portABusStuck) := rfl
theorem Ranges.twoWireWake (port : PortEnd) : Ranges.Statement (.twoWireWake port) := rfl
theorem Ranges.twbGo (path : Path) (val : Word) : Ranges.Statement (.twbGo path val) := rfl
theorem Ranges.twbTransferStart : Ranges.Statement (.twbTransferStart) := rfl
theorem Ranges.twbTransferEnd (res : TwbResult) : Ranges.Statement (.twbTransferEnd res) := by
  cases res <;> simp [Ranges.Statement, Instr.wf, rxOk]
theorem Ranges.twbArbitrationLost (winner : Option (BitVec 7)) : Ranges.Statement (.twbArbitrationLost winner) := rfl
theorem Ranges.arbSrErr (rx : List Byte) : Ranges.Statement (.arbSrErr rx) := by
  simp [Ranges.Statement, Instr.wf, rxOk]
theorem Ranges.twbAbort (path : Path) (rx : List Byte) : Ranges.Statement (.twbAbort path rx) := by
  simp [Ranges.Statement, Instr.wf, rxOk]
theorem Ranges.twbRecover (path : Option Path) (sda : List Bool) : Ranges.Statement (.twbRecover path sda) := by
  simp [Ranges.Statement, Instr.wf, sdaOk]
theorem Ranges.mailboxWrite (bytes : List Byte) : Ranges.Statement (.mailboxWrite bytes) := rfl
theorem Ranges.mailboxRead (ofs : Byte) (n : Nat) : Ranges.Statement (.mailboxRead ofs n) := rfl
theorem Ranges.twbAlertAssert (path : Path) : Ranges.Statement (.twbAlertAssert path) := rfl
theorem Ranges.twbAlertSeen : Ranges.Statement (.twbAlertSeen) := rfl
theorem Ranges.serviceIslandPowerUp (cc : CcSense) : Ranges.Statement (.serviceIslandPowerUp cc) := rfl
theorem Ranges.pdMessageReceive (m : PdMsg) : Ranges.Statement (.pdMessageReceive m) := by
  simp [Ranges.Statement, Instr.wf, pdOk]
theorem Ranges.pdSend (path : Path) : Ranges.Statement (.pdSend path) := rfl
theorem Ranges.sendSoftReset (path : Path) : Ranges.Statement (.sendSoftReset path) := rfl
theorem Ranges.sendHardReset (path : Path) : Ranges.Statement (.sendHardReset path) := rfl
theorem Ranges.hardResetReceive : Ranges.Statement (.hardResetReceive) := rfl
theorem Ranges.hardResetRecovery : Ranges.Statement (.hardResetRecovery) := rfl
theorem Ranges.responseTimeout : Ranges.Statement (.responseTimeout) := rfl
theorem Ranges.rxPop (path : Path) : Ranges.Statement (.rxPop path) := rfl
theorem Ranges.hostPolicyTake (path : Path) : Ranges.Statement (.hostPolicyTake path) := rfl
theorem Ranges.sourcePathRequest (path : Path) : Ranges.Statement (.sourcePathRequest path) := rfl
theorem Ranges.sourcePathClose (mv : BitVec 16) : Ranges.Statement (.sourcePathClose mv) := rfl
theorem Ranges.sourceGuardTimeout : Ranges.Statement (.sourceGuardTimeout) := rfl
theorem Ranges.prSwap (path : Path) : Ranges.Statement (.prSwap path) := rfl
theorem Ranges.prSwapTimeout : Ranges.Statement (.prSwapTimeout) := rfl
theorem Ranges.vconnSwap (path : Path) : Ranges.Statement (.vconnSwap path) := rfl
theorem Ranges.vconnOn : Ranges.Statement (.vconnOn) := rfl
theorem Ranges.detach (mv : BitVec 16) : Ranges.Statement (.detach mv) := rfl
theorem Ranges.seqOn (path : Path) : Ranges.Statement (.seqOn path) := rfl
theorem Ranges.seqOff (path : Path) : Ranges.Statement (.seqOff path) := rfl
theorem Ranges.seqTick (pg : BitVec 16) : Ranges.Statement (.seqTick pg) := rfl
theorem Ranges.pgTimeout (rail : Fin 16) : Ranges.Statement (.pgTimeout rail) := rfl
theorem Ranges.fallTimeout (rail : Fin 16) : Ranges.Statement (.fallTimeout rail) := rfl
theorem Ranges.thmMeasure (sites : List SiteReading) : Ranges.Statement (.thmMeasure sites) := by
  simp [Ranges.Statement, Instr.wf, sitesOk]
theorem Ranges.tagResetPresence (path : Path) (line : Fin 4) : Ranges.Statement (.tagResetPresence path line) := rfl
theorem Ranges.tagSearch (path : Path) (line : Fin 4) : Ranges.Statement (.tagSearch path line) := rfl
theorem Ranges.tagRead (path : Path) (line : Fin 4) (blk : Fin 8) : Ranges.Statement (.tagRead path line blk) := rfl
theorem Ranges.tagCommandEnd (line : Fin 4) (ans : List TagAnswer) : Ranges.Statement (.tagCommandEnd line ans) := rfl
theorem Ranges.tagShort (line : Fin 4) : Ranges.Statement (.tagShort line) := rfl
theorem Ranges.vtagLoss : Ranges.Statement (.vtagLoss) := rfl
theorem Ranges.nvmWritePage (path : Path) : Ranges.Statement (.nvmWritePage path) := rfl
theorem Ranges.nvmUnlockRead (path : Path) : Ranges.Statement (.nvmUnlockRead path) := rfl
theorem Ranges.nvmUnlockWrite (path : Path) : Ranges.Statement (.nvmUnlockWrite path) := rfl
theorem Ranges.nvmLock (path : Path) : Ranges.Statement (.nvmLock path) := rfl
theorem Ranges.nvmSetReadPassword (path : Path) : Ranges.Statement (.nvmSetReadPassword path) := rfl
theorem Ranges.nvmSetWritePassword (path : Path) : Ranges.Statement (.nvmSetWritePassword path) := rfl
theorem Ranges.nvmIncrement (path : Path) (ctr : Fin 8) : Ranges.Statement (.nvmIncrement path ctr) := rfl
theorem Ranges.nvmCommandComplete : Ranges.Statement (.nvmCommandComplete) := rfl
theorem Ranges.pwBackoffEnd : Ranges.Statement (.pwBackoffEnd) := rfl
theorem Ranges.nvmPowerUpScan : Ranges.Statement (.nvmPowerUpScan) := rfl
theorem Ranges.deviceReset : Ranges.Statement (.deviceReset) := rfl
theorem Ranges.resetRelease (pcieEn : Bool) (adr : BitVec 3) : Ranges.Statement (.resetRelease pcieEn adr) := rfl
theorem Ranges.coreDomainReady : Ranges.Statement (.coreDomainReady) := rfl
theorem Ranges.coreSupplyLoss (vlnk : Bool) : Ranges.Statement (.coreSupplyLoss vlnk) := rfl
theorem Ranges.supplyFall (rail : Fin 6) : Ranges.Statement (.supplyFall rail) := rfl
theorem Ranges.dataPlacementComplete : Ranges.Statement (.dataPlacementComplete) := rfl
theorem Ranges.unitPowerDownComplete : Ranges.Statement (.unitPowerDownComplete) := rfl
theorem Ranges.registerRead (path : Path) (place : ReadPlace) (be : BitVec 4) (badPar : Bool) : Ranges.Statement (.registerRead path place be badPar) := by
  cases place <;> simp [Ranges.Statement, Instr.wf, bar0Ok, bar2Ok]
theorem Ranges.pcieLinkUp (speed lanes : BitVec 2) (host : EndpointSet) : Ranges.Statement (.pcieLinkUp speed lanes host) := rfl
theorem Ranges.attach (cc : CcSense) (step : AttachStep) : Ranges.Statement (.attach cc step) := rfl
theorem Ranges.prSwapVbusArrival (mv : BitVec 16) : Ranges.Statement (.prSwapVbusArrival mv) := rfl
theorem Ranges.goodcrcTimeout : Ranges.Statement (.goodcrcTimeout) := rfl
theorem Ranges.vsvcLoss : Ranges.Statement (.vsvcLoss) := rfl
theorem Ranges.supplyRise (sup : Fin 6) : Ranges.Statement (.supplyRise sup) := rfl
theorem Ranges.clockLockLoss : Ranges.Statement (.clockLockLoss) := rfl
theorem Ranges.spiInvalidOpcode (uart : Bool) (bytes : List Byte) : Ranges.Statement (.spiInvalidOpcode uart bytes) := rfl
theorem Ranges.unknownCommandByte (bytes : List Byte) : Ranges.Statement (.unknownCommandByte bytes) := rfl

end Sys2Proof.Laws
end

