-- ==== Sys2Proof/Tests/Slice0.lean ====
section
/-! SUPPORT. Tests: the WellFormed smoke, one witness theorem for every statement with hypotheses (a concrete state and
operands that meet each clause's hypotheses together), and small tests of single steps against values from the manual. -/
namespace Sys2Proof.Tests

-- One theorem after another: elaborated side by side, their threads take more memory than the check allows.
set_option Elab.async false

open Sys2Proof.Machine Sys2Proof.Laws

/-! ## States -/

/-- The state after reset with the service island and the core domain up, in operating state `st`. -/
def up (st : Nat) : State :=
  { State.reset with sys := { rstN := true, up := true, r := setF (setFlag sysReset F.SYS_PWR_STAT_core_ready) F.SYS_STATE_STAT_state st } }

/-- A field of block `b` set to `v`. -/
def fld (b : Nat) (f : Fld) (v : Nat) (s : State) : State := setRegs b (setF (blkRegs b s) f v) s

/-- Ring `r` in state `st` with the contents `x`. -/
def ring (r : Fin 24) (st : Nat) (x : RingSt) (s : State) : State :=
  fld 9 (F.RNG_RINGr_STAT_state r) st { s with rng := { s.rng with ring := s.rng.ring.set r x } }

/-- Port `p` in state `x`. -/
def port (p : Fin 50) (x : LnkPort) (s : State) : State := { s with lnk := { s.lnk with port := s.lnk.port.set p x } }

/-- The image in force. -/
def img (x : Img) (s : State) : State := { s with img := { s.img with str := x } }

/-- Node 1 claimed and served from port A, with five cells. -/
def oneNode : List RNode := {} :: { claimed := true, cells := 5, reachA := true, serve := some .a } :: List.replicate 254 {}

/-- What the store answers after a whole-word write of `v` to the register at `ofs` of block `b`. -/
def write (b ofs : Nat) (v : Word) (s : State) : State :=
  match exec (.registerWrite .pcie (b * 65536 + ofs) 15 v) s with
  | .next t => t
  | _ => s

/-- The next state of a command. -/
def after (c : Instr) (s : State) : State :=
  match exec c s with
  | .next t => t
  | _ => s


/-! ## WellFormed: a well-formed command, and one ill-formed command for each check -/

theorem test_wf_accepts :
    (Instr.imgBufferWrite .pcie 0xC000 5).wf = true ∧ (Instr.contextCoeffWrite .spi 0x27C 0).wf = true ∧
    (Instr.contextStateWrite .spi 0x37C 0).wf = true ∧ (Instr.registerWrite .svc 0x1FFFFF 15 0).wf = true ∧
    (Instr.registerRead .portA (.bar0 0x1FFFFF) 15 false).wf = true ∧ (Instr.registerRead .spi (.bar2 0xFFFFFF 63) 15 false).wf = true ∧ (Instr.commit .pcie 4 false).wf = true ∧ (Instr.combHostWrite .pcie 0xBFFFFE 1).wf = true ∧
    (Instr.thmMeasure (List.replicate 12 none)).wf = true ∧ (Instr.twbRecover none (List.replicate 10 true)).wf = true ∧
    (Instr.pdMessageReceive { sop := 0, header := 0x1000, objs := [7] }).wf = true ∧ (Instr.twbTransferEnd (.ok [])).wf = true := by
  decide +kernel

theorem test_wf_refuses :
    (Instr.imgBufferWrite .pcie 0xBFFC 5).wf = false ∧ (Instr.imgBufferWrite .pcie 0xC002 5).wf = false ∧
    (Instr.contextCoeffWrite .spi 0x280 0).wf = false ∧ (Instr.contextStateWrite .spi 0x27C 0).wf = false ∧
    (Instr.registerWrite .svc 0x200000 15 0).wf = false ∧ (Instr.registerRead .portA (.bar0 0x200000) 15 false).wf = false ∧
    (Instr.registerRead .spi (.bar2 0x1000000 0) 15 false).wf = false ∧
    (Instr.commit .pcie 8 false).wf = false ∧ (Instr.combHostWrite .pcie 0xC00000 1).wf = false ∧
    (Instr.thmMeasure []).wf = false ∧ (Instr.twbRecover none [true]).wf = false ∧
    (Instr.pdMessageReceive { sop := 0, header := 0x1000, objs := [] }).wf = false ∧
    (Instr.twbTransferEnd (.ok (List.replicate 33 0))).wf = false ∧ (Instr.arbSrErr (List.replicate 33 0)).wf = false ∧
    (Instr.twbAbort .pcie (List.replicate 33 0)).wf = false ∧ (Instr.twoWireTimeout .a (List.replicate 33 0)).wf = false := by
  decide +kernel


/-! ## Witnesses: the whole machine -/

theorem witness_StepRunsFrontCommand :
    (up 4).pending = [] ∧ strides (up 4) = true ∧ (up 4).tbs.clock + 1 < (up 4).tbs.len ∧
    (up 3).pending = [] ∧ strides (up 3) = false := by decide +kernel

theorem witness_OutputsExclude :
    State.reset.outputsExclusive ∧ step State.reset = .next State.reset :=
  ⟨fun p => by unfold PhaseCh.exclusive; revert p; decide +kernel, rfl⟩

theorem witness_MemoriesStayCanonical :
    State.reset.memoriesCanonical ∧ step State.reset = .next State.reset :=
  ⟨by unfold State.memoriesCanonical; decide +kernel, rfl⟩

theorem witness_NvmWriteRefused :
    (up 3).sys.up = true ∧ (∀ i < 64, getMap (up 3).nvm.r R.NVM_MASK_LO i = false) ∧ flag (up 3).nvm.r F.NVM_STAT_wr_unlocked = false ∧
    (let s := fld 20 F.NVM_MASK_LO_mask 1 (up 3)
     s.sys.up = true ∧ ∃ q ∈ pageBytes s.nvm.r, hostWrites q.1 = false) ∧
    (let s := { up 3 with nvm := { cmds := [.lock] } }
     s.sys.up = true ∧ s.nvm.cmds ≠ []) := by decide +kernel

theorem witness_SensorClearsRefused :
    (let s := fld 17 F.SEQ_STAT_state 2 { up 3 with flt := { src := Vector.replicate 128 { active := true } }, seq := { rails := [{ en := true }] } }
     coreReady s = true ∧ s.flt.src[(27 : Fin 128)].active = true ∧ seqState s.seq = 2 ∧
     ∃ x ∈ s.seq.rails, x.en = true ∧ railGood x = false) ∧
    (let s := fld 18 (F.THM_SITEn_temp 11) 32767 { up 3 with flt := { src := Vector.replicate 128 { active := true } } }
     coreReady s = true ∧ s.flt.src[(26 : Fin 128)].active = true ∧ ∃ i < 12, siteMasked s.thm.r i = false ∧
      ((getF s.thm.r F.THM_CFG_t_crit : Int) - getF s.thm.r F.THM_CFG_hyst) * 100 ≤ getFI s.thm.r (F.THM_SITEn_temp i)) := by
  decide +kernel

/-- A state with one event of source `k` in queue 9, the source configured as `x`. -/
def oneEvent (k : Fin 128) (x : Src) : State :=
  { up 3 with flt := { q9 := [{ src := k, unit := 5, sub := 6 }], src := Vector.replicate 128 x } }

theorem witness_HostFaultRaise :
    ((23 : Word).toNat % 256 ≤ 23 ∧ (0xFF : Word).toNat % 256 = 255 ∧ 24 ≤ (24 : Word).toNat % 256 ∧ (254 : Word).toNat % 256 ≠ 255) ∧
    (let s := oneEvent 112 { cls := 127 }
     coreReady s = true ∧ 3 ≤ opState s ∧ s.flt.held = [] ∧ s.flt.q9 = [{ src := 112, unit := 5, sub := 6 }] ∧ s.flt.src[(112 : Fin 128)].cls < 128) ∧
    (let s := oneEvent 127 { cls := 128, thresh := 2 }
     coreReady s = true ∧ 3 ≤ opState s ∧ s.flt.held = [] ∧ s.flt.q9 = [{ src := 127, unit := 5, sub := 6 }] ∧ 128 ≤ s.flt.src[(127 : Fin 128)].cls ∧
     s.flt.src[(127 : Fin 128)].active = false ∧ s.flt.src[(127 : Fin 128)].isOpen = false ∧ 2 ≤ s.flt.src[(127 : Fin 128)].thresh) ∧
    (let s := oneEvent 112 { cls := 131, thresh := 1 }
     128 ≤ s.flt.src[(112 : Fin 128)].cls ∧ s.flt.src[(112 : Fin 128)].active = false ∧ s.flt.src[(112 : Fin 128)].isOpen = false ∧
     s.flt.src[(112 : Fin 128)].thresh ≤ 1) := by decide +kernel

theorem witness_SatFlag :
    (let s := { up 5 with cea := { ctxs := [{}], eng := Vector.replicate 16 { run := some 0 } } }
     coreReady s = true ∧ 0 < s.cea.ctxs.length ∧ s.cea.eng[(15 : Fin 16)].run = some 0 ∧ s.cea.eng[(15 : Fin 16)].aborting = false) ∧
    (let s := { up 5 with cea := { ctxs := [{}], eng := Vector.replicate 16 { run := some 0, aborting := true } } }
     coreReady s = true ∧ 0 < s.cea.ctxs.length ∧ s.cea.eng[(0 : Fin 16)].aborting = true) := by decide +kernel


/-! ## Witnesses: the loader -/

/-- PCIe owns the loader, which runs `j`. -/
def owned (j : Option Job) : State :=
  fld 2 F.IMG_STAT_busy j.isSome.toNat (fld 2 F.IMG_STAT_owner 1 { up 3 with img := { job := j } })

theorem witness_LoaderOwnership :
    ((owned none).sys.up = true ∧ imgBusy (owned none) = false ∧ imgOwner (owned none) = pathCode .pcie ∧ imgOwner (owned none) ≠ pathCode .spi ∧
     0xC000 ≤ 0xC000 ∧ imgOwner (up 3) = 0 ∧ imgBusy (up 3) = false ∧ (owned none).img.job = none) ∧
    (let s := owned (some (.check false))
     s.sys.up = true ∧ imgOwner s = pathCode .pcie ∧ s.img.job = some (.check false) ∧ imgOwner s ≠ pathCode .svc) ∧
    (let s := owned (some (.fetch 1))
     s.sys.up = true ∧ imgOwner s = pathCode .pcie ∧ s.img.job = some (.fetch 1)) ∧
    (let s := owned (some (.store 0))
     s.sys.up = true ∧ imgOwner s = pathCode .pcie ∧ s.img.job = some (.store 0)) := by decide +kernel

/-- A store whose slot 0 holds 256 bytes and is valid, with slot 1 active. -/
def slot0 : Memory := [(0x9, 1), (0x3C000, 1), (0x3C001, 0xA5)]

theorem witness_LoaderJobs :
    (let s := fld 20 F.NVM_STAT_wr_unlocked 1 (fld 2 F.IMG_STAT_checked 1 { owned none with nvm := { mem := slot0 } })
     s.sys.up = true ∧ imgBusy s = false ∧ imgOwner s = pathCode .pcie ∧ nvmValid s.nvm.mem 0 = true ∧ 256 ≤ slotLen s.nvm.mem 0 ∧
     slotLen s.nvm.mem 0 ≤ 114688 ∧ nvmValid s.nvm.mem 1 = false ∧ flag s.img.r F.IMG_STAT_checked = true ∧ nvmActive s.nvm.mem ≠ 0 ∧
     flag s.nvm.r F.NVM_STAT_wr_unlocked = true ∧ s.nvm.mem.wf = true ∧ s.img.buf.wf = true) ∧
    (owned (some (.check false))).img.job = some (.check false) ∧ (owned (some (.store 1))).img.job = some (.store 1) ∧
    (let s := { owned (some (.fetch 0)) with nvm := { mem := slot0 } }
     s.sys.up = true ∧ s.img.job = some (.fetch 0) ∧ slotLen s.nvm.mem 0 ≤ 114688 ∧ 0 < slotLen s.nvm.mem 0 ∧ s.nvm.mem.wf = true ∧
     s.img.buf.wf = true) := by decide +kernel

theorem witness_LoaderAbort :
    (let s := owned (some (.check false))
     s.sys.up = true ∧ imgOwner s = pathCode .pcie ∧ s.img.job = some (.check false) ∧ imgOwner s ≠ pathCode .portA) ∧
    (owned (some (.fetch 5))).img.job = some (.fetch 5) ∧ imgOwner (owned (some (.fetch 5))) = pathCode .pcie ∧
    (let s := { owned (some (.store 1)) with nvm := { mem := slot0 } }
     imgOwner s = pathCode .pcie ∧ s.img.job = some (.store 1) ∧ 1 < 2 ∧ s.nvm.mem.wf = true ∧ s.img.buf.wf = true ∧ nvmValid s.nvm.mem 1 = false) ∧
    imgOwner (owned none) = pathCode .pcie ∧ (owned none).img.job = none := by decide +kernel

/-- A request for LOADED waits for the build of the empty image; the units in `on` are awake. -/
def building (on : Word) : State :=
  { up 3 with sys := { (up 3).sys with req := some { target := 4, phase := .build } }, bgt := { on := on }, img := { job := some .build, next := some {} } }

theorem witness_BuildAndUnits :
    (let s := building 0xFFFFFFFF
     coreReady s = true ∧ s.img.job = some .build ∧ s.img.next = some {} ∧ (imgPack {}).reason = 0 ∧
     s.sys.req = some { target := 4, phase := .build } ∧ opState s = 3 ∧ unitsReady { s with img := { s.img with ready := some {} } } = true) ∧
    (let s := fld 7 F.ACQ_REF_en 1 (building 0)
     coreReady s = true ∧ s.img.job = some .build ∧ s.img.next = some {} ∧
     s.sys.req = some { target := 4, phase := .build } ∧ unitsReady { s with img := { s.img with ready := some {} } } = false) ∧
    (let s := { up 3 with bgt := { wake := [16, 3] } }
     coreReady s = true ∧ s.sys.req = none ∧ s.bgt.down = [] ∧ s.bgt.wake = 16 :: [3]) ∧
    (let s := { up 3 with bgt := { wake := [23] } }
     s.bgt.down = [] ∧ s.bgt.wake = 23 :: [] ∧ ¬(16 ≤ 23 ∧ 23 < 23)) := by decide +kernel


/-! ## Witnesses: operating states -/

/-- A state request for `t` that stands at `f`. -/
def reqAt (t : Nat) (f : ReqPhase) (s : State) : State := { s with sys := { s.sys with req := some { target := t, phase := f } } }

/-- State `n` with the core domain held in reset. -/
def held (n : Nat) : State := { up n with sys := { (up n).sys with r := setF sysReset F.SYS_STATE_STAT_state n } }

/-- LOADED with an image that passes the check for ARMED in the hive role `role`. -/
def armable (role size : Nat) : State :=
  img { role := role, hSize := size, ctxs := if role = 2 then [] else [{ nSec := 1, coeffOff := 4, outs := [{ kind := 0x12 }] }], coeffLen := 24 } (fld 1 F.TBS_SYNC_CFG_src role (fld 7 F.ACQ_STAT_ref_ready 1 (up 4)))

theorem witness_StateRequestsJudged :
    (reqAt 7 .boundary (up 6)).sys.up = true ∧ (reqAt 7 .boundary (up 6)).sys.req ≠ none ∧
    (up 6).sys.up = true ∧ (up 6).sys.req = none ∧ 6 = opState (up 6) ∧ 1 ≠ opState (up 6) ∧ permitted (opState (up 6)) 1 = false := by
  decide +kernel

theorem witness_BoundaryRequestsAccepted :
    (∀ x ∈ [(4, 3), (7, 4), (6, 7)], (up x.1).sys.up = true ∧ (up x.1).sys.req = none ∧ 4 ≤ opState (up x.1) ∧
      permitted (opState (up x.1)) x.2 = true) ∧
    (permitted (opState (up 5)) 6 = true ∧ getF (up 5).bgt.r F.BGT_GD_CFG_gd_ma_total = 0) ∧
    (∀ x ∈ [(2, 2), (1, 2)], let s := armable x.1 x.2
     s.sys.up = true ∧ s.sys.req = none ∧ permitted (opState s) 5 = true ∧ armCheck s = none ∧ flag s.acq.r F.ACQ_STAT_ref_ready = true ∧
     ringsArmOk s = true ∧ s.img.str.role = x.1 ∧ 1 < s.img.str.hSize) := by decide +kernel

theorem witness_RequestsRefusedWithReason :
    ((held 2).sys.up = true ∧ (held 2).sys.req = none ∧ opState (held 2) = 2 ∧ coreReady (held 2) = false) ∧
    (let s := fld 2 F.IMG_STAT_busy 1 (up 3)
     opState s = 3 ∧ imgBusy s = true) ∧
    (opState (fld 1 F.TBS_SYNC_CFG_src 3 (up 4)) = 4 ∧ armCheck (fld 1 F.TBS_SYNC_CFG_src 3 (up 4)) ≠ none) ∧
    (let s := fld 7 F.ACQ_STAT_ref_ready 0 (armable 2 2)
     opState s = 4 ∧ armCheck s = none ∧ flag s.acq.r F.ACQ_STAT_ref_ready = false) ∧
    (let s := { armable 2 2 with img := { str := { role := 2, hSize := 2, hasRings := true, rings := [{ ring := 0, nodes := 12 }], banks := [{ ring := 0 }], asgs := [{ last := 11 }], chans := [{}] } } }
     opState s = 4 ∧ armCheck s = none ∧ flag s.acq.r F.ACQ_STAT_ref_ready = true ∧ ringsArmOk s = false) ∧
    (let s := fld 12 F.BGT_GD_CFG_gd_ma_total 3 (fld 12 F.BGT_GD_CFG_gd_ma_phase 2
       { up 5 with img := { str := { phases := [{ bank := 0 }, { bank := 0 }] } }, plc := { ph := Vector.replicate 48 { unparked := true, active := true } } })
     opState s = 5 ∧ getF s.bgt.r F.BGT_GD_CFG_gd_ma_total ≠ 0 ∧ getF s.bgt.r F.BGT_GD_CFG_gd_ma_total < gdUse s) := by decide +kernel

theorem witness_IdleRequestsAccepted :
    ((held 2).sys.up = true ∧ (held 2).sys.req = none ∧ opState (held 2) ≤ 3 ∧ permitted (opState (held 2)) 1 = true ∧ coreReady (held 2) = false) ∧
    (let s := { up 3 with bgt := { granted := unitWant (acceptReq 1 .units (up 3)) } }
     s.sys.up = true ∧ s.sys.req = none ∧ opState s ≤ 3 ∧ permitted (opState s) 1 = true ∧ permitted (opState s) 2 = true ∧ coreReady s = true ∧
     unitWant (acceptReq 1 .units s) = s.bgt.granted ∧ reservedMa s.bgt ≤ getF s.bgt.r F.BGT_CORE_CFG_core_ma) ∧
    (let s := { up 1 with bgt := { granted := unitWant (acceptReq 3 .units (up 1)) } }
     s.sys.up = true ∧ s.sys.req = none ∧ permitted (opState s) 3 = true ∧ unitWant (acceptReq 3 .units s) = s.bgt.granted ∧
     reservedMa s.bgt ≤ getF s.bgt.r F.BGT_CORE_CFG_core_ma) := by decide +kernel

theorem witness_LoadRequestStarts :
    ∀ c ∈ [0, 1], let s := fld 2 F.IMG_STAT_checked c (up 3)
      s.sys.up = true ∧ s.sys.req = none ∧ opState s = 3 ∧ imgBusy s = false ∧ flag s.img.r F.IMG_STAT_checked = (c == 1) := by decide +kernel

theorem witness_StateRequestsTakeEffect :
    (coreReady (up 5) = true ∧ strides (up 5) = true ∧ (reqAt 6 .boundary (up 5)).sys.req = some { target := 6, phase := .boundary } ∧
     permitted (opState (up 5)) 6 = true ∧ permitted (opState (up 6)) 7 = true ∧ permitted (opState (up 4)) 3 = true) ∧
    (let s := reqAt 1 .units { up 2 with bgt := { on := 0xFFFFFFFF } }
     s.sys.up = true ∧ s.sys.req = some { target := 1, phase := .units } ∧ opState s ≤ 3 ∧ unitsReady s = true) ∧
    (let s := reqAt 3 .units { up 1 with bgt := { on := 0xFFFFFFFF } }
     s.sys.up = true ∧ s.sys.req = some { target := 3, phase := .units } ∧ opState s ≤ 3 ∧ unitsReady s = true) ∧
    (let s := reqAt 2 .units (held 1)
     s.sys.up = true ∧ s.sys.req = some { target := 2, phase := .units } ∧ opState s ≤ 3 ∧ coreReady s = false) := by decide +kernel


/-! ## Witnesses: strides, placement, supplies, the bus -/

/-- The last stride of a lap of 200, in operating state `st`. -/
def lastStride (st : Nat) : State := fld 1 F.TBS_LAP_POS_stride_in_lap 199 (up st)

theorem witness_BoundaryAdvances :
    (coreReady (up 4) = true ∧ strides (up 4) = true ∧ (up 4).sys.req = none ∧ (up 4).tbs.live = [] ∧ strideInLap (up 4) + 1 ≠ lapLen (up 4)) ∧
    (let s := lastStride 6
     coreReady s = true ∧ strides s = true ∧ s.sys.req = none ∧ s.tbs.live = [] ∧ strideInLap s + 1 = lapLen s) := by decide +kernel

theorem witness_CommitPointLatches :
    (let s := { up 4 with cea := { snapReq := some 255 } }
     coreReady s = true ∧ strides s = true ∧ s.tbs.committed = false ∧ computing s = false ∧ s.cea.snapReq = some 255) ∧
    (let s := { up 6 with tbs := { committed := true } }
     coreReady s = true ∧ strides s = true ∧ s.tbs.committed = true) := by decide +kernel

theorem witness_PlanningRuns :
    (let s := lastStride 6
     coreReady s = true ∧ strides s = true ∧ strideInLap s + 1 = lapLen s ∧ s.plc.planned = false ∧ s.plc.dpRun = false ∧ computing s = true) ∧
    (computing (lastStride 4) = false ∧ strides (lastStride 4) = true) ∧
    (let s := { up 4 with plc := { dpRun := true, n1Run := true } }
     coreReady s = true ∧ strides s = true ∧ s.plc.dpRun = true ∧ strideInLap s + 1 ≠ lapLen s ∧ s.plc.n1Run = true) ∧
    (let s := { lastStride 6 with plc := { dpRun := true, planned := true }, rng := { plans := [(23, {})] } }
     s.plc.dpRun = true ∧ s.plc.planned = true ∧ strideInLap s + 1 = lapLen s ∧ (s.rng.plans.map (·.1)).Nodup ∧
     ∃ x ∈ s.rng.plans, x.1 = (23 : Fin 24).val) := by decide +kernel

theorem witness_WatchdogAndHoldover :
    strides (up 5) = true ∧ coreReady (up 5) = true ∧
    (let s := fld 1 F.TBS_SYNC_CFG_src 1 { up 5 with tbs := { missRun := 3 } }
     strides s = true ∧ paceSrc s ≠ 0 ∧ getF s.tbs.r F.TBS_STAT_lock_state ≠ 3 ∧ getF s.tbs.r F.TBS_SYNC_CFG_holdover_strides ≤ s.tbs.missRun) := by
  decide +kernel

theorem witness_PaceInEdgeCorrects :
    (let s := fld 1 F.TBS_SYNC_CFG_src 1 (up 5)
     paceSrc s = 1 ∧ strides s = true ∧ 0 < s.tbs.len ∧
     ((-1, 1) : Int × Int) = nearBoundary s.tbs.len (((3999 : Nat) : Int) + getFI s.tbs.r F.TBS_PACE_OFS_pace_ofs) ∧ opState s ≠ 4) ∧
    (let s := fld 1 F.TBS_SYNC_CFG_src 1 (up 4)
     paceSrc s = 1 ∧ strides s = true ∧ opState s = 4 ∧ s.tbs.trimOnly = false ∧ getF s.tbs.r F.TBS_STAT_lock_state ≠ 3 ∧ 0 < strideLen s) := by
  decide +kernel

theorem witness_ResetLeaves :
    (up 6).nvm.cmds = [] ∧ storeRuns (up 6) = false ∧ (up 6).flt.nvPend = [] ∧ (up 6).flt.q9 = [] := by decide +kernel

/-- The service island is up, the core domain held in reset in state `n`. -/
def island (n : Nat) : State := { State.reset with sys := { up := true, r := setF sysReset F.SYS_STATE_STAT_state n } }

theorem witness_ResetReleases :
    State.reset.sys.up = false ∧ password State.reset.nvm.mem false = 0 ∧ password State.reset.nvm.mem true = 0 ∧
    (∀ n ∈ [1, 2], let s := fld 14 F.HST_PCIE_CFG_en 0 (island n)
     s.sys.up = true ∧ coreReady s = false ∧ opState s = n ∧ s.sys.req = none ∧ flag s.hst.r F.HST_PCIE_CFG_en = false ∧ s.bgt.granted = 0 ∧
     flag s.svc.r F.SVC_STAT_alt = false ∧ reservedMa s.bgt ≤ getF s.bgt.r F.BGT_CORE_CFG_core_ma) := by decide +kernel

theorem witness_SupplyAndClockLoss :
    (∀ n ∈ [2, 6], (up n).sys.up = true ∧ coreReady (up n) = true) ∧ (2 : Fin 6).val = 2 ∧ (4 : Fin 6).val = 4 ∧
    (let s := { up 3 with tag := { cmd := Vector.replicate 4 (some .search) } }
     s.sys.up = true ∧ s.tag.cmd[(3 : Fin 4)] ≠ none) := by decide +kernel

/-- A device of its own, in RUN, that takes 1.0 to 4.0 V from port A. -/
def busIn : State := fld 5 F.BUS_VLIM_v_lo 10 (fld 5 F.BUS_VLIM_v_hi 40 (up 6))

/-- A follower that lost its leader for `m` strides, in loss state `st`. -/
def lost (st m : Nat) : State := fld 5 F.BUS_HIVE_STAT_loss_state st { up 6 with bus := { m := m } }

theorem witness_BusCommandInputs :
    (∀ st ∈ [3, 6], ∀ src ∈ [0, 1], let s := fld 5 F.BUS_VCMD_CFG_vsrc src (fld 0 F.SYS_STATE_STAT_state st busIn)
     coreReady s = true ∧ s.sys.up = true ∧ s.img.str.role ≠ 2 ∧ strides s = (st == 6) ∧ getF s.bus.r F.BUS_VCMD_CFG_vsrc = src ∧
     getF s.bus.r F.BUS_VLIM_v_lo ≤ (10 : BitVec 16).toNat ∧ (40 : BitVec 16).toNat ≤ getF s.bus.r F.BUS_VLIM_v_hi ∧
     getF s.bus.r F.BUS_VLIM_v_hi < (41 : BitVec 16).toNat ∧ (9 : BitVec 16).toNat < getF s.bus.r F.BUS_VLIM_v_lo) ∧
    (img { role := 2 } busIn).img.str.role = 2 ∧
    (coreReady (lost 2 21) = true ∧ computing (lost 2 21) = true ∧ getF (lost 2 21).bus.r F.BUS_HIVE_STAT_loss_state ≠ 0 ∧
     20 = getF (lost 2 21).bus.r F.BUS_LOSS_CFG_loss_hold ∧ 200 = getF (lost 2 21).bus.r F.BUS_LOSS_CFG_loss_ramp ∧
     20 < (lost 2 21).bus.m ∧ (lost 2 21).bus.m < 20 + 200) ∧
    (∀ n ∈ [3, 4], 20 < (lost n 220).bus.m ∧ 20 + 200 ≤ (lost n 220).bus.m ∧ getF (lost n 220).bus.r F.BUS_HIVE_STAT_loss_state = n ∧
     coreReady (lost n 220) = true ∧ computing (lost n 220) = true) := by decide +kernel


/-! ## Witnesses: contexts, pulses, channels -/

/-- Context 0 of one section stands on the run list of engine 3, ready. -/
def oneCtx : State :=
  { up 6 with cea := { ctxs := [{ cfg := { nSec := 1 }, bankA := [1, 2, 3, 4, 5], bankB := [1, 2, 3, 4, 5], s1 := [0] }] },
              plc := { pl := { run := (Vector.replicate 16 []).set 3 [0] } } }

theorem witness_ContextStarts :
    coreReady oneCtx = true ∧ engineFree oneCtx 3 = true ∧ nextReady oneCtx 3 = some 0 ∧ 0 < oneCtx.cea.ctxs.length ∧
    (∀ w ∈ fetchedWords oneCtx.cea 0, w ∉ ([] : List Nat) ∧ w ∉ (ctxAt oneCtx 0).parBad) ∧ (∃ w ∈ fetchedWords oneCtx.cea 0, w ∈ [4]) ∧
    nextReady oneCtx (0 : Fin 16) = none := by
  decide +kernel

/-- Every engine runs context 0, which drives phase 47, output 7 and the bus command. -/
def running (start : Nat) : State :=
  { up 5 with cea := { ctxs := [{ startClk := start, clampHi := 9, clampLo := 0xFFFFFFF0,
                                  cfg := { nSec := 1, outs := [{ kind := 0x11, idx := 47 }, { kind := 0x12 }, { kind := 0x14, idx := 7 }] } }],
                       eng := Vector.replicate 16 { run := some 0 } } }

theorem witness_ContextCompletes :
    (let s := running 3196
     coreReady s = true ∧ s.cea.eng[(0 : Fin 16)].run = some 0 ∧ s.cea.eng[(0 : Fin 16)].aborting = false ∧ 0 < s.cea.ctxs.length ∧
     lastClk s 0 < commitClk s ∧ (ctxAt s 0).clampLo.toInt ≤ (ctxAt s 0).clampHi.toInt ∧
     ∃ b ∈ (ctxAt s 0).cfg.outs, b.kind = 0x11 ∧ (47 : Fin 48).val = b.idx) ∧
    (running 3199).cea.eng[(15 : Fin 16)].run = some 0 ∧ commitClk (running 3199) ≤ lastClk (running 3199) 0 ∧
    (up 5).cea.eng[(15 : Fin 16)].run = none := by decide +kernel

theorem witness_EngineAndWindowAccess :
    (let s := { oneCtx with cea := { oneCtx.cea with eng := Vector.replicate 16 { aborting := true } } }
     coreReady s = true ∧ s.cea.eng[(15 : Fin 16)].aborting = true) ∧
    (let s := { oneCtx with cea := { oneCtx.cea with eng := Vector.replicate 16 { lateCtx := some 0 } } }
     s.cea.eng[(15 : Fin 16)].lateCtx ≠ none) ∧
    (oneCtx.cea.eng[(15 : Fin 16)].aborting = false ∧ oneCtx.cea.eng[(15 : Fin 16)].lateCtx = none ∧ oneCtx.cea.snapReq = none) ∧
    ({ oneCtx with cea := { snapReq := some 0 } } : State).cea.snapReq ≠ none ∧
    (coreReady oneCtx = true ∧ 0 = getF oneCtx.cea.r F.CEA_WIN_SEL_ctx ∧ 0 < oneCtx.cea.ctxs.length ∧ computing oneCtx = true ∧
     4 < 5 * (ctxAt oneCtx 0).cfg.nSec ∧ 4 < 80 ∧ (ctxAt oneCtx 0).bankA.getD 4 0 ≠ (6 : Word) ∧ 0 < (ctxAt oneCtx 0).cfg.nSec ∧
     0 < (ctxAt oneCtx 0).s1.length ∧ (7 : Word) ≠ ((ctxAt oneCtx 0).s1.getD 0 0).setWidth 32) ∧
    (∀ st ∈ [3, 4], let s := fld 0 F.SYS_STATE_STAT_state st oneCtx
     coreReady s = true ∧ 0 = getF s.cea.r F.CEA_WIN_SEL_ctx ∧ 0 < s.cea.ctxs.length ∧ computing s = false ∧ 4 < 5 * (ctxAt s 0).cfg.nSec ∧
     strides s = (st == 4) ∧ bankSel s.cea 0 = false ∧
     4 < (ctxAt s 0).bankA.length ∧ 4 < (ctxAt s 0).bankB.length ∧ 0 < (ctxAt s 0).cfg.nSec ∧ 0 < (ctxAt s 0).s1.length) ∧
    (let s := { oneCtx with cea := { oneCtx.cea with r := [(R.CEA_BANK_SELn 0, 1)] } }
     bankSel s.cea 0 = true ∧ (ctxAt s 0).bankB.getD 4 0 ≠ (6 : Word)) := by decide +kernel


theorem witness_TripsAndClears :
    (let s := img { phases := [{ bank := 0, tripMask := 0x8000 }] } (up 6)
     coreReady s = true ∧ (0 : Fin 48).val ∈ tripReach s.img.str 15 ∧ (1 : Fin 48).val ∉ tripReach s.img.str 15 ∧
     tripped s.pwm.ph[(0 : Fin 48)] = false ∧ getBit s.pwm.r R.PWM_TRIP_IN (16 + (15 : Fin 16).val) = false) := by decide +kernel

/-- Every phase is tripped by input 0, which stays asserted and holds those whose mask is `m`. -/
def heldTrip (m : BitVec 16) : State :=
  fld 6 F.PWM_TRIP_IN_filt 1 (img { phases := List.replicate 48 { bank := 0, tripMask := m } } { up 6 with pwm := { ph := Vector.replicate 48 { ext := 1 } } })

theorem witness_TripsAndClears_clear :
    coreReady (heldTrip 1) = true ∧ 15 < 32 ∧ 32 * (1 : Fin 2).val + 15 < 48 ∧ tripped (vget (heldTrip 1).pwm.ph (32 * 1 + 15) {}) = true ∧
    tripHolds (heldTrip 1) (32 * 1 + 15) = true ∧ tripped (vget (heldTrip 0).pwm.ph (32 * 1 + 15) {}) = true ∧
    tripHolds (heldTrip 0) (32 * 1 + 15) = false ∧ tripped (vget (up 6).pwm.ph (32 * 1 + 15) {}) = false := by decide +kernel

/-- Every phase switches, its carrier at w1 = `a`, w2 = `b` in a period of nine, a set eligible and a dead time running; in state `st`. -/
def pulses (st a b : Nat) : State :=
  fld 6 F.PWM_CARRIER_reload 2 { up st with pwm := { ph := Vector.replicate 48 { c := { eligible := some { duty := 5 }, w1 := a, w2 := b, pLen := 9 }, sw := true, rise := some true } },
                                            plc := { ph := Vector.replicate 48 { unparked := true, active := true, target := 100 } } }

theorem witness_CarriersAndEdges :
    (∀ st ∈ [5, 6], let s := pulses st 0 9
     coreReady s = true ∧ strides s = true ∧ s.pwm.ph[(47 : Fin 48)].c.eligible = some { duty := 5 } ∧
     s.plc.ph[(47 : Fin 48)].active = true ∧ getF s.pwm.r F.PWM_CARRIER_reload ≠ 1 ∧ getF s.pwm.r F.PWM_CARRIER_reload ≠ 0 ∧
     s.pwm.ph[(0 : Fin 48)].sw = true ∧ tripped s.pwm.ph[(0 : Fin 48)] = false ∧ s.pwm.ph[(0 : Fin 48)].c.w2 ≠ 0 ∧
     s.pwm.ph[(0 : Fin 48)].h = false ∧ s.pwm.ph[(0 : Fin 48)].c.w1 < s.pwm.ph[(0 : Fin 48)].c.pLen ∧ s.pwm.ph[(0 : Fin 48)].l = false ∧
     s.pwm.ph[(0 : Fin 48)].rise = some true) ∧
    ((pulses 6 0 0).pwm.ph[(0 : Fin 48)].c.w1 = 0 ∧ (pulses 6 0 0).pwm.ph[(0 : Fin 48)].c.w2 = 0 ∧
     (pulses 6 9 9).pwm.ph[(0 : Fin 48)].c.pLen ≤ (pulses 6 9 9).pwm.ph[(0 : Fin 48)].c.w1 ∧
     (pulses 6 9 9).pwm.ph[(0 : Fin 48)].c.pLen ≤ (pulses 6 9 9).pwm.ph[(0 : Fin 48)].c.w2) ∧
    (let s := fld 6 F.PWM_CARRIER_reload 2 (fld 6 (F.PWM_AUX_CFGn_src 7) 1
        { up 6 with pwm := { aux := Vector.replicate 8 { c := { eligible := some { duty := 5 }, w1 := 3, w2 := 5, pLen := 9 }, pending := some 4 } } })
     coreReady s = true ∧ strides s = true ∧ getF s.pwm.r (F.PWM_AUX_CFGn_src (7 : Fin 8)) = 1 ∧ s.pwm.aux[(7 : Fin 8)].c.eligible = some { duty := 5 } ∧
     s.pwm.aux[(7 : Fin 8)].c.w1 ≠ 0 ∧ s.pwm.aux[(7 : Fin 8)].c.w2 < s.pwm.aux[(7 : Fin 8)].c.pLen) ∧
    (let s := fld 6 F.PWM_CARRIER_reload 2 (fld 6 (F.PWM_AUX_CFGn_src 0) 2 { up 6 with pwm := { aux := Vector.replicate 8 { pending := some 4 } } })
     getF s.pwm.r (F.PWM_AUX_CFGn_src (0 : Fin 8)) = 2 ∧ s.pwm.aux[(0 : Fin 8)].pending = some 4 ∧ getF s.pwm.r F.PWM_CARRIER_reload ≠ 1 ∧
     getF s.pwm.r F.PWM_CARRIER_reload ≠ 0) := by decide +kernel


/-- Lane 15 runs a sequence of one and holds the conversion `c`. -/
def oneLane (c : Conv) : State :=
  fld 7 (F.ACQ_SEQl_n 15) 1 { up 6 with acq := { lanes := (Vector.replicate 16 {}).set 15 { running := true, fetch := true, period := 499, pipe := [c] } } }

theorem witness_ConversionsAndFetches :
    (let s := oneLane { ain := 127, fetch := true }
     coreReady s = true ∧ strides s = true ∧ s.acq.lanes[(15 : Fin 16)].running = true ∧ (laneOf s.acq.r 15).n ≠ 0 ∧
     8 * s.acq.lanes[(15 : Fin 16)].period + 8 ≤ s.tbs.len ∧ s.acq.lanes[(15 : Fin 16)].fetch = true ∧ s.acq.lanes[(15 : Fin 16)].period ≠ 0 ∧
     s.acq.lanes[(0 : Fin 16)].running = false ∧ s.acq.lanes[(15 : Fin 16)].pipe = [{ ain := 127, fetch := true }] ∧ 127 / 8 = (15 : Fin 16).val ∧
     s.acq.lanes[(0 : Fin 16)].pipe = [] ∧ s.flt.fLane.getLsbD (15 : Fin 16) = false ∧ (vget s.acq.chans 127 {}).present = false) ∧
    (let s := fld 7 (F.ACQ_SEQl_n 0) 1 { up 6 with acq := { lanes := Vector.replicate 16 { running := true, fetch := true } } }
     s.acq.lanes[(0 : Fin 16)].running = true ∧ (laneOf s.acq.r 0).n ≠ 0 ∧ 8 * s.acq.lanes[(0 : Fin 16)].period + 8 ≤ s.tbs.len ∧
     s.acq.lanes[(0 : Fin 16)].period = 0) ∧
    (let s := { oneLane { ain := 120 } with flt := { fLane := 0x8000 } }
     s.flt.fLane.getLsbD (15 : Fin 16) = true ∧ s.acq.lanes[(15 : Fin 16)].pipe = [{ ain := 120 }] ∧ 120 / 8 = (15 : Fin 16).val) := by decide +kernel

theorem witness_ConversionsAndFetches_reference :
    (∀ st ∈ [2, 3, 4, 5], ∀ en ∈ [0, 1], let s := fld 7 F.ACQ_REF_en en (up st)
     coreReady s = true ∧ opState s = st ∧ flag s.acq.r F.ACQ_REF_en = (en == 1)) := by decide +kernel

theorem witness_FastLimitLatches :
    (∀ en ∈ [0, 1], ∀ fl ∈ [[], [127]], let s := img { phases := [{ bank := 255 }] } (fld 7 (F.ACQ_CHn_CFG_flim_en 127) en
       (let t := oneLane { ain := 127 }
        { t with acq := { t.acq with chans := t.acq.chans.set 127 { present := true } }, pwm := { ph := Vector.replicate 48 { flim := fl } } }))
     coreReady s = true ∧ s.acq.lanes[(15 : Fin 16)].pipe = [{ ain := 127 }] ∧ 127 / 8 = (15 : Fin 16).val ∧ s.flt.fLane.getLsbD (15 : Fin 16) = false ∧
     (vget s.acq.chans 127 {}).present = true ∧ (chanOf s.acq.r 127).fast = (en == 1) ∧ getF s.acq.r (F.ACQ_CHn_CFG_rec 127) < 2 ∧
     (0 : BitVec 14).toInt ≤ (chanOf s.acq.r 127).flimHi ∧ (chanOf s.acq.r 127).flimLo ≤ (0 : BitVec 14).toInt ∧
     (chanOf s.acq.r 127).flimHi < (1 : BitVec 14).toInt ∧ (-1 : BitVec 14).toInt < (chanOf s.acq.r 127).flimLo ∧
     (47 : Fin 48).val ∈ flimReach s.img.str 127 ∧ (127 ∈ s.pwm.ph[(47 : Fin 48)].flim ↔ fl ≠ [])) := by decide +kernel

/-- Channel 0's window of 64 codes is full; with `bound` a placed context reads the channel. -/
def fullWindow (slow bound : Bool) : State :=
  fld 7 (F.ACQ_CHn_FILT_ratio 0) 1
    { up 6 with acq := { lanes := Vector.replicate 16 { seqCnt := 1 }, chans := (Vector.replicate 128 {}).set 0 { present := true, slow := slow, win := List.replicate 64 { stride := 0, round := 0, code := 5 } } },
                cea := { ctxs := if bound then [{ cfg := { nSec := 1, ins := [{ kind := 1, idx := 0 }] } }] else [] },
                plc := { pl := { ctx := [{ placed := true }] } } }

theorem witness_ChannelResultPublishes :
    (∀ slow bound : Bool, let s := fullWindow slow bound
      coreReady s = true ∧ strides s = true ∧ windowFull s (0 : Fin 128) = true ∧ roundFull s (0 : Fin 128) = true ∧
      s.flt.fLane.getLsbD ((0 : Fin 128) / 8) = false ∧ getF s.acq.r (F.ACQ_CHn_CFG_rec (0 : Fin 128)) = 0 ∧
      s.acq.chans[(0 : Fin 128)].slow = slow ∧ q0Wanted s 0 = bound ∧ s.acq.q0.length < 512) ∧
    windowFull (up 6) (127 : Fin 128) = false ∧
    (let q := (fld 7 (F.ACQ_STRs_BUF_size 3) 1 (up 6)).acq
     0 < regionCap q.r (3 : Fin 4) ∧ regionCap q.r (3 : Fin 4) ≤ 131072 ∧ q.buf.wf = true) := by decide +kernel

/-- LOADED with every channel present, the reference ready and the capture `c`. -/
def capturing (c : Option Cal) : State :=
  fld 7 F.ACQ_STAT_ref_ready 1 { up 4 with acq := { chans := Vector.replicate 128 { present := true }, cal := c } }

theorem witness_CaptureAndWireTests :
    (let s := capturing none
     coreReady s = true ∧ (1 : BitVec 16) ≠ 0 ∧ opState s = 4 ∧ flag s.acq.r F.ACQ_STAT_ref_ready = true ∧ s.acq.chans[(127 : Fin 128)].present = true ∧
     s.acq.cal = none) ∧
    (opState (fld 0 F.SYS_STATE_STAT_state 5 (capturing none)) ≠ 4 ∧
     flag (fld 7 F.ACQ_STAT_ref_ready 0 (capturing none)).acq.r F.ACQ_STAT_ref_ready = false ∧
     (up 4).acq.chans[(127 : Fin 128)].present = false ∧ (capturing (some {})).acq.cal ≠ none) ∧
    ((capturing (some { ain := 127, count := 1, left := 1 })).acq.cal = some { ain := 127, count := 1, left := 1 }) ∧
    (∀ full : Bool, (capturing (some { ain := 127, count := 1, full := full })).acq.cal = some { ain := 127, count := 1, full := full } ∧ 127 < 128) := by decide +kernel

theorem witness_CaptureAndWireTests_full_scale :
    ((16777215 : Int) - (kvGet (capturing none).acq.r (R.ACQ_CHn_CAL_OFS 127)).toInt).natAbs < 256 * 65536 ∧
    256 * 65536 ≤ ((16777216 : Int) - (kvGet (capturing none).acq.r (R.ACQ_CHn_CAL_OFS 127)).toInt).natAbs := by decide +kernel

/-- Channel 0 alone is masked for the open-wire test, whose figures are all 1; the test stands at `x`. -/
def wireTest (x : Option OwTest) : State :=
  fld 7 F.ACQ_OW_CFG_m 1 (fld 7 F.ACQ_OW_CFG_settle 1 (fld 7 F.ACQ_OW_CFG_ow_thr 1 (fld 7 (F.ACQ_CHn_CFG_pull 0) 1
    { up 6 with acq := { r := [(R.ACQ_OW_MASKn 0, 1)], ow := x } })))

theorem witness_CaptureAndWireTests_open_wire :
    (let s := wireTest none
     coreReady s = true ∧ s.acq.ow = none ∧ owMasked s.acq.r = [0] ∧ (∀ a ∈ owMasked s.acq.r, getF s.acq.r (F.ACQ_CHn_CFG_pull a) ≠ 0) ∧
     getF s.acq.r F.ACQ_OW_CFG_ow_thr ≠ 0 ∧ getF s.acq.r F.ACQ_OW_CFG_settle ≠ 0 ∧ getF s.acq.r F.ACQ_OW_CFG_m ≠ 0 ∧ computing s = true ∧
     (∀ a ∈ owMasked s.acq.r, boundCritical s.img.str a = false)) ∧
    (wireTest (some {})).acq.ow ≠ none ∧
    (let s := img { ctxs := [{ cls := 0, ins := [{ kind := 1, idx := 0 }] }] } (wireTest none)
     computing s = true ∧ ∃ a ∈ owMasked s.acq.r, boundCritical s.img.str a = true) ∧
    (1 = 1 ∧ ∃ c ∈ [({ n1 := 0 } : OwChan)], c.n1 < 1) ∧ (3 = 3 ∧ ∀ c ∈ [({ n2 := 1 } : OwChan)], 1 ≤ c.n2) ∧
    (∀ ph ∈ [1, 3], (wireTest (some { phase := ph, m := 1, chans := [{ n2 := 1 }] })).acq.ow = some { phase := ph, m := 1, chans := [{ n2 := 1 }] }) ∧
    (∀ ph ∈ [2, 4], (wireTest (some { phase := ph, waited := 3, settle := 3, chans := [{ ain := 127 }] })).acq.ow =
        some { phase := ph, waited := 3, settle := 3, chans := [{ ain := 127 }] } ∧ 3 ≤ 3 ∧ ¬(3 < 3) ∧ 127 < 128) ∧
    (let s := { up 6 with acq := { strs := Vector.replicate 4 { left := some 0 } } }
     coreReady s = true ∧ s.acq.strs[(3 : Fin 4)].left = some 0) ∧
    (up 6).acq.strs[(0 : Fin 4)].left ≠ some 0 := by decide +kernel


/-! ## Witnesses: links, the hive, rings -/

theorem witness_LinksAndBypass :
    ((port 49 { st := 1 } (up 3)).lnk.port[(49 : Fin 50)].st = 1 ∧ (port 0 { st := 2 } (up 3)).lnk.port[(0 : Fin 50)].st = 2 ∧
     (∀ n ∈ [6, 7, 8], (port 0 { st := 3, echoN := n } (up 3)).lnk.port[(0 : Fin 50)].st = 3 ∧
       (port 0 { st := 3, echoN := n } (up 3)).lnk.port[(0 : Fin 50)].echoN = n) ∧
     (port 0 { st := 4 } (up 3)).lnk.port[(0 : Fin 50)].st = 4 ∧ (up 3).lnk.port[(49 : Fin 50)].st = 0) ∧
    (let s := fld 8 F.LNK_STAT_bypass 0 (port 48 { st := 4 } (port 49 { st := 4 } (up 6)))
     s.lnk.port[(48 : Fin 50)].st = 4 ∧ 48 ≤ (48 : Fin 50).val ∧ ([0x0010, 7] : List Half) ≠ [] ∧
     1 < (([0x0020, 7] : List Half).getD 0 0).toNat / 16 % 16 ∧ portUp s (97 - 48) = true ∧ bypassed s = false) := by decide +kernel

theorem witness_LinksAndBypass_up :
    (∀ late : Bool, let s := ring 23 1 { late := late } (port 46 { st := 3, echoN := 8 } (port 47 { st := if late then 1 else 4 } (up 3)))
     ringState s (23 : Fin 24) = 1 ∧ s.lnk.port[(46 : Fin 50)].st = 3 ∧ s.lnk.port[(46 : Fin 50)].echoN = 8 ∧
     (endUp s (23 : Fin 24) (otherEnd .a) = true ∨ (ringOf s (23 : Fin 24)).late = true) ∧ (46 : Fin 50).val = ringPort (23 : Fin 24) .a) ∧
    (let s := ring 23 1 {} (port 46 { st := 3, echoN := 8 } (up 3))
     s.lnk.port[(46 : Fin 50)].st = 3 ∧ s.lnk.port[(46 : Fin 50)].echoN = 8 ∧ (ringOf s ((46 : Fin 50) / 2)).late = false ∧
     ∀ e ∈ [PortEnd.a, .b], (46 : Fin 50).val ≠ ringPort ((46 : Fin 50) / 2) e → endUp s ((46 : Fin 50) / 2) e = false) ∧
    ((port 48 { st := 3, echoN := 8 } (up 3)).lnk.port[(48 : Fin 50)].echoN = 8 ∧ ringState (up 3) ((0 : Fin 50) / 2) ≠ 1) ∧
    (let s := fld 8 F.LNK_STAT_bypass 0 (up 3)
     bypassed s = false ∧ bypassMayOpen s = false) ∧
    (let s := { up 3 with bgt := { on := 0x00400000 } }
     bypassed s = true ∧ bypassMayOpen s = true) := by decide +kernel

/-- A hive frame of these seven words, with its CRC. -/
def hframe (ws : List Half) : RxFrame := frameOf 0 (ws ++ [crc16 0xFFFF ws])

/-- A device with the role `role` at address 2 of a hive of two, its hive ports UP and the bypass open. -/
def hived (role : Nat) : State :=
  let s := img { role := role, hAddr := 2, hSize := 2 } (fld 8 F.LNK_STAT_bypass 0 (port 48 { st := 4 } (port 49 { st := 4 } (up 6))))
  { s with sys := { s.sys with built := true } }

/-- A whole frame of eight words without an error. -/
def whole (f : RxFrame) : Prop := rxClean f 8 = true ∧ (rxScan f).errAt = []

/-- The CRC of a hive frame's words is right. -/
def crcOk (w : List Half) : Bool := crc16 0xFFFF (w.take 7) == w.getD 7 0

theorem whole_hframes :
    ∀ ws ∈ ([[0x4100, 0, 0, 1, 2, 3, 0], [0x4100, 0, 0, 1, 2, 3, 9], [0x3100, 0, 0xFFFE, 1, 2, 3, 0], [0x3100, 0, 0xFFFF, 1, 2, 3, 0],
        [0x3200, 0, 0, 1, 2, 3, 0], [0x6100, 0, 0, 760, 0, 0, 0], [0x6100, 0, 0, 761, 0, 0, 0]] : List (List Half)), whole (hframe ws) := by
  intro ws h
  refine ⟨?_, ?_⟩
  · revert ws; simp [hframe]
  · revert ws; decide +kernel

theorem witness_HiveFrames :
    (let s := hived 2
     coreReady s = true ∧ portUp s (hivePort .a) = true ∧ bypassed s = false ∧ s.sys.req = none ∧ hiveRole s = 2 ∧ (hiveImg s).hAddr = 2 ∧
     computing s = true ∧ s.bus.gotCmd = false ∧ s.bus.gotPrev = false ∧ s.bus.q1.length < 4 ∧
     (0 : Half).toNat % 256 = (strideCnt s + s.lnk.leadOfs) % 256 ∧ (9 : Half).toNat % 256 ≠ (strideCnt s + s.lnk.leadOfs) % 256) ∧
    ({ hived 2 with bus := { gotCmd := true } } : State).bus.gotCmd = true ∧
    (let s := reqAt 5 (.hive 3) (hived 1)
     coreReady s = true ∧ portUp s (hivePort .b) = true ∧ bypassed s = false ∧ hiveRole s = 1 ∧ (hiveImg s).hAddr = 2 ∧ s.lnk.reports = [] ∧
     s.sys.req = some { target := 5, phase := .hive 3, woken := 0 } ∧ 3 ≠ 0) ∧
    (coreReady (reqAt 5 (.hive 0) (hived 1)) = true ∧ (reqAt 5 (.hive 0) (hived 1)).sys.req = some { target := 5, phase := .hive 0, woken := 0 } ∧
     (up 3).sys.req = none) := by
  decide +kernel

/-- The words of the frames of `whole_hframes`: a wrong CRC, commands of two tags, marks of two corrections, a frame of the device's
own, reports within and beyond the leader's limit. -/
theorem witness_HiveFrames_words :
    (whole (frameOf 0 [1, 2, 3, 4, 5, 6, 7, 8]) ∧ crcOk (rxWords (frameOf 0 [1, 2, 3, 4, 5, 6, 7, 8])) = false) ∧
    (let w := rxWords (hframe [0x4100, 0, 0, 1, 2, 3, 9])
     crcOk w = true ∧ (w.getD 0 0).toNat / 256 % 16 ≠ 2 ∧ (w.getD 0 0).toNat / 4096 = 4 ∧ w.getD 6 0 = 9) ∧
    (let w := rxWords (hframe [0x4100, 0, 0, 1, 2, 3, 0])
     crcOk w = true ∧ (w.getD 0 0).toNat / 4096 = 4 ∧ w.getD 6 0 = 0) ∧
    (let w := rxWords (hframe [0x3100, 0, 0xFFFE, 1, 2, 3, 0])
     crcOk w = true ∧ (w.getD 0 0).toNat / 8192 ≤ 1 ∧ w.getD 2 0 ≠ 65535 ∧ (w.getD 0 0).toNat / 256 % 16 ≠ 2) ∧
    (let w := rxWords (hframe [0x3100, 0, 0xFFFF, 1, 2, 3, 0])
     crcOk w = true ∧ (w.getD 0 0).toNat / 8192 ≤ 1 ∧ w.getD 2 0 = 65535) ∧
    (let w := rxWords (hframe [0x3200, 0, 0, 1, 2, 3, 0])
     crcOk w = true ∧ (w.getD 0 0).toNat / 256 % 16 = (hiveImg (hived 2)).hAddr ∧ hiveRole (hived 2) ≠ 0) ∧
    (let w := rxWords (hframe [0x6100, 0, 0, 760, 0, 0, 0])
     crcOk w = true ∧ (w.getD 0 0).toNat / 256 % 16 = 1 ∧ (w.getD 0 0).toNat / 4096 = 6 ∧
     (((w.getD 3 0).toNat % 4096 : Nat) : Int) ≤ hiveLimit (reqAt 5 (.hive 3) (hived 1))) ∧
    (let w := rxWords (hframe [0x6100, 0, 0, 761, 0, 0, 0])
     crcOk w = true ∧ hiveLimit (reqAt 5 (.hive 3) (hived 1)) < (((w.getD 3 0).toNat % 4096 : Nat) : Int)) := by
  simp only [hframe, whole, rxWords_frameOf, rxClean_frameOf]
  decide +kernel


theorem witness_RingCommands :
    (let s := ring 23 6 { nodes := oneNode } (port 46 { st := 4 } (up 4))
     coreReady s = true ∧ opState s = 4 ∧ ringState s (23 : Fin 24) = 6 ∧ sendsData s (23 : Fin 24) = true ∧ endUp s (23 : Fin 24) .a = true ∧
     endUp s (23 : Fin 24) .b = false) ∧
    (ringState (ring 0 7 {} (up 4)) (0 : Fin 24) = 7 ∧ opState (ring 0 7 {} (up 4)) = 4 ∧ sendsData (up 6) (0 : Fin 24) = false ∧
     ¬(opState (up 6) = 4 ∧ (ringState (up 6) (0 : Fin 24) = 6 ∨ ringState (up 6) (0 : Fin 24) = 7)) ∧
     ¬(opState (up 6) = 4 ∧ ringState (up 6) (0 : Fin 24) = 6)) := by decide +kernel

/-- The mailbox holds a message whose first word is `a`, its second `b`, for ring 0 in READY. -/
def mailed (a b : Half) : State := ring 0 6 { nodes := oneNode } { up 6 with rng := { r := [(R.RNG_WAG_TXn 0, b ++ a)] } }

/-- The word `i` of the mailbox. -/
def txWord (s : State) (i : Nat) : Half := (kvGet s.rng.r (R.RNG_WAG_TXn (i / 2))).extractLsb' (16 * (i % 2)) 16

theorem witness_MailboxSend :
    (let s := mailed 0x0601 0x0020
     coreReady s = true ∧ 32 = (txWord s 1).toNat % 64 ∧ flag s.rng.r F.RNG_WAG_CTL_busy = false ∧ (0 : Fin 24).val = getF s.rng.r F.RNG_WAG_CTL_ring ∧
     ringState s (0 : Fin 24) = 6 ∧ 5 < (txWord s 0).toNat / 256 ∧ (txWord s 1).getLsbD 15 = false ∧
     (nodeAt (ringOf s (0 : Fin 24)) ((txWord s 0).toNat % 256)).serve = some .a) ∧
    (let s := mailed 0x00FF 0x8020
     (txWord s 0).toNat / 256 = 0 ∧ (txWord s 1).getLsbD 15 = true ∧ (txWord s 1).toNat % 64 = 32) ∧
    ((txWord (mailed 0x0101 0) 0).toNat / 256 = 1 ∧ 32 < (txWord (mailed 0x0601 33) 1).toNat % 64 ∧
     (nodeAt (ringOf (mailed 0x06FF 0) (0 : Fin 24)) ((txWord (mailed 0x06FF 0) 0).toNat % 256)).serve = none ∧
     flag (fld 9 F.RNG_WAG_CTL_busy 1 (mailed 0 0)).rng.r F.RNG_WAG_CTL_busy = true) ∧
    (coreReady (up 6) = true ∧ flag (up 6).rng.r F.RNG_WAG_CTL_busy = false ∧ getF (up 6).rng.r F.RNG_WAG_CTL_ring = (0 : Fin 24).val ∧
     ringState (up 6) (0 : Fin 24) ≠ 6) ∧
    ∀ r : Fin 24, r.val ≠ getF (fld 9 F.RNG_WAG_CTL_ring 24 (up 6)).rng.r F.RNG_WAG_CTL_ring := by decide +kernel

theorem witness_RingEvents :
    (let s := ring 0 1 {} (up 4)
     ringState s (0 : Fin 24) = 1 ∧ endUp s (0 : Fin 24) .a = false ∧ endUp s (0 : Fin 24) .b = false ∧
     endUp (port 1 { st := 4 } s) (0 : Fin 24) .b = true ∧ ringState (up 4) (0 : Fin 24) ≠ 1) ∧
    (∀ n ∈ [2, 3], let s := fld 1 F.TBS_STRIDE_CNT_stride_cnt 4 (ring 23 2 { passOut := some .a, fails := n } (up 4))
     ringState s (23 : Fin 24) = 2 ∧ (ringOf s (23 : Fin 24)).passOut ≠ none ∧ (ringOf s (23 : Fin 24)).fails = n ∧
     (ringOf s (23 : Fin 24)).passLen + 4 ≤ strideAge s (ringOf s (23 : Fin 24)).passAt) ∧
    (let s := ring 23 2 { passOut := some .a } (up 4)
     strideAge s (ringOf s (23 : Fin 24)).passAt < (ringOf s (23 : Fin 24)).passLen + 4 ∧ (ringOf (up 4) (23 : Fin 24)).passOut = none) ∧
    (let s := ring 0 6 { a := { splitRun := 4 } } (up 4)
     sendsData s (0 : Fin 24) = true ∧ (ringOf s (0 : Fin 24)).split = false ∧ getF s.rng.r F.RNG_CFG_brk_confirm ≤ (ringOf s (0 : Fin 24)).a.splitRun ∧
     (ringOf s (0 : Fin 24)).b.splitRun < getF s.rng.r F.RNG_CFG_brk_confirm) ∧
    (let s := ring 0 6 { split := true, a := { wholeRun := 4 }, b := { wholeRun := 4 }, nodes := oneNode } (up 4)
     sendsData s (0 : Fin 24) = true ∧ (ringOf s (0 : Fin 24)).split = true ∧ getF s.rng.r F.RNG_CFG_brk_confirm ≤ (ringOf s (0 : Fin 24)).a.wholeRun ∧
     getF s.rng.r F.RNG_CFG_brk_confirm ≤ (ringOf s (0 : Fin 24)).b.wholeRun ∧ (nodeAt (ringOf s (0 : Fin 24)) 1).claimed = true) ∧
    (let s := ring 0 6 { nodes := {} :: { claimed := true, serve := some .b, noAck := 4 } :: [], limLaps := 64 } (up 4)
     ringState s (0 : Fin 24) = 6 ∧ (nodeAt (ringOf s (0 : Fin 24)) (1 : Fin 256)).claimed = true ∧ (nodeAt (ringOf s (0 : Fin 24)) (1 : Fin 256)).serve ≠ none ∧
     (nodeAt (ringOf s (0 : Fin 24)) (1 : Fin 256)).silent = false ∧ getF s.rng.r F.RNG_CFG_sil_laps ≤ (nodeAt (ringOf s (0 : Fin 24)) (1 : Fin 256)).noAck ∧
     (nodeAt (ringOf s (0 : Fin 24)) (255 : Fin 256)).claimed = false ∧ 64 ≤ (ringOf s (0 : Fin 24)).limLaps) ∧
    (ringOf (ring 0 6 { limLaps := 63 } (up 4)) (0 : Fin 24)).limLaps < 64 := by decide +kernel

/-- Ring 0 in READY whose end A stands as `x`. -/
def endA (x : RingEnd) : State := ring 0 6 { nodes := oneNode, a := x } (up 6)

theorem witness_WaggleMessages :
    (ringState (endA {}) (0 : Fin 24) = 6 ∧ (ringOf (endA {}) (0 : Fin 24)).limDue = false ∧ (endA {}).spx.camp = none) ∧
    (∀ n ∈ [47, 48], let y := endOf (ringOf (endA { cur := some ({ words := [0x0201], reply := true }, [0x0201, 0, 7]), bit := n }) (0 : Fin 24)) .a
     y.cur = some ({ words := [0x0201], reply := true }, [0x0201, 0, 7]) ∧ y.bit = n ∧ 16 * ([0x0201, 0, 7] : List Half).length = 48) ∧
    (let s := endA { cur := some ({ words := [0x0601], use := .mailbox }, [0x0601, 0, 7]), bit := 48 }
     (endOf (ringOf s (0 : Fin 24)) .a).cur = some ({ words := [0x0601], use := .mailbox }, [0x0601, 0, 7]) ∧
     (endOf (ringOf s (0 : Fin 24)) (otherEnd .a)).box = none ∧ (endOf (ringOf s (0 : Fin 24)) (otherEnd .a)).cur = none ∧
     (endOf (ringOf s (0 : Fin 24)) .a).box = none ∧
     ∀ x ∈ (ringOf s (0 : Fin 24)).a.todo ++ (ringOf s (0 : Fin 24)).b.todo, x.use ≠ .mailbox) ∧
    (∀ n ∈ [2, 3], ∀ u ∈ [WagUse.ring, .mailbox, .bal],
     let y := endOf (ringOf (endA { await := some { words := [0x0201], use := u, tries := n }, wait := 64 }) (0 : Fin 24)) .a
     y.await = some { words := [0x0201], use := u, tries := n } ∧ y.inbox = none ∧ y.rx = none ∧ 64 ≤ y.wait) ∧
    (let y := endOf (ringOf (endA { await := some { words := [0x0201] }, wait := 63 }) (0 : Fin 24)) .a
     y.await = some { words := [0x0201] } ∧ y.wait < 64) := by decide +kernel

theorem witness_WaggleMessages_replies :
    (let y := endOf (ringOf (endA { await := some { words := [0x0701], use := .mailbox }, inbox := some [0x8101, 0] }) (0 : Fin 24)) .a
     y.await = some { words := [0x0701], use := .mailbox } ∧ y.inbox = some [0x8101, 0]) ∧
    (wagNode [0x8101, 0] = wagNode [0x0701] ∧ wagType [0x8101, 0] = 0x81 ∧ wagNode [0x8201, 0] = wagNode [0x0701] ∧ wagType [0x8201, 0] = 0x82 ∧
     wagNode [0x8301, 0] = wagNode [0x0701] ∧ wagType [0x8301, 0] ≠ 0x81 ∧ wagType [0x8301, 0] ≠ 0x82 ∧ wagNode [0x8102, 0] ≠ wagNode [0x0701]) ∧
    (let s := endA { await := some { words := [0x0201, 0] }, inbox := some [0x8201, 16] }
     (endOf (ringOf s (0 : Fin 24)) .a).await = some { words := [0x0201, 0] } ∧ (endOf (ringOf s (0 : Fin 24)) .a).inbox = some [0x8201, 16] ∧
     wagType [0x0201, 0] = 2 ∧ wagLen [0x8201, 16] = 16 ∧ wagNode [0x0201, 0] < (ringOf s (0 : Fin 24)).nodes.length ∧
     wagNode [0x8201, 16] = wagNode [0x0201, 0]) := by decide +kernel

/-- A balancing command of ring 0 awaits its reply, and an ACK with this result has come. -/
def acked (res : Half) : State :=
  { endA { await := some { words := [0x0601, 0], use := .bal }, inbox := some [0x8101, 1, res] } with csv := { bal := some {} } }

theorem witness_WaggleMessages_balancing :
    (endOf (ringOf (acked 0x0601) (0 : Fin 24)) .a).await = some { words := [0x0601, 0], use := .bal } ∧
    (endOf (ringOf (acked 0x0601) (0 : Fin 24)) .a).inbox = some [0x8101, 1, 0x0601] ∧ (acked 0x0600).csv.bal ≠ none ∧
    wagNode [0x8101, 1, 0x0601] = wagNode [0x0601, 0] ∧ wagType [0x0601, 0] ≠ 2 ∧ (0x0601 : Half).toNat / 256 = wagType [0x0601, 0] ∧
    (0x0600 : Half).toNat % 256 = 0 ∧ (0x0601 : Half).toNat % 256 ≠ 0 := by decide +kernel

/-- A baton of these header words, with its CRC and these data words. -/
def baton (hd ws : List Half) : RxFrame := frameOf 900 (hd ++ crc16 0xFFFF hd :: ws)

/-- The batons of the witnesses below hold no word in error. -/
theorem batons_errAt :
    (rxScan (baton [0x0005, 0, 0, 0, 0x0201, 0x0181] [7, 8])).errAt = [] ∧ (rxScan (baton [0x0005, 0, 0, 0, 0x0A01, 0x01A9] (List.replicate 10 7))).errAt = [] ∧
    (rxScan (baton [0x0005, 0, 0, 0, 0x0201, 0x0101] [0, 0])).errAt = [] ∧ (rxScan (baton [0x0005, 0, 0, 0x8000, 0] [])).errAt = [] ∧
    (rxScan (frameOf 900 [])).errAt = [] ∧ (rxScan (baton [0x4000, 0, 0x8000, 0, 0] (0x8301 :: List.replicate 256 0))).errAt = [] ∧
    (rxScan (baton [0x6000, 0, 0x8000, 0, 0] (0x8301 :: List.replicate 256 0))).errAt = [] ∧ (rxScan (baton [0xA000, 0x0100, 0x8000, 4] [])).errAt = [] := by
  decide +kernel

theorem witness_BatonsReturn_data :
    (∀ g ∈ [({ node := 1, len := 2 } : Grant), { node := 1, kind := 1, len := 10 }],
     let s := port 1 { st := 4 } (endA { fly := [{ stride := 5, grants := [g] }] })
     s.spx.camp = none ∧ strides s = true ∧ endUp s (0 : Fin 24) .b = true ∧ sendsData s (0 : Fin 24) = true ∧ (ringOf s (0 : Fin 24)).split = false ∧
     (endOf (ringOf s (0 : Fin 24)) .a).fly = [{ stride := 5, grants := [g] }] ∧ g.kind ≤ 2 ∧
     (g.len = 2 * (nodeAt (ringOf s (0 : Fin 24)) g.node).cells ∨ g.kind ≠ 1)) ∧
    (let w := rxWords (baton [0x0005, 0, 0, 0, 0x0201, 0x0181] [7, 8])
     (w.getD 0 0).toNat / 8192 = endBit .a ∧ (w.getD 2 0).getLsbD 15 = (PortEnd.b == .a) ∧ w.getD 3 0 = 0 ∧ 5 % 256 = (w.getD 0 0).toNat % 256 ∧ acksOf w = [true]) ∧
    (acksOf (rxWords (baton [0x0005, 0, 0, 0, 0x0201, 0x0101] [0, 0])) = [false] ∧
     acksOf (rxWords (baton [0x0005, 0, 0, 0, 0x0A01, 0x01A9] (List.replicate 10 7))) = [true] ∧
     (rxWords (baton [0x0005, 0, 0, 0x8000, 0] [])).getD 3 0 = 0x8000) ∧
    (batonOk (baton [0x0005, 0, 0, 0, 0x0201, 0x0181] [7, 8]) = true ∧ batonOk (baton [0x0005, 0, 0, 0, 0x0201, 0x0101] [0, 0]) = true ∧
     batonOk (baton [0x0005, 0, 0, 0, 0x0A01, 0x01A9] (List.replicate 10 7)) = true ∧ batonOk (baton [0x0005, 0, 0, 0x8000, 0] []) = true ∧
     batonOk (frameOf 900 []) = false) := by
  simp only [baton, batonOk, batonLen, rxWords_frameOf, rxClean_frameOf]
  decide +kernel

theorem witness_BatonsReturn_lost :
    (let s := fld 1 F.TBS_STRIDE_CNT_stride_cnt 9 (endA { fly := [{ stride := 5 }] })
     ringState s (0 : Fin 24) ≠ 4 ∧ (endOf (ringOf s (0 : Fin 24)) .a).fly = { stride := 5 } :: [] ∧ 4 ≤ strideAge s 5 ∧ (ringOf s (0 : Fin 24)).split = false ∧
     (endOf (ringOf s (0 : Fin 24)) .a).rx = none) ∧
    (let s := fld 1 F.TBS_STRIDE_CNT_stride_cnt 8 (endA { fly := [{ stride := 5 }] })
     ∀ l ∈ (endOf (ringOf s (0 : Fin 24)) .a).fly.head?, strideAge s l.stride < 4) := by decide +kernel

/-- Ring 0 in ENUM with the pass of end `e` out, in PROBE with node 1's probe of end B out; both ports are UP. -/
def passing (e : PortEnd) : State := ring 0 2 { nodes := oneNode, passOut := some e } (port 0 { st := 4 } (port 1 { st := 4 } (up 4)))
def probing : State := ring 0 4 { nodes := oneNode, probeOut := some (.b, 1), probes := [(.b, 0)] } (port 1 { st := 4 } (up 4))

theorem witness_BatonsReturn_enum :
    (∀ e ∈ [PortEnd.a, .b], ringState (passing e) (0 : Fin 24) = 2 ∧ endUp (passing e) (0 : Fin 24) .a = true ∧ endUp (passing e) (0 : Fin 24) .b = true ∧
     (ringOf (passing e) (0 : Fin 24)).passOut = some e ∧ (ringOf (passing e) (0 : Fin 24)).epoch = 0 ∧ (ringOf (passing e) (0 : Fin 24)).nodes.length = 256 ∧
     (ringOf (passing e) (0 : Fin 24)).fails < 3) ∧
    (let w := rxWords (baton [0x4000, 0, 0x8000, 0, 0] (0x8301 :: List.replicate 256 0))
     (w.getD 0 0).toNat / 8192 = 2 + endBit .a ∧ (w.getD 2 0).getLsbD 15 = true ∧ (w.getD 1 0).toNat / 256 = 0 ∧ (w.getD 262 0).getLsbD 15 = false ∧
     (w.getD 6 0).getLsbD 15 = true ∧ (w.getD (6 + 255) 0).getLsbD 15 = false) ∧
    (rxWords (baton [0x6000, 0, 0x8000, 0, 0] (0x8301 :: List.replicate 256 0))).getD 0 0 = 0x6000 ∧
    batonOk (baton [0x4000, 0, 0x8000, 0, 0] (0x8301 :: List.replicate 256 0)) = true ∧
    batonOk (baton [0x6000, 0, 0x8000, 0, 0] (0x8301 :: List.replicate 256 0)) = true ∧ batonOk (frameOf 900 []) = false := by
  simp only [baton, batonOk, batonLen, rxWords_frameOf, rxClean_frameOf]
  decide +kernel

theorem witness_BatonsReturn_probe :
    (ringState probing (0 : Fin 24) = 4 ∧ endUp probing (0 : Fin 24) .b = true ∧ (ringOf probing (0 : Fin 24)).probeOut = some (.b, 1) ∧
     (ringOf probing (0 : Fin 24)).probes ≠ [] ∧ 1 < (ringOf probing (0 : Fin 24)).nodes.length) ∧
    (let w := rxWords (baton [0xA000, 0x0100, 0x8000, 4] [])
     crc16 0xFFFF (w.take 4) = w.getD 4 0 ∧ (w.getD 0 0).toNat / 8192 = 4 + endBit .b ∧ (w.getD 2 0).getLsbD 15 = true ∧ (w.getD 1 0).toNat / 256 = 1) ∧
    rxClean (baton [0xA000, 0x0100, 0x8000, 4] []) 5 = true ∧ rxClean (frameOf 900 []) 5 = false := by
  simp only [baton, rxWords_frameOf, rxClean_frameOf]
  decide +kernel


/-! ## Witnesses: cells, spectroscopy -/

/-- Ring 0 of twelve nodes is in READY and serves bank 0; its queues 4 and 5 hold `q4` and `q5`. -/
def cellRing (q4 q5 : List RingWord) : State :=
  img { hasRings := true, rings := [{ ring := 0, nodes := 12 }], banks := { ring := 0 } :: List.replicate 23 {} }
    (ring 0 6 { nodes := oneNode, q4 := q4, q5 := q5 } (up 6))

/-- Its cells' records. -/
def cellRec (x : CsvRing) (s : State) : State := { s with csv := { s.csv with ring := s.csv.ring.set 0 x } }

theorem witness_SweepRunsAndFigures :
    (let s := cellRing (List.replicate 9 { node := 1, val := 5 }) []
     (ringOf s (0 : Fin 24)).q4 = { node := 1, val := 5 } :: List.replicate 8 { node := 1, val := 5 } ∧ 0 / 4 % 2 = 0 ∧
     5 = (nodeAt (ringOf s (0 : Fin 24)) 1).cells ∧ 5 ≤ 12 ∧ (ringRec s (0 : Fin 24)).ring = (0 : Fin 24) ∧ 1 < (ringRec s (0 : Fin 24)).nodes ∧ 1 < 256) ∧
    (∀ h ∈ (ringOf (cellRing [{ flags := 4 }] []) (0 : Fin 24)).q4.head?, h.flags / 4 % 2 = 1) ∧
    (let s := fld 1 F.TBS_LAP_POS_stride_in_lap 198 (cellRing [] [])
     0 = (s.img.str.banks.getD (0 : Fin 24) {}).ring ∧ strides s = true ∧ (usedBanks s.img.str).contains (0 : Fin 24).val = true ∧
     strideInLap s + 2 = lapLen s ∧ (vget s.csv.ring 0 {}).sent = false ∧ (∀ f ∈ s.plc.q7, f.bank ≠ (0 : Fin 24).val)) ∧
    strideInLap (cellRing [] []) + 2 ≠ lapLen (cellRing [] []) ∧ (vget (cellRec { sent := true } (cellRing [] [])).csv.ring 0 {}).sent = true := by
  decide +kernel

/-- Node 1 of ring 0 is selected; the ring's balancing grant is 0. -/
def selected : State := fld 10 F.CSV_SEL_node 1 (cellRing [] [])

theorem witness_CellCommands :
    (let s := selected
     coreReady s = true ∧ getF s.csv.r F.CSV_SEL_ring = (0 : Fin 24) ∧ getF s.csv.r F.CSV_SEL_node = 1 ∧ ringState s (0 : Fin 24) = 6 ∧
     (nodeAt (ringOf s (0 : Fin 24)) 1).serve = some .a ∧ (0x80010005 : Word).getLsbD 31 = true ∧ (0x80010005 : Word).toNat / 65536 % 256 ≠ 0 ∧
     adjacent ((0x80010005 : Word).toNat % 8192) = false ∧ (vget s.csv.ring (0 : Fin 24) {}).test = none ∧
     (0x00011003 : Word).getLsbD 12 = true ∧ s.csv.bal = none ∧ balEst s (0 : Fin 24) (some (1, BitVec.ofNat 12 (0x00011003 : Word).toNat)) ≤ balGrant s (0 : Fin 24)) ∧
    ((5 : Word).getLsbD 31 = false ∧ (5 : Word).getLsbD 12 = false ∧ (0x80000005 : Word).toNat / 65536 % 256 = 0 ∧ adjacent ((0x80010003 : Word).toNat % 8192) = true) ∧
    (coreReady (up 6) = true ∧ ringState (up 6) (0 : Fin 24) ≠ 6 ∧ (nodeAt (ringOf (up 6) (0 : Fin 24)) 0).serve = none ∧ strides (up 6) = true ∧ strides (up 3) = false) ∧
    ({ selected with csv := { bal := some {} } } : State).csv.bal ≠ none ∧ (vget (cellRec { test := some {} } selected).csv.ring (0 : Fin 24) {}).test ≠ none ∧
    ∀ r : Fin 24, r.val ≠ getF (fld 10 F.CSV_SEL_ring 31 (up 6)).csv.r F.CSV_SEL_ring := by decide +kernel

theorem witness_CellCommands_comb :
    combHas selected (14 / 2) = true ∧ 14 / 2 % 1024 < 864 ∧ 14 / 2 % 1024 % 72 = 7 ∧ ¬(12 / 2 % 1024 % 72 = 7) := by decide +kernel

/-- The estimate with 5 mA per cell of node 1 balanced lies above a grant of 0; node 0 of the same ring has no serving end. -/
theorem witness_CellCommands_balancing :
    (let s := { fld 10 (F.CSV_LIMn_5_bal_max 0) 5 selected with
       rng := { (ring 0 6 { nodes := {} :: [{ claimed := true, serve := some .a, cells := 5, desc := some (BitVec.ofNat 256 (65535 * 2 ^ 96)) }] } (up 6)).rng with r := selected.rng.r } }
     let s := { s with csv := { s.csv with comb := [(1024, 65535)] } }
     s.csv.bal = none ∧ ringState s (0 : Fin 24) = 6 ∧ balGrant s (0 : Fin 24) < balEst s (0 : Fin 24) (some (1, BitVec.ofNat 12 (0x00011003 : Word).toNat))) ∧
    (let s := fld 10 F.CSV_SEL_node 0 selected
     (nodeAt (ringOf s (0 : Fin 24)) (getF s.csv.r F.CSV_SEL_node)).serve = none ∧ balEst s (0 : Fin 24) (some (0, 0)) ≤ balGrant s (0 : Fin 24)) := by
  decide +kernel

/-- A diagnostic run of node 1, of five cells, is at the head of queue 4. -/
def diagRun (w : Option WireTest) : State := cellRec { test := w } (cellRing (List.replicate 6 { node := 1, flags := 4 }) [])

theorem witness_DiagRunJudged :
    (let s := diagRun none
     (ringOf s (0 : Fin 24)).q4 = { node := 1, flags := 4 } :: List.replicate 5 { node := 1, flags := 4 } ∧ 4 / 4 % 2 = 1 ∧
     5 = (nodeAt (ringOf s (0 : Fin 24)) 1).cells ∧ (vget s.csv.ring (0 : Fin 24) {}).test = none) ∧
    (∀ n ∈ [0, 1], let s := diagRun (some { node := 1, asked := true, runs := n, mask := 1 })
     (vget s.csv.ring (0 : Fin 24) {}).test = some { node := 1, asked := true, runs := n, mask := 1 } ∧ (vget s.csv.ring (0 : Fin 24) {}).auto = []) ∧
    (∀ h ∈ (ringOf (cellRing [] []) (0 : Fin 24)).q4.head?, h.flags / 4 % 2 = 0) ∧ 0 ∈ bitsOf (1 : BitVec 13) ∧
    judgeWire 5 0 (fun _ => 5) 0 = none ∧ judgeWire 5 0 (fun _ => -5) 0 = some true ∧ judgeWire 5 0 (fun _ => 0) 0 = some false := by decide +kernel


/-- A campaign of one tone on ring 0, demodulated in the place `pl`, whose node 1 stands as `y`, `k` strides behind its start mark. -/
def camp (pl dm : Nat) (k : Int) (y : SpxNode) : Camp :=
  { phase := .running, nInt := 8, dropMax := dm, k := k, tones := [{ cyc := 1, amp := 1 }], rings := [{ ring := 0, place := pl, nodes := [{}, y] }] }

/-- Ring 0 in READY, its port A UP, with the campaign `c`. -/
def camped (c : Option Camp) (q5 : List RingWord) : State := port 0 { st := 4 } { cellRing [] q5 with spx := { camp := c } }

theorem witness_SpectroscopyRuns_commands :
    (coreReady (camped none []) = true ∧ (camped none []).spx.camp = none ∧ (camped (some (camp 1 0 0 {})) []).spx.camp ≠ none) ∧
    (∀ n ∈ [0, 1], let c : Camp := { camp 1 0 0 {} with phase := .accepted }
     let s := ring 0 6 { nodes := oneNode, a := { cur := if n = 0 then none else some ({}, []) } } (camped (some c) [])
     s.spx.camp = some c ∧ c.phase = .accepted ∧ downFree s c = (n == 0) ∧ 0 < lapLen s) ∧
    (∀ k ∈ [2, 3], let c : Camp := { camp 1 0 k {} with phase := .ramping 3 }
     let s := camped (some c) []
     s.spx.camp = some c ∧ c.phase = .ramping 3 ∧ (((3 + rampStrides c : Nat) : Int) ≤ c.k ↔ k = 3) ∧
     ∃ x ∈ c.rings, x.ring < 24 ∧ (endUp s x.ring .a = true ∨ endUp s x.ring .b = true)) ∧
    (let c : Camp := { phase := .ramping 0, k := 0 }
     0 + rampStrides c ≤ c.k ∧ c.rings = []) := by decide +kernel

theorem witness_SpectroscopyRuns_queue :
    (let s := camped none [{ node := 1, idx := 792 }]
     (ringOf s (0 : Fin 24)).q5 = { node := 1, idx := 792 } :: [] ∧ 792 % 72 = 0 ∧ 792 < 864 ∧ s.spx.bins = [] ∧ s.spx.camp = none ∧
     ∀ w ∈ (ringOf s (0 : Fin 24)).q5.head?, w.idx < 960) := by decide +kernel

/-- A stream word of sample `n` of node 1 is at the head of queue 5. -/
def sampled (n : Nat) : State := camped (some (camp 1 0 9 {})) [{ node := 1, smp := n }]

theorem witness_SpectroscopyRuns_samples :
    ((camp 1 0 9 {}).rings.find? fun y => y.ring == (0 : Fin 24).val) = some { ring := 0, place := 1, nodes := [{}, {}] } ∧
    (sampled 7).spx.camp = some (camp 1 0 9 {}) ∧ 7 < 0 + (camp 1 0 9 {}).nInt ∧ 0 + (camp 1 0 9 {}).nInt ≤ 8 ∧ 1 < [({} : SpxNode), {}].length ∧
    (ringOf (sampled 7) (0 : Fin 24)).q5 = { node := 1, smp := 7 } :: [] ∧ (ringOf (sampled 8) (0 : Fin 24)).q5 = { node := 1, smp := 8 } :: [] := by
  decide +kernel

/-- A phasor run of node 1, in its window 2, is at the head of queue 5. -/
def phasored : State := camped (some (camp 2 0 9 { win := 2 })) (List.replicate 11 { node := 1, idx := 960, val := 0x0102 })

theorem witness_SpectroscopyRuns_phasors :
    (ringOf phasored (0 : Fin 24)).q5 = { node := 1, idx := 960, val := 0x0102 } :: List.replicate 10 { node := 1, idx := 960, val := 0x0102 } ∧
    960 ≤ 960 ∧ 11 = 2 * (nodeAt (ringOf phasored (0 : Fin 24)) 1).cells + 1 ∧ spxNodeOf phasored (0 : Fin 24) 1 = some { win := 2 } ∧
    (0x0102 : Half).toNat % 256 = 2 % 256 ∧ ∀ w ∈ (ringOf phasored (0 : Fin 24)).q5.head?, w.idx % 72 ≠ 0 ∨ 864 ≤ w.idx := by decide +kernel

/-- The campaign's ring record and node 1. -/
def campOver (c : Camp) : Bool :=
  match c.rings with
  | x :: _ => windowOver (camped (some c) []) c x (1 : Fin 256)
  | [] => false

/-- What node 1's window lacks of ring 0's campaign. -/
def campExcl (c : Camp) : Nat :=
  match c.rings with
  | x :: _ => exclOf (camped (some c) []) c x (1 : Fin 256)
  | [] => 0

theorem witness_SpectroscopyRuns_windows :
    (let c := camp 1 0 8 { seen := 8, past := 8 }
     (c.rings.find? fun z => z.ring == (0 : Fin 24).val) = some { ring := 0, place := 1, nodes := [{}, { seen := 8, past := 8 }] } ∧
     [({} : SpxNode), { seen := 8, past := 8 }][(1 : Fin 256).val]? = some { seen := 8, past := 8 } ∧ campOver c = true ∧ campExcl c ≤ c.dropMax) ∧
    campOver (camp 1 0 7 { seen := 7, past := 7 }) = false ∧
    (campOver (camp 1 1 8 { seen := 7, past := 8 }) = true ∧ campExcl (camp 1 1 8 { seen := 7, past := 8 }) = 1) ∧
    (campOver (camp 1 0 8 { seen := 7, past := 8 }) = true ∧ 0 < campExcl (camp 1 0 8 { seen := 7, past := 8 })) ∧
    (campOver (camp 1 0 8 { step := .lost }) = true ∧ InStep.lost ≠ .inStep) ∧
    (campOver (camp 2 8 16 { asked := true }) = true ∧ ([] : List PhasorRun).length < 1) ∧
    (campOver (camp 2 8 8 { asked := true, runs := [{}] }) = true ∧ campExcl (camp 2 8 8 { asked := true, runs := [{}] }) ≤ 8 ∧
     (({} : PhasorRun).x ≠ 31)) ∧
    (let s := { cellRing [] [] with spx := { q6 := [{ idx := 800 }] } }
     s.spx.q6 = { idx := 800 } :: [] ∧ combHas s (0 * 262144 + 0 * 1024 + 800) = true ∧ combHas s (0 * 262144 + 0 * 1024 + 800 + 1) = true) ∧
    (up 6).spx.q6 = [] := by decide +kernel


/-! ## Witnesses: faults, the host link, serial ports -/

theorem witness_FaultsAndClears_events :
    (coreReady (held 2) = false ∧ coreReady (up 2) = true ∧ opState (up 2) < 3) ∧
    (coreReady (up 3) = true ∧ 3 ≤ opState (up 3) ∧ (up 3).flt.q9 = []) ∧
    (∀ act : Bool, let s := oneEvent 2 { cls := 128, thresh := 2, active := act }
     coreReady s = true ∧ 3 ≤ opState s ∧ s.flt.q9 = { src := 2, unit := 5, sub := 6 } :: [] ∧ srcEnabled s.img.str (2 : Fin 128) s.flt.src[(2 : Fin 128)] = true ∧
     s.flt.src[(2 : Fin 128)].active = act ∧ s.flt.src[(2 : Fin 128)].isOpen = false ∧ 2 ≤ (2 : Fin 128).val ∧ min 255 (0 + 1) < s.flt.src[(2 : Fin 128)].thresh) ∧
    (let s := oneEvent 112 {}
     srcEnabled s.img.str (112 : Fin 128) s.flt.src[(112 : Fin 128)] = false) := by decide +kernel

theorem witness_FaultsAndClears_active :
    (let s := oneEvent 1 { react := 2 }
     srcEnabled s.img.str (1 : Fin 128) s.flt.src[(1 : Fin 128)] = true ∧ s.flt.src[(1 : Fin 128)].active = false ∧ (1 : Fin 128).val < 2 ∧
     (srcReact 1 s.flt.src[(1 : Fin 128)]).testBit 1 = true) ∧
    (let s := oneEvent 2 { cls := 128, thresh := 1, react := 0xF3 }
     let s := { s with sys := { s.sys with idled := true } }
     srcEnabled s.img.str (2 : Fin 128) s.flt.src[(2 : Fin 128)] = true ∧ s.flt.src[(2 : Fin 128)].active = false ∧ s.flt.src[(2 : Fin 128)].thresh ≤ min 255 (0 + 1) ∧
     s.sys.idled = true ∧ ∀ b ∈ [0, 1, 4, 5, 6, 7], (srcReact 2 s.flt.src[(2 : Fin 128)]).testBit b = true) := by decide +kernel

theorem witness_FaultsAndClears_held :
    (∀ n ∈ [1, 2, 255, 256], let f : Flt := { held := [{ src := 2, count := n }] }
     f.held = { src := 2, count := n } :: [] ∧ f.q9.length < 64) ∧
    ({} : Flt).held = [] ∧ 64 ≤ ({ held := [{ src := 2, count := 1 }], q9 := List.replicate 64 { src := 0 } } : Flt).q9.length := by decide +kernel

theorem witness_FaultsAndClears_clears :
    (let s := fld 1 F.TBS_STAT_lock_state 3 { up 3 with flt := { src := Vector.replicate 128 { active := true } } }
     coreReady s = true ∧ (24 : Fin 128).val = 32 * (0 : Fin 4) + (24 : Fin 32) ∧ s.flt.src[(24 : Fin 128)].active = true ∧ clearHolds s (24 : Fin 128) = true ∧
     (127 : Fin 128).val = 32 * (3 : Fin 4).val + (31 : Fin 32).val ∧ clearHolds s (127 : Fin 128) = false ∧ s.flt.src[(127 : Fin 128)].active = true ∧
     clearHolds s (0 : Fin 128) = false ∧ s.flt.src[(0 : Fin 128)].active = true) ∧
    (let s := up 3
     s.flt.src[(0 : Fin 128)].active = false ∧ clearHolds s (0 : Fin 128) = false ∧ s.flt.src[(2 : Fin 128)].active = false ∧ ownsLatch s.img.str 2 = false) ∧
    (let s := fld 1 F.TBS_STAT_lock_state 3 (up 3)
     s.flt.src[(24 : Fin 128)].active = false ∧ clearHolds s (24 : Fin 128) = true) := by decide +kernel

theorem witness_FaultsAndClears_log :
    (∀ n ∈ [0, 256], let s := fld 20 F.NVM_STAT_ready 1 { up 3 with flt := { nvPend := [{}], nvLost := n } }
     s.flt.nvPend = {} :: [] ∧ s.flt.nvLost = n ∧ flag s.nvm.r F.NVM_STAT_ready = true) ∧ (up 3).flt.nvPend = [] := by decide +kernel

/-- The endpoint's link is up with Bus Master Enable, and vector 31 pends. -/
def posting : State := fld 14 F.HST_STAT_link_up 1 (fld 14 F.HST_STAT_bme 1 { up 3 with hst := { r := kvSet hstReset 0x9000 0x80000000 } })

theorem witness_HostLinkAndRings_link :
    (let s := fld 14 F.HST_PCIE_CFG_en 1 { up 3 with bgt := { on := 0x00800000 } }
     flag s.hst.r F.HST_PCIE_CFG_en = true ∧ s.bgt.on.getLsbD 23 = true ∧ (up 3).bgt.on.getLsbD 23 = false ∧
     flag (fld 14 F.HST_PCIE_CFG_en 0 s).hst.r F.HST_PCIE_CFG_en = false) ∧
    (getBit posting.hst.r 0x9000 (31 : Fin 32) = true ∧ canPost posting.hst = true ∧ getBit posting.hst.r 0x9000 (0 : Fin 32) = false ∧
     canPost (fld 14 F.HST_STAT_bme 0 posting).hst = false) := by decide +kernel

/-- DMA ring 15 is enabled at its least size with one entry waiting, one stride old; `wb` enables its write-back. -/
def ringed (wb : Nat) : State :=
  fld 14 (F.HST_DMAr_WB_LO_wb_en 15) wb (fld 14 F.HST_STAT_link_up 1 (fld 14 F.HST_STAT_bme 1 (fld 14 (F.HST_DMAr_CFG_en 15) 1 (fld 14 (F.HST_DMAr_CFG_size_log2 15) 6
    (fld 14 (F.HST_DMAr_CFG_hold 15) 1 { up 3 with hst := { dma := Vector.replicate 16 { q := [(0, 5)], since := 1, age := 1 } } })))))

theorem witness_HostLinkAndRings_control :
    (let s := up 3
     s.sys.up = true ∧ flag s.hst.r (F.HST_DMAr_CFG_en (15 : Fin 16)) = false ∧ (0x86000000 : Word).toNat / 2 ^ 31 = 1 ∧ (0x86000000 : Word).toNat / 2 ^ 29 % 4 ≠ 3 ∧
     6 ≤ (0x86000000 : Word).toNat / 2 ^ 24 % 32 ∧ (0x94000000 : Word).toNat / 2 ^ 24 % 32 ≤ 20) ∧
    (let s := ringed 0
     s.sys.up = true ∧ flag s.hst.r (F.HST_DMAr_CFG_en (15 : Fin 16)) = true ∧ (0 : Word).toNat / 2 ^ 31 = 0 ∧ (0xA7000000 : Word).toNat / 2 ^ 31 = 1 ∧
     (0xA7000000 : Word).toNat / 2 ^ 24 % 128 ≠ (kvGet s.hst.r (R.HST_DMAr_CFG (15 : Fin 16))).toNat / 2 ^ 24 % 128 ∧
     (0xA7000000 : Word).toNat / 2 ^ 24 % 32 ≠ getF s.hst.r (F.HST_DMAr_CFG_size_log2 (15 : Fin 16)) ∧
     (0xA7000000 : Word).toNat / 2 ^ 29 % 4 ≠ getF s.hst.r (F.HST_DMAr_CFG_src (15 : Fin 16))) ∧
    (let s := fld 14 (F.HST_DMAr_CFG_size_log2 0) 6 (fld 14 (F.HST_DMAr_WPTR_wptr 0) 5 (up 3))
     s.sys.up = true ∧ 64 = 2 ^ getF s.hst.r (F.HST_DMAr_CFG_size_log2 (0 : Fin 16)) ∧ 0 = getF s.hst.r (F.HST_DMAr_RPTR_rptr (0 : Fin 16)) ∧
     5 = (getF s.hst.r (F.HST_DMAr_WPTR_wptr (0 : Fin 16)) + 64 - 0) % 64 ∧ (5 < 64 ∧ (5 + 64 - 0) % 64 ≤ 5) ∧ ¬(6 < 64 ∧ (6 + 64 - 0) % 64 ≤ 5)) := by
  decide +kernel

theorem witness_HostLinkAndRings_traffic :
    (∀ wb ∈ [0, 1], let s := ringed wb
     flag s.hst.r (F.HST_DMAr_CFG_en (15 : Fin 16)) = true ∧ 0 = getF s.hst.r (F.HST_DMAr_WPTR_wptr (15 : Fin 16)) ∧
     6 = getF s.hst.r (F.HST_DMAr_CFG_size_log2 (15 : Fin 16)) ∧ 0 < 2 ^ 6 ∧ 6 ≤ 20 ∧ s.hst.dma[(15 : Fin 16)].q ≠ [] ∧ canPost s.hst = true ∧
     flag s.hst.r (F.HST_DMAr_WB_LO_wb_en (15 : Fin 16)) = (wb == 1) ∧
     getF s.hst.r (F.HST_DMAr_CFG_hold (15 : Fin 16)) ≠ 0 ∧ s.hst.dma[(15 : Fin 16)].since ≠ 0 ∧
     getF s.hst.r (F.HST_DMAr_CFG_hold (15 : Fin 16)) ≤ s.hst.dma[(15 : Fin 16)].age) ∧
    ((up 3).hst.dma[(0 : Fin 16)].q = [] ∧ getF (up 3).hst.r (F.HST_DMAr_CFG_hold (0 : Fin 16)) = 0 ∧ canPost (up 3).hst = false) := by decide +kernel


/-- A serial frame with opcode `op`, address `0, b, c` and a good header, and its data. -/
def sframe (op b c : Byte) (data : List Byte) : List Byte :=
  let h := [op, 0, b, c, 0]
  h ++ crc8 h :: data

theorem witness_SerialFrames :
    ((up 3).sys.up = true ∧ portTakes false (up 3) = true ∧ portTakes true (fld 16 F.SVC_STAT_alt 1 (up 3)) = true ∧ coreReady (up 3) = true ∧
     portTakes true (up 3) = false ∧ frameOp (sframe 6 0 0 []) ≠ 5) ∧
    (∀ op ∈ [(1 : Byte), 3, 5], 6 ≤ (sframe op 0 0 []).length ∧ (frameHdr (sframe op 0 0 [])).crcOk = true ∧
      frameAddrErr false (frameHdr (sframe op 0 0 [])) = false ∧ (frameHdr (sframe op 0 0 [])).cnt = 0 ∧ (frameHdr (sframe op 0 0 [])).op = op.toNat) ∧
    (let bs := sframe 2 1 4 [1, 2, 3, 4]
     (frameHdr bs).crcOk = true ∧ frameAddrErr false (frameHdr bs) = false ∧ (frameHdr bs).op = 2 ∧ bs.length = 6 + 4 * ((frameHdr bs).cnt + 1)) ∧
    (let bs := sframe 4 0 14 [1, 2]
     (frameHdr bs).crcOk = true ∧ frameAddrErr true (frameHdr bs) = false ∧ (frameHdr bs).op = 4 ∧ bs.length = 6 + 2 * ((frameHdr bs).cnt + 1)) := by
  decide +kernel

theorem witness_SerialFrames_errors :
    (∀ op ∈ [(0 : Byte), 1, 2, 3, 4, 5], let bs : List Byte := [op, 0, 0, 0, 0, 0xFF]
     6 ≤ bs.length ∧ (frameHdr bs).crcOk = false ∧ (frameHdr bs).op = op.toNat) ∧
    ((frameHdr (sframe 1 0 1 [])).crcOk = true ∧ frameAddrErr false (frameHdr (sframe 1 0 1 [])) = true ∧ 5 < (frameHdr (sframe 6 0 0 [])).op) ∧
    (∀ bs ∈ [([] : List Byte), [1, 0, 0, 0, 0], [2, 0, 0, 0, 0]], bs.length < 6) ∧
    (∀ uart : Bool, let bs := sframe 2 1 4 [1, 2, 3]
     (frameHdr bs).op = 2 ∧ (frameHdr bs).crcOk = true ∧ frameAddrErr uart (frameHdr bs) = false ∧ 6 ≤ bs.length ∧
     bs.length - 6 < itemBytes (frameHdr bs) * ((frameHdr bs).cnt + 1) ∧ (bs.length - 6) % itemBytes (frameHdr bs) ≠ 0) ∧
    ((frameHdr (sframe 1 0 0 [])).op ≠ 2 ∧ (frameHdr (sframe 1 0 0 [])).op ≠ 4) ∧
    (28 = getF (fld 15 F.TWO_A_STAT_ptr 28 (up 3)).two.r F.TWO_A_STAT_ptr ∧ 28 % 4 = 0 ∧ 0 = getF (fld 15 F.TWO_A_STAT_ptr 28 (up 3)).two.r F.TWO_A_STAT_blk ∧
     ([1, 2, 3] : List Byte).length < 4) := by
  decide +kernel


theorem witness_PortACommands :
    (up 3).sys.up = true ∧ (20 : Byte).toNat ≤ 20 ∧ 20 < (21 : Byte).toNat ∧ coreReady (up 3) = true ∧
    flag (fld 15 F.TWO_A_STAT_alert 1 (up 3)).two.r F.TWO_A_STAT_alert = true ∧ flag (up 3).two.r F.TWO_A_STAT_alert = false ∧
    ([7] : List Byte) ≠ [] ∧ ([7] : List Byte).length < 2 := by
  decide +kernel

/-- Port B enabled at address 0x10, its transfer standing as `x`. -/
def portB (x : Option TwbXfer) : State := fld 15 F.TWO_B_CFG_addr 0x10 (fld 15 F.TWO_B_CFG_en 1 { up 3 with two := { xfer := x } })

/-- Port B answers as a target and drives its alert line if `al` is 1. -/
def target (al : Nat) (x : Option TwbXfer) : State := fld 15 F.TWO_B_CFG_alert_assert al (fld 15 F.TWO_B_CFG_tgt_en 1 (portB x))

theorem witness_PortACommands_alert_b :
    flag (target 1 none).two.r F.TWO_B_CFG_alert_assert = true ∧ flag (target 1 none).two.r F.TWO_B_CFG_en = true ∧
    flag (target 0 none).two.r F.TWO_B_CFG_alert_assert = false ∧ flag (up 3).two.r F.TWO_B_CFG_en = false := by decide +kernel

theorem witness_PortBTransfer :
    ((portB none).sys.up = true ∧ flag (portB none).two.r F.TWO_B_CFG_en = true ∧ (portB none).two.xfer = none ∧ (0x00202010 : Word).toNat / 65536 % 64 ≤ 32 ∧
     (0x00202010 : Word).toNat / 256 % 64 ≤ 32 ∧ 0 < (0x00202010 : Word).toNat / 65536 % 64 + (0x00202010 : Word).toNat / 256 % 64 ∧
     (0x10 : Word).toNat / 65536 % 64 + (0x10 : Word).toNat / 256 % 64 = 0 ∧ 32 < (0x00002110 : Word).toNat / 256 % 64 ∧
     32 < (0x00210010 : Word).toNat / 65536 % 64) ∧
    (let s := portB (some { rd := 32 })
     s.two.xfer = some { rd := 32 } ∧ flag s.two.r F.TWO_B_CFG_en = true ∧ flag s.two.r F.TWO_B_STAT_as_target = false ∧
     flag (fld 15 F.TWO_B_STAT_as_target 1 s).two.r F.TWO_B_STAT_as_target = true ∧ xferRuns s = false) ∧
    (let s := portB (some { rd := 32, running := true })
     s.two.xfer = some { rd := 32, running := true } ∧ 32 ≤ 32) := by decide +kernel

theorem witness_PortBArbitration :
    (∀ n ∈ [2, 3], let s := fld 15 F.TWO_B_CFG_retries 3 (target 0 (some { running := true, tries := n }))
     s.sys.up = true ∧ s.two.xfer = some { running := true, tries := n } ∧ (n < getF s.two.r F.TWO_B_CFG_retries ↔ n = 2) ∧ targetOn s = true ∧
     (0x10 : BitVec 7).toNat = getF s.two.r F.TWO_B_CFG_addr ∧ flag (fld 15 F.TWO_B_CFG_mode 1 s).two.r F.TWO_B_CFG_mode = true ∧
     flag (fld 15 F.TWO_B_CFG_mode 0 s).two.r F.TWO_B_CFG_mode = false) ∧ xferRuns (up 3) = false := by decide +kernel

theorem witness_PortBArbitration_recovery :
    (flag (fld 15 F.TWO_A_CFG_timeout_en 1 (up 3)).two.r F.TWO_A_CFG_timeout_en = true ∧
     flag (fld 15 F.TWO_A_CFG_timeout_en 0 (up 3)).two.r F.TWO_A_CFG_timeout_en = false ∧
     flag (fld 15 F.TWO_B_CFG_timeout_en 1 (portB none)).two.r F.TWO_B_CFG_timeout_en = true ∧
     flag (fld 15 F.TWO_B_CFG_timeout_en 0 (portB none)).two.r F.TWO_B_CFG_timeout_en = false) ∧
    (xferRuns (portB (some { running := true })) = true ∧ (portB (some {})).two.xfer ≠ none) ∧
    (opState (fld 0 F.SYS_STATE_STAT_state 2 (target 0 none)) < 3 ∧ targetOn (fld 0 F.SYS_STATE_STAT_state 2 (target 0 none)) = true ∧
     opState (up 2) < 3 ∧ targetOn (up 2) = false ∧ 3 ≤ opState (up 3)) := by decide +kernel

theorem witness_PortBMailbox :
    0 = (if 31 < (0 : Byte).toNat then (Config.freeWord (target 0 none).free).toNat % 32 else (0 : Byte).toNat) ∧
    (target 0 none).sys.up = true ∧ targetOn (target 0 none) = true ∧ flag (target 0 none).two.r F.TWO_B_CFG_alert_assert = false ∧
    flag (target 1 none).two.r F.TWO_B_CFG_alert_assert = true ∧ (List.replicate 32 (5 : Byte)) ≠ [] ∧ (List.replicate 32 (5 : Byte)).length ≤ 32 ∧
    targetOn (up 3) = false := by decide +kernel


/-! ## Witnesses: the service port -/

/-- An attached service port with these records. -/
def att (x : Svc) : State := fld 16 F.SVC_STAT_cc_state 2 { up 3 with svc := { x with started := true } }

/-- The CC logic at `cc_state` `c` with `role` and `try` in force. -/
def cc (c role try_ : Nat) : State := fld 16 F.SVC_STAT_cc_state c { up 3 with svc := { started := true, roleF := role, tryF := try_ } }

theorem witness_SvcAttachment_start :
    (up 3).sys.up = true ∧ (up 3).svc.started = false ∧ 4000 < (4001 : BitVec 16).toNat ∧ (4000 : BitVec 16).toNat ≤ 4000 ∧
    (cc 0 2 0).svc.started = true ∧ svcAttached (att {}) = true := by decide +kernel

theorem witness_SvcAttachment :
    (∀ c ∈ [0, 1, 4], (cc c 2 2).sys.up = true ∧ (cc c 2 2).svc.started = true ∧ svcAttached (cc c 2 2) = false ∧
      c = getF (cc c 2 2).svc.r F.SVC_STAT_cc_state) ∧
    ((cc 1 2 2).svc.roleF = 2 ∧ (cc 1 2 2).svc.tryF ≠ 0 ∧ (cc 1 0 2).svc.roleF ≠ 2 ∧ (cc 1 2 0).svc.tryF = 0) := by decide +kernel

/-- Every clause on what a settled connection becomes has a role that meets it. -/
theorem witness_SvcAttachment_roles : ∀ rd turned : Bool, ∀ role ∈ [0, 1, 2], ∀ t ∈ [0, 1, 2], ∀ x : Svc, x = (cc 1 role t).svc → ∃ src : Bool,
    (x.roleF = 0 → src = false) ∧ (x.roleF = 1 → src = true) ∧ (x.roleF ≠ 0 → x.roleF ≠ 1 →
      (x.tryF = 1 → src = (rd || turned)) ∧ (x.tryF = 2 → src = (rd && !turned)) ∧ (x.tryF ≠ 1 → x.tryF ≠ 2 → src = rd)) := by
  intro rd turned role hr t ht x hx
  refine ⟨if role = 0 then false else if role = 1 then true else if t = 1 then rd || turned else if t = 2 then rd && !turned else rd, ?_⟩
  have h : x.roleF = role ∧ x.tryF = t := by subst hx; exact ⟨rfl, rfl⟩
  rw [h.1, h.2]
  refine ⟨fun h => by simp [h], fun h => by simp [h], fun h0 h1 => ⟨fun h => by simp [h0, h1, h], fun h => by simp [h0, h1, h], fun h h' => by simp [h0, h1, h, h']⟩⟩

theorem witness_SvcDetach :
    (∀ a ∈ [0, 1], (fld 16 F.SVC_STAT_alt a (att {})).sys.up = true ∧ svcAttached (fld 16 F.SVC_STAT_alt a (att {})) = true) ∧
    flag (fld 16 F.SVC_STAT_alt 1 (att {})).svc.r F.SVC_STAT_alt = true ∧ flag (fld 16 F.SVC_STAT_alt 0 (att {})).svc.r F.SVC_STAT_alt = false ∧
    (att { srcWait := true }).svc.srcWait = true ∧ (att { hrWait := true }).svc.hrWait = true ∧
    (att { swap := some .vconn }).svc.swap ≠ none ∧ svcAttached (up 3) = false := by decide +kernel

/-- A message of SOP with this header. -/
def pd (h : Nat) : PdMsg := { sop := 0, header := BitVec.ofNat 16 h, objs := [0x0001912C] }

theorem witness_PdReceives_goodcrc :
    svcAttached (up 3) = false ∧ (att {}).sys.up = true ∧ isCtl (pd 0x0401).header 1 = true ∧
    (∀ h ∈ [0x0403, 0x0603], (att { tx := some { header := (pd h).header } }).svc.tx = some { header := (pd h).header } ∧
      (hdrId (pd h).header = hdrId (pd 0x0401).header ↔ h = 0x0403)) := by decide +kernel

theorem witness_PdReceives :
    (∀ h ∈ [0x0403, 0x1401, 0x0409, 0x040A, 0x040B], svcAttached (att {}) = true ∧ isCtl (pd h).header 1 = false ∧
      (att {}).svc.fifo.length < 4 ∧ isCtl (pd h).header 13 = false ∧ (att {}).svc.lastId[(pd h).sop] ≠ some (hdrId (pd h).header) ∧
      (att { lastId := Vector.replicate 3 (some 2) }).svc.lastId[(pd h).sop] = some (hdrId (pd h).header) ∧
      isData (pd h).header 15 = false) ∧
    4 ≤ (att { fifo := List.replicate 4 (pd 0) }).svc.fifo.length ∧
    flag (fld 16 F.SVC_CFG_host_pol 1 (att {})).svc.r F.SVC_CFG_host_pol = true ∧ flag (att {}).svc.r F.SVC_CFG_host_pol = false ∧
    ({ sop := 2, header := 0x0403, objs := [] } : PdMsg).sop.val ≠ 0 ∧ (pd 0).sop.val = 0 ∧
    isData (pd 0x1401).header 1 = true ∧ svcSource (att {}) = false ∧ isCtl (pd 0x0409).header 9 = true ∧
    isCtl (pd 0x040A).header 10 = true ∧ isCtl (pd 0x040B).header 11 = true ∧ hdrObjs (pd 0x0403).header = 0 ∧
    isCtl (pd 0x0403).header 9 = false ∧ isCtl (pd 0x0403).header 10 = false ∧ isCtl (pd 0x0403).header 11 = false := by
  decide +kernel

theorem witness_PdSends :
    ((att {}).sys.up = true ∧ (att {}).svc.tx = none ∧ getF (att {}).svc.r F.SVC_TX_sop ≤ 2 ∧
     hdrType (BitVec.ofNat 16 (getF (att {}).svc.r F.SVC_TX_header)) ≠ 15 ∧ (att {}).svc.resp = none) ∧
    (∀ n ∈ [1, 2], (att { tx := some { tries := n } }).svc.tx ≠ none ∧ (att { tx := some { tries := n } }).svc.tx = some { tries := n } ∧
      (n < 2 ↔ n = 1)) ∧
    (∀ a ∈ [0, 1], ∀ w ∈ [RespWait.response 2, .softAccept],
      (fld 16 F.SVC_CFG_auto_sr a (att { resp := some w })).svc.resp = some w ∧
      flag (fld 16 F.SVC_CFG_auto_sr a (att { resp := some w })).svc.r F.SVC_CFG_auto_sr = decide (a = 1)) := by decide +kernel

theorem witness_SvcPowerPath :
    (∀ p ∈ [0, 1], ∀ w ∈ [none, some SwapStage.discharge], let s := fld 16 F.SVC_STAT_prole p (att { swap := w })
      s.sys.up = true ∧ flag s.svc.r F.SVC_STAT_alt = false ∧ s.svc.swap = w ∧ svcSource s = decide (p = 1) ∧ svcAttached s = true) ∧
    (att { hrWait := true }).svc.hrWait = true ∧ (att {}).svc.hrWait = false ∧
    getF (fld 16 F.SVC_VBUS_mv 799 (att { hrWait := true })).svc.r F.SVC_VBUS_mv < 800 ∧ 800 ≤ getF (fld 16 F.SVC_VBUS_mv 800 (att {})).svc.r F.SVC_VBUS_mv ∧
    flag (att {}).svc.r F.SVC_PATH_snk_req = false ∧ flag (att {}).svc.r F.SVC_STAT_src_en = false ∧
    flag (fld 16 F.SVC_PATH_snk_req 1 (att {})).svc.r F.SVC_PATH_snk_req = true ∧
    (799 : BitVec 16).toNat < 800 ∧ 800 ≤ (800 : BitVec 16).toNat ∧
    (att { srcWait := true }).svc.srcWait = true ∧ (att {}).svc.srcWait = false := by decide +kernel

theorem witness_SvcSwaps :
    (∀ w ∈ [none, some SwapStage.discharge, some .asSink, some .asSource, some .vconn],
      (att { swap := w }).sys.up = true ∧ flag (att { swap := w }).svc.r F.SVC_STAT_alt = false ∧ (att { swap := w }).svc.swap = w) ∧
    (∀ p ∈ [0, 1], ∀ f ∈ [0, 1], ∀ v ∈ [799, 800],
      let s := fld 16 F.SVC_VBUS_mv v (fld 16 F.SVC_CFG_vbus_fed f (fld 16 F.SVC_STAT_prole p (att {})))
      s.svc.swap = none ∧ svcSource s = decide (p = 1) ∧ flag s.svc.r F.SVC_CFG_vbus_fed = decide (f = 1) ∧
      flag s.svc.r F.SVC_STAT_src_en = false ∧ getF s.svc.r F.SVC_VBUS_mv = v) ∧
    4000 < (4001 : BitVec 16).toNat ∧ (4000 : BitVec 16).toNat ≤ 4000 ∧
    ((fld 16 F.SVC_STAT_src_en 1 (att { swap := some .asSource })).svc.swap = some .asSource ∧
     flag (fld 16 F.SVC_STAT_src_en 1 (att { swap := some .asSource })).svc.r F.SVC_STAT_src_en = true) ∧
    (att { vconnEn := true }).svc.vconnEn = true ∧ (att {}).svc.vconnEn = false ∧
    flag (fld 16 F.SVC_STAT_ra 1 (att {})).svc.r F.SVC_STAT_ra = true ∧ flag (att {}).svc.r F.SVC_STAT_ra = false := by decide +kernel

/-! ## Witnesses: tag lines, die temperature sites, rail sequencer -/

/-- Tag line 3 enabled, with `c` running there. -/
def line (c : Option TagCmd) : State := fld 19 F.TAG_CFG_no_vtag 0 { up 3 with tag := {
  r := putBit (up 3).tag.r R.TAG_CFG 3 true, cmd := Vector.replicate 4 c } }

theorem witness_TagCommandsJudged :
    (∀ c ∈ [none, some TagCmd.reset], (line c).sys.up = true ∧ flag (line c).tag.r F.TAG_CFG_no_vtag = false ∧
      getBit (line c).tag.r R.TAG_CFG (3 : Fin 4) = true ∧ (line c).tag.off.getLsbD (3 : Fin 4) = false ∧ (line c).tag.cmd[(3 : Fin 4)] = c) ∧
    flag (fld 19 F.TAG_CFG_no_vtag 1 (line none)).tag.r F.TAG_CFG_no_vtag = true ∧ getBit (line none).tag.r R.TAG_CFG (0 : Fin 4) = false := by
  decide +kernel

theorem witness_TagLinesEnd :
    (∀ c ∈ [none, some TagCmd.reset, some .search, some (.read 5 7)], (line c).sys.up = true ∧ (line c).tag.cmd[(3 : Fin 4)] = c) ∧
    (∀ b : Bool, [TagAnswer.presence b] = .presence b :: []) ∧ (tagSearchRun [.presence false]).err = 1 ∧
    (tagReadRun 5 7 4 { ans := [.presence true, .data (List.replicate 32 3 ++ [crc8 (List.replicate 32 3)])] }).err = 0 ∧
    (tagReadRun 5 7 4 { ans := [.presence false] }).err ≠ 0 ∧
    ((4 : Fin 16).val < 16 ∧ { (line none) with tag := { (line none).tag with off := 8 } }.tag.off.getLsbD (3 : Fin 4) = true) := by decide +kernel

theorem witness_ThmMeasureJudges :
    (up 3).sys.up = true ∧ (List.replicate 12 (some 12345) : List SiteReading).length = 12 ∧ (∃ i < 12, siteMasked (up 3).thm.r i = false) := by
  decide +kernel

/-- The sequencer in state `st` with one rail. -/
def railed (st : Nat) (x : SeqRail) : State := fld 17 F.SEQ_STAT_state st { up 3 with seq := { rails := [x] } }

/-- The sequencer off, with a table of one rail that may be copied, or of none. -/
def seqTable (n : Nat) : State :=
  fld 17 F.SEQ_CFG_count n (fld 17 (F.SEQ_RAILn_B_pg_timeout 0) 1 (fld 17 (F.SEQ_RAILn_B_fall_timeout 0) 10000 (up 3)))

theorem witness_SeqCommandsStart :
    (seqTable 1).sys.up = true ∧ seqState (seqTable 1).seq = 0 ∧ tableOk (seqTable 1) = true ∧ seqState (seqTable 17).seq = 0 ∧
    tableOk (seqTable 17) = false ∧ ∀ st ∈ [1, 2, 3, 4], seqState (railed st {}).seq = st := by decide +kernel

theorem witness_SeqTicks :
    (∀ p ∈ [0, 1], let s := fld 17 F.SEQ_STAT_on_pending p (seqTable 1)
      s.sys.up = true ∧ seqState s.seq = 0 ∧ flag s.seq.r F.SEQ_STAT_on_pending = decide (p = 1) ∧ tableOk s = true) ∧
    (∀ st ∈ [1, 2, 3, 4], seqState (railed st {}).seq = st) ∧
    (let s := railed 1 { en := true, goodCnt := 4, goodSince := true }
     goneBad s.seq.rails (s.seq.rails.map (sampleRail s 0)) ≠ [] ∧ goneBad s.seq.rails (s.seq.rails.map (sampleRail s 1)) = []) ∧
    (∀ f : Bool, let s := railed 3 { inDown := true, fallen := f }
     gapOver s.seq.gap (age ((s.seq.rails.map (sampleRail s 0)).all fun x => !x.inDown || x.fallen) s.seq.fin) = f) := by decide +kernel

theorem witness_SeqTimeouts :
    (∀ n ∈ [99, 100], let x : SeqRail := { en := true, cfg := { pgTo := 1 }, upAge := n }
     (railed 1 x).sys.up = true ∧ x = (railed 1 x).seq.rails.getD (0 : Fin 16) {} ∧ seqState (railed 1 x).seq = 1 ∧ x.en = true ∧
     x.goodSince = false ∧ (100 * x.cfg.pgTo ≤ x.upAge ↔ n = 100)) ∧
    (∀ n ∈ [99, 100], ∀ k ∈ [0, 1], let x : SeqRail := { inDown := true, cfg := { fallTo := 1, onStuck := k }, downAge := n }
     x = (railed 3 x).seq.rails.getD (0 : Fin 16) {} ∧ seqState (railed 3 x).seq = 3 ∧ (0 : Fin 16).val < (railed 3 x).seq.rails.length ∧
     x.en = false ∧ x.inDown = true ∧ x.fallen = false ∧ x.cfg.onStuck = k ∧ (100 * x.cfg.fallTo ≤ x.downAge ↔ n = 100)) := by decide +kernel

/-! ## Witnesses: the nonvolatile store -/

/-- Both locks of the store at `l`, bytes 4095 of the page masked in, and `q` queued. -/
def store (l : Nat) (q : List NvmCmd) : State :=
  fld 20 F.NVM_ADDR_page 4095 (fld 20 F.NVM_MASK_LO_mask 0x80000001
    (fld 20 F.NVM_STAT_wr_unlocked l (fld 20 F.NVM_STAT_rd_unlocked l { up 3 with nvm := { (up 3).nvm with cmds := q } })))

/-- Counter `k` at its end, in cell 63. -/
def full (k : Nat) : List Host.Cell := (List.range 4).map fun i => (nvmCtr k 63 + i, 0xFF)

theorem witness_NvmHostCommandsQueue :
    ((store 1 []).sys.up = true ∧ storeRuns (store 1 []) = false ∧ (store 1 []).nvm.cmds = [] ∧
     flag (store 1 []).nvm.r F.NVM_STAT_wr_unlocked = true ∧ flag (store 1 []).nvm.r F.NVM_STAT_rd_unlocked = true ∧
     (∀ q ∈ pageBytes (store 1 []).nvm.r, hostWrites q.1 = true) ∧ pageBytes (store 1 []).nvm.r ≠ []) ∧
    (flag (store 0 []).nvm.r F.NVM_STAT_wr_unlocked = false ∧ (store 1 [.lock]).nvm.cmds ≠ []) ∧
    (4 ≤ (4 : Fin 8).val ∧ ctrValue (store 1 []).nvm.mem (4 : Fin 8) < 0xFFFFFFFF ∧ 0xFFFFFFFF ≤ ctrValue (full 7) (7 : Fin 8) ∧
     (3 : Fin 8).val < 4) := by decide +kernel

theorem witness_NvmCommandCompletes :
    (∀ c ∈ [NvmCmd.writePage [(0x3D600, 7)], .setPw true 5, .incr 7, .lock], ∀ rest ∈ [[], [NvmCmd.lock]],
      (store 1 (c :: rest)).sys.up = true ∧ (store 1 (c :: rest)).nvm.cmds = c :: rest) ∧
    ctrValue (up 3).nvm.mem 7 < 0xFFFFFFFF ∧ 0xFFFFFFFF ≤ ctrValue (full 7) 7 ∧
    (0x3D600, 7) ∈ [((0x3D600, 7) : Nat × Byte)] := by decide +kernel

theorem witness_NvmPowerUpScan :
    (up 3).sys.up = true ∧ flag (up 3).nvm.r F.NVM_STAT_ready = false ∧ ctrValue (up 3).nvm.mem 1 < 0xFFFFFFFF ∧
    flag (fld 20 F.NVM_STAT_ready 1 (up 3)).nvm.r F.NVM_STAT_ready = true := by decide +kernel

theorem witness_NvmLocks :
    ((up 3).sys.up = true ∧ flag (up 3).nvm.r F.NVM_STAT_pw_backoff = false ∧ pwArg (up 3) = password (up 3).nvm.mem false ∧
     pwArg (up 3) = password (up 3).nvm.mem true ∧ (up 3).nvm.cmds = [] ∧ (store 1 [.lock]).nvm.cmds ≠ []) ∧
    flag (fld 20 F.NVM_STAT_pw_backoff 1 (up 3)).nvm.r F.NVM_STAT_pw_backoff = true ∧
    (∀ w : Bool, let s := { up 3 with nvm := { r := [(R.NVM_PW_LO, 1)] } }
     s.sys.up = true ∧ flag s.nvm.r F.NVM_STAT_pw_backoff = false ∧ pwArg s ≠ password s.nvm.mem w ∧ ctrValue s.nvm.mem 3 < 0xFFFFFFFF) := by
  decide +kernel

/-! ## Witnesses: host accesses -/

/-- What the tables hold at `ofs` of block `b`. -/
def desc (b ofs : Nat) : RegDesc := ((findReg b ofs).map (·.1)).getD ⟨0, 0, 0, 0, 0, []⟩

theorem witness_RegisterAccess :
    (let s := up 3
     let x := ((findReg 18 0).map (·.2)).getD (7, 7)
     s.sys.up = true ∧ 0 < 65536 ∧ 0 % 4 = 0 ∧ findReg 18 0 = some (desc 18 0, x) ∧
     (∀ f ∈ (desc 18 0).fields, outOfRange 18 0 f.lo (fieldVal f 0x05786900) s = false) ∧
     (∃ f ∈ (desc 18 0).fields, (f.acc = .rw ∨ f.acc = .rwf ∧ frozen 18 0 s = false) ∧ outOfRange 18 0 f.lo (fieldVal f 0) s = true) ∧
     islandBlock 18 = true ∧ inWindow 18 0 = false ∧ waitsScan 18 0 = false ∧
     ¬(0 % 4 = 0 ∧ (3 : BitVec 4) = 15) ∧ ¬(2 % 4 = 0 ∧ (15 : BitVec 4) = 15) ∧ inWindow 18 0xFFFC = false ∧ findReg 18 0xFFFC = none) ∧
    (let s := up 6
     let x := ((findReg 8 0xC).map (·.2)).getD (7, 7)
     coreReady s = true ∧ findReg 8 0xC = some (desc 8 0xC, x) ∧
     (∀ f ∈ (desc 8 0xC).fields, outOfRange 8 0xC f.lo (fieldVal f 0x55) s = false) ∧
     (∃ v, wouldChange 8 0xC (desc 8 0xC) v s = true) ∧ wouldChange 8 0xC (desc 8 0xC) (kvGet s.lnk.r 0xC) s = false ∧ wignAll s = 0) ∧
    (let s := { State.reset with sys := { State.reset.sys with up := true } }
     s.sys.up = true ∧ islandBlock 6 = false ∧ coreReady s = false) := by
  refine ⟨by decide +kernel, ⟨by decide +kernel, by decide +kernel, by decide +kernel, ⟨0xFFFFFFFF, by decide +kernel⟩, by decide +kernel,
    by decide +kernel⟩, by decide +kernel⟩

theorem witness_RegisterReads :
    bar2Shape 0xC00000 2 = true ∧ bar2Shape 0xC00008 8 = true ∧ bar2Shape 0x800004 64 = true ∧ coreReady (up 6) = true ∧
    coreReady State.reset = false ∧ 0xD00000 ≤ 0xD00000 ∧ 0xC00000 ≤ 0xCFFFFF ∧ 0xCFFFFF < 0xD00000 ∧ 0xBFFFFF < 0xC00000 ∧
    inWindow 5 0 = false ∧ waitsScan 5 0 = false ∧ (findReg 5 0).isSome = true := by decide +kernel

theorem witness_CommitAndBankWrites :
    ((up 6).sys.up = true ∧ coreReady (up 6) = true ∧ strides (up 6) = true ∧ strides (up 3) = false ∧
     coreReady State.reset = false ∧ islandBlock (5 : Fin 21) = false ∧ (6 : Fin 21).val ∈ [4, 5, 6, 7, 10] ∧ (8 : Fin 21).val ∉ [4, 5, 6, 7, 10]) ∧
    (∀ st ∈ [3, 6], let s := img { banks := { ring := 0 } :: List.replicate 23 {}, phases := [{ bank := 0 }] } (up st)
     (usedBanks s.img.str).contains (0 : Fin 24).val = true ∧ bankCfgOk s (0 : Fin 24) 0x00010101 = true ∧ bankCfgOk s (0 : Fin 24) 0x00010201 = false ∧
     (usedBanks s.img.str).contains (23 : Fin 24).val = false) := by decide +kernel

/-! ## Values of the manual -/

/-- The check value of the CRC-16 over the nine ASCII bytes "123456789" (chapter 10). -/
theorem test_crc16_check_value :
    (List.range 8).foldl (fun c i => crc16Bit c ((0x39 : Byte).getLsbD (7 - i))) (crc16 0xFFFF [0x3132, 0x3334, 0x3536, 0x3738]) = 0x29B1 := by
  decide +kernel

/-- The header CRC-8 of the worked example of chapter 16. -/
theorem test_crc8_of_a_header : crc8 [0x83, 0x29, 0xC9, 0xC0, 0x00] = 0x03 := by decide +kernel

/-- That header with CRC 0x02 is answered by status 0x81 and zeros, and counts (chapter 16). -/
theorem test_spi_bad_header_crc :
    (after (.spiReadBar2 false [0x83, 0x29, 0xC9, 0xC0, 0x00, 0x02]) (up 6)).out = [.bytes .spi [0x81, 0, 0, 0, 0]] ∧
    getF (after (.spiReadBar2 false [0x83, 0x29, 0xC9, 0xC0, 0x00, 0x02]) (up 6)).hst.r F.HST_SPI_STAT_crc_err_cnt = 1 := by decide +kernel

/-- `SYS_ID` reads 0x4850_0A01 (chapter 16). -/
theorem test_sys_id : (after (.registerRead .spi (.bar0 0) 15 false) (up 6)).out = [.read .spi 0 0x48500A01] := by decide +kernel

/-- Charging around a clamp (chapter 7): bank 2 is clamped in the first pass, the residue of 1 ppm goes to bank 0. -/
theorem test_water_fill :
    (waterFill [0, 1, 2, 3, 4, 5, 6, 7] (fun b => if b = 6 then 34026 else 65536) (fun b => if b = 2 then 74163 else 148327)).1.take 8 =
      [142018, 142017, 74163, 142017, 142017, 142017, 73734, 142017] := by decide +kernel

/-- Losing the leader (chapter 7): c = 0.4 held for 50 boundaries, then down to 0 in 400. -/
theorem test_leader_loss :
    lossOfM 6710886 0 50 400 = (6710886, 1) ∧ lossOfM 6710886 50 50 400 = (6710886, 2) ∧ lossOfM 6710886 51 50 400 = (6694109, 3) ∧
    lossOfM 6710886 250 50 400 = (3355443, 3) ∧ lossOfM 6710886 450 50 400 = (0, 4) := by decide +kernel

/-- Phase 10 of the example site (chapter 8): duty 0.1524 of P = 64,000 gives w = 9,754. -/
theorem test_on_width : onWidth 2556847 64000 = 9754 := by decide +kernel

/-- An increment cut off by power failure (chapter 20): cell 22 is valid before its first byte and after its last. -/
theorem test_counter_cell :
    ctrCell [(0x3C6B0, 0xD6), (0x3C6B1, 0x0F), (0x3C6B4, 0x29), (0x3C6B5, 0xF0), (0x3C6B6, 0xFF), (0x3C6B7, 0xFF)] 0 22 = some 4054 ∧
    ctrCell [(0x3C6B0, 0x16), (0x3C6B1, 0x10), (0x3C6B4, 0xE9), (0x3C6B5, 0xF0), (0x3C6B6, 0xFF), (0x3C6B7, 0xFF)] 0 22 = none ∧
    ctrCell [(0x3C6B0, 0x16), (0x3C6B1, 0x10), (0x3C6B4, 0xE9), (0x3C6B5, 0xEF), (0x3C6B6, 0xFF), (0x3C6B7, 0xFF)] 0 22 = some 4118 := by
  decide +kernel

/-- The example site's reservations (chapter 14): 3,950 mA with the PCIe link, 6,870 mA with lanes 0 to 15 and ring groups 0
and 1, 9,270 mA with all eight quads. -/
theorem test_reservations :
    reservedMa { granted := 0x00800000 } = 3950 ∧ reservedMa { granted := 0x0083FFFF } = 6870 ∧ reservedMa { granted := 0xFF83FFFF } = 9270 := by
  decide +kernel

/-- The bus of the example site in RUN at 1,450.0 V. -/
def site : State :=
  fld 5 F.BUS_VLIM_v_lo 14000 (fld 5 F.BUS_VLIM_v_hi 15000 (fld 5 F.BUS_VSLEW_v_slew 20 { up 6 with bus := { tgt := 14500, slew := 1450000 } }))

/-- A refused voltage range (chapter 4): the set that excludes 1,450.0 V is refused with reason 4 and leaves all as it was. -/
theorem test_refused_range :
    (let s := after (.strideBoundary {}) (write 5 0xFF00 1 (write 5 4 50 (write 5 0 0x3A983908 site)))
     getF s.bus.r F.blk_COMMIT_STAT_refused = 1 ∧ getF s.bus.r F.blk_COMMIT_STAT_reason = 4 ∧
     getF s.bus.r F.BUS_VLIM_v_lo = 14000 ∧ getF s.bus.r F.BUS_VLIM_v_hi = 15000 ∧ getF s.bus.r F.BUS_VSLEW_v_slew = 20) := by
  decide +kernel

/-- A staging copy that fails its parity refuses the set with reason 0x05 and raises the block's parity source (R94). -/
theorem test_staging_parity :
    (let s := after (.commit .pcie 5 true) (write 5 4 50 { site with sys := (up 3).sys })
     getF s.bus.r F.blk_COMMIT_STAT_refused = 1 ∧ getF s.bus.r F.blk_COMMIT_STAT_reason = 5 ∧ getF s.bus.r F.BUS_VSLEW_v_slew = 20 ∧
     s.flt.q9.map (·.src) = [93]) := by decide +kernel

/-- The set of the next stride, which takes 1,450.0 V in, is in force after its boundary (chapter 4). -/
theorem test_accepted_range :
    (let s := after (.strideBoundary {}) (write 5 0xFF00 1 (write 5 4 50 (write 5 0 0x3A9836B0 site)))
     getF s.bus.r F.blk_COMMIT_STAT_accepted = 1 ∧ getF s.bus.r F.BUS_VSLEW_v_slew = 50) := by decide +kernel

/-- The inverter raises the setpoint (chapter 17): 1,460.0 V waits for the boundary, where the command slews by 20 mV. -/
theorem test_vset :
    (after (.vset ⟨[0x08, 0x39], 0⟩) site).bus.tgtNext = some 14600 ∧
    (after (.strideBoundary {}) (after (.vset ⟨[0x08, 0x39], 0⟩) site)).bus.slew = 1450020 ∧
    (after (.strideBoundary {}) (after (.vset ⟨[0x08, 0x39], 0⟩) site)).bus.tgt = 14600 := by decide +kernel

/-- A VSET of 1,510.0 V is NACKed and shows in `vcmd_rej` (chapter 17). -/
theorem test_vset_refused :
    (after (.vset ⟨[0xFC, 0x3A], 0⟩) site).out = [.nack .portA] ∧ (after (.vset ⟨[0xFC, 0x3A], 0⟩) site).bus.tgtNext = none ∧
    flag (after (.vset ⟨[0xFC, 0x3A], 0⟩) site).bus.r F.BUS_STAT_vcmd_rej = true := by decide +kernel


end Sys2Proof.Tests
end

section
/-! Host accesses (R7, R91, R358 to R361): the laws of field-by-field writes, and the statement about register accesses. -/
namespace Sys2Proof.Machine

/-! ## The register file of one block -/

theorem setRegs_blkRegs (b : Nat) (s : State) (hb : b < 21) : setRegs b (blkRegs b s) s = s := by
  interval_cases b <;> rfl

theorem setRegs_setRegs (b : Nat) (r q : RegFile) (s : State) (hb : b < 21) :
    setRegs b r (setRegs b q s) = setRegs b r s := by
  interval_cases b <;> rfl

theorem blkRegs_emit (b : Nat) (o : Out) (s : State) : blkRegs b (emit o s) = blkRegs b s := rfl

theorem setRegs_emit (b : Nat) (r : RegFile) (o : Out) (s : State) : setRegs b r (emit o s) = emit o (setRegs b r s) := by
  unfold setRegs
  split <;> rfl

/-! ## The tables of LNK and THM -/

theorem mem_regTable_of_findReg {b ofs : Nat} {d : RegDesc} {x : Nat × Nat} (h : findReg b ofs = some (d, x)) :
    d ∈ regTable b ∧ d.index ofs = some x := by
  obtain ⟨e, he, hx⟩ := List.exists_of_findSome?_eq_some h
  cases hi : e.index ofs with
  | none => simp [hi] at hx
  | some y =>
    simp only [hi, Option.map_some, Option.some.injEq, Prod.mk.injEq] at hx
    obtain ⟨rfl, rfl⟩ := hx
    exact ⟨he, hi⟩

/-- A register that is no array lies at its base alone. -/
theorem RegDesc.index_single {d : RegDesc} {ofs : Nat} {x : Nat × Nat} (h1 : d.d1 = 0) (h2 : d.d2 = 0)
    (h : d.index ofs = some x) : ofs = d.base := by
  unfold RegDesc.index at h
  split at h
  · cases h
  · simp only [h1, h2] at h
    split at h
    · omega
    · cases h

/-- Two fields of a register share no bit. -/
abbrev FieldDesc.Apart (f g : FieldDesc) : Prop := f.hi < g.lo ∨ g.hi < f.lo

/-- The register holds its fields in its own word: none is live or staged, and no two share a bit. -/
abbrev RegDesc.Plain (d : RegDesc) : Prop :=
  (∀ f ∈ d.fields, f.acc ≠ .rwl ∧ f.acc ≠ .rws ∧ f.lo ≤ f.hi ∧ f.hi < 32) ∧ d.fields.Pairwise FieldDesc.Apart

theorem plain_of_mem {b : Nat} (hb : b = 8 ∨ b = 18) : ∀ d ∈ regTable b, d.Plain := by
  obtain rfl | rfl := hb <;> decide

/-- The one register of LNK with frozen fields is no array and does not hold the block's flags; THM has none. -/
theorem rwf_of_mem {b : Nat} (hb : b = 8 ∨ b = 18) :
    ∀ d ∈ regTable b, (∃ f ∈ d.fields, f.acc = .rwf) → b = 8 ∧ d.d1 = 0 ∧ d.d2 = 0 ∧ d.base = 12 := by
  obtain rfl | rfl := hb <;> decide

/-! ## A write of one field (R7) -/

/-- What a write of `v` leaves in a field that held `old`; `froz`: frozen fields take no writes. -/
def FieldDesc.written (f : FieldDesc) (froz : Bool) (v : Word) (old : Nat) : Nat :=
  match f.acc with
  | .w1c => old &&& (2 ^ (f.hi - f.lo + 1) - 1 - fieldVal f v)
  | .rw => fieldVal f v
  | .rwf => if froz then old else fieldVal f v
  | _ => old


/-- The register file after a write of one field of the register at `ofs`. -/
def putField (froz : Bool) (ofs : Nat) (v : Word) (r : RegFile) (f : FieldDesc) : RegFile :=
  match f.acc with
  | .w1c | .rw => setF r (fldAt ofs f) (f.written froz v (getF r (fldAt ofs f)))
  | .rwf => if froz then r else setF r (fldAt ofs f) (f.written froz v (getF r (fldAt ofs f)))
  | _ => r

theorem fieldVal_lt (f : FieldDesc) (v : Word) : fieldVal f v < 2 ^ (f.hi - f.lo + 1) := Nat.mod_lt _ (Nat.two_pow_pos _)

theorem FieldDesc.written_lt (f : FieldDesc) (froz : Bool) (v : Word) {old : Nat} (h : old < 2 ^ (f.hi - f.lo + 1)) :
    f.written froz v old < 2 ^ (f.hi - f.lo + 1) := by
  have hv := fieldVal_lt f v
  unfold FieldDesc.written
  split
  · exact lt_of_le_of_lt Nat.and_le_left h
  · exact hv
  · split <;> assumption
  · exact h

/-- Either the field is written, or the register file stays and the field keeps its value. -/
theorem putField_cases (froz : Bool) (ofs : Nat) (v : Word) (r : RegFile) (f : FieldDesc) :
    putField froz ofs v r f = setF r (fldAt ofs f) (f.written froz v (getF r (fldAt ofs f))) ∨
      putField froz ofs v r f = r ∧ ∀ old, f.written froz v old = old := by
  unfold putField FieldDesc.written
  cases f.acc <;> cases froz <;> simp

theorem getF_putField_self (froz : Bool) (ofs : Nat) (v : Word) (r : RegFile) (f : FieldDesc) (hl : f.lo ≤ f.hi) (hh : f.hi < 32) :
    getF (putField froz ofs v r f) (fldAt ofs f) = f.written froz v (getF r (fldAt ofs f)) := by
  obtain h | ⟨h, hw⟩ := putField_cases froz ofs v r f
  · rw [h, getF_setF_self _ _ _ (by simp only [fldAt]; omega), Nat.mod_eq_of_lt]
    exact f.written_lt froz v (getF_lt r _)
  · rw [h, hw]

theorem getF_putField_apart (froz : Bool) (ofs : Nat) (v : Word) (r : RegFile) {f g : FieldDesc} (hf : f.lo ≤ f.hi) (hh : f.hi < 32)
    (hg : g.lo ≤ g.hi) (h : f.Apart g) : getF (putField froz ofs v r g) (fldAt ofs f) = getF r (fldAt ofs f) := by
  obtain hp | ⟨hp, -⟩ := putField_cases froz ofs v r g
  · rw [hp]
    apply getF_setF_bits <;> simp only [fldAt]
    · omega
    · unfold FieldDesc.Apart at h; omega
  · rw [hp]

theorem kvGet_putField_ne (froz : Bool) (ofs : Nat) (v : Word) (r : RegFile) (f : FieldDesc) {o : Nat} (h : o ≠ ofs) :
    kvGet (putField froz ofs v r f) o = kvGet r o := by
  obtain hp | ⟨hp, -⟩ := putField_cases froz ofs v r f
  · rw [hp]; exact kvGet_kvSet_ne _ _ h
  · rw [hp]

/-! ## A write of a list of fields -/

theorem kvGet_putFields_ne (froz : Bool) (ofs : Nat) (v : Word) {o : Nat} (h : o ≠ ofs) :
    ∀ (l : List FieldDesc) (r : RegFile), kvGet (l.foldl (putField froz ofs v) r) o = kvGet r o
  | [], _ => rfl
  | f :: t, r => by rw [List.foldl_cons, kvGet_putFields_ne froz ofs v h t, kvGet_putField_ne _ _ _ _ _ h]

theorem getF_putFields_apart (froz : Bool) (ofs : Nat) (v : Word) {f : FieldDesc} (hf : f.lo ≤ f.hi) (hh : f.hi < 32) :
    ∀ (l : List FieldDesc) (r : RegFile), (∀ g ∈ l, g.lo ≤ g.hi ∧ f.Apart g) →
      getF (l.foldl (putField froz ofs v) r) (fldAt ofs f) = getF r (fldAt ofs f)
  | [], _, _ => rfl
  | g :: t, r, h => by
    obtain ⟨hg, ht⟩ := List.forall_mem_cons.1 h
    rw [List.foldl_cons, getF_putFields_apart froz ofs v hf hh t _ ht, getF_putField_apart _ _ _ _ hf hh hg.1 hg.2]

/-- Each field of a list of fields that share no bit takes what its access code gives it. -/
theorem getF_putFields (froz : Bool) (ofs : Nat) (v : Word) : ∀ (l : List FieldDesc) (r : RegFile) (f : FieldDesc),
    (∀ g ∈ l, g.lo ≤ g.hi ∧ g.hi < 32) → l.Pairwise FieldDesc.Apart → f ∈ l →
      getF (l.foldl (putField froz ofs v) r) (fldAt ofs f) = f.written froz v (getF r (fldAt ofs f))
  | g :: t, r, f, hl, hp, hf => by
    obtain ⟨⟨hg, hg32⟩, ht⟩ := List.forall_mem_cons.1 hl
    obtain ⟨hgt, hpt⟩ := List.pairwise_cons.1 hp
    rw [List.foldl_cons]
    obtain rfl | hft := List.mem_cons.1 hf
    · rw [getF_putFields_apart froz ofs v hg hg32 t _ fun k hk => ⟨(ht k hk).1, hgt k hk⟩, getF_putField_self _ _ _ _ _ hg hg32]
    · rw [getF_putFields froz ofs v t _ f ht hpt hft,
        getF_putField_apart _ _ _ _ (ht f hft).1 (ht f hft).2 hg (hgt f hft).symm]

/-- The fields in the order in which a write takes them: flags that the host clears come first (R10). -/
def RegDesc.writeOrder (d : RegDesc) : List FieldDesc := d.fields.filter (·.acc == .w1c) ++ d.fields.filter (·.acc != .w1c)

theorem RegDesc.writeOrder_perm (d : RegDesc) : d.writeOrder.Perm d.fields := List.filter_append_perm _ _

theorem RegDesc.writeOrder_mem (d : RegDesc) {f : FieldDesc} : f ∈ d.writeOrder ↔ f ∈ d.fields := d.writeOrder_perm.mem_iff

theorem RegDesc.Plain.writeOrder_pairwise {d : RegDesc} (h : d.Plain) : d.writeOrder.Pairwise FieldDesc.Apart :=
  (d.writeOrder_perm.pairwise_iff fun h => Or.symm h).2 h.2

/-! ## A write of a register of LNK or THM -/

section
variable {b ofs : Nat} {v : Word}

/-- Neither a frozen field's state nor a range of LNK or THM depends on what these blocks hold. -/
theorem frozen_setRegs (hb : b = 8 ∨ b = 18) (r : RegFile) (s : State) : frozen b ofs (setRegs b r s) = frozen b ofs s := by
  obtain rfl | rfl := hb <;> rfl

theorem outOfRange_congr (hb : b = 8 ∨ b = 18) (lo x : Nat) (s t : State) : outOfRange b ofs lo x s = outOfRange b ofs lo x t := by
  obtain rfl | rfl := hb <;> rfl

theorem writeField_eq (hb : b = 8 ∨ b = 18) (s : State) (f : FieldDesc) (hl : f.acc ≠ .rwl) (hs : f.acc ≠ .rws)
    (ho : outOfRange b ofs f.lo (fieldVal f v) s = false) :
    writeField b ofs v s f = setRegs b (putField (frozen b ofs s) ofs v (blkRegs b s) f) s := by
  have hid := setRegs_blkRegs b s (by omega)
  unfold writeField putField FieldDesc.written
  cases hacc : f.acc <;> simp_all [fldAt]
  split <;> simp_all

/-- Writing fields with values in range changes the block's register file alone. -/
theorem writeFieldsIn_eq (hb : b = 8 ∨ b = 18) : ∀ (l : List FieldDesc) (s : State),
    (∀ f ∈ l, f.acc ≠ .rwl ∧ f.acc ≠ .rws ∧ outOfRange b ofs f.lo (fieldVal f v) s = false) →
      l.foldl (writeField b ofs v) s = setRegs b (l.foldl (putField (frozen b ofs s) ofs v) (blkRegs b s)) s
  | [], s, _ => (setRegs_blkRegs b s (by omega)).symm
  | f :: t, s, h => by
    obtain ⟨⟨hl, hs, ho⟩, ht⟩ := List.forall_mem_cons.1 h
    rw [List.foldl_cons, List.foldl_cons, writeField_eq hb s f hl hs ho, writeFieldsIn_eq hb t, frozen_setRegs hb,
      blkRegs_setRegs_self _ _ _ (by omega), setRegs_setRegs _ _ _ _ (by omega)]
    intro g hg
    rw [outOfRange_congr hb _ _ _ s]
    exact ht g hg

/-- A write would change a frozen field only in LNK, in the register behind its flags. -/
theorem lnk_of_wouldChange (hb : b = 8 ∨ b = 18) {d : RegDesc} {x : Nat × Nat} (hd : findReg b ofs = some (d, x)) {s : State}
    (hw : wouldChange b ofs d v s = true) : b = 8 ∧ ofs = 12 := by
  obtain ⟨hm, hi⟩ := mem_regTable_of_findReg hd
  simp only [wouldChange, Bool.and_eq_true, List.any_eq_true, beq_iff_eq] at hw
  obtain ⟨-, f, hf, hacc, -⟩ := hw
  obtain ⟨rfl, h1, h2, h3⟩ := rwf_of_mem hb d hm ⟨f, hf, hacc⟩
  exact ⟨rfl, h3 ▸ RegDesc.index_single h1 h2 hi⟩

/-- A write that LNK ignored sets its flag; beside it only the SYS registers may change. -/
theorem wrIgnored_lnk (s : State) : wrIgnored 8 ofs s =
    setRegs 8 (setFlag s.lnk.r F.LNK_STAT_write_ignored) { s with sys := { s.sys with r := (wrIgnored 8 ofs s).sys.r } } := by
  simp only [wrIgnored, wignFld]
  split <;> rfl

theorem wrIgnored_lnk_first {s : State} (h : wignAll s = 0) : (wrIgnored 8 ofs s).sys.r =
    setF (setFlag s.sys.r F.SYS_WRITE_IGN_ADDR_valid) F.SYS_WRITE_IGN_ADDR_ofs (8 * 65536 + ofs) := by
  simp only [wrIgnored, wignFld, h, if_true]
  rfl

theorem wrIgnored_lnk_later {s : State} (h : wignAll s ≠ 0) : (wrIgnored 8 ofs s).sys.r = s.sys.r := by
  simp only [wrIgnored, wignFld, h, if_false]
  rfl

theorem frozen_wrIgnored (s : State) : frozen 8 ofs (wrIgnored 8 ofs s) = frozen 8 ofs s := by
  have hst : opState (wrIgnored 8 ofs s) = opState s := by
    unfold opState
    by_cases h : wignAll s = 0
    · rw [wrIgnored_lnk_first h, getF_setF_ofs _ _ (by decide), setFlag, getF_setF_ofs _ _ (by decide)]
    · rw [wrIgnored_lnk_later h]
  simp [frozen, computing, strides, hst]

/-- The state in which the fields are written: where a frozen field would change, that is noted first (R91). -/
def noteIgnored (b ofs : Nat) (d : RegDesc) (v : Word) (s : State) : State :=
  if wouldChange b ofs d v s then wrIgnored b ofs s else s

theorem writeFields_foldl (b ofs : Nat) (d : RegDesc) (v : Word) (s : State) :
    writeFields b ofs d v s = d.writeOrder.foldl (writeField b ofs v) (noteIgnored b ofs d v s) := by
  rw [RegDesc.writeOrder, List.foldl_append]
  rfl

theorem writeFields_eq (hb : b = 8 ∨ b = 18) {d : RegDesc} {x : Nat × Nat} (hd : findReg b ofs = some (d, x)) {s : State}
    (hr : ∀ f ∈ d.fields, outOfRange b ofs f.lo (fieldVal f v) s = false) :
    writeFields b ofs d v s = setRegs b (d.writeOrder.foldl (putField (frozen b ofs s) ofs v) (blkRegs b (noteIgnored b ofs d v s)))
      (noteIgnored b ofs d v s) := by
  have hp := plain_of_mem hb d (mem_regTable_of_findReg hd).1
  have hz : frozen b ofs (noteIgnored b ofs d v s) = frozen b ofs s := by
    unfold noteIgnored
    split
    next hw =>
      obtain ⟨rfl, rfl⟩ := lnk_of_wouldChange hb hd hw
      exact frozen_wrIgnored s
    next => rfl
  rw [writeFields_foldl, writeFieldsIn_eq hb, hz]
  intro f hf
  have hf' := d.writeOrder_mem.1 hf
  obtain ⟨hl, hs, -⟩ := hp.1 f hf'
  exact ⟨hl, hs, outOfRange_congr hb _ _ s _ ▸ hr f hf'⟩

theorem kvGet_noteIgnored (hb : b = 8 ∨ b = 18) {d : RegDesc} {x : Nat × Nat} (hd : findReg b ofs = some (d, x)) (s : State) {o : Nat}
    (ho : wouldChange b ofs d v s = true → o ≠ R.LNK_STAT) :
    kvGet (blkRegs b (noteIgnored b ofs d v s)) o = kvGet (blkRegs b s) o := by
  unfold noteIgnored
  split
  next hw =>
    obtain ⟨rfl, rfl⟩ := lnk_of_wouldChange hb hd hw
    rw [wrIgnored_lnk]
    exact kvGet_kvSet_ne _ _ (ho hw)
  next => rfl

variable (hb : b = 8 ∨ b = 18) {d : RegDesc} {x : Nat × Nat} (hd : findReg b ofs = some (d, x)) {s : State}
  (hr : ∀ f ∈ d.fields, outOfRange b ofs f.lo (fieldVal f v) s = false)
include hb hd hr

/-- Only the block's registers and those of SYS may change. -/
theorem writeFields_frame : writeFields b ofs d v s = setRegs b (blkRegs b (writeFields b ofs d v s))
    { s with sys := { s.sys with r := (writeFields b ofs d v s).sys.r } } := by
  rw [writeFields_eq hb hd hr, noteIgnored]
  split
  next hw =>
    obtain ⟨rfl, rfl⟩ := lnk_of_wouldChange hb hd hw
    rw [wrIgnored_lnk]
    rfl
  next => obtain rfl | rfl := hb <;> rfl

/-- A field takes what its access code gives it. -/
theorem getF_writeFields {f : FieldDesc} (hf : f ∈ d.fields) : getF (blkRegs b (writeFields b ofs d v s)) (fldAt ofs f) =
    f.written (frozen b ofs s) v (getF (blkRegs b s) (fldAt ofs f)) := by
  have hp := plain_of_mem hb d (mem_regTable_of_findReg hd).1
  have hold : getF (blkRegs b (noteIgnored b ofs d v s)) (fldAt ofs f) = getF (blkRegs b s) (fldAt ofs f) := by
    unfold getF
    rw [kvGet_noteIgnored hb hd s fun hw => by
      obtain ⟨-, rfl⟩ := lnk_of_wouldChange hb hd hw
      exact (by decide : 12 ≠ R.LNK_STAT)]
  rw [writeFields_eq hb hd hr, blkRegs_setRegs_self _ _ _ (by omega), getF_putFields _ _ _ _ _ _ _ hp.writeOrder_pairwise, hold]
  · exact d.writeOrder_mem.2 hf
  · exact fun g hg => (hp.1 g (d.writeOrder_mem.1 hg)).2.2

/-- Flags that the host clears lose the bits written as 1. -/
theorem getLsbD_writeFields_w1c {f : FieldDesc} (hf : f ∈ d.fields) (hacc : f.acc = .w1c) {i : Nat} (hi : i ≤ f.hi) (hlo : f.lo ≤ i) :
    (kvGet (blkRegs b (writeFields b ofs d v s)) ofs).getLsbD i = ((kvGet (blkRegs b s) ofs).getLsbD i && !v.getLsbD i) := by
  have hbit (r : RegFile) : (kvGet r ofs).getLsbD i = (getF r (fldAt ofs f)).testBit (i - f.lo) := by
    have hj : i - f.lo < f.hi - f.lo + 1 := by omega
    rw [getF_testBit]
    simp [fldAt, hj, Nat.add_sub_cancel' hlo]
  have hv : (fieldVal f v).testBit (i - f.lo) = v.getLsbD i := by
    unfold fieldVal
    rw [Nat.testBit_mod_two_pow, decide_eq_true (by omega), Bool.true_and, Nat.testBit_div_two_pow, Nat.sub_add_cancel hlo]
    rfl
  rw [hbit, hbit, getF_writeFields hb hd hr hf, FieldDesc.written, hacc]
  simp only [Nat.testBit_and]
  rw [Nat.sub_sub, Nat.add_comm 1, Nat.testBit_two_pow_sub_succ (fieldVal_lt f v), hv, decide_eq_true (by omega), Bool.true_and]

theorem kvGet_writeFields_ne {o : Nat} (ho : o ≠ ofs) (hi : wouldChange b ofs d v s = true → o ≠ R.LNK_STAT) :
    kvGet (blkRegs b (writeFields b ofs d v s)) o = kvGet (blkRegs b s) o := by
  rw [writeFields_eq hb hd hr, blkRegs_setRegs_self _ _ _ (by omega), kvGet_putFields_ne _ _ _ ho, kvGet_noteIgnored hb hd s hi]

theorem writeFields_sys : (writeFields b ofs d v s).sys = (noteIgnored b ofs d v s).sys := by
  rw [writeFields_eq hb hd hr]
  obtain rfl | rfl := hb <;> rfl

/-- A write that would change a frozen field is noted in the block's flag. -/
theorem wignSet_writeFields (hw : wouldChange b ofs d v s = true) : wignSet b (writeFields b ofs d v s) = true := by
  obtain ⟨rfl, rfl⟩ := lnk_of_wouldChange hb hd hw
  have h12 : F.LNK_STAT_write_ignored.ofs ≠ 12 := by decide
  have hf : flag (blkRegs 8 (wrIgnored 8 12 s)) F.LNK_STAT_write_ignored = true := by
    rw [wrIgnored_lnk]
    exact flag_setFlag_self _ _ (by decide) (by decide)
  show flag (blkRegs 8 (writeFields 8 12 d v s)) F.LNK_STAT_write_ignored = true
  rw [writeFields_eq hb hd hr, blkRegs_setRegs_self _ _ _ (by omega), noteIgnored, if_pos hw, ← hf]
  unfold flag getF
  rw [kvGet_putFields_ne _ _ _ h12]

/-- The first write ignored since every flag was clear is held. -/
theorem writeFields_ignoredAt (hw : wouldChange b ofs d v s = true) (h0 : wignAll s = 0) :
    flag (writeFields b ofs d v s).sys.r F.SYS_WRITE_IGN_ADDR_valid = true ∧
      getF (writeFields b ofs d v s).sys.r F.SYS_WRITE_IGN_ADDR_ofs = b * 65536 + ofs := by
  rw [writeFields_sys hb hd hr, noteIgnored, if_pos hw]
  obtain ⟨rfl, rfl⟩ := lnk_of_wouldChange hb hd hw
  rw [wrIgnored_lnk_first h0]
  refine ⟨?_, getF_setF_self _ _ _ (by decide)⟩
  rw [flag, getF_setF_bits _ _ (by decide) (by decide)]
  exact flag_setFlag_self _ _ (by decide) (by decide)

end

/-! ## A value out of range (R7) -/

/-- THM has one range, the hysteresis of `THM_CFG`. -/
theorem thm_outOfRange_iff {ofs lo x : Nat} {s : State} : outOfRange 18 ofs lo x s = true ↔ ofs = R.THM_CFG ∧ lo = 24 ∧ x = 0 := by
  simp [outOfRange, and_assoc]

/-- The description of `THM_CFG`. -/
def thmCfg : RegDesc := ⟨0, 0, 1, 0, 1, [⟨27, 24, .rw⟩, ⟨23, 16, .rw⟩, ⟨15, 8, .rw⟩, ⟨0, 0, .w1c⟩]⟩

theorem findReg_thmCfg : findReg 18 R.THM_CFG = some (thmCfg, 0, 0) := by decide

/-- `THM_CFG` written with a hysteresis of 0: the flag is set after its clear, the two limits are taken (R7, R10). -/
theorem writeFields_thmCfg_bad {v : Word} (h : fieldVal ⟨27, 24, .rw⟩ v = 0) (s : State) :
    ∃ n, writeFields 18 R.THM_CFG thmCfg v s = setRegs 18 (setF (setF (setFlag (setF s.thm.r F.THM_CFG_cfg_err n) F.THM_CFG_cfg_err)
        F.THM_CFG_t_crit (fieldVal ⟨23, 16, .rw⟩ v)) F.THM_CFG_t_warn (fieldVal ⟨15, 8, .rw⟩ v)) s := by
  have hhyst (s : State) : writeField 18 R.THM_CFG v s ⟨27, 24, .rw⟩ =
      setRegs 18 (setFlag s.thm.r F.THM_CFG_cfg_err) s :=
    if_pos (thm_outOfRange_iff.2 ⟨rfl, rfl, h⟩)
  have hlim (s : State) (f : FieldDesc) (hf : f.acc = .rw) (hlo : f.lo ≠ 24) : writeField 18 R.THM_CFG v s f =
      setRegs 18 (setF s.thm.r (fldAt R.THM_CFG f) (fieldVal f v)) s := by
    have hr : ¬ outOfRange 18 R.THM_CFG f.lo (fieldVal f v) s = true := fun hr => hlo (thm_outOfRange_iff.1 hr).2.1
    simp only [writeField, hf, if_neg hr]
    rfl
  have hclr (s : State) : writeField 18 R.THM_CFG v s ⟨0, 0, .w1c⟩ = setRegs 18 (setF s.thm.r F.THM_CFG_cfg_err
      (getF s.thm.r F.THM_CFG_cfg_err &&& (2 ^ 1 - 1 - fieldVal ⟨0, 0, .w1c⟩ v))) s := rfl
  have hread (r : RegFile) (s : State) : (setRegs 18 r s).thm.r = r := rfl
  have horder : thmCfg.writeOrder = [⟨0, 0, .w1c⟩, ⟨27, 24, .rw⟩, ⟨23, 16, .rw⟩, ⟨15, 8, .rw⟩] := by decide
  have hnote : noteIgnored 18 R.THM_CFG thmCfg v s = s := if_neg (by simp [wouldChange, thmCfg])
  rw [writeFields_foldl, hnote, horder]
  simp only [List.foldl_cons, List.foldl_nil, hclr, hhyst, hlim _ ⟨23, 16, .rw⟩ rfl (by decide), hlim _ ⟨15, 8, .rw⟩ rfl (by decide),
    setRegs_setRegs 18 _ _ _ (by decide), hread]
  exact ⟨_, rfl⟩

theorem thmCfg_hyst_kept {v : Word} (h : fieldVal ⟨27, 24, .rw⟩ v = 0) (s : State) :
    getF (writeFields 18 R.THM_CFG thmCfg v s).thm.r F.THM_CFG_hyst = getF s.thm.r F.THM_CFG_hyst ∧
      flag (writeFields 18 R.THM_CFG thmCfg v s).thm.r F.THM_CFG_cfg_err = true := by
  obtain ⟨n, hn⟩ := writeFields_thmCfg_bad h s
  rw [hn]
  constructor
  · show getF (setF _ _ _) _ = _
    rw [getF_setF_bits _ _ (by decide) (by decide), getF_setF_bits _ _ (by decide) (by decide), setFlag,
      getF_setF_bits _ _ (by decide) (by decide), getF_setF_bits _ _ (by decide) (by decide)]
  · show flag (setF _ _ _) _ = _
    rw [flag, getF_setF_bits _ _ (by decide) (by decide), getF_setF_bits _ _ (by decide) (by decide)]
    exact flag_setFlag_self _ _ (by decide) (by decide)

/-! ## Accesses of BAR0 and BAR2 (R358 to R361) -/

/-- The block answers: it is in the service island, or the core domain is out of reset. -/
abbrev Answers (b : Nat) (s : State) : Prop := islandBlock b = true ∨ coreReady s = true

theorem not_asleep {b : Nat} {s : State} (h : Answers b s) : ¬((!islandBlock b && !coreReady s) = true) := by
  obtain h | h := h <;> simp [h]

section
variable {p : Path} {b ofs : Nat} (ho : ofs < 65536) {v : Word} {s : State}

include ho

theorem bar0_blk : (b * 65536 + ofs) / 65536 = b := by omega
theorem bar0_ofs : (b * 65536 + ofs) % 65536 = ofs := by omega

theorem hostWrite_mapped (hb : b ≤ 20) (ha : Answers b s) (hw : inWindow b ofs = false) {d : RegDesc} {x : Nat × Nat}
    (hd : findReg b ofs = some (d, x)) : hostWrite p (b * 65536 + ofs) v s = writeReg p b ofs d v s := by
  simp only [hostWrite, bar0_blk ho, bar0_ofs ho, if_neg (not_lt.2 hb), if_neg (not_asleep ha), hw, hd]
  rfl

theorem hostWrite_unmapped (h : 20 < b ∨ Answers b s ∧ inWindow b ofs = false ∧ findReg b ofs = none) :
    hostWrite p (b * 65536 + ofs) v s = countUnmapped s := by
  simp only [hostWrite, bar0_blk ho, bar0_ofs ho]
  obtain h | ⟨ha, hw, hd⟩ := h
  · rw [if_pos h]
  · rw [if_neg (not_asleep ha), hw, hd]
    simp

theorem hostWrite_asleep (hb : b ≤ 20) (hi : islandBlock b = false) (hc : coreReady s = false) : hostWrite p (b * 65536 + ofs) v s = s := by
  simp [hostWrite, bar0_blk ho, hi, hc, not_lt.2 hb]

theorem hostRead_mapped (hb : b ≤ 20) (ha : Answers b s) (hw : inWindow b ofs = false) (hn : waitsScan b ofs = false) {d : RegDesc}
    {x : Nat × Nat} (hd : findReg b ofs = some (d, x)) : hostRead (b * 65536 + ofs) s = readReg b ofs d s := by
  simp only [hostRead, bar0_blk ho, bar0_ofs ho, if_neg (not_lt.2 hb), if_neg (not_asleep ha), hw, hd, hn]
  rfl

theorem hostRead_unmapped (h : 20 < b ∨ Answers b s ∧ inWindow b ofs = false ∧ findReg b ofs = none) :
    hostRead (b * 65536 + ofs) s = (0, countUnmapped s) := by
  simp only [hostRead, bar0_blk ho, bar0_ofs ho]
  obtain h | ⟨ha, hw, hd⟩ := h
  · rw [if_pos h]
  · rw [if_neg (not_asleep ha), hw, hd]
    simp

theorem hostRead_asleep (hb : b ≤ 20) (hi : islandBlock b = false) (hc : coreReady s = false) : hostRead (b * 65536 + ofs) s = (0, s) := by
  simp [hostRead, bar0_blk ho, hi, hc, not_lt.2 hb]

theorem readsRegister_mapped (hb : b ≤ 20) (ha : Answers b s) (hw : inWindow b ofs = false) {d : RegDesc} {x : Nat × Nat}
    (hd : findReg b ofs = some (d, x)) : readsRegister (b * 65536 + ofs) s = true := by
  simp [readsRegister, bar0_blk ho, bar0_ofs ho, hb, hw, hd, ha]

theorem readsRegister_unmapped (h : 20 < b ∨ Answers b s ∧ inWindow b ofs = false ∧ findReg b ofs = none) :
    readsRegister (b * 65536 + ofs) s = false := by
  obtain h | ⟨-, -, hd⟩ := h
  · simp [readsRegister, bar0_blk ho, h]
  · simp [readsRegister, bar0_blk ho, bar0_ofs ho, hd]

theorem readsRegister_asleep (hi : islandBlock b = false) (hc : coreReady s = false) : readsRegister (b * 65536 + ofs) s = false := by
  simp [readsRegister, bar0_blk ho, hi, hc]

end

/-- REGISTER_WRITE is a host write of its shape. -/
theorem exec_registerWrite {s : State} (hu : s.sys.up = true) (p : Path) (a : Nat) (be : BitVec 4) (v : Word) :
    exec (.registerWrite p a be v) s = .next (hostWriteShaped p a be v s) := by
  show whenUp (hostWriteShaped p a be v) s = _
  rw [whenUp_next, if_pos hu]

theorem exec_registerWrite_word {s : State} (hu : s.sys.up = true) (p : Path) {a : Nat} (ha : a % 4 = 0) (v : Word) :
    exec (.registerWrite p a 15 v) s = .next (hostWrite p a v s) := by
  rw [exec_registerWrite hu, hostWriteShaped, if_pos ⟨ha, rfl⟩]

theorem exec_registerRead (p : Path) (place : ReadPlace) (be : BitVec 4) (bad : Bool) (s : State) :
    exec (.registerRead p place be bad) s = execRegisterRead p place be bad s := rfl

/-- REGISTER_READ of an aligned word of BAR0: the word goes out; a bad register has its parity source raised (R17). -/
theorem exec_registerRead_word {s : State} (hu : s.sys.up = true) (p : Path) {a : Nat} (ha : a % 4 = 0) (bad : Bool) :
    exec (.registerRead p (.bar0 a) 15 bad) s = .next (emit (.read p a (hostRead a s).1)
      (if bad && readsRegister a s then raiseParity (a / 65536) (hostRead a s).2 else (hostRead a s).2)) := by
  rw [exec_registerRead, execRegisterRead, whenUp_next, if_pos hu]
  dsimp only
  rw [if_pos ⟨ha, rfl⟩]

theorem exec_registerRead_shape {s : State} (hu : s.sys.up = true) (p : Path) {a : Nat} {be : BitVec 4} (h : ¬(a % 4 = 0 ∧ be = 15))
    (bad : Bool) : exec (.registerRead p (.bar0 a) be bad) s = .next (emit (.read p a 0) (countShape s)) := by
  rw [exec_registerRead, execRegisterRead, whenUp_next, if_pos hu]
  dsimp only
  rw [if_neg h]

theorem exec_registerRead_bar2 {s : State} (hu : s.sys.up = true) (p : Path) {a : Nat} (n : Fin 64) (be : BitVec 4)
    (h : bar2Shape a (n.val + 1) = true) (bad : Bool) : exec (.registerRead p (.bar2 a n) be bad) s =
      .next (emit (.bytes p ((List.range (n.val + 1)).map fun i => bar2Byte s (a + i))) s) := by
  rw [exec_registerRead, execRegisterRead, whenUp_next, if_pos hu]
  dsimp only
  rw [bar2Burst, if_pos h]

/-! ## The parts of the statement -/

section
variable {p : Path} {b ofs : Nat} {d : RegDesc} {x : Nat × Nat} {v : Word} {s : State}

theorem exec_registerWrite_fields (hu : s.sys.up = true) (ho : ofs < 65536) (h4 : ofs % 4 = 0)
    (hb : b = 8 ∧ coreReady s = true ∨ b = 18) (hd : findReg b ofs = some (d, x)) :
    exec (.registerWrite p (b * 65536 + ofs) 15 v) s = .next (writeFields b ofs d v s) := by
  have hw : writeReg p b ofs d v s = writeFields b ofs d v s := by obtain ⟨rfl, -⟩ | rfl := hb <;> rfl
  have ha : Answers b s := hb.elim (fun h => .inr h.2) (fun h => .inl (h ▸ rfl))
  have hin : inWindow b ofs = false := by obtain ⟨rfl, -⟩ | rfl := hb <;> rfl
  rw [exec_registerWrite_word hu p (by omega), hostWrite_mapped ho (by omega) ha hin hd, hw]

/-- A read of a register whose block keeps all its state in registers clears the RC fields and nothing else. -/
theorem readReg_eq (hb : b ≤ 20) (h0 : b ≠ 0) (h4 : b ≠ 4) (h8 : b ≠ 8) (h13 : b ≠ 13) : ∃ r : RegFile,
    readReg b ofs d s = (regValue b ofs d s, setRegs b r s) ∧ kvGet r ofs = kvGet (blkRegs b s) ofs &&& ~~~ fieldMask d (· == .rc) ∧
      ∀ o, o ≠ ofs → kvGet r o = kvGet (blkRegs b s) o := by
  have hhook (t : State) : readHook b ofs t = t := by
    unfold readHook
    split
    · exact absurd rfl h0
    · exact absurd rfl h4
    · exact absurd rfl h8
    · exact absurd rfl h13
    · rfl
  by_cases hrc : fieldMask d (· == .rc) = 0
  · refine ⟨blkRegs b s, ?_, ?_, fun _ _ => rfl⟩
    · rw [setRegs_blkRegs b s (by omega), readReg]
      simp only [hrc, if_true, hhook]
    · rw [hrc, show ~~~(0 : Word) = BitVec.allOnes 32 by decide, BitVec.and_allOnes]
  · refine ⟨kvSet (blkRegs b s) ofs (kvGet (blkRegs b s) ofs &&& ~~~ fieldMask d (· == .rc)), ?_, kvGet_kvSet_self _ _ _,
      fun o h => kvGet_kvSet_ne _ _ h⟩
    rw [readReg]
    simp only [hrc, if_false, hhook]

end

/-- Settles O59: a write folds its fields into the block's register file, each by its access code; a read clears RC fields. -/
theorem registerAccess : Obligations.RegisterAccess := by
  unfold Obligations.RegisterAccess
  refine ⟨fun p b ofs d x v s hu ho h4 => ⟨fun hb hd hr => ?_, fun hb hd f hf hacc hbad => ?_, fun a be h => ?_, fun h => ?_,
    fun hb hi hc => ?_⟩, fun p b ofs d x s hu ho h4 => ⟨fun hb h0 h4' h8 h13 ha hw hn hd => ?_, fun a be bad h => ?_, fun bad h => ?_,
    fun bad hb hi hc => ?_, fun n a be bad h => ?_, fun a => ⟨fun h => ?_, fun hc h1 h2 => ?_, fun hc h => ?_⟩⟩⟩
  · have hb' : b = 8 ∨ b = 18 := hb.imp_left And.left
    refine ⟨_, exec_registerWrite_fields hu ho h4 hb hd, writeFields_frame hb' hd hr, fun hw => ?_, wignSet_writeFields hb' hd hr,
      writeFields_ignoredAt hb' hd hr, fun f hf hacc => ?_, fun f hf hacc => ?_, fun f hf hacc => ?_,
      fun f hf hacc i hi hlo => getLsbD_writeFields_w1c hb' hd hr hf hacc hi hlo, fun o => kvGet_writeFields_ne hb' hd hr⟩
    · rw [writeFields_sys hb' hd hr, noteIgnored, hw]
      rfl
    · rw [getF_writeFields hb' hd hr hf, FieldDesc.written, hacc]
    · rw [getF_writeFields hb' hd hr hf, FieldDesc.written, hacc]
    · rw [getF_writeFields hb' hd hr hf, FieldDesc.written]
      obtain hacc | hacc := hacc <;> rw [hacc]
  · subst hb
    obtain ⟨rfl, hlo, hv⟩ := thm_outOfRange_iff.1 hbad
    obtain ⟨rfl, -⟩ : thmCfg = d ∧ _ := by simpa [findReg_thmCfg] using hd
    obtain rfl : f = ⟨27, 24, .rw⟩ := by
      simp only [thmCfg, List.mem_cons, List.not_mem_nil, or_false] at hf
      obtain hf | rfl | rfl | rfl := hf
      · exact hf
      · exact absurd hlo (by decide)
      · exact absurd hlo (by decide)
      · exact absurd hlo (by decide)
    obtain ⟨hkeep, herr⟩ := thmCfg_hyst_kept hv s
    refine ⟨_, exec_registerWrite_fields hu ho h4 (.inr rfl) hd, ?_, hkeep, fun g hg => ?_⟩
    · obtain ⟨n, hn⟩ := writeFields_thmCfg_bad hv s
      rw [hn]
      rfl
    · cases hg
      exact herr
  · rw [exec_registerWrite hu, hostWriteShaped, if_neg h]
    rfl
  · rw [exec_registerWrite_word hu p (by omega), hostWrite_unmapped ho h]
    rfl
  · rw [exec_registerWrite_word hu p (by omega), hostWrite_asleep ho hb hi hc]
  · obtain ⟨r, hr, hrc, hother⟩ := readReg_eq (ofs := ofs) (d := d) (s := s) hb h0 h4' h8 h13
    have hread := (hostRead_mapped ho hb ha hw hn hd).trans hr
    have hblk (o : Out) : blkRegs b (emit o (setRegs b r s)) = r := by
      rw [blkRegs_emit, blkRegs_setRegs_self _ _ _ (by omega)]
    refine ⟨emit (.read p (b * 65536 + ofs) (regValue b ofs d s)) (setRegs b r s), ?_, ?_, ?_, ?_, ?_, ?_⟩
    · rw [exec_registerRead_word hu p (by omega), hread]
      rfl
    · rw [exec_registerRead_word hu p (by omega), hread, readsRegister_mapped ho hb ha hw hd, bar0_blk ho]
      rfl
    · rw [hblk, emit_out, setRegs_out, ← emit_frame, setRegs_emit]
    · simp
    · rw [hblk, hrc]
    · intro o h
      rw [hblk, hother o h]
  · rw [exec_registerRead_shape hu p h]
    rfl
  · rw [exec_registerRead_word hu p (by omega), hostRead_unmapped ho h, readsRegister_unmapped ho h, Bool.and_false]
    rfl
  · rw [exec_registerRead_word hu p (by omega), hostRead_asleep ho hb hi hc, readsRegister_asleep ho hi hc, Bool.and_false]
    rfl
  · rw [exec_registerRead_bar2 hu p n be h]
    rfl
  · obtain h | h := h
    · simp [bar2Byte, h]
    · simp [bar2Byte, not_lt.2 h, not_lt.2 (show 0xC00000 ≤ a by omega)]
  · simp [bar2Byte, hc, not_lt.2 h1, h2]
  · simp [bar2Byte, hc, h]

end Sys2Proof.Machine
end

section
/-! Cell supervision's commands (R281, R287, R293, R303): what a message to a node, a refusal, a wire's mark and the end of a wire
test change, and the statement about them. -/
namespace Sys2Proof.Machine

/-! ## Vectors -/

section
variable {α : Type} {n : Nat} (v : Vector α n) (f : α → α) (d : α)

theorem vget_vmod_self {i : Nat} (h : i < n) : vget (vmod v i f) i d = f (vget v i d) := by
  simp [vget, vmod, h]

theorem vget_vmod_ne {i j : Nat} (h : j ≠ i) : vget (vmod v i f) j d = vget v j d := by
  unfold vget vmod
  split
  · split
    · exact Vector.getElem_set_ne _ _ (Ne.symm h)
    · rfl
  · rfl

theorem vget_fin (i : Fin n) : vget v i d = v[i] := dif_pos i.isLt

end

/-! ## Rings and the records of cell supervision -/

section
variable {r : Nat} (s : State)

theorem ringOf_modRing_self (f : RingSt → RingSt) (h : r < 24) : ringOf (modRing r f s) r = f (ringOf s r) :=
  vget_vmod_self _ _ _ h

theorem ringOf_modRing_ne (f : RingSt → RingSt) {q : Nat} (h : q ≠ r) : ringOf (modRing r f s) q = ringOf s q :=
  vget_vmod_ne _ _ _ h

theorem csvRing_modCsvRing_self (f : CsvRing → CsvRing) (h : r < 24) :
    vget (modCsvRing r f s).csv.ring r {} = f (vget s.csv.ring r {}) :=
  vget_vmod_self _ _ _ h

theorem csvRing_modCsvRing_ne (f : CsvRing → CsvRing) {q : Nat} (h : q ≠ r) :
    vget (modCsvRing r f s).csv.ring q {} = vget s.csv.ring q {} :=
  vget_vmod_ne _ _ _ h

end

theorem ringOf_irq (v q : Nat) (s : State) : ringOf (irq v s) q = ringOf s q := by
  unfold ringOf
  rw [irq_rng]

/-- The ring controllers' rings may change, and nothing else. -/
def RingsOnly (s t : State) : Prop := t = { s with rng := { s.rng with ring := t.rng.ring } }

theorem RingsOnly.refl (s : State) : RingsOnly s s := rfl

theorem RingsOnly.trans {s t u : State} (h1 : RingsOnly s t) (h2 : RingsOnly t u) : RingsOnly s u := by
  unfold RingsOnly at *
  rw [h2, h1]

theorem RingsOnly.foldl {α : Type} {f : State → α → State} (h : ∀ s x, RingsOnly s (f s x)) :
    ∀ (l : List α) (s : State), RingsOnly s (l.foldl f s)
  | [], s => .refl s
  | x :: t, s => (h s x).trans (RingsOnly.foldl h t (f s x))

theorem RingsOnly.csv {s t : State} (h : RingsOnly s t) : t.csv = s.csv := by
  rw [h]

theorem ringsOnly_modRing (r : Nat) (f : RingSt → RingSt) (s : State) : RingsOnly s (modRing r f s) := rfl

/-! ## A message to a node (R264, R265) -/

theorem wagType_wagWords {type : Nat} (h : type < 256) (a seq : Nat) (bc : Bool) (pl : List Half) :
    wagType (wagWords type a seq bc pl) = type := by
  simp only [wagType, wagWords, List.getD_cons_zero, BitVec.toNat_ofNat]
  omega

theorem wagNode_wagWords (type a seq : Nat) (bc : Bool) (pl : List Half) :
    wagNode (wagWords type a seq bc pl) = a % 256 := by
  simp only [wagNode, wagWords, List.getD_cons_zero, BitVec.toNat_ofNat]
  omega

theorem endOf_modEnd (e : PortEnd) (f : RingEnd → RingEnd) (x : RingSt) : endOf (modEnd e f x) e = f (endOf x e) := by
  cases e <;> rfl

theorem ringsOnly_wagUni (front : Bool) (type a : Nat) (pl : List Half) (use : WagUse) (r : Nat) (s : State) :
    RingsOnly s (wagUni front type a pl use r s) := by
  unfold wagUni
  split
  · exact ringsOnly_modRing _ _ _
  · exact .refl s

theorem ringOf_wagUni_ne (front : Bool) (type a : Nat) (pl : List Half) (use : WagUse) {r q : Nat} (s : State) (h : q ≠ r) :
    ringOf (wagUni front type a pl use r s) q = ringOf s q := by
  unfold wagUni
  split
  · exact ringOf_modRing_ne _ _ h
  · rfl

/-- The request `m` of type `type` to node `a`, with its payload and use, is queued last at end `e` of ring `r`. -/
def Queued (type a : Nat) (pl : List Half) (use : WagUse) (r : Nat) (e : PortEnd) (s t : State) : Prop :=
  ∃ m, (endOf (ringOf t r) e).todo = (endOf (ringOf s r) e).todo ++ [m] ∧ wagType m.words = type ∧ wagNode m.words = a % 256 ∧
    m.words.drop 2 = pl ∧ m.use = use ∧ m.reply = true

theorem queued_wagUni {type a r : Nat} {e : PortEnd} {s : State} (pl : List Half) (use : WagUse) (hr : r < 24) (ht : type < 256)
    (hrep : wagReplies type false = true) (hs : (nodeAt (ringOf s r) a).serve = some e) :
    Queued type a pl use r e s (wagUni false type a pl use r s) := by
  refine ⟨{ words := wagWords type a (ringOf s r).seq false pl, reply := wagReplies type false, use := use }, ?_,
    wagType_wagWords ht _ _ _ _, wagNode_wagWords _ _ _ _ _, rfl, rfl, hrep⟩
  simp only [wagUni, hs, wagVia, ringOf_modRing_self _ _ hr, wagPut, endOf_modEnd]
  cases e <;> rfl

/-! ## Wire tests (R293) -/

section
variable {val : Word} {s : State}

/-- A WIRE_TEST_CMD is refused: both flags, and cause 6. -/
def wireRefused (s : State) : State :=
  irq 6 (csvRegs_ (fun q => setFlag (setFlag q F.CSV_WIRE_STAT_refused) F.CSV_STAT_cmd_refused) s)

theorem wireTestCmd_idle (h : val.getLsbD 31 = false) : wireTestCmd val s = s := by
  rw [wireTestCmd, h]
  rfl

theorem wireTestCmd_bad (h : val.getLsbD 31 = true) (hb : val.toNat / 65536 % 256 = 0 ∨ adjacent (val.toNat % 8192) = true) :
    wireTestCmd val s = cfgErr 10 s := by
  rw [wireTestCmd, h, if_neg (by decide), if_pos (by simpa using hb)]

/-- The ring that `CSV_SEL` selects is not READY, or runs a test, or no end serves the node. -/
def wireBarred (s : State) : Bool :=
  24 ≤ getF s.csv.r F.CSV_SEL_ring || ringState s (getF s.csv.r F.CSV_SEL_ring) != 6 ||
    (vget s.csv.ring (getF s.csv.r F.CSV_SEL_ring) {}).test.isSome ||
    (nodeAt (ringOf s (getF s.csv.r F.CSV_SEL_ring)) (getF s.csv.r F.CSV_SEL_node)).serve.isNone

theorem wireTestCmd_good (h : val.getLsbD 31 = true) (htp : val.toNat / 65536 % 256 ≠ 0) (ha : adjacent (val.toNat % 8192) = false) :
    wireTestCmd val s = if wireBarred s then wireRefused s else wireStart (getF s.csv.r F.CSV_SEL_ring) (getF s.csv.r F.CSV_SEL_node)
      (BitVec.ofNat 13 (val.toNat % 8192)) (val.toNat / 65536 % 256) s := by
  rw [wireTestCmd, h, if_neg (by decide), if_neg (by simp [htp, ha])]
  rfl

theorem wireBarred_of (h : ∀ r : Fin 24, r.val = getF s.csv.r F.CSV_SEL_ring → ringState s r ≠ 6 ∨ (vget s.csv.ring r {}).test ≠ none ∨
    (nodeAt (ringOf s r) (getF s.csv.r F.CSV_SEL_node)).serve = none) : wireBarred s = true := by
  unfold wireBarred
  by_cases hr : getF s.csv.r F.CSV_SEL_ring < 24
  · obtain h | h | h := h ⟨_, hr⟩ rfl
    · simp [h]
    · simp [Option.isSome_iff_ne_none.2 h]
    · simp [h]
  · simp [not_lt.1 hr]

theorem not_wireBarred (hr : getF s.csv.r F.CSV_SEL_ring < 24) (hst : ringState s (getF s.csv.r F.CSV_SEL_ring) = 6)
    (ht : (vget s.csv.ring (getF s.csv.r F.CSV_SEL_ring) {}).test = none) {e : PortEnd}
    (hs : (nodeAt (ringOf s (getF s.csv.r F.CSV_SEL_ring)) (getF s.csv.r F.CSV_SEL_node)).serve = some e) : wireBarred s = false := by
  simp [wireBarred, hr, hst, ht, hs]

theorem wireRefused_frame : wireRefused s = { s with
    csv := { s.csv with r := (wireRefused s).csv.r }, hst := (wireRefused s).hst, two := (wireRefused s).two, out := (wireRefused s).out } := by
  unfold wireRefused
  rw [irq_frame]
  rfl

theorem wireRefused_flags : flag (wireRefused s).csv.r F.CSV_WIRE_STAT_refused = true ∧
    flag (wireRefused s).csv.r F.CSV_STAT_cmd_refused = true := by
  unfold wireRefused
  rw [irq_csv]
  refine ⟨?_, flag_setFlag_self _ _ (by decide) (by decide)⟩
  show flag (setF _ _ _) _ = _
  rw [flag, getF_setF_ofs _ _ (by decide)]
  exact flag_setFlag_self _ _ (by decide) (by decide)

end

/-- The mask and the time of a WIRE_TEST command, as the message carries them. -/
theorem setWidth_mask (w n : Nat) : (BitVec.ofNat w n).setWidth 16 = BitVec.ofNat 16 (n % 2 ^ w) := by
  apply BitVec.eq_of_toNat_eq
  simp [BitVec.toNat_setWidth]

/-- The records of a test that starts, before its message goes out. -/
def wireNoted (r a : Nat) (mask : BitVec 13) (tp : Nat) (s : State) : State :=
  csvRegs_ (fun q => setF (setF (setF q F.CSV_WIRE_STAT_ring r) F.CSV_WIRE_STAT_node a) F.CSV_WIRE_STAT_result 0)
    (modCsvRing r (fun x => { x with test := some { node := a, mask := mask, tp := tp } }) s)

section
variable {r a : Nat} {e : PortEnd} {s : State} (mask : BitVec 13) (tp : Nat)

theorem wireStart_eq : wireStart r a mask tp s =
    wagUni false 0x13 a [mask.setWidth 16, BitVec.ofNat 16 tp] .wire r (wireNoted r a mask tp s) := rfl

theorem wireStart_frame : wireStart r a mask tp s = { s with
    rng := { s.rng with ring := (wireStart r a mask tp s).rng.ring },
    csv := { s.csv with r := (wireStart r a mask tp s).csv.r, ring := (wireStart r a mask tp s).csv.ring } } := by
  rw [wireStart_eq, ringsOnly_wagUni]
  rfl

theorem wireStart_test (hr : r < 24) : (vget (wireStart r a mask tp s).csv.ring r {}).test = some { node := a, mask := mask, tp := tp } := by
  rw [wireStart_eq, (ringsOnly_wagUni _ _ _ _ _ _ _).csv]
  exact congrArg CsvRing.test (csvRing_modCsvRing_self s _ hr)

theorem wireStart_queued (hr : r < 24) (hs : (nodeAt (ringOf s r) a).serve = some e) :
    Queued 0x13 a [mask.setWidth 16, BitVec.ofNat 16 tp] .wire r e s (wireStart r a mask tp s) :=
  queued_wagUni (s := wireNoted r a mask tp s) _ _ hr (by decide) rfl hs

theorem wireStart_other {q : Nat} (h : q ≠ r) : ringOf (wireStart r a mask tp s) q = ringOf s q ∧
    vget (wireStart r a mask tp s).csv.ring q {} = vget s.csv.ring q {} := by
  rw [wireStart_eq, (ringsOnly_wagUni _ _ _ _ _ _ _).csv, ringOf_wagUni_ne _ _ _ _ _ _ h]
  exact ⟨rfl, csvRing_modCsvRing_ne s _ h⟩

theorem wireStart_other_fin {r : Fin 24} (q : Fin 24) (h : q ≠ r) : ringOf (wireStart r a mask tp s) q = ringOf s q ∧
    (wireStart r a mask tp s).csv.ring[q] = s.csv.ring[q] := by
  obtain ⟨h1, h2⟩ := wireStart_other (a := a) (s := s) mask tp (Fin.val_ne_of_ne h)
  rw [vget_fin, vget_fin] at h2
  exact ⟨h1, h2⟩

end

/-! ## Balancing commands (R287) -/

theorem balRefuse_frame (k : Nat) (s : State) : balRefuse k s = { s with
    csv := { s.csv with r := (balRefuse k s).csv.r }, hst := (balRefuse k s).hst, two := (balRefuse k s).two,
    out := (balRefuse k s).out } := by
  unfold balRefuse
  rw [irq_frame]

/-- A refusal shows its flag, its reason and `cmd_refused`, and raises cause 6. -/
theorem balRefuse_shows {k : Nat} (hk : k < 256) (s : State) : flag (balRefuse k s).csv.r F.CSV_BAL_STAT_refused = true ∧
    getF (balRefuse k s).csv.r F.CSV_BAL_STAT_reason = k ∧ flag (balRefuse k s).csv.r F.CSV_STAT_cmd_refused = true ∧
    getBit (balRefuse k s).hst.r R.HST_IRQ_STAT 6 = true := by
  unfold balRefuse
  refine ⟨?_, ?_, ?_, irq_stat 6 _ (by decide)⟩ <;> rw [irq_csv]
  · show flag (setF (setF _ _ _) _ _) _ = _
    rw [flag, getF_setF_ofs _ _ (by decide), getF_setF_bits _ _ (by decide) (by decide)]
    exact flag_setFlag_self _ _ (by decide) (by decide)
  · show getF (setF (setF _ _ _) _ _) _ = _
    rw [getF_setF_ofs _ _ (by decide), getF_setF_self _ _ _ (by decide)]
    exact Nat.mod_eq_of_lt hk
  · exact flag_setFlag_self _ _ (by decide) (by decide)

section
variable {val : Word} {s : State}

/-- What a BAL_CMD asks of the estimate: the node that `CSV_SEL` selects, with the mask where it gives laps. -/
def balAsk (val : Word) (s : State) : Option (Nat × BitVec 12) :=
  some (getF s.csv.r F.CSV_SEL_node, if val.toNat / 65536 = 0 then 0 else BitVec.ofNat 12 val.toNat)

/-- The command that a BAL_CMD sets on its way. -/
def balTaken (val : Word) (s : State) : BalOp :=
  { ring := getF s.csv.r F.CSV_SEL_ring, node := getF s.csv.r F.CSV_SEL_node, laps := val.toNat / 65536, mask := BitVec.ofNat 12 val.toNat }

/-- The state in which its message is queued. -/
def balNoted (val : Word) (s : State) : State := { s with csv := { s.csv with bal := some (balTaken val s) } }

theorem balCmd_idle (h : val.getLsbD 12 = false) : balCmd val s = s := by
  rw [balCmd, h]
  rfl

theorem balCmd_notReady (h : val.getLsbD 12 = true)
    (hr : ∀ r : Fin 24, r.val = getF s.csv.r F.CSV_SEL_ring → ringState s r ≠ 6) : balCmd val s = balRefuse 4 s := by
  have hn : (24 ≤ getF s.csv.r F.CSV_SEL_ring || ringState s (getF s.csv.r F.CSV_SEL_ring) != 6) = true := by
    by_cases hlt : getF s.csv.r F.CSV_SEL_ring < 24
    · simp [hr ⟨_, hlt⟩ rfl]
    · simp [not_lt.1 hlt]
  rw [balCmd, h, if_neg (by decide), if_pos hn]

/-- With the ring READY the other tests decide, in their order. -/
theorem balCmd_ready (h : val.getLsbD 12 = true) (hlt : getF s.csv.r F.CSV_SEL_ring < 24)
    (hr : ringState s (getF s.csv.r F.CSV_SEL_ring) = 6) : balCmd val s =
      if s.csv.bal.isSome then balRefuse 0 s
      else if balGrant s (getF s.csv.r F.CSV_SEL_ring) < balEst s (getF s.csv.r F.CSV_SEL_ring) (balAsk val s) then balRefuse 1 s
      else if (nodeAt (ringOf s (getF s.csv.r F.CSV_SEL_ring)) (getF s.csv.r F.CSV_SEL_node)).serve.isNone then balRefuse 3 s
      else wagUni false 0x12 (getF s.csv.r F.CSV_SEL_node)
        [(BitVec.ofNat 12 val.toNat).setWidth 16, BitVec.ofNat 16 (val.toNat / 65536)] .bal (getF s.csv.r F.CSV_SEL_ring)
        (balNoted val s) := by
  rw [balCmd, h, if_neg (by decide), if_neg (by simp [hlt, hr])]
  rfl

/-- While a command is on its way another one is refused. -/
theorem balCmd_busy (h : val.getLsbD 12 = true) (hb : s.csv.bal ≠ none) : ∃ k < 256, balCmd val s = balRefuse k s := by
  by_cases hr : ∀ r : Fin 24, r.val = getF s.csv.r F.CSV_SEL_ring → ringState s r ≠ 6
  · exact ⟨4, by decide, balCmd_notReady h hr⟩
  · push Not at hr
    obtain ⟨r, hsel, hst⟩ := hr
    refine ⟨0, by decide, ?_⟩
    rw [balCmd_ready h (hsel ▸ r.isLt) (hsel ▸ hst), if_pos (Option.isSome_iff_ne_none.2 hb)]

end

/-! ## Quiet rings (R8, R281) -/

theorem ringsOnly_resendConfig (r : Nat) (s : State) : RingsOnly s (resendConfig r s) := by
  have hall (s : State) : RingsOnly s ((claimedNodes (ringOf s r)).foldl (fun s a => sendConfig false r a s) s) :=
    .foldl (fun s a => ringsOnly_wagUni _ _ _ _ _ _ s) _ s
  unfold resendConfig
  split
  · exact (hall s).trans (ringsOnly_modRing _ _ _)
  · split
    · exact .refl s
    · exact (hall s).trans (ringsOnly_modRing _ _ _)

theorem ringsOnly_csvPut (q : RegFile) (s : State) : RingsOnly (csvRegs_ (fun _ => q) s) (csvPut q s) :=
  .foldl (fun s k => ringsOnly_resendConfig k s) _ _

theorem csvPut_frame (q : RegFile) (s : State) : csvPut q s = { s with
    rng := { s.rng with ring := (csvPut q s).rng.ring }, csv := { s.csv with r := (csvPut q s).csv.r } } := by
  rw [ringsOnly_csvPut]
  rfl

theorem csvPut_regs (q : RegFile) (s : State) : (csvPut q s).csv.r = q := by
  rw [ringsOnly_csvPut]
  rfl

/-- The write of `CSV_QUIET_DIS`, as it waits or is applied. -/
def quietPend (val : Word) : Pend := { ofs := R.CSV_QUIET_DIS, lo := 0, width := 24, val := val.toNat % 2 ^ 24 }

theorem getBit_quietDis (r : RegFile) (val : Word) {k : Nat} (hk : k < 24) :
    getBit (overlay r [quietPend val]) R.CSV_QUIET_DIS k = val.getLsbD k := by
  simp only [overlay, List.foldl_cons, List.foldl_nil, getBit, quietPend, kvGet_kvSet_self]
  rw [putBits_getLsbD _ _ _ _ _ (by omega), if_pos (by omega), Nat.sub_zero, Nat.testBit_mod_two_pow, decide_eq_true hk, Bool.true_and]
  rfl

/-! ## The comb (R303) -/

theorem combHostWrite_cell {ofs : Nat} (v : Half) {s : State}
    (h : combHas s (ofs / 2) = true ∧ ofs / 2 % 1024 < 864 ∧ ofs / 2 % 1024 % 72 = 7) :
    combHostWrite ofs v s = { s with csv := { s.csv with comb := kvSet s.csv.comb (ofs / 2) v } } := by
  simp [combHostWrite, h]

theorem combHostWrite_ignored {ofs : Nat} (v : Half) {s : State}
    (h : ¬(combHas s (ofs / 2) = true ∧ ofs / 2 % 1024 < 864 ∧ ofs / 2 % 1024 % 72 = 7)) :
    combHostWrite ofs v s = csvRegs_ (fun q => incF q F.CSV_STAT_host_wr_ign 1) s := by
  rw [combHostWrite, if_neg]
  simpa [and_assoc] using h

/-! ## The marks of a wire test (R293) -/

/-- Only points and records of node `a` of ring `r` and the fault collector change, and the tests that wait stay. -/
structure MarksNode (r a : Nat) (s t : State) : Prop where
  frame : t = { s with csv := { s.csv with comb := t.csv.comb, ring := t.csv.ring }, flt := t.flt }
  comb  : ∀ i, i / 1024 ≠ r * 256 + a → kvGet t.csv.comb i = kvGet s.csv.comb i
  other : ∀ q, q ≠ r → vget t.csv.ring q {} = vget s.csv.ring q {}
  auto  : (vget t.csv.ring r {}).auto = (vget s.csv.ring r {}).auto

section
variable {r a : Nat}

theorem MarksNode.refl (s : State) : MarksNode r a s s := ⟨rfl, fun _ _ => rfl, fun _ _ => rfl, rfl⟩

theorem MarksNode.trans {s t u : State} (h1 : MarksNode r a s t) (h2 : MarksNode r a t u) : MarksNode r a s u where
  frame := by rw [h2.frame, h1.frame]
  comb i hi := (h2.comb i hi).trans (h1.comb i hi)
  other q hq := (h2.other q hq).trans (h1.other q hq)
  auto := h2.auto.trans h1.auto

theorem MarksNode.foldl {α : Type} {f : State → α → State} : ∀ (l : List α) (s : State), (∀ s, ∀ x ∈ l, MarksNode r a s (f s x)) →
    MarksNode r a s (l.foldl f s)
  | [], s, _ => .refl s
  | x :: t, s, h => (h s x (by simp)).trans (MarksNode.foldl t (f s x) fun s y hy => h s y (by simp [hy]))

theorem marksNode_combPut (i : Nat) (v : Half) (s : State) (hi : i < 1024) : MarksNode r a s (combPut r a i v s) := by
  unfold combPut
  dsimp only
  split
  · refine ⟨rfl, fun k hk => kvGet_kvSet_ne _ _ fun he => hk ?_, fun _ _ => rfl, rfl⟩
    omega
  · exact .refl s

theorem marksNode_put4 (c on off : Nat) (s : State) (hc : c ≤ 12) : MarksNode r a s (put4 r a c on off s) := by
  unfold put4
  split
  · exact .refl s
  · exact marksNode_combPut _ _ s (by omega)

theorem marksNode_putMapPt (i k : Nat) (b : Bool) (s : State) (hi : i < 1024) : MarksNode r a s (putMapPt r a i k b s) :=
  marksNode_combPut _ _ s hi

theorem marksNode_modCsv (f : CsvNode → CsvNode) (s : State) (hr : r < 24) : MarksNode r a s (modCsv r a f s) where
  frame := rfl
  comb _ _ := rfl
  other _ hq := csvRing_modCsvRing_ne s _ hq
  auto := (congrArg CsvRing.auto (csvRing_modCsvRing_self s _ hr)).trans rfl

theorem marksNode_raise (src u b : Nat) (s : State) : MarksNode r a s (raise src u b s) :=
  ⟨rfl, fun _ _ => rfl, fun _ _ => rfl, rfl⟩

theorem marksNode_put4_either {c : Nat} (on off on' off' : Nat) (p : Prop) [Decidable p] {s t : State} (hc : c ≤ 12)
    (h : MarksNode r a s t) : MarksNode r a s (if p then put4 r a c on off t else put4 r a c on' off' t) := by
  split
  · exact h.trans (marksNode_put4 _ _ _ t hc)
  · exact h.trans (marksNode_put4 _ _ _ t hc)

/-- The marks of the cell below the wire, where there is one. -/
theorem marksNode_below {k : Nat} (on off on' off' : Nat) (p : Prop) [Decidable p] {s t : State} (hk : k ≤ 12) (h : MarksNode r a s t) :
    MarksNode r a s (if 0 < k then if p then put4 r a (k - 1) on off t else put4 r a (k - 1) on' off' t else t) := by
  split
  · exact marksNode_put4_either _ _ _ _ _ (by omega) h
  · exact h

theorem marksNode_wireMark (res : Option Bool) {k : Nat} (s : State) (hr : r < 24) (hk : k ≤ 12) :
    MarksNode r a s (wireMark r a res k s) := by
  cases res with
  | none =>
    unfold wireMark
    dsimp only
    exact marksNode_put4_either _ _ _ _ _ hk (marksNode_below _ _ _ _ _ hk (marksNode_modCsv _ s hr))
  | some b =>
    unfold wireMark
    dsimp only
    refine .trans ?_ (marksNode_putMapPt 876 k false _ (by decide))
    refine .trans ?_ (marksNode_putMapPt 875 k b _ (by decide))
    exact marksNode_put4_either _ _ _ _ _ hk (marksNode_below _ _ _ _ _ hk (marksNode_modCsv _ s hr))

theorem marksNode_applyWire (res : Nat → Option Bool) {k : Nat} (s : State) (hr : r < 24) (hk : k ≤ 12) :
    MarksNode r a s (applyWire r a res s k) := by
  unfold applyWire
  dsimp only
  split
  · exact (marksNode_wireMark _ s hr hk).trans (marksNode_raise _ _ _ _)
  · exact marksNode_wireMark _ s hr hk

end

theorem mem_bitsOf_le {w : Nat} {v : BitVec w} {k : Nat} (h : k ∈ bitsOf v) : k < w :=
  List.mem_range.1 (List.mem_filter.1 h).1

/-! ## The end of a wire test (R293) -/

theorem autoTest_none {r : Nat} {s : State} (h : (vget s.csv.ring r {}).auto = []) : autoTest r s = s := by
  unfold autoTest
  dsimp only
  rw [h]
  split
  next => contradiction
  next => rfl

/-- The records of a test of node `a` that ends with `result`. -/
def wireClosed (r a result : Nat) (s : State) : State :=
  csvRegs_ (fun q =>
      setF (setF (setFlag (setF q F.CSV_WIRE_STAT_result result) F.CSV_WIRE_STAT_done) F.CSV_WIRE_STAT_ring r) F.CSV_WIRE_STAT_node a)
    (modCsvRing r (fun x => { x with test := none })
      (modRing r (fun x => { x with reqs := x.reqs.filter fun q => !(q.g.kind == 2 && q.g.node == a) }) s))

section
variable {r a result : Nat} {s : State}

theorem wireDone_eq (hr : r < 24) (h : (vget s.csv.ring r {}).auto = []) : wireDone r a result s = irq 6 (wireClosed r a result s) := by
  refine autoTest_none ?_
  rw [irq_csv]
  exact (congrArg CsvRing.auto (csvRing_modCsvRing_self _ _ hr)).trans h

theorem wireClosed_test (hr : r < 24) : (vget (wireClosed r a result s).csv.ring r {}).test = none :=
  congrArg CsvRing.test (csvRing_modCsvRing_self (modRing r _ s) _ hr)

theorem wireClosed_stat (hr : r < 24) (hres : result < 4) : flag (wireClosed r a result s).csv.r F.CSV_WIRE_STAT_done = true ∧
    getF (wireClosed r a result s).csv.r F.CSV_WIRE_STAT_ring = r ∧ getF (wireClosed r a result s).csv.r F.CSV_WIRE_STAT_result = result := by
  refine ⟨?_, ?_, ?_⟩
  · show flag (setF (setF _ _ _) _ _) _ = _
    rw [flag, getF_setF_bits _ _ (by decide) (by decide), getF_setF_bits _ _ (by decide) (by decide)]
    exact flag_setFlag_self _ _ (by decide) (by decide)
  · show getF (setF (setF _ _ _) _ _) _ = _
    rw [getF_setF_bits _ _ (by decide) (by decide), getF_setF_self _ _ _ (by decide)]
    exact Nat.mod_eq_of_lt (hr.trans (by decide))
  · show getF (setF (setF (setFlag (setF _ _ _) _) _ _) _ _) _ = _
    rw [getF_setF_bits _ _ (by decide) (by decide), getF_setF_bits _ _ (by decide) (by decide), setFlag,
      getF_setF_bits _ _ (by decide) (by decide), getF_setF_self _ _ _ (by decide)]
    exact Nat.mod_eq_of_lt hres

end

/-- What a test that ends shows (R293). -/
theorem wireDone_shows {r a result : Nat} {s : State} (hr : r < 24) (hres : result < 4) (h : (vget s.csv.ring r {}).auto = []) :
    (vget (wireDone r a result s).csv.ring r {}).test = none ∧ flag (wireDone r a result s).csv.r F.CSV_WIRE_STAT_done = true ∧
      getF (wireDone r a result s).csv.r F.CSV_WIRE_STAT_ring = r ∧ getF (wireDone r a result s).csv.r F.CSV_WIRE_STAT_result = result ∧
      getBit (wireDone r a result s).hst.r R.HST_IRQ_STAT 6 = true := by
  obtain ⟨hd, hring, hresult⟩ := wireClosed_stat (a := a) (s := s) hr hres
  rw [wireDone_eq hr h, irq_csv]
  exact ⟨wireClosed_test hr, hd, hring, hresult, irq_stat 6 _ (by decide)⟩

/-! ## Diagnostic runs (R293) -/

section
variable {r : Nat} {s : State} {h : RingWord} {rest : List RingWord} {N : Nat}

theorem drop4_q4 (n : Nat) (hr : r < 24) : (ringOf (drop4 r n s) r) = { ringOf s r with q4 := (ringOf s r).q4.drop n } :=
  ringOf_modRing_self s _ hr

theorem drop4_combN (n : Nat) : combN (drop4 r n s) = combN s := rfl
theorem drop4_limN (n : Nat) : limN (drop4 r n s) = limN s := rfl
theorem drop4_nodeSet (n : Nat) : nodeSet (drop4 r n s) = nodeSet s := rfl

/-- The wires that a test judges: those of its mask that the node has. -/
def judged (w : WireTest) (N : Nat) : List Nat := (bitsOf w.mask).filter (· ≤ N)

/-- The result of a test (R293): open, passed, or neither. -/
def wireResult (ks : List Nat) (res : Nat → Option Bool) : Nat :=
  if ks.any (fun k => res k == some true) then 2 else if ks.all (fun k => res k == some false) then 1 else 3

theorem wireResult_three_iff {ks : List Nat} {res : Nat → Option Bool} {n : Nat} :
    (!(ks.any fun k => res k == some true) && !(ks.all fun k => res k == some false) && decide (n = 0)) = true ↔
      wireResult ks res = 3 ∧ n = 0 := by
  unfold wireResult
  cases ks.any fun k => res k == some true <;> cases ks.all fun k => res k == some false <;> simp

theorem diagRunJudge_idle (hq : ∀ h ∈ (ringOf s r).q4.head?, h.flags / 4 % 2 = 0) : diagRunJudge r s = s := by
  unfold diagRunJudge
  split
  next => rfl
  next h t hl => exact if_pos (hq h (by rw [hl]; rfl))

section
variable (hq : (ringOf s r).q4 = h :: rest) (hf : h.flags / 4 % 2 = 1) (hN : N = (nodeAt (ringOf s r) h.node).cells)
include hq hf hN

theorem diagRunJudge_untaken (hw : ∀ w, (vget s.csv.ring r {}).test = some w → w.node ≠ h.node ∨ w.asked = false) :
    diagRunJudge r s = drop4 r (N + 1) s := by
  subst hN
  have hcsv (n : Nat) : (drop4 r n s).csv = s.csv := rfl
  unfold diagRunJudge
  rw [hq]
  dsimp only
  rw [if_neg (by omega), hcsv]
  cases htest : (vget s.csv.ring r {}).test with
  | none => rfl
  | some w =>
    refine if_pos ?_
    simpa using hw w htest

theorem diagRunJudge_taken {w : WireTest} {res : Nat → Option Bool}
    (hres : ∀ k, res k = judgeWire N (limN s F.CSV_LIMn_4_wire_thr (nodeSet s r h.node))
      (fun j => ((((ringOf s r).q4.take (N + 1)).map (·.val)).getD (j + 1) 0).toNat - combN s r h.node (72 * j)) k)
    (hw : (vget s.csv.ring r {}).test = some w) (hn : w.node = h.node) (ha : w.asked = true) :
    diagRunJudge r s = if wireResult (judged w N) res = 3 ∧ w.runs = 0 then wireIndet r (drop4 r (N + 1) s)
      else wireDone r h.node (wireResult (judged w N) res) ((judged w N).foldl (applyWire r h.node res) (drop4 r (N + 1) s)) := by
  subst hN
  have hcsv (n : Nat) : (drop4 r n s).csv = s.csv := rfl
  rw [hq] at hres
  unfold diagRunJudge
  rw [hq]
  dsimp only
  rw [if_neg (by omega), hcsv, hw]
  dsimp only
  rw [if_neg (by simp [hn, ha])]
  simp only [drop4_combN, drop4_limN, drop4_nodeSet, ← funext hres]
  by_cases hc : wireResult (judged w (nodeAt (ringOf s r) h.node).cells) res = 3 ∧ w.runs = 0
  · rw [if_pos hc]
    exact if_pos (wireResult_three_iff.2 hc)
  · rw [if_neg hc]
    exact if_neg fun h => hc (wireResult_three_iff.1 h)

end

/-- What judging a run may change: rings, cell supervision, the fault collector, and what an interrupt cause changes. -/
def JudgeChanges (s t : State) : Prop :=
  t = { s with rng := { s.rng with ring := t.rng.ring }, csv := t.csv, flt := t.flt, hst := t.hst, two := t.two, out := t.out }

theorem JudgeChanges.trans {s t u : State} (h1 : JudgeChanges s t) (h2 : JudgeChanges t u) : JudgeChanges s u := by
  unfold JudgeChanges at *
  rw [h2, h1]

theorem MarksNode.judgeChanges {r a : Nat} {s t : State} (h : MarksNode r a s t) : JudgeChanges s t := by
  unfold JudgeChanges
  rw [h.frame]

theorem judgeChanges_irq (v : Nat) (s : State) : JudgeChanges s (irq v s) := by
  unfold JudgeChanges
  rw [irq_frame]

theorem judgeChanges_drop4 (r n : Nat) (s : State) : JudgeChanges s (drop4 r n s) := rfl

theorem judgeChanges_wireClosed (r a result : Nat) (s : State) : JudgeChanges s (wireClosed r a result s) := rfl

/-- A run of node `a`, of `n` words, left queue 4 of ring `r` and was judged: points of other nodes and everything of other
rings stay. -/
structure RunJudged (r a n : Nat) (s t : State) : Prop where
  frame : JudgeChanges s t
  q4    : (ringOf t r).q4 = (ringOf s r).q4.drop n
  comb  : ∀ i, i / 1024 ≠ r * 256 + a → kvGet t.csv.comb i = kvGet s.csv.comb i
  other : ∀ q, q ≠ r → ringOf t q = ringOf s q ∧ vget t.csv.ring q {} = vget s.csv.ring q {}

variable {a n : Nat}

theorem RunJudged.other_fin {t : State} {r : Fin 24} (h : RunJudged r a n s t) (q : Fin 24) (hq : q ≠ r) :
    ringOf t q = ringOf s q ∧ t.csv.ring[q] = s.csv.ring[q] := by
  obtain ⟨h1, h2⟩ := h.other q (Fin.val_ne_of_ne hq)
  rw [vget_fin, vget_fin] at h2
  exact ⟨h1, h2⟩

/-- The test runs again in the next lap. -/
theorem wireIndet_again {w : WireTest} (hw : (vget s.csv.ring r {}).test = some w) (h0 : w.runs = 0) : wireIndet r s =
    modCsvRing r (fun x => { x with test := some { w with again := true, going := false, asked := false, runs := 1 } })
      (modRing r (fun x => { x with reqs := x.reqs.filter fun q => !(q.g.kind == 2 && q.g.node == w.node) }) s) := by
  unfold wireIndet
  rw [hw]
  dsimp only
  rw [if_pos h0]
  rfl

theorem runJudged_again {w : WireTest} (hr : r < 24) (hw : (vget s.csv.ring r {}).test = some w) (h0 : w.runs = 0) :
    RunJudged r a n s (wireIndet r (drop4 r n s)) := by
  rw [wireIndet_again (s := drop4 r n s) hw h0]
  refine ⟨rfl, ?_, fun _ _ => rfl, fun q hq => ⟨?_, csvRing_modCsvRing_ne (modRing r _ (drop4 r n s)) _ hq⟩⟩
  · refine (congrArg RingSt.q4 (ringOf_modRing_self (drop4 r n s) _ hr)).trans ?_
    rw [drop4_q4 n hr]
  · exact (ringOf_modRing_ne (drop4 r n s) _ hq).trans (ringOf_modRing_ne s _ hq)

theorem runJudged_done {result : Nat} {t : State} (hr : r < 24) (hm : MarksNode r a (drop4 r n s) t)
    (h : (vget s.csv.ring r {}).auto = []) : RunJudged r a n s (wireDone r a result t) := by
  have hauto : (vget t.csv.ring r {}).auto = [] := hm.auto.trans h
  have hring (q : Nat) : ringOf t q = ringOf (drop4 r n s) q := by rw [hm.frame]; rfl
  rw [wireDone_eq hr hauto]
  refine ⟨?_, ?_, ?_, fun q hq => ⟨?_, ?_⟩⟩
  · exact (judgeChanges_drop4 r n s).trans (hm.judgeChanges.trans ((judgeChanges_wireClosed _ _ _ t).trans (judgeChanges_irq _ _)))
  · rw [ringOf_irq]
    refine (congrArg RingSt.q4 (ringOf_modRing_self t _ hr)).trans ?_
    rw [hring, drop4_q4 n hr]
  · rw [irq_csv]
    exact hm.comb
  · rw [ringOf_irq]
    exact (ringOf_modRing_ne t _ hq).trans ((hring q).trans (ringOf_modRing_ne s _ hq))
  · rw [irq_csv]
    exact (csvRing_modCsvRing_ne (modRing r _ t) _ hq).trans (hm.other q hq)

theorem marksNode_judged (w : WireTest) (N : Nat) (res : Nat → Option Bool) (s : State) (hr : r < 24) :
    MarksNode r a s ((judged w N).foldl (applyWire r a res) s) := by
  refine .foldl _ _ fun s k hk => marksNode_applyWire res s hr ?_
  have := mem_bitsOf_le (List.mem_filter.1 hk).1
  omega

end

theorem wireResult_lt (ks : List Nat) (res : Nat → Option Bool) : wireResult ks res < 4 := by
  unfold wireResult
  split
  · decide
  · split <;> decide

section
variable {w : WireTest} {N : Nat} {res : Nat → Option Bool}

theorem wireResult_again (h1 : ∀ k ∈ bitsOf w.mask, k ≤ N → res k ≠ some true) (h2 : ∃ k ∈ bitsOf w.mask, k ≤ N ∧ res k = none) :
    wireResult (judged w N) res = 3 := by
  obtain ⟨k, hk, hkN, hn⟩ := h2
  unfold wireResult
  rw [if_neg, if_neg]
  · simp only [List.all_eq_true, beq_iff_eq, not_forall]
    exact ⟨k, List.mem_filter.2 ⟨hk, by simpa using hkN⟩, by simp [hn]⟩
  · simp only [judged, List.any_eq_true, beq_iff_eq, List.mem_filter, decide_eq_true_eq]
    rintro ⟨k, ⟨hk, hkN⟩, ht⟩
    exact h1 k hk hkN ht

theorem wireResult_ended (h : (∃ k ∈ bitsOf w.mask, k ≤ N ∧ res k = some true) ∨ (∀ k ∈ bitsOf w.mask, k ≤ N → res k = some false)) :
    wireResult (judged w N) res ≠ 3 := by
  unfold wireResult
  obtain ⟨k, hk, hkN, ht⟩ | h := h
  · rw [if_pos]
    · decide
    · simp only [judged, List.any_eq_true, beq_iff_eq, List.mem_filter, decide_eq_true_eq]
      exact ⟨k, ⟨hk, hkN⟩, ht⟩
  · split
    · decide
    · rw [if_pos]
      · decide
      · simp only [judged, List.all_eq_true, beq_iff_eq, List.mem_filter, decide_eq_true_eq]
        exact fun k hk => h k hk.1 hk.2

end

/-! ## The statement -/

section
variable {s : State} (hc : coreReady s = true) (p : Path)
include hc

theorem exec_wireTestCmd (val : Word) : exec (.wireTestCmd p val) s = .next (wireTestCmd val s) := by
  show whenCore (wireTestCmd val) s = _
  rw [whenCore_next, if_pos hc]

theorem exec_balCmd (val : Word) : exec (.balCmd p val) s = .next (balCmd val s) := by
  show whenCore (balCmd val) s = _
  rw [whenCore_next, if_pos hc]

theorem exec_quietDisWrite (val : Word) : exec (.quietDisWrite p val) s = .next (quietDisWrite val s) := by
  show whenCore (quietDisWrite val) s = _
  rw [whenCore_next, if_pos hc]

theorem exec_combHostWrite (ofs : Nat) (v : Half) : exec (.combHostWrite p ofs v) s = .next (combHostWrite ofs v s) := by
  show whenCore (combHostWrite ofs v) s = _
  rw [whenCore_next, if_pos hc]

end

theorem exec_diagRunJudge (r : Fin 24) (s : State) : exec (.diagRunJudge r) s = .next (diagRunJudge r s) := rfl

section
variable {val : Word} {s : State}

theorem wireTestCmd_starts {r a : Nat} {e : PortEnd} (h : val.getLsbD 31 = true) (htp : val.toNat / 65536 % 256 ≠ 0)
    (hadj : adjacent (val.toNat % 8192) = false) (hr : r < 24) (hsel : getF s.csv.r F.CSV_SEL_ring = r)
    (hnode : getF s.csv.r F.CSV_SEL_node = a) (hst : ringState s r = 6) (ht : (vget s.csv.ring r {}).test = none)
    (hs : (nodeAt (ringOf s r) a).serve = some e) :
    wireTestCmd val s = wireStart r a (BitVec.ofNat 13 (val.toNat % 8192)) (val.toNat / 65536 % 256) s := by
  subst hsel hnode
  rw [wireTestCmd_good h htp hadj, not_wireBarred hr hst ht hs, if_neg (by decide)]

/-- The command that `CSV_SEL` and a BAL_CMD spell is refused for its reason, unless none holds (R287). -/
theorem balCmd_refused {reason : Nat} (h12 : val.getLsbD 12 = true)
    (h : (reason = 4 ∧ ∀ r : Fin 24, r.val = getF s.csv.r F.CSV_SEL_ring → ringState s r ≠ 6) ∨
      (s.csv.bal = none ∧ ∃ r : Fin 24, r.val = getF s.csv.r F.CSV_SEL_ring ∧ ringState s r = 6 ∧
        ((reason = 1 ∧ balGrant s r < balEst s r (balAsk val s)) ∨
         (reason = 3 ∧ balEst s r (balAsk val s) ≤ balGrant s r ∧
          (nodeAt (ringOf s r) (getF s.csv.r F.CSV_SEL_node)).serve = none)))) : reason < 256 ∧ balCmd val s = balRefuse reason s := by
  obtain ⟨rfl, hr⟩ | ⟨hb, r, hsel, hst, h⟩ := h
  · exact ⟨by decide, balCmd_notReady h12 hr⟩
  · rw [balCmd_ready h12 (hsel ▸ r.isLt) (hsel ▸ hst), hb, ← hsel]
    obtain ⟨rfl, hest⟩ | ⟨rfl, hest, hserve⟩ := h
    · refine ⟨by decide, ?_⟩
      rw [if_neg (by decide), if_pos hest]
    · refine ⟨by decide, ?_⟩
      rw [if_neg (by decide), if_neg (not_lt.2 hest), hserve, if_pos Option.isNone_none]

theorem balCmd_taken {r a : Nat} {e : PortEnd} (h12 : val.getLsbD 12 = true) (hb : s.csv.bal = none) (hr : r < 24)
    (hsel : getF s.csv.r F.CSV_SEL_ring = r) (hnode : getF s.csv.r F.CSV_SEL_node = a) (hst : ringState s r = 6)
    (hs : (nodeAt (ringOf s r) a).serve = some e) (hest : balEst s r (balAsk val s) ≤ balGrant s r) :
    balCmd val s = wagUni false 0x12 a [(BitVec.ofNat 12 val.toNat).setWidth 16, BitVec.ofNat 16 (val.toNat / 65536)] .bal r
      (balNoted val s) := by
  subst hsel hnode
  rw [balCmd_ready h12 hr hst, hb, if_neg (by decide), if_neg (not_lt.2 hest), hs, if_neg (by simp)]

theorem quietDisWrite_now (h : strides s = false) : quietDisWrite val s =
    csvPut (overlay s.csv.r [quietPend val]) s := by
  rw [quietDisWrite, if_neg (by simp [h]), quietPend]

end

/-- Settles O40: each command by the case that its operands and the ring's state choose; a run by what its test makes of it. -/
theorem cellCommands : Obligations.CellCommands := by
  unfold Obligations.CellCommands
  refine ⟨fun p val s hc => ⟨fun h => ?_, fun h => ?_, fun h hb => ?_, fun hbar h htp hadj => ?_, fun reason hr h => ?_, fun hb h => ?_,
    fun r a e hsel hnode hst hs => ⟨fun h htp hadj ht => ?_, fun h hb hest => ?_⟩, fun h => ?_, fun h => ?_,
    fun ofs v => ⟨fun h => ?_, fun h => ?_⟩⟩,
    fun r s => ⟨fun hq => ?_, fun h rest N hq hf hN => ⟨fun hw => ?_, fun w res hres hw hauto hn ha => ?_⟩⟩⟩
  · rw [exec_wireTestCmd hc, wireTestCmd_idle h]
  · rw [exec_balCmd hc, balCmd_idle h]
  · rw [exec_wireTestCmd hc, wireTestCmd_bad h hb]
    rfl
  · refine ⟨_, exec_wireTestCmd hc p val, ?_⟩
    rw [wireTestCmd_good h htp hadj, if_pos (wireBarred_of hbar)]
    exact ⟨wireRefused_frame, wireRefused_flags.1, wireRefused_flags.2, irq_stat 6 _ (by decide)⟩
  · obtain ⟨hk, heq⟩ := balCmd_refused h hr
    refine ⟨_, exec_balCmd hc p val, ?_⟩
    rw [heq]
    exact ⟨balRefuse_frame _ s, balRefuse_shows hk s⟩
  · obtain ⟨k, hk, heq⟩ := balCmd_busy h hb
    obtain ⟨hf, -, hcmd, -⟩ := balRefuse_shows hk s
    refine ⟨_, exec_balCmd hc p val, ?_⟩
    rw [heq]
    exact ⟨balRefuse_frame _ s, hf, hcmd⟩
  · have hq := wireStart_queued (BitVec.ofNat 13 (val.toNat % 8192)) (val.toNat / 65536 % 256) r.isLt hs
    rw [setWidth_mask, show (2 : Nat) ^ 13 = 8192 from rfl, Nat.mod_mod] at hq
    refine ⟨_, exec_wireTestCmd hc p val, ?_⟩
    rw [wireTestCmd_starts h htp hadj r.isLt hsel hnode hst ht hs]
    exact ⟨wireStart_frame _ _, wireStart_test _ _ r.isLt, hq, wireStart_other_fin _ _⟩
  · have hask : balEst s r (balAsk val s) ≤ balGrant s r := by rwa [balAsk, hnode]
    have hq := queued_wagUni (s := balNoted val s) [(BitVec.ofNat 12 val.toNat).setWidth 16, BitVec.ofNat 16 (val.toNat / 65536)] .bal
      (type := 0x12) r.isLt (by decide) rfl hs
    rw [setWidth_mask] at hq
    refine ⟨_, exec_balCmd hc p val, ?_⟩
    rw [balCmd_taken h hb r.isLt hsel hnode hst hs hask, setWidth_mask]
    refine ⟨?_, ?_, hq, fun q hne => ringOf_wagUni_ne _ _ _ _ _ _ (Fin.val_ne_of_ne hne)⟩
    · rw [ringsOnly_wagUni]
      rfl
    · rw [(ringsOnly_wagUni _ _ _ _ _ _ _).csv, ← hsel, ← hnode]
      rfl
  · rw [exec_quietDisWrite hc, quietDisWrite, if_pos h]
  · refine ⟨_, exec_quietDisWrite hc p val, ?_⟩
    rw [quietDisWrite_now h]
    rw [csvPut_frame, csvPut_regs]
    exact ⟨rfl, fun k hk => getBit_quietDis s.csv.r val hk, fun o ho => kvGet_kvSet_ne _ _ ho⟩
  · rw [exec_combHostWrite hc, combHostWrite_cell v h]
    exact ⟨_, rfl, rfl, kvGet_kvSet_self _ _ _, fun i hi => kvGet_kvSet_ne _ _ hi⟩
  · rw [exec_combHostWrite hc, combHostWrite_ignored v h]
    rfl
  · rw [exec_diagRunJudge, diagRunJudge_idle hq]
  · rw [exec_diagRunJudge, diagRunJudge_untaken hq hf hN hw]
    exact ⟨_, rfl, rfl, drop4_q4 _ r.isLt, fun q hne => ringOf_modRing_ne s _ (Fin.val_ne_of_ne hne)⟩
  · rw [exec_diagRunJudge, diagRunJudge_taken hq hf hN hres hw hn ha]
    refine ⟨_, rfl, ?_⟩
    by_cases hagain : wireResult (judged w N) res = 3 ∧ w.runs = 0
    · rw [if_pos hagain]
      have hj := runJudged_again (a := h.node) (n := N + 1) r.isLt hw hagain.2
      refine ⟨hj.frame, hj.q4, hj.comb, hj.other_fin, fun _ _ _ => ?_, fun hend => ?_⟩
      · rw [wireIndet_again (s := drop4 r (N + 1) s) hw hagain.2]
        exact ⟨congrArg CsvRing.test (csvRing_modCsvRing_self (modRing r _ _) _ r.isLt), rfl⟩
      · obtain h | h := hend
        · exact absurd hagain.2 h
        · exact absurd hagain.1 (wireResult_ended h)
    · rw [if_neg hagain]
      have hm := marksNode_judged (a := h.node) w N res (drop4 r (N + 1) s) r.isLt
      have hj := runJudged_done (result := wireResult (judged w N) res) r.isLt hm hauto
      exact ⟨hj.frame, hj.q4, hj.comb, hj.other_fin, fun h0 h1 h2 => absurd ⟨wireResult_again h1 h2, h0⟩ hagain,
        fun _ => wireDone_shows r.isLt (wireResult_lt _ _) (hm.auto.trans hauto)⟩

end Sys2Proof.Machine
end

section
/-! The planning of stride L − 1 (R22, R31, R136, R154, R268): what current placement, data placement and the N + 1 analysis leave,
and the statement about them. -/
namespace Sys2Proof.Machine

/-- A command that reaches a core domain out of reset takes effect (R442). -/
theorem whenCore_ready {s : State} (hc : coreReady s = true) (f : State → State) : whenCore f s = .next (f s) := by
  rw [whenCore_next, if_pos hc]

/-! ## Current placement (R154 to R158, R164, R337) -/

/-- The first part of a planning stride: the figures of queue 7 are taken and the lap counts for every bank. -/
def figuresTaken (s : State) : State :=
  { s with plc := { takeFigures s.plc with banks := (takeFigures s.plc).banks.map countLap, planned := true } }

/-- The second part, in ARMED, RUN and HOLD: weights and caps, then the shares of both directions. -/
def sharesPlanned (s : State) : State :=
  let s := planWeights (planCurrent s) (vCmd s) s
  { s with plc := bothDirs (fun chg d => { d with plan := some (fillDir s chg) }) s.plc }

/-- The third part: the count of every bank, before the gate-drive review. -/
def countsPlanned (s : State) : State :=
  { s with plc := { s.plc with banks := vmapI s.plc.banks fun b x =>
      let c := planCount s b
      { x with nNew := c.1, byTest := c.2.1, addReq := c.2.2, hold := false } } }

/-- The planning of shares and counts leaves shares for both directions, and changes the share unit alone. -/
theorem countsPlanned_sharesPlanned (s : State) : ∃ p : Plc, countsPlanned (sharesPlanned s) = { s with plc := p } ∧
    p.q7 = s.plc.q7 ∧ p.planned = s.plc.planned ∧ p.dis.plan ≠ none ∧ p.chg.plan ≠ none :=
  ⟨_, rfl, rfl, rfl, Option.some_ne_none _, Option.some_ne_none _⟩

/-- The gate-drive review changes banks of the share unit and the budget. -/
theorem gateDriveGrant_frame (s : State) : gateDriveGrant s =
    { s with plc := { s.plc with banks := (gateDriveGrant s).plc.banks }, bgt := (gateDriveGrant s).bgt } := by
  unfold gateDriveGrant
  dsimp only
  split <;> rfl

section
variable {s : State}

/-- Repeated in a lap, or in another stride than the last, current placement does nothing. -/
theorem currentPlacement_idle (h : strideInLap s + 1 ≠ lapLen s ∨ s.plc.planned = true) : currentPlacement s = s :=
  if_pos (by rcases h with h | h <;> simp [h])

variable (hs : strides s = true) (hl : strideInLap s + 1 = lapLen s) (hp : s.plc.planned = false)
include hs hl hp

theorem currentPlacement_run : currentPlacement s =
    if computing s then gateDriveGrant (countsPlanned (sharesPlanned (figuresTaken s))) else figuresTaken s := by
  have hrun : currentPlacement s = if !computing s then figuresTaken s
      else gateDriveGrant (countsPlanned (sharesPlanned (figuresTaken s))) := if_neg (by simp [hs, hl, hp])
  rw [hrun]
  cases computing s <;> rfl

/-- In LOADED current placement only reads the figures. -/
theorem currentPlacement_loaded (hc : computing s = false) : currentPlacement s = figuresTaken s := by
  rw [currentPlacement_run hs hl hp, hc, if_neg Bool.false_ne_true]

theorem currentPlacement_computing (hc : computing s = true) :
    currentPlacement s = gateDriveGrant (countsPlanned (sharesPlanned (figuresTaken s))) := by
  rw [currentPlacement_run hs hl hp, if_pos hc]

end

/-! ## Data placement (R22, R31, R268) -/

theorem ringOf_fin (s : State) (r : Fin 24) : ringOf s r = s.rng.ring[r] := vget_fin ..

theorem ringOf_q8Put_self (r : Nat) (p : RingPlan) (s : State) (h : r < 24) : ringOf (q8Put r p s) r =
    if (ringOf s r).q8.length < 2 then { ringOf s r with q8 := (ringOf s r).q8 ++ [p] } else ringOf s r :=
  ringOf_modRing_self s _ h

theorem ringOf_q8Put_ne {r q : Nat} (p : RingPlan) (s : State) (h : q ≠ r) : ringOf (q8Put r p s) q = ringOf s q :=
  ringOf_modRing_ne s _ h

/-- The schedules of a placement that is in time go to queue 8. -/
def plansPut (l : List (Nat × RingPlan)) (s : State) : State := l.foldl (fun s x => q8Put x.1 x.2 s) s

theorem plansPut_cons (y : Nat × RingPlan) (t : List (Nat × RingPlan)) (s : State) :
    plansPut (y :: t) s = plansPut t (q8Put y.1 y.2 s) := List.foldl_cons ..

theorem ringsOnly_q8Put (r : Nat) (p : RingPlan) (s : State) : RingsOnly s (q8Put r p s) := ringsOnly_modRing ..

theorem ringsOnly_plansPut (l : List (Nat × RingPlan)) (s : State) : RingsOnly s (plansPut l s) :=
  .foldl (fun _ _ => ringsOnly_q8Put ..) l s

/-- A ring for which there is no schedule keeps its queue 8. -/
theorem ringOf_plansPut_notMem {q : Nat} {l : List (Nat × RingPlan)} {s : State} (h : q ∉ l.map (·.1)) :
    ringOf (plansPut l s) q = ringOf s q := by
  induction l generalizing s with
  | nil => rfl
  | cons x t ih =>
    obtain ⟨hx, ht⟩ := not_or.1 (mt List.mem_cons.2 h)
    rw [plansPut_cons, ih ht, ringOf_q8Put_ne _ _ hx]

/-- A schedule takes a free place of its ring's queue 8, and goes unsent where both are taken. -/
theorem q8_plansPut {l : List (Nat × RingPlan)} {s : State} (hnd : (l.map (·.1)).Nodup) {x : Nat × RingPlan} (hx : x ∈ l)
    (hlt : x.1 < 24) : (ringOf (plansPut l s) x.1).q8 =
      if (ringOf s x.1).q8.length < 2 then (ringOf s x.1).q8 ++ [x.2] else (ringOf s x.1).q8 := by
  induction l generalizing s with
  | nil => exact absurd hx List.not_mem_nil
  | cons y t ih =>
    obtain ⟨hy, ht⟩ := List.nodup_cons.1 hnd
    rw [plansPut_cons]
    obtain rfl | hxt := List.mem_cons.1 hx
    · rw [ringOf_plansPut_notMem hy, ringOf_q8Put_self _ _ _ hlt, apply_ite RingSt.q8]
    · have hne : x.1 ≠ y.1 := fun h => hy (List.mem_map.2 ⟨x, hxt, h⟩)
      rw [ih ht hxt, ringOf_q8Put_ne _ _ hne]

/-- The array's part of a planning stride changes the array alone. -/
theorem spxPlan_frame (s : State) : spxPlan s = { s with spx := (spxPlan s).spx } := by
  unfold spxPlan
  split
  · rfl
  · split
    · rfl
    · split <;> rfl

section
variable {s : State}

theorem dataPlacement_idle (h : strideInLap s + 1 ≠ lapLen s ∨ s.plc.dpRun = true) : dataPlacement s = s :=
  if_pos (by rcases h with h | h <;> simp [h])

/-- One schedule for each READY ring of RINGMAP, in its order. -/
def ringPlans (s : State) : List (Nat × RingPlan) :=
  ((mapRings s).filter fun r => ringState s r == 6).map fun r =>
    let p := streamPlan s r
    (r, planRing s r p.2.1 p.2.2 fun _ => p.1)

theorem ringPlans_rings (s : State) : (ringPlans s).map (·.1) = (mapRings s).filter fun r => ringState s r == 6 := by
  simp [ringPlans, Function.comp_def]

theorem dataPlacement_run (hs : strides s = true) (hl : strideInLap s + 1 = lapLen s) (hp : s.plc.dpRun = false) :
    dataPlacement s = { s with
      plc := { s.plc with dpRun := true }, rng := { s.rng with plans := ringPlans (spxPlan s) }, spx := (spxPlan s).spx } := by
  have hrun : dataPlacement s = { spxPlan s with
      plc := { (spxPlan s).plc with dpRun := true }, rng := { (spxPlan s).rng with plans := ringPlans (spxPlan s) } } :=
    if_neg (by simp [hs, hl, hp])
  rw [hrun, spxPlan_frame]

/-- The array's part of the planning does not change which rings are READY. -/
theorem readyRings_spxPlan (s : State) : (mapRings (spxPlan s)).filter (fun r => ringState (spxPlan s) r == 6) =
    (mapRings s).filter fun r => ringState s r == 6 := by
  rw [spxPlan_frame]
  rfl

/-- The placement has ended: it no longer runs and its schedules are gone. -/
def placementEnded (s : State) : State := { s with plc := { s.plc with dpRun := false }, rng := { s.rng with plans := [] } }

theorem dataPlaced_inTime (hs : strides s = true) (hl : strideInLap s + 1 = lapLen s) (hp : s.plc.dpRun = true) :
    dataPlaced s = plansPut s.rng.plans (placementEnded s) := by
  have hin : (strides (placementEnded s) && decide (strideInLap (placementEnded s) + 1 = lapLen (placementEnded s))) = true :=
    Bool.and_eq_true_iff.2 ⟨hs, decide_eq_true hl⟩
  unfold dataPlaced
  rw [if_neg (by simp [hp])]
  exact if_pos hin

theorem dataPlaced_late (hl : strideInLap s + 1 ≠ lapLen s) (hp : s.plc.dpRun = true) : dataPlaced s =
    { s with plc := { s.plc with dpRun := false, dpLate := s.plc.dpLate + 1 }, rng := { s.rng with plans := [] } } := by
  have hout : ¬(strides (placementEnded s) && decide (strideInLap (placementEnded s) + 1 = lapLen (placementEnded s))) = true :=
    fun h => hl (of_decide_eq_true (Bool.and_eq_true_iff.1 h).2)
  unfold dataPlaced
  rw [if_neg (by simp [hp])]
  exact if_neg hout

end

/-! ## The N + 1 analysis (R136) -/

theorem setN1_frame (cs : List CtxRec) (df : Nat → Nat) (C : Nat) (s : State) :
    setN1 cs df C s = { s with plc := { s.plc with n1Run := false, r := (setN1 cs df C s).plc.r } } := rfl

theorem setN1_valid (cs : List CtxRec) (df : Nat → Nat) (C : Nat) (s : State) :
    flag (setN1 cs df C s).plc.r F.PLC_PLACE_STAT_n1_valid = true :=
  flag_setFlag_self _ _ (by decide) (by decide)

theorem kvGet_setN1_ne (cs : List CtxRec) (df : Nat → Nat) (C : Nat) (s : State) {o : Nat} (hp : o ≠ R.PLC_PLACE_STAT)
    (hn : o ≠ R.PLC_N1_STAT) : kvGet (setN1 cs df C s).plc.r o = kvGet s.plc.r o :=
  (kvGet_kvSet_ne _ _ hp).trans (kvGet_kvSet_ne _ _ hn)

/-! ## The statement -/

section
variable {s : State} (hc : coreReady s = true)
include hc

theorem exec_currentPlacement : exec .currentPlacement s = .next (currentPlacement s) := whenCore_ready hc _
theorem exec_dataPlacement : exec .dataPlacement s = .next (dataPlacement s) := whenCore_ready hc _
theorem exec_dataPlacementComplete : exec .dataPlacementComplete s = .next (dataPlaced s) := whenCore_ready hc _

theorem exec_n1AnalysisComplete (hn : s.plc.n1Run = true) :
    exec .n1AnalysisComplete s = .next (setN1 s.img.str.ctxs (dfOf s) (commitClk s) s) := by
  show whenCore n1Done s = _
  rw [whenCore_ready hc, n1Done, if_pos hn]

end

/-- Settles O17: each placement by the stride it stands in, current placement in LOADED and beyond it, data placement's end in time
and late. -/
theorem planningRuns : Obligations.PlanningRuns := by
  unfold Obligations.PlanningRuns
  intro s hc hs
  refine ⟨fun hl hp => ?_, fun h => ?_, fun hl hp => ?_, fun h => ?_, fun hp => ?_, fun hn => ?_⟩
  · refine ⟨_, exec_currentPlacement hc, ?_⟩
    cases hcomp : computing s with
    | false =>
      rw [currentPlacement_loaded hs hl hp hcomp]
      exact ⟨rfl, rfl, fun h => absurd h (by decide), rfl, fun _ => rfl⟩
    | true =>
      obtain ⟨p, hplan, hq7, hplanned, hdis, hchg⟩ := countsPlanned_sharesPlanned (figuresTaken s)
      rw [currentPlacement_computing hs hl hp hcomp, hplan, gateDriveGrant_frame]
      exact ⟨hq7, hplanned, fun _ => ⟨hdis, hchg⟩, rfl, fun h => absurd h (by decide)⟩
  · rw [exec_currentPlacement hc, currentPlacement_idle h]
  · refine ⟨_, exec_dataPlacement hc, ?_⟩
    rw [dataPlacement_run hs hl hp]
    exact ⟨rfl, (ringPlans_rings _).trans (readyRings_spxPlan s), rfl⟩
  · rw [exec_dataPlacement hc, dataPlacement_idle h]
  · refine ⟨_, exec_dataPlacementComplete hc, ?_⟩
    by_cases hl : strideInLap s + 1 = lapLen s
    · rw [dataPlaced_inTime hs hl hp]
      have hframe := ringsOnly_plansPut s.rng.plans (placementEnded s)
      refine ⟨by rw [hframe]; rfl, by rw [hframe]; rfl, fun h => absurd hl h, fun _ => ⟨hframe, fun hnd x hx r hr => ?_⟩⟩
      have hq := q8_plansPut (s := placementEnded s) hnd hx (hr ▸ r.isLt)
      rwa [hr, ringOf_fin, ringOf_fin] at hq
    · rw [dataPlaced_late hl hp]
      exact ⟨rfl, rfl, fun _ => rfl, fun h => absurd h hl⟩
  · exact ⟨_, exec_n1AnalysisComplete hc hn, setN1_frame _ _ _ s, setN1_valid _ _ _ s, fun o => kvGet_setN1_ne _ _ _ s⟩

end Sys2Proof.Machine
end

section
/-! Spectroscopy's queues (R16, R317 to R322): what a sample, a phasor run, the end of a window and a bin's write leave, and the
statement about them. -/
namespace Sys2Proof.Machine

/-! ## The nodes of the campaign -/

theorem modSpx_frame (r a : Nat) (f : SpxNode → SpxNode) (s : State) :
    modSpx r a f s = { s with spx := { s.spx with camp := (modSpx r a f s).spx.camp } } := by
  unfold modSpx
  split <;> rfl

theorem spxNodeOf_of_camp {s : State} {c : Camp} (h : s.spx.camp = some c) (r a : Nat) :
    spxNodeOf s r a = (c.rings.find? fun x => x.ring == r).bind fun x => x.nodes[a]? := by
  rw [spxNodeOf, h]

/-- A change of node `a` of ring `r` changes that node of the ring and no other. -/
theorem spxNodeOf_modSpx (r a b : Nat) (f : SpxNode → SpxNode) (s : State) :
    spxNodeOf (modSpx r a f s) r b = (spxNodeOf s r b).map fun y => if a = b then f y else y := by
  unfold modSpx
  cases hc : s.spx.camp with
  | none => simp only [spxNodeOf, hc, Option.map_none]
  | some c =>
    have hring : ((fun x : SpxRing => x.ring == r) ∘ fun x => if x.ring = r then { x with nodes := x.nodes.modify a f } else x) =
        fun x => x.ring == r := by
      funext x
      by_cases h : x.ring = r <;> simp [h]
    rw [spxNodeOf_of_camp hc]
    simp only [spxNodeOf, List.find?_map, hring]
    cases hx : c.rings.find? fun x => x.ring == r with
    | none => rfl
    | some x =>
      have hr : x.ring = r := by simpa using List.find?_some hx
      simp [hr, List.getElem?_modify]

theorem spxNodeOf_modSpx_self (r a : Nat) (f : SpxNode → SpxNode) (s : State) :
    spxNodeOf (modSpx r a f s) r a = (spxNodeOf s r a).map f := by
  rw [spxNodeOf_modSpx]
  simp

theorem spxNodeOf_modSpx_ne (r : Nat) {a b : Nat} (f : SpxNode → SpxNode) (s : State) (h : b ≠ a) :
    spxNodeOf (modSpx r a f s) r b = spxNodeOf s r b := by
  rw [spxNodeOf_modSpx]
  simp [Ne.symm h]

/-! ## Words of queue 5 (R16, R317, R318) -/

theorem ringOf_drop5_self {r : Nat} (n : Nat) (s : State) (h : r < 24) :
    ringOf (drop5 r n s) r = { ringOf s r with q5 := (ringOf s r).q5.drop n } :=
  ringOf_modRing_self s _ h

theorem ringOf_drop5_ne {r q : Nat} (n : Nat) (s : State) (h : q ≠ r) : ringOf (drop5 r n s) q = ringOf s q :=
  ringOf_modRing_ne s _ h

/-- `n` words leave queue 5 of ring `r`, node `a` of the ring's campaign changes by `f`, and nothing else changes. -/
structure WordsTaken (r a n : Nat) (f : SpxNode → SpxNode) (s t : State) : Prop where
  frame : t = { s with rng := { s.rng with ring := t.rng.ring }, spx := { s.spx with camp := t.spx.camp } }
  q5    : ringOf t r = { ringOf s r with q5 := (ringOf s r).q5.drop n }
  other : ∀ q, q ≠ r → ringOf t q = ringOf s q
  node  : spxNodeOf t r a = (spxNodeOf s r a).map f
  nodes : ∀ b, b ≠ a → spxNodeOf t r b = spxNodeOf s r b

theorem wordsTaken_modSpx {r : Nat} (a n : Nat) (f : SpxNode → SpxNode) (s : State) (hr : r < 24) :
    WordsTaken r a n f s (modSpx r a f (drop5 r n s)) := by
  have hring (q : Nat) : ringOf (modSpx r a f (drop5 r n s)) q = ringOf (drop5 r n s) q := by rw [modSpx_frame]; rfl
  refine ⟨?_, ?_, fun q hq => ?_, spxNodeOf_modSpx_self r a f _, fun b hb => spxNodeOf_modSpx_ne r f _ hb⟩
  · rw [modSpx_frame]
    rfl
  · rw [hring, ringOf_drop5_self n s hr]
  · rw [hring, ringOf_drop5_ne n s hq]

section
variable {r : Nat} {s : State}

theorem streamSampleTake_idle (h : ∀ w ∈ (ringOf s r).q5.head?, w.idx % 72 ≠ 0 ∨ 864 ≤ w.idx ∨ s.spx.bins ≠ []) :
    streamSampleTake r s = s := by
  unfold streamSampleTake
  split
  next => rfl
  next w _ hq =>
    refine if_pos ?_
    have hw := h w (by rw [hq]; rfl)
    simpa [or_assoc] using hw

theorem phasorRunReceive_idle (h : ∀ w ∈ (ringOf s r).q5.head?, w.idx < 960) : phasorRunReceive r s = s := by
  unfold phasorRunReceive
  split
  next => rfl
  next w _ hq => exact if_pos (h w (by rw [hq]; rfl))

/-- The run that a phasor run's words spell: its header, and the codes behind it (R317). -/
def phasorRun (w : RingWord) (ws : List RingWord) : PhasorRun :=
  { rank := w.val.toNat / 8192, x := w.val.toNat / 256 % 32, win := w.val.toNat % 256, vals := (ws.map (·.val)).drop 1 }

/-- A run joins the runs of the node's window if it names that window. -/
def joinRun (run : PhasorRun) (y : SpxNode) : SpxNode :=
  if run.win = y.win % 256 then { y with runs := y.runs ++ [run] } else y

variable {w : RingWord} {rest : List RingWord} (hq : (ringOf s r).q5 = w :: rest)
include hq

theorem phasorRunReceive_run (hi : 960 ≤ w.idx) : phasorRunReceive r s =
    modSpx r w.node (joinRun (phasorRun w ((ringOf s r).q5.take (2 * (nodeAt (ringOf s r) w.node).cells + 1))))
      (drop5 r (2 * (nodeAt (ringOf s r) w.node).cells + 1) s) := by
  unfold phasorRunReceive
  rw [hq]
  exact if_neg (not_lt.2 hi)

variable (hcell : w.idx % 72 = 0) (hlt : w.idx < 864) (hb : s.spx.bins = [])
include hcell hlt hb

/-- The word at the head of queue 5 is a cell word of a stream, and no bin waits: the campaign's ring decides. -/
theorem streamSampleTake_word : streamSampleTake r s =
    match s.spx.camp with
    | none => drop5 r 1 s
    | some c =>
      match c.rings.find? fun x => x.ring == r with
      | none => drop5 r 1 s
      | some x =>
        if (x.nodes.getD w.node {}).origin + c.nInt ≤ w.smp then s
        else modSpx r w.node (takeSample c (refAt c w.smp (refOf s x w.node).1) (clippedAt c x.bank w.smp) w.smp (w.idx / 72) w.val)
          (drop5 r 1 s) := by
  unfold streamSampleTake
  rw [hq]
  exact if_neg (by simp [hcell, hlt, hb])

theorem streamSampleTake_noCampaign (h : ∀ c, s.spx.camp = some c → ∀ x ∈ c.rings, x.ring ≠ r) :
    streamSampleTake r s = drop5 r 1 s := by
  rw [streamSampleTake_word hq hcell hlt hb]
  split
  next => rfl
  next c hc =>
    rw [List.find?_eq_none.2 fun x hx => by simpa using h c hc x hx]

variable {c : Camp} {x : SpxRing} (hc : s.spx.camp = some c) (hx : (c.rings.find? fun y => y.ring == r) = some x)
include hc hx

theorem streamSampleTake_toCome (h : (x.nodes.getD w.node {}).origin + c.nInt ≤ w.smp) : streamSampleTake r s = s := by
  rw [streamSampleTake_word hq hcell hlt hb, hc]
  dsimp only
  rw [hx]
  exact if_pos h

theorem streamSampleTake_inWindow (h : w.smp < (x.nodes.getD w.node {}).origin + c.nInt) : streamSampleTake r s =
    modSpx r w.node (takeSample c (refAt c w.smp (refOf s x w.node).1) (clippedAt c x.bank w.smp) w.smp (w.idx / 72) w.val)
      (drop5 r 1 s) := by
  rw [streamSampleTake_word hq hcell hlt hb, hc]
  dsimp only
  rw [hx]
  exact if_neg (not_le.2 h)

end

/-! ## Counts of a ring's windows (R319) -/

/-- What the register file keeps of the nodes lies behind the block's window. -/
theorem getF_putStat (r a v : Nat) (s : State) {f : Fld} (h : f.ofs < 0x10000) : getF (putStat r a v s).spx.r f = getF s.spx.r f := by
  unfold getF
  exact congrArg (fun w : Word => (w.toNat >>> f.lo) % 2 ^ f.width) (kvGet_kvSet_ne _ _ (by unfold statAt; omega))

theorem getF_spxCount (f : Fld) (s : State) (h : f.lo + f.width ≤ 32) :
    getF (spxCount f s).spx.r f = min (getF s.spx.r f + 1) (2 ^ f.width - 1) := getF_incF _ _ _ h

theorem modSpx_regs (r a : Nat) (f : SpxNode → SpxNode) (s : State) : (modSpx r a f s).spx.r = s.spx.r := by
  rw [modSpx_frame]

/-- The array may change and free values may be drawn, and nothing else. -/
def SpxChanges (s t : State) : Prop := t = { s with spx := t.spx, free := t.free }

theorem SpxChanges.trans {s t u : State} (h1 : SpxChanges s t) (h2 : SpxChanges t u) : SpxChanges s u := by
  unfold SpxChanges at *
  rw [h2, h1]

theorem spxChanges_modSpx (r a : Nat) (f : SpxNode → SpxNode) (s : State) : SpxChanges s (modSpx r a f s) := by
  unfold SpxChanges
  rw [modSpx_frame]

theorem spxChanges_putStat (r a v : Nat) (s : State) : SpxChanges s (putStat r a v s) := rfl

theorem spxChanges_spxCount (f : Fld) (s : State) : SpxChanges s (spxCount f s) := rfl

/-! ## Bins on their way to queue 6 (R16, R320) -/

/-- `n` bins went to queue 6 or to those that wait for its credit; beside them only free values were drawn. -/
structure BinsHanded (n : Nat) (s t : State) : Prop where
  frame : t = { s with spx := { s.spx with q6 := t.spx.q6, bins := t.spx.bins }, free := t.free }
  count : t.spx.q6.length + t.spx.bins.length = s.spx.q6.length + s.spx.bins.length + n

theorem BinsHanded.refl (s : State) : BinsHanded 0 s s := ⟨rfl, rfl⟩

theorem BinsHanded.trans {m n : Nat} {s t u : State} (h1 : BinsHanded m s t) (h2 : BinsHanded n t u) : BinsHanded (m + n) s u := by
  refine ⟨?_, by rw [h2.count, h1.count, Nat.add_assoc]⟩
  rw [h2.frame, h1.frame]

theorem binsHanded_putBin (b : BinEntry) (s : State) : BinsHanded 1 s (putBin b s) := by
  unfold putBin
  split
  · exact ⟨rfl, by simp; omega⟩
  · exact ⟨rfl, by simp; omega⟩

theorem binsHanded_binOf (s : State) (r a cell bin impK : Nat) (z : Option Cx) : BinsHanded 0 s (binOf s r a cell bin impK z).2.2 := by
  unfold binOf
  cases z with
  | none => exact ⟨rfl, rfl⟩
  | some z => exact .refl s

theorem BinsHanded.foldl {α β : Type} {f : State × β → α → State × β} (h : ∀ p x, BinsHanded 1 p.1 (f p x).1) (l : List α)
    (p : State × β) : BinsHanded l.length p.1 (l.foldl f p).1 := by
  induction l generalizing p with
  | nil => exact .refl _
  | cons x t ih =>
    rw [List.length_cons, Nat.add_comm]
    exact (h p x).trans (ih (f p x))

theorem BinsHanded.spxNodeOf {n : Nat} {s t : State} (h : BinsHanded n s t) (r a : Nat) :
    spxNodeOf t r a = Machine.spxNodeOf s r a := by
  rw [h.frame]
  rfl

theorem BinsHanded.spxChanges {n : Nat} {s t : State} (h : BinsHanded n s t) : SpxChanges s t := by
  unfold SpxChanges
  rw [h.frame]

theorem BinsHanded.regs {n : Nat} {s t : State} (h : BinsHanded n s t) : t.spx.r = s.spx.r := by
  rw [h.frame]

/-- The bins that a judged window hands over: one per cell and tone that the node's rate can resolve, the tone with its rank. -/
def binJobs (c : Camp) (y : SpxNode) (cells : Nat) : List ((Nat × Tone) × Nat) :=
  ((c.tones.mapIdx fun k t => (k, t)).filter fun kt => !decide (c.nInt < kt.2.cyc * 2 ^ (y.e + 2))).flatMap fun kt =>
    (List.range cells).map fun cell => (kt, cell)

theorem length_binJobs (c : Camp) (y : SpxNode) (cells : Nat) : (binJobs c y cells).length =
    (c.tones.filter fun k => !decide (c.nInt < k.cyc * 2 ^ (y.e + 2))).length * cells := by
  have hranks : (c.tones.mapIdx fun k t => (k, t)).map (·.2) = c.tones := by
    apply List.ext_getElem <;> simp
  have htones : ((c.tones.mapIdx fun k t => (k, t)).filter fun kt => !decide (c.nInt < kt.2.cyc * 2 ^ (y.e + 2))).length =
      (c.tones.filter fun k => !decide (c.nInt < k.cyc * 2 ^ (y.e + 2))).length := by
    rw [← List.countP_eq_length_filter, ← List.countP_eq_length_filter]
    conv_rhs => rw [← hranks, List.countP_map]
    rfl
  simp [binJobs, List.length_flatMap, htones]

/-- One bin of a judged window of node `a` is worked out and handed over; the flag says whether a code saturated. -/
def handBin (s : State) (c : Camp) (x : SpxRing) (r a : Nat) (p : State × Bool) (job : (Nat × Tone) × Nat) : State × Bool :=
  let z := if x.place = 2 then nodePhasors s c x a job.2 job.1.1 job.1.2 else hubPhasors s c x a job.2 job.1.1 job.1.2
  let b := binOf p.1 r a job.2 job.1.2.bin (ringRec s r).impK z
  (putBin b.1 b.2.2, p.2 || b.2.1)

theorem binsHanded_handBin (s : State) (c : Camp) (x : SpxRing) (r a : Nat) (p : State × Bool) (job : (Nat × Tone) × Nat) :
    BinsHanded 1 p.1 (handBin s c x r a p job).1 :=
  (binsHanded_binOf p.1 r a _ _ _ _).trans (binsHanded_putBin _ _)

/-- The state in which every bin of a judged window has been handed over. -/
def binsOut (s : State) (c : Camp) (x : SpxRing) (r a : Nat) (y : SpxNode) : State :=
  ((binJobs c y (nodeAt (ringOf s r) a).cells).foldl (handBin s c x r a) (s, false)).1

theorem binsHanded_binsOut (s : State) (c : Camp) (x : SpxRing) (r a : Nat) (y : SpxNode) :
    BinsHanded ((c.tones.filter fun k => !decide (c.nInt < k.cyc * 2 ^ (y.e + 2))).length * (nodeAt (ringOf s r) a).cells) s
      (binsOut s c x r a y) := by
  rw [← length_binJobs]
  exact .foldl (binsHanded_handBin s c x r a) _ (s, false)

/-! ## The end of a window (R319, R320, R322) -/

/-- A window counts as incomplete: out of step, under node demodulation with a run missing or marked bad, or with more exclusions
than `drop_max` (R319, R322). -/
def windowFails (s : State) (c : Camp) (x : SpxRing) (a : Nat) (y : SpxNode) : Bool :=
  y.step ≠ .inStep || x.place == 2 && (y.runs.any (·.x == 31) || decide (y.runs.length < c.tones.length)) || c.dropMax < exclOf s c x a

theorem windowFails_iff {s : State} {c : Camp} {x : SpxRing} {a : Nat} {y : SpxNode} : windowFails s c x a y = true ↔
    y.step ≠ .inStep ∨ c.dropMax < exclOf s c x a ∨ (x.place = 2 ∧ ((∃ z ∈ y.runs, z.x = 31) ∨ y.runs.length < c.tones.length)) := by
  simp only [windowFails, ne_eq, decide_not, Bool.or_eq_true, Bool.not_eq_eq_eq_not, Bool.not_true, decide_eq_false_iff_not,
    Bool.and_eq_true, beq_iff_eq, List.any_eq_true, decide_eq_true_eq]
  rw [or_assoc, or_comm (b := _ < _)]

section
variable {r a : Nat} {s : State} {c : Camp} {x : SpxRing} (hc : s.spx.camp = some c)
  (hx : (c.rings.find? fun z => z.ring == r) = some x)
include hc hx

theorem endIncomplete_eq : ∃ v, endIncomplete r a s =
    modSpx r a (nextWindow c) (spxCount (F.SPX_RINGr_STAT_inc_cnt r) (putStat r a v s)) := by
  unfold endIncomplete
  rw [hc]
  dsimp only
  rw [hx]
  exact ⟨_, rfl⟩

theorem windowEnd_notOver (h : windowOver s c x a = false) : windowEnd r a s = s := by
  unfold windowEnd
  rw [hc]
  dsimp only
  rw [hx]
  exact if_pos (by simp [h])

variable {y : SpxNode} (hy : x.nodes[a]? = some y)
include hy

theorem spxNodeOf_campaign : spxNodeOf s r a = some y := by
  rw [spxNodeOf_of_camp hc, hx]
  exact hy

variable (hover : windowOver s c x a = true)
include hover

/-- A window that is over counts as incomplete, or its bins are handed over and it counts in `ok_cnt` or `part_cnt`. -/
theorem windowEnd_over : ∃ v, windowEnd r a s = if windowFails s c x a y then endIncomplete r a s
    else modSpx r a (nextWindow c) (putStat r a v (spxCount
      (if exclOf s c x a = 0 then F.SPX_RINGr_OK_ok_cnt r else F.SPX_RINGr_OK_part_cnt r) (binsOut s c x r a y))) := by
  obtain ⟨hlt, hget⟩ := List.getElem?_eq_some_iff.1 hy
  obtain rfl : x.nodes.getD a {} = y := (List.getD_eq_getElem _ _ hlt).trans hget
  unfold windowEnd
  rw [hc]
  dsimp only
  rw [hx]
  exact ⟨_, if_neg (by simp [hover, hlt])⟩

end
/-- What an incomplete window changes (R319): its ring counts it, and the node's next window begins. -/
theorem endIncomplete_counts {r : Nat} (hr : r < 24) {a : Nat} {s : State} {c : Camp} {x : SpxRing} {y : SpxNode}
    (hc : s.spx.camp = some c) (hx : (c.rings.find? fun z => z.ring == r) = some x) (hy : x.nodes[a]? = some y) :
    endIncomplete r a s = { s with spx := { s.spx with
      r := (endIncomplete r a s).spx.r, camp := (endIncomplete r a s).spx.camp } } ∧
    spxNodeOf (endIncomplete r a s) r a = some (nextWindow c y) ∧ getF (endIncomplete r a s).spx.r (F.SPX_RINGr_STAT_inc_cnt r) =
      min (getF s.spx.r (F.SPX_RINGr_STAT_inc_cnt r) + 1) (2 ^ (F.SPX_RINGr_STAT_inc_cnt r).width - 1) := by
  have hofs : (F.SPX_RINGr_STAT_inc_cnt r).ofs < 0x10000 := by simp only [F.SPX_RINGr_STAT_inc_cnt]; omega
  obtain ⟨v, hend⟩ := endIncomplete_eq (a := a) hc hx
  rw [hend, modSpx_regs, spxNodeOf_modSpx_self, getF_spxCount _ _ (show 0 + 16 ≤ 32 by decide), getF_putStat _ _ _ _ hofs]
  refine ⟨?_, ?_, rfl⟩
  · rw [modSpx_frame]
    rfl
  · exact congrArg (Option.map (nextWindow c)) (spxNodeOf_campaign hc hx hy)

/-- What a judged window changes (R319, R320): its bins are handed over, its ring counts it, and the node's next window begins. -/
theorem windowJudged_counts {r : Nat} (hr : r < 24) {a n : Nat} {s u : State} {c : Camp} {y : SpxNode} (v : Nat) {f : Fld}
    (hf : f = F.SPX_RINGr_OK_ok_cnt r ∨ f = F.SPX_RINGr_OK_part_cnt r) (hu : BinsHanded n s u) (hy : spxNodeOf s r a = some y)
    {t : State} (ht : t = modSpx r a (nextWindow c) (putStat r a v (spxCount f u))) :
    t = { s with spx := t.spx, free := t.free } ∧ spxNodeOf t r a = some (nextWindow c y) ∧
      getF t.spx.r f = min (getF s.spx.r f + 1) (2 ^ f.width - 1) ∧
      t.spx.q6.length + t.spx.bins.length = s.spx.q6.length + s.spx.bins.length + n := by
  have hofs : f.ofs < 0x10000 ∧ f.lo + f.width ≤ 32 := by
    obtain rfl | rfl := hf
    · exact ⟨by simp only [F.SPX_RINGr_OK_ok_cnt]; omega, show 0 + 16 ≤ 32 by decide⟩
    · exact ⟨by simp only [F.SPX_RINGr_OK_part_cnt]; omega, show 16 + 16 ≤ 32 by decide⟩
  subst ht
  refine ⟨?_, ?_, ?_, ?_⟩
  · exact ((hu.spxChanges.trans (spxChanges_spxCount ..)).trans (spxChanges_putStat ..)).trans (spxChanges_modSpx ..)
  · rw [spxNodeOf_modSpx_self]
    exact congrArg (Option.map (nextWindow c)) ((hu.spxNodeOf r a).trans hy)
  · rw [modSpx_regs, getF_putStat _ _ _ _ hofs.1, getF_spxCount _ _ hofs.2, hu.regs]
  · rw [modSpx_frame]
    exact hu.count

/-! ## The write of a bin (R16, R320) -/

/-- The device's write of point `p` changes the comb alone: that point where the comb has it, and no other. -/
theorem combPut_writes {r a i p : Nat} (hp : p = r * 262144 + a * 1024 + i) (v : Half) (s : State) : ∃ m,
    combPut r a i v s = { s with csv := { s.csv with comb := m } } ∧ (combHas s p = true → kvGet m p = v) ∧
      ∀ k, k ≠ p → kvGet m k = kvGet s.csv.comb k := by
  unfold combPut
  dsimp only
  rw [← hp]
  by_cases h : combHas s p = true
  · rw [if_pos h]
    exact ⟨_, rfl, fun _ => kvGet_kvSet_self .., fun k hk => kvGet_kvSet_ne _ _ hk⟩
  · rw [if_neg h]
    exact ⟨_, rfl, fun h' => absurd h' h, fun _ _ => rfl⟩

/-- Which points the comb has does not depend on what they hold. -/
theorem combHas_comb (s : State) (m : List (Nat × Half)) (k : Nat) :
    combHas { s with csv := { s.csv with comb := m } } k = combHas s k := rfl

/-- Both points of a bin's entry are written where the comb has them, and no other point. -/
theorem combPut_bin {b : BinEntry} {i : Nat} (hi : i = b.ring * 262144 + b.node * 1024 + b.idx) (s : State) : ∃ m,
    combPut b.ring b.node (b.idx + 1) b.im (combPut b.ring b.node b.idx b.re s) = { s with csv := { s.csv with comb := m } } ∧
      (combHas s i = true → kvGet m i = b.re) ∧ (combHas s (i + 1) = true → kvGet m (i + 1) = b.im) ∧
      ∀ k, k ≠ i → k ≠ i + 1 → kvGet m k = kvGet s.csv.comb k := by
  have hi' : i + 1 = b.ring * 262144 + b.node * 1024 + (b.idx + 1) := by omega
  obtain ⟨m, hm, hre, hother⟩ := combPut_writes hi b.re s
  obtain ⟨m', hm', him, hother'⟩ := combPut_writes hi' b.im { s with csv := { s.csv with comb := m } }
  rw [hm, hm']
  refine ⟨m', rfl, fun h => ?_, fun h => him ((combHas_comb ..).trans h), fun k h0 h1 => ?_⟩
  · rw [hother' i (by omega), hre h]
  · rw [hother' k h1, hother k h0]

/-- `binWrite` with the write of a point left open: what becomes of the queues does not depend on it. -/
def binWriteBy (put : Nat → Nat → Nat → Half → State → State) (s : State) : State :=
  match s.spx.q6 with
  | [] => s
  | b :: t =>
    let s := put b.ring b.node (b.idx + 1) b.im (put b.ring b.node b.idx b.re s)
    match s.spx.bins with
    | [] => { s with spx := { s.spx with q6 := t } }
    | n :: rest => { s with spx := { s.spx with q6 := t ++ [n], bins := rest } }

theorem binWrite_eq_by (s : State) : binWrite s = binWriteBy combPut s := rfl

/-- A bin leaves queue 6 as it is written, and the oldest waiting bin takes its credit (R16). -/
theorem binWriteBy_head {put : Nat → Nat → Nat → Half → State → State} {s : State} {b : BinEntry} {rest : List BinEntry}
    (hq : s.spx.q6 = b :: rest) {m : List (Nat × Half)}
    (hm : put b.ring b.node (b.idx + 1) b.im (put b.ring b.node b.idx b.re s) = { s with csv := { s.csv with comb := m } }) :
    binWriteBy put s = { s with
      spx := { s.spx with q6 := rest ++ s.spx.bins.take 1, bins := s.spx.bins.drop 1 }, csv := { s.csv with comb := m } } := by
  unfold binWriteBy
  rw [hq]
  dsimp only
  rw [hm]
  cases hb : s.spx.bins with
  | nil => simp only [List.take_nil, List.append_nil, List.drop_nil]
  | cons n l => rfl

/-! ## The statement -/

section
variable (r : Fin 24) (s : State)

theorem exec_streamSampleTake : exec (.streamSampleTake r) s = .next (streamSampleTake r s) := rfl
theorem exec_phasorRunReceive : exec (.phasorRunReceive r) s = .next (phasorRunReceive r s) := rfl
theorem exec_windowEnd (a : Fin 256) : exec (.windowEnd r a) s = .next (windowEnd r a s) := rfl
theorem exec_binWrite : exec .binWrite s = .next (binWrite s) := rfl

end

/-- Settles O42: the head of queue 5 by what it is and which window it is of, the end of a window by what fails it, a bin's write by
queue 6. -/
theorem spectroscopyRuns : Obligations.SpectroscopyRuns := by
  unfold Obligations.SpectroscopyRuns
  refine ⟨fun r s => ⟨fun h => ?_, fun h => ?_, fun w rest hq hcell hlt hb => ⟨fun h => ?_, fun c x hc hx hw => ⟨fun h => ?_, fun h => ?_⟩⟩,
    fun w rest n hq hi hn => ?_⟩, fun r s => ⟨fun a c x y hc hx hy => ⟨fun h => ?_, fun h hfail => ?_, fun h hstep hex hruns => ?_⟩,
    fun h => ?_, fun b rest i hq hi => ?_⟩⟩
  · rw [exec_streamSampleTake, streamSampleTake_idle h]
  · rw [exec_phasorRunReceive, phasorRunReceive_idle h]
  · refine ⟨_, exec_streamSampleTake r s, ?_⟩
    rw [streamSampleTake_noCampaign hq hcell hlt hb h]
    refine ⟨rfl, ?_, fun q hne => ringOf_drop5_ne 1 s (Fin.val_ne_of_ne hne)⟩
    rw [ringOf_drop5_self 1 s r.isLt, hq]
    rfl
  · rw [exec_streamSampleTake, streamSampleTake_toCome hq hcell hlt hb hc hx h]
  · refine ⟨_, exec_streamSampleTake r s, ?_⟩
    rw [streamSampleTake_inWindow hq hcell hlt hb hc hx h]
    have ht := wordsTaken_modSpx w.node 1 (takeSample c (refAt c w.smp (refOf s x w.node).1) (clippedAt c x.bank w.smp) w.smp
      (w.idx / 72) w.val) s r.isLt
    have hnode : x.nodes[w.node]? = some (x.nodes.getD w.node {}) := by
      rw [List.getElem?_eq_getElem hw, List.getD_eq_getElem _ _ hw]
    refine ⟨ht.frame, ?_, fun q hne => ht.other q (Fin.val_ne_of_ne hne), ?_, ht.nodes⟩
    · rw [ht.q5, hq]
      rfl
    · rw [ht.node, spxNodeOf_campaign hc hx hnode]
      rfl
  · subst hn
    refine ⟨_, exec_phasorRunReceive r s, ?_⟩
    rw [phasorRunReceive_run hq hi]
    have ht := wordsTaken_modSpx w.node (2 * (nodeAt (ringOf s r) w.node).cells + 1)
      (joinRun (phasorRun w ((ringOf s r).q5.take (2 * (nodeAt (ringOf s r) w.node).cells + 1)))) s r.isLt
    refine ⟨ht.frame, ht.q5, fun q hne => ht.other q (Fin.val_ne_of_ne hne), fun y hy => ?_, ht.nodes⟩
    rw [ht.node, hy]
    rfl
  · rw [exec_windowEnd, windowEnd_notOver hc hx h]
  · obtain ⟨v, hend⟩ := windowEnd_over hc hx hy h
    refine ⟨_, exec_windowEnd r s a, ?_⟩
    rw [hend, if_pos (windowFails_iff.2 hfail)]
    exact endIncomplete_counts r.isLt hc hx hy
  · have hok : windowFails s c x a y = false := by
      refine Bool.eq_false_iff.2 fun hf => ?_
      obtain h1 | h1 | ⟨hp, ⟨z, hz, h31⟩ | h1⟩ := windowFails_iff.1 hf
      · exact h1 hstep
      · exact absurd h1 (not_lt.2 hex)
      · exact (hruns hp).1 z hz h31
      · exact absurd h1 (not_lt.2 (hruns hp).2)
    obtain ⟨v, hend⟩ := windowEnd_over hc hx hy h
    rw [hok, if_neg Bool.false_ne_true] at hend
    refine ⟨_, exec_windowEnd r s a, ?_⟩
    obtain ⟨hframe, hnode, hcount, hbins⟩ := windowJudged_counts r.isLt v (by split <;> simp) (binsHanded_binsOut s c x r a y)
      (spxNodeOf_campaign hc hx hy) hend
    refine ⟨hframe, hnode, fun h0 => ?_, fun h0 => ?_, hbins⟩
    · rwa [if_pos h0] at hcount
    · rwa [if_neg (Nat.ne_of_gt h0)] at hcount
  · rw [exec_binWrite, binWrite, h]
  · obtain ⟨m, hm, hpoints⟩ := combPut_bin hi s
    refine ⟨_, exec_binWrite s, ?_⟩
    rw [binWrite_eq_by, binWriteBy_head hq hm]
    exact ⟨rfl, hpoints⟩

end Sys2Proof.Machine
end

section
/-! Trip latches and the fault collector's logs (R196, R198, R345, R350, R353, R364): what a change of latches, a RAM log entry and an
entry that waits for the store leave. -/
namespace Sys2Proof.Machine

/-! ## Vectors and sets of bits -/

section
variable {α : Type} {n : Nat} (v : Vector α n) (x d : α)

theorem vset_fin (k : Fin n) : vset v k x = v.set k x := by
  ext i hi
  rw [vset, Vector.getElem_setIfInBounds, Vector.getElem_set]

theorem getElem_vset_self (k : Fin n) : (vset v k x)[k] = x := by
  rw [vset_fin]
  exact Vector.getElem_set_self _

theorem getElem_vset_ne {k j : Fin n} (h : j ≠ k) : (vset v k x)[j] = v[j] := by
  rw [vset_fin]
  exact Vector.getElem_set_ne _ _ fun he => h (Fin.ext he.symm)

theorem vget_vset_self {i : Nat} (h : i < n) : vget (vset v i x) i d = x := by
  rw [vget_fin _ d ⟨i, h⟩]
  exact getElem_vset_self v x ⟨i, h⟩

end

/-- A bit that no step of a fold clears and that the step of one member sets is set in the end. -/
theorem getLsbD_foldl_of_mem {α : Type} {w i : Nat} {f : BitVec w → α → BitVec w}
    (hkeep : ∀ a x, a.getLsbD i = true → (f a x).getLsbD i = true) {x : α} (hset : ∀ a, (f a x).getLsbD i = true) :
    ∀ (l : List α) (a : BitVec w), x ∈ l → (l.foldl f a).getLsbD i = true := by
  have hstay : ∀ (l : List α) (a : BitVec w), a.getLsbD i = true → (l.foldl f a).getLsbD i = true := by
    intro l
    induction l with
    | nil => exact fun a h => h
    | cons y t ih => exact fun a h => ih _ (hkeep a y h)
  intro l
  induction l with
  | nil => exact fun a h => absurd h List.not_mem_nil
  | cons y t ih =>
    intro a h
    obtain rfl | h := List.mem_cons.1 h
    · exact hstay t _ (hset a)
    · exact ih _ h

theorem getLsbD_ofBits {w i : Nat} {l : List Nat} (h : i ∈ l) (hi : i < w) : (ofBits w l).getLsbD i = true := by
  refine getLsbD_foldl_of_mem (fun a x ha => ?_) (fun a => ?_) l 0 h
  · rw [BitVec.getLsbD_or, ha, Bool.true_or]
  · simp [hi]

/-! ## Interrupt causes (R364) -/

theorem getBit_sendMsi_stat (v j : Nat) (s : State) :
    getBit (sendMsi v s).hst.r R.HST_IRQ_STAT j = getBit s.hst.r R.HST_IRQ_STAT j := by
  unfold sendMsi emit getBit
  split
  · exact congrArg (·.getLsbD j) (kvGet_putBit_ne s.hst.r 0x9000 v R.HST_IRQ_STAT true (by decide))
  · split <;> rfl

/-- A cause leaves those set that were set. -/
theorem irq_stat_keeps (v : Nat) {j : Nat} (hj : j < 32) {s : State} (h : getBit s.hst.r R.HST_IRQ_STAT j = true) :
    getBit (irq v s).hst.r R.HST_IRQ_STAT j = true := by
  have hput : getBit (putBit s.hst.r R.HST_IRQ_STAT v true) R.HST_IRQ_STAT j = true := by
    by_cases hv : j = v
    · subst hv
      exact getBit_putBit_self _ _ _ _ hj
    · rw [getBit_putBit_ne _ _ _ _ _ _ (.inr hv) hj, h]
  unfold irq
  split
  · exact h
  · dsimp only
    split <;> split
    · rwa [getBit_sendMsi_stat]
    · exact hput
    · rwa [getBit_sendMsi_stat]
    · exact hput

/-! ## Trip latches (R196, R198, R201) -/

/-- The outputs of a phase follow its latches; the latches themselves are as they were given. -/
theorem settlePhase_latches (r : RegFile) (running : Bool) (p : Nat) (old new : PhaseCh) : ∃ h l rise sw,
    settlePhase r running p old new = { new with h := h, l := l, rise := rise, sw := sw } := by
  unfold settlePhase
  split
  · split
    · exact ⟨_, _, _, _, rfl⟩
    · exact ⟨_, _, _, _, rfl⟩
  · split
    · exact ⟨_, _, _, _, rfl⟩
    · exact ⟨_, _, _, _, rfl⟩

/-- The phases and what they record, the interrupt cause with its message and the streams that stop on a trip may change, and nothing
else. -/
def TripChanges (s t : State) : Prop :=
  t = { s with pwm := t.pwm, acq := t.acq, hst := t.hst, two := t.two, out := t.out }

section
variable {s t u : State}

theorem TripChanges.trans (h1 : TripChanges s t) (h2 : TripChanges t u) : TripChanges s u := by
  unfold TripChanges at *
  rw [h2, h1]

theorem TripChanges.flt (h : TripChanges s t) : t.flt = s.flt := by
  rw [h]

end

/-- The phases after their latches changed by `f`. -/
def latched (f : Nat → PhaseCh → PhaseCh) (s : State) : Vector PhaseCh 48 :=
  vmapI s.pwm.ph fun p x => settlePhase s.pwm.r (opState s == 6) p x (f p x)

/-- A change of latches changes the phases, and a rise of `any_trip` is interrupt cause 4. -/
theorem latchOp_cases (f : Nat → PhaseCh → PhaseCh) (s : State) :
    latchOp f s = { s with pwm := { s.pwm with ph := latched f s } } ∨
      latchOp f s = irq 4 { s with pwm := { s.pwm with ph := latched f s }, acq := tripStreams s.acq } := by
  unfold latchOp latched
  dsimp only
  split
  · exact .inr rfl
  · exact .inl rfl

section
variable (f : Nat → PhaseCh → PhaseCh) (s : State)

theorem tripChanges_latchOp : TripChanges s (latchOp f s) := by
  unfold TripChanges
  obtain h | h := latchOp_cases f s
  · rw [h]
  · rw [h, irq_frame]

theorem latchOp_pwm : (latchOp f s).pwm = { s.pwm with ph := latched f s } := by
  obtain h | h := latchOp_cases f s
  · rw [h]
  · rw [h, irq_pwm]

theorem latchOp_irqStat {j : Nat} (hj : j < 32) (h : getBit s.hst.r R.HST_IRQ_STAT j = true) :
    getBit (latchOp f s).hst.r R.HST_IRQ_STAT j = true := by
  obtain h' | h' := latchOp_cases f s
  · rwa [h']
  · rw [h']
    exact irq_stat_keeps 4 hj h

/-- The latches of a phase are those that `f` gives it. -/
theorem latchOp_phase (p : Fin 48) : ∃ h l rise sw, (latchOp f s).pwm.ph[p] =
    { f p s.pwm.ph[p] with h := h, l := l, rise := rise, sw := sw } := by
  have hp : (latchOp f s).pwm.ph[p] = settlePhase s.pwm.r (opState s == 6) p s.pwm.ph[p] (f p s.pwm.ph[p]) := by
    rw [latchOp_pwm]
    exact Vector.getElem_mapIdx ..
  rw [hp]
  exact settlePhase_latches ..

end

/-! ## The logs (R353, R369) -/

/-- The logs, the registers that show them, the DMA rings that a RAM log entry goes to and the store's counter may change, and nothing
else. -/
def LogChanges (s t : State) : Prop :=
  t = { s with flt := { s.flt with r := t.flt.r, log := t.flt.log, nvPend := t.flt.nvPend, nvLost := t.flt.nvLost },
               hst := t.hst, nvm := t.nvm }

section
variable {s t u : State}

theorem LogChanges.refl (s : State) : LogChanges s s := rfl

theorem LogChanges.trans (h1 : LogChanges s t) (h2 : LogChanges t u) : LogChanges s u := by
  unfold LogChanges at *
  rw [h2, h1]

theorem LogChanges.strideCnt (h : LogChanges s t) : strideCnt t = Machine.strideCnt s := by
  have htbs : t.tbs = s.tbs := by rw [h]
  unfold Machine.strideCnt
  rw [htbs]

theorem LogChanges.opState (h : LogChanges s t) : opState t = Machine.opState s := by
  have hsys : t.sys = s.sys := by rw [h]
  unfold Machine.opState
  rw [hsys]

end

/-- The registers that show the log's position and `seq` may change (R432, R353). -/
structure SeqRegs (s t : State) : Prop where
  changes : LogChanges s t
  log     : t.flt.log = s.flt.log
  regs    : ∀ o, o ≠ R.FLT_SEQ → o ≠ R.FLT_NVLOG_STAT → kvGet t.flt.r o = kvGet s.flt.r o

theorem seqRegs_nvmScan (s : State) : SeqRegs s (nvmScan s) := by
  unfold nvmScan
  split
  · exact ⟨rfl, rfl, fun _ _ _ => rfl⟩
  · exact ⟨rfl, rfl, fun o h1 h2 => (kvGet_kvSet_ne _ _ h2).trans (kvGet_kvSet_ne _ _ h1)⟩

theorem SeqRegs.kvSet {s t : State} (h : SeqRegs s t) (nvm : Nvm) (q : Word) :
    SeqRegs s { t with nvm := nvm, flt := { t.flt with r := Machine.kvSet t.flt.r R.FLT_SEQ q } } := by
  refine ⟨h.changes.trans rfl, h.log, fun o h1 h2 => ?_⟩
  exact (kvGet_kvSet_ne _ _ h1).trans (h.regs o h1 h2)

theorem takeSeq_eq (s : State) : ∃ q nvm, takeSeq s =
    (q, { nvmScan s with nvm := nvm, flt := { (nvmScan s).flt with r := kvSet (nvmScan s).flt.r R.FLT_SEQ q } }) :=
  ⟨_, _, rfl⟩

/-- Taking a `seq` moves the store's counter on and shows what it took. -/
theorem seqRegs_takeSeq (s : State) : SeqRegs s (takeSeq s).2 ∧ kvGet (takeSeq s).2.flt.r R.FLT_SEQ = (takeSeq s).1 := by
  obtain ⟨q, nvm, h⟩ := takeSeq_eq s
  rw [h]
  exact ⟨(seqRegs_nvmScan s).kvSet nvm q, kvGet_kvSet_self ..⟩

theorem logDma_frame (e : LogEntry) (s : State) : logDma e s = { s with hst := (logDma e s).hst } := by
  unfold logDma foldN
  generalize List.range 16 = l
  induction l generalizing s with
  | nil => rfl
  | cons i t ih =>
    rw [List.foldl_cons, ih]
    split
    · rfl
    · split <;> rfl

/-- The entry `e` stands in the RAM log where `next` pointed, which moves on. -/
structure RamPut (e : LogEntry) (s t : State) : Prop where
  changes : LogChanges s t
  log     : t.flt.log = vset s.flt.log (getF s.flt.r F.FLT_LOG_PTR_next) e
  next    : getF t.flt.r F.FLT_LOG_PTR_next = (getF s.flt.r F.FLT_LOG_PTR_next + 1) % 64
  regs    : ∀ o, o ≠ R.FLT_LOG_PTR → kvGet t.flt.r o = kvGet s.flt.r o

theorem ramPut_ramLog (e : LogEntry) (s : State) : RamPut e s (ramLog e s) := by
  unfold ramLog
  dsimp only
  rw [logDma_frame]
  refine ⟨rfl, rfl, ?_, fun o h => (kvGet_kvSet_ne _ _ h).trans (kvGet_kvSet_ne _ _ h)⟩
  show getF (incF _ _ _) _ = _
  rw [incF, getF_setF_bits _ _ (by decide) (by decide), getF_setF_self _ _ _ (by decide)]
  exact Nat.mod_mod _ _

/-- An entry waits for the store, or is dropped and counted (R353). -/
structure NvmPut (s t : State) : Prop where
  changes : LogChanges s t
  log     : t.flt.log = s.flt.log
  regs    : ∀ o, o ≠ R.FLT_STAT → o ≠ R.FLT_NVLOG_STAT → kvGet t.flt.r o = kvGet s.flt.r o

theorem nvmPut_nvmLogPut (e : LogEntry) (s : State) : NvmPut s (nvmLogPut e s) := by
  unfold nvmLogPut
  split
  · exact ⟨rfl, rfl, fun _ _ _ => rfl⟩
  · exact ⟨rfl, rfl, fun o h1 h2 => (kvGet_kvSet_ne _ _ h2).trans (kvGet_kvSet_ne _ _ h1)⟩

/-- The entry that a happening of source `n` makes in the logs, with the `seq` it takes (R353). -/
def logEntry (type n : Nat) (s : State) (q : Word) : LogEntry :=
  let x := vget s.flt.src n {}
  { w0 := BitVec.ofNat 32 (strideCnt s),
    w1 := BitVec.ofNat 32 (x.sub * 2 ^ 24 + x.unit * 2 ^ 16 + type * 2 ^ 12 + srcClass n x * 256 + n),
    w2 := BitVec.ofNat 32 (0x5A * 2 ^ 24 + x.count * 2 ^ 16 + opState s * 256 + x.applied), w3 := q }

/-- With neither log wanted nothing is logged; else a `seq` is taken, and each log wanted gets the entry. -/
theorem logHappening_eq (type n : Nat) (ram nv : Bool) (s : State) : logHappening type n ram nv s =
    if !ram && !nv then s else
      let e := logEntry type n s (takeSeq s).1
      let t := if ram then ramLog e (takeSeq s).2 else (takeSeq s).2
      if nv then nvmLogPut e t else t := by
  have hchg := (seqRegs_takeSeq s).1.changes
  have hcnt := hchg.strideCnt
  have hop := hchg.opState
  unfold logHappening logEntry
  generalize takeSeq s = p at hcnt hop ⊢
  obtain ⟨q, t⟩ := p
  dsimp only at hcnt hop ⊢
  rw [hcnt, hop]

theorem logHappening_ram (type n : Nat) (s : State) : logHappening type n true false s =
    ramLog (logEntry type n s (takeSeq s).1) (takeSeq s).2 := logHappening_eq type n true false s

theorem logHappening_both (type n : Nat) (s : State) : logHappening type n true true s =
    nvmLogPut (logEntry type n s (takeSeq s).1) (ramLog (logEntry type n s (takeSeq s).1) (takeSeq s).2) :=
  logHappening_eq type n true true s

theorem logHappening_nvm (type n : Nat) (s : State) : logHappening type n false true s =
    nvmLogPut (logEntry type n s (takeSeq s).1) (takeSeq s).2 := logHappening_eq type n false true s

theorem logChanges_logHappening (type n : Nat) (ram nv : Bool) (s : State) : LogChanges s (logHappening type n ram nv s) := by
  have hseq := (seqRegs_takeSeq s).1.changes
  cases ram <;> cases nv
  · exact .refl s
  · rw [logHappening_nvm]
    exact hseq.trans (nvmPut_nvmLogPut ..).changes
  · rw [logHappening_ram]
    exact hseq.trans (ramPut_ramLog ..).changes
  · rw [logHappening_both]
    exact hseq.trans ((ramPut_ramLog ..).changes.trans (nvmPut_nvmLogPut ..).changes)

/-- A field reads alike in register files that hold the same word there. -/
theorem getF_congr {r q : RegFile} {f : Fld} (h : kvGet r f.ofs = kvGet q f.ofs) : getF r f = getF q f := by
  unfold getF
  rw [h]

/-- A happening of source `n` stands in the RAM log (R353), where `next` pointed. -/
structure RamLogged (type n : Nat) (s t : State) : Prop where
  next  : getF t.flt.r F.FLT_LOG_PTR_next = (getF s.flt.r F.FLT_LOG_PTR_next + 1) % 64
  entry : vget t.flt.log (getF s.flt.r F.FLT_LOG_PTR_next) {} = logEntry type n s (kvGet t.flt.r R.FLT_SEQ)

theorem ramLogged_ramPut {type n : Nat} {q : Word} {s t u : State} (ht : SeqRegs s t) (hq : kvGet t.flt.r R.FLT_SEQ = q)
    (hu : RamPut (logEntry type n s q) t u) : RamLogged type n s u := by
  have hat : getF t.flt.r F.FLT_LOG_PTR_next = getF s.flt.r F.FLT_LOG_PTR_next := getF_congr (ht.regs _ (by decide) (by decide))
  have hseq : kvGet u.flt.r R.FLT_SEQ = q := (hu.regs _ (by decide)).trans hq
  refine ⟨by rw [hu.next, hat], ?_⟩
  rw [hu.log, hat, hseq]
  exact vget_vset_self _ _ _ (getF_lt ..)

/-- The entry stands while the log, its pointer and the last `seq` stay. -/
theorem RamLogged.keep {type n : Nat} {s t u : State} (h : RamLogged type n s t) (hlog : u.flt.log = t.flt.log)
    (hptr : kvGet u.flt.r R.FLT_LOG_PTR = kvGet t.flt.r R.FLT_LOG_PTR) (hseq : kvGet u.flt.r R.FLT_SEQ = kvGet t.flt.r R.FLT_SEQ) :
    RamLogged type n s u :=
  ⟨(getF_congr hptr).trans h.next, by rw [hlog, hseq, h.entry]⟩

theorem ramLogged_logHappening (type n : Nat) (nv : Bool) (s : State) : RamLogged type n s (logHappening type n true nv s) := by
  have hram := ramLogged_ramPut (seqRegs_takeSeq s).1 (seqRegs_takeSeq s).2 (ramPut_ramLog (logEntry type n s (takeSeq s).1) _)
  cases nv with
  | false => rwa [logHappening_ram]
  | true =>
    rw [logHappening_both]
    have hput := nvmPut_nvmLogPut (logEntry type n s (takeSeq s).1) (ramLog (logEntry type n s (takeSeq s).1) (takeSeq s).2)
    exact hram.keep hput.log (hput.regs _ (by decide) (by decide)) (hput.regs _ (by decide) (by decide))

/-- An entry in the RAM log alone leaves the collector's other registers. -/
theorem kvGet_logHappening_ram (type n : Nat) (s : State) {o : Nat} (h1 : o ≠ R.FLT_SEQ) (h2 : o ≠ R.FLT_NVLOG_STAT)
    (h3 : o ≠ R.FLT_LOG_PTR) : kvGet (logHappening type n true false s).flt.r o = kvGet s.flt.r o := by
  rw [logHappening_ram, (ramPut_ramLog ..).regs o h3, (seqRegs_takeSeq s).1.regs o h1 h2]

theorem srcClass_lt (n : Nat) (x : Src) : srcClass n x < 4 := by
  unfold srcClass
  split
  · decide
  · exact Nat.mod_lt _ (by decide)

section
variable (type n : Nat) (s : State) (q : Word)

theorem logEntry_w1 : (logEntry type n s q).w1 = BitVec.ofNat 32 ((vget s.flt.src n {}).sub * 2 ^ 24 +
    (vget s.flt.src n {}).unit * 2 ^ 16 + type * 2 ^ 12 + srcClass n (vget s.flt.src n {}) * 256 + n) := rfl

end

theorem toNat_low_half (x : Nat) : ((BitVec.ofNat 32 x).extractLsb' 0 16).toNat = x % 2 ^ 16 := by
  simp only [BitVec.extractLsb'_toNat, BitVec.toNat_ofNat, Nat.shiftRight_zero]
  exact Nat.mod_mod_of_dvd _ (by decide)

theorem low_half_entry {a b type c n : Nat} (ht : type < 16) (hc : c < 4) (hn : n < 256) :
    (a * 2 ^ 24 + b * 2 ^ 16 + type * 2 ^ 12 + c * 256 + n) % 2 ^ 16 = type * 2 ^ 12 + c * 256 + n := by
  omega

/-- The lower half of the second word of an entry names the type, the class and the source. -/
theorem logEntry_low {type n : Nat} (ht : type < 16) (hn : n < 256) (s : State) (q : Word) :
    ((logEntry type n s q).w1.extractLsb' 0 16).toNat = type * 2 ^ 12 + srcClass n (vget s.flt.src n {}) * 256 + n := by
  rw [logEntry_w1, toNat_low_half, low_half_entry ht (srcClass_lt ..) hn]

end Sys2Proof.Machine
end

section
/-! The fault collector (R16, R196, R339 to R350): what an event, an activation, a clear and a held entry leave, and the statement
about them. -/
namespace Sys2Proof.Machine

/-! ## What the collector's steps may change -/

/-- The phases and what they record, the collector, the interrupt causes and the store may change, and nothing else. -/
def FaultChanges (s t : State) : Prop :=
  t = { s with pwm := t.pwm, acq := t.acq, flt := t.flt, hst := t.hst, two := t.two, nvm := t.nvm, out := t.out }

/-- Of the collector the registers and the logs may change, and nothing else. -/
def FltShows (f g : Flt) : Prop := g = { f with r := g.r, log := g.log, nvPend := g.nvPend, nvLost := g.nvLost }

section
variable {s t u : State}

theorem FaultChanges.trans (h1 : FaultChanges s t) (h2 : FaultChanges t u) : FaultChanges s u := by
  unfold FaultChanges at *
  rw [h2, h1]

theorem TripChanges.faultChanges (h : TripChanges s t) : FaultChanges s t := by
  unfold FaultChanges
  rw [h]

theorem LogChanges.faultChanges (h : LogChanges s t) : FaultChanges s t := by
  unfold FaultChanges
  rw [h]

theorem LogChanges.frame (h : LogChanges s t) : t = { s with flt := t.flt, hst := t.hst, nvm := t.nvm } := by
  rw [h]

theorem LogChanges.fltShows (h : LogChanges s t) : FltShows s.flt t.flt := by
  unfold FltShows
  rw [h]

theorem LogChanges.pwm (h : LogChanges s t) : t.pwm = s.pwm := by
  rw [h]

end

section
variable {f g k : Flt}

theorem FltShows.trans (h1 : FltShows f g) (h2 : FltShows g k) : FltShows f k := by
  unfold FltShows at *
  rw [h2, h1]

theorem FltShows.src (h : FltShows f g) : g.src = f.src := by
  rw [h]

theorem FltShows.q9 (h : FltShows f g) : g.q9 = f.q9 := by
  rw [h]

theorem FltShows.held (h : FltShows f g) : g.held = f.held := by
  rw [h]

end

/-! ## Safe reactions (R345, R346) -/

theorem src_mem (f : Flt) (k : Fin 128) : f.src[k] ∈ f.src.toList := by simp

section
variable {s : State} {k : Fin 128} (ha : s.flt.src[k].active = true)
include ha

theorem getLsbD_safePhases {p : Nat} (h4 : s.flt.src[k].applied.testBit 4 = true) (hp : s.flt.src[k].safePh.getLsbD p = true) :
    (safePhases s.flt).getLsbD p = true := by
  refine getLsbD_foldl_of_mem (fun a x h => ?_) (fun a => ?_) _ 0 (src_mem s.flt k)
  · split
    · rw [BitVec.getLsbD_or, h, Bool.true_or]
    · exact h
  · rw [ha, h4, Bool.and_true, if_pos rfl, BitVec.getLsbD_or, hp, Bool.or_true]

theorem getLsbD_safeBanks {b : Nat} (hb : b < 24) (h5 : s.flt.src[k].applied.testBit 5 = true)
    (hk : s.flt.src[k].safeBk.getLsbD b = true) : (safeBanks s.flt).getLsbD b = true := by
  refine getLsbD_foldl_of_mem (fun a x h => ?_) (fun a => ?_) _ 0 (src_mem s.flt k)
  · split
    · rw [BitVec.getLsbD_allOnes]
      exact decide_eq_true hb
    · split
      · rw [BitVec.getLsbD_or, h, Bool.true_or]
      · exact h
  · split
    · rw [BitVec.getLsbD_allOnes]
      exact decide_eq_true hb
    · rw [ha, h5, Bool.and_true, if_pos rfl, BitVec.getLsbD_or, hk, Bool.or_true]

/-- The bank of phase `p`. -/
abbrev bankOf (s : State) (p : Nat) : Nat := (s.img.str.phases.getD p {}).bank

/-- An active source with a safe reaction holds the phases it reaches. -/
theorem mem_reactPhases {p : Nat} (hp : p < 48)
    (h : (s.flt.src[k].applied.testBit 4 = true ∧ s.flt.src[k].safePh.getLsbD p = true) ∨
      (s.flt.src[k].applied.testBit 5 = true ∧ bankOf s p < 24 ∧ s.flt.src[k].safeBk.getLsbD (bankOf s p) = true) ∨
      s.flt.src[k].applied.testBit 6 = true) : p ∈ reactPhases s := by
  unfold reactPhases
  dsimp only
  split
  · exact List.mem_range.2 hp
  next hall =>
    refine List.mem_filter.2 ⟨List.mem_range.2 hp, ?_⟩
    obtain ⟨h4, hs⟩ | ⟨h5, hb, hs⟩ | h6 := h
    · rw [getLsbD_safePhases ha h4 hs, Bool.true_or]
    · rw [getLsbD_safeBanks ha hb h5 hs, decide_eq_true hb, Bool.and_true, Bool.or_true]
    · exact absurd (List.any_eq_true.2 ⟨_, List.mem_filter.2 ⟨src_mem s.flt k, ha⟩, h6⟩) hall

end

section
variable (s : State)

theorem setReact_eq : setReact s =
    { latchOp (fun p x => { x with react := (reactPhases s).contains p }) s with
      pwm := { (latchOp (fun p x => { x with react := (reactPhases s).contains p }) s).pwm with
        auxAll := s.flt.src.toList.any fun x => x.active && x.applied.testBit 6 } } := by
  unfold setReact
  dsimp only
  rw [(tripChanges_latchOp _ s).flt]

theorem tripChanges_setReact : TripChanges s (setReact s) := by
  rw [setReact_eq]
  exact (tripChanges_latchOp _ s).trans rfl

theorem setReact_phase (p : Fin 48) : ∃ h l rise sw, (setReact s).pwm.ph[p] =
    { s.pwm.ph[p] with react := (reactPhases s).contains p, h := h, l := l, rise := rise, sw := sw } := by
  obtain ⟨h, l, rise, sw, heq⟩ := latchOp_phase (fun p x => { x with react := (reactPhases s).contains p }) s p
  rw [setReact_eq]
  exact ⟨h, l, rise, sw, heq⟩

theorem setReact_auxWd : (setReact s).pwm.auxWd = s.pwm.auxWd := by
  rw [setReact_eq]
  dsimp only
  rw [latchOp_pwm]

theorem setReact_auxAll {k : Fin 128} (ha : s.flt.src[k].active = true) (h6 : s.flt.src[k].applied.testBit 6 = true) :
    (setReact s).pwm.auxAll = true := by
  rw [setReact_eq]
  exact List.any_eq_true.2 ⟨_, src_mem s.flt k, by rw [ha, h6]; rfl⟩

theorem setReact_irqStat {j : Nat} (hj : j < 32) (h : getBit s.hst.r R.HST_IRQ_STAT j = true) :
    getBit (setReact s).hst.r R.HST_IRQ_STAT j = true := by
  rw [setReact_eq]
  exact latchOp_irqStat _ s hj h

theorem tripped_setReact {p : Fin 48} (h : p.val ∈ reactPhases s) : tripped (setReact s).pwm.ph[p] = true := by
  obtain ⟨h', l, rise, sw, heq⟩ := setReact_phase s p
  rw [heq]
  simp [tripped, h]

end

/-! ## FAULT_N (R349) -/

section
variable (s : State)

theorem setFaultN_cases : setFaultN s = s ∨ ∃ v, setFaultN s =
    { s with flt := { s.flt with r := setF s.flt.r F.FLT_STAT_faultn_low v } } := by
  unfold setFaultN
  split
  · exact .inl rfl
  · exact .inr ⟨_, rfl⟩

theorem setFaultN_frame : setFaultN s = { s with flt := { s.flt with r := (setFaultN s).flt.r } } := by
  obtain h | ⟨v, h⟩ := setFaultN_cases s
  · rw [h]
  · rw [h]

theorem faultChanges_setFaultN : FaultChanges s (setFaultN s) := by
  unfold FaultChanges
  rw [setFaultN_frame]

theorem fltShows_setFaultN : FltShows s.flt (setFaultN s).flt := by
  unfold FltShows
  rw [setFaultN_frame]

theorem kvGet_setFaultN_ne {o : Nat} (h : o ≠ R.FLT_STAT) : kvGet (setFaultN s).flt.r o = kvGet s.flt.r o := by
  obtain h' | ⟨v, h'⟩ := setFaultN_cases s
  · rw [h']
  · rw [h']
    exact kvGet_kvSet_ne _ _ h

/-- A field behind bit 0 of its register keeps its value. -/
theorem getF_setFaultN {f : Fld} (hf : f.lo + f.width ≤ 32) (h0 : 1 ≤ f.lo) : getF (setFaultN s).flt.r f = getF s.flt.r f := by
  obtain h | ⟨v, h⟩ := setFaultN_cases s
  · rw [h]
  · rw [h]
    exact getF_setF_bits _ _ hf (.inr h0)

/-- An active source whose reaction drives `FAULT_N` holds it low once IDLE has been entered. -/
theorem setFaultN_low (hi : s.sys.idled = true) (hop : 3 ≤ opState s) {k : Fin 128} (ha : s.flt.src[k].active = true)
    (h7 : s.flt.src[k].applied.testBit 7 = true) : getF (setFaultN s).flt.r F.FLT_STAT_faultn_low = 1 := by
  have hdrives : ((List.range 128).any fun n => (vget s.flt.src n {}).active && ((vget s.flt.src n {}).applied.testBit 7 ||
      decide (getF s.flt.r F.FLT_CFG_faultn_class ≤ srcClass n (vget s.flt.src n {})))) = true := by
    refine List.any_eq_true.2 ⟨k, List.mem_range.2 k.isLt, ?_⟩
    rw [vget_fin, ha, h7]
    rfl
  unfold setFaultN
  rw [if_neg (by simp [hi, hop])]
  dsimp only
  rw [hdrives]
  exact getF_setF_self _ _ _ (by decide)

end

/-! ## Activation (R344 to R346, R349, R353) -/

/-- A source as an event of `unit` and `sub` activates it, with the count it reached. -/
def activeSrc (n unit sub count : Nat) (s : State) : Src :=
  let bk := if (reachOf s n unit).2 then usedBanks s.img.str else banksOf s.img.str (reachOf s n unit).1
  let all := (reachOf s n unit).2 || (!bk.isEmpty && bk.length == (usedBanks s.img.str).length)
  { vget s.flt.src n {} with
    active := true, count := count, unit := unit, sub := sub, applied := srcReact n (vget s.flt.src n {}),
    safePh := ofBits 48 (reachOf s n unit).1, safeBk := ofBits 24 bk, degAll := all, degBk := if all then 0 else ofBits 24 bk }

/-- The source `n` stands as `x`. -/
def withSrc (n : Nat) (x : Src) (s : State) : State := { s with flt := { s.flt with src := vset s.flt.src n x } }

/-- Bit 1 of a reaction: `alert` is set, and interrupt cause 0 occurs. -/
def alerted (on : Bool) (s : State) : State :=
  if on then irq 0 { s with flt := { s.flt with r := setFlag s.flt.r F.FLT_STAT_alert } } else s

theorem activate_eq (n unit sub count : Nat) (s : State) : activate n unit sub count s =
    let x := activeSrc n unit sub count s
    setFaultN (setReact (alerted ((srcReact n (vget s.flt.src n {})).testBit 1)
      (logHappening 1 n ((srcReact n (vget s.flt.src n {})).testBit 0) (srcClass n x == 3) (withSrc n x s)))) := by
  unfold activate activeSrc
  generalize reachOf s n unit = p
  obtain ⟨ph, noUnit⟩ := p
  rfl

section
variable (on : Bool) (s : State)

theorem faultChanges_alerted : FaultChanges s (alerted on s) := by
  unfold FaultChanges alerted
  cases on
  · rfl
  · rw [if_pos rfl, irq_frame]

theorem fltShows_alerted : FltShows s.flt (alerted on s).flt := by
  unfold FltShows alerted
  cases on
  · rfl
  · rw [if_pos rfl, irq_flt]

theorem alerted_log : (alerted on s).flt.log = s.flt.log := by
  unfold alerted
  cases on
  · rfl
  · rw [if_pos rfl, irq_flt]

theorem kvGet_alerted_ne {o : Nat} (h : o ≠ R.FLT_STAT) : kvGet (alerted on s).flt.r o = kvGet s.flt.r o := by
  unfold alerted
  cases on
  · rfl
  · rw [if_pos rfl, irq_flt]
    exact kvGet_kvSet_ne _ _ h

theorem alerted_shows : flag (alerted true s).flt.r F.FLT_STAT_alert = true ∧
    getBit (alerted true s).hst.r R.HST_IRQ_STAT 0 = true := by
  unfold alerted
  rw [if_pos rfl]
  refine ⟨?_, irq_stat 0 _ (by decide)⟩
  rw [irq_flt]
  exact flag_setFlag_self _ _ (by decide) (by decide)

end

section
variable {s t : State}

theorem FaultChanges.sys (h : FaultChanges s t) : t.sys = s.sys := by
  rw [h]

theorem FaultChanges.img (h : FaultChanges s t) : t.img = s.img := by
  rw [h]

theorem FaultChanges.opState (h : FaultChanges s t) : opState t = Machine.opState s := by
  unfold Machine.opState
  rw [h.sys]

end

/-- The latches of the safe reactions and `FAULT_N` follow the sources: beside them nothing of the collector changes but a flag. -/
structure Followed (s t : State) : Prop where
  changes : FaultChanges s t
  shows   : FltShows s.flt t.flt
  log     : t.flt.log = s.flt.log
  regs    : ∀ o, o ≠ R.FLT_STAT → kvGet t.flt.r o = kvGet s.flt.r o
  flags   : ∀ f : Fld, f.lo + f.width ≤ 32 → 1 ≤ f.lo → getF t.flt.r f = getF s.flt.r f
  pwm     : t.pwm = (setReact s).pwm
  hst     : t.hst = (setReact s).hst

theorem followed (s : State) : Followed s (setFaultN (setReact s)) := by
  have hr := tripChanges_setReact s
  refine ⟨hr.faultChanges.trans (faultChanges_setFaultN _), ?_, ?_, fun o h => ?_, fun f h32 h1 => ?_, ?_, ?_⟩
  · rw [← hr.flt]
    exact fltShows_setFaultN _
  · rw [setFaultN_frame, ← hr.flt]
  · rw [kvGet_setFaultN_ne _ h, hr.flt]
  · rw [getF_setFaultN _ h32 h1, hr.flt]
  · rw [setFaultN_frame]
  · rw [setFaultN_frame]

/-- The reactions of the active source `k` are in force in `t`, which came from `s` with an entry of `type` in the RAM log where `ram`
says so (R345, R346, R349, R353). -/
structure Reacted (k : Fin 128) (x : Src) (s t : State) : Prop where
  changes : FaultChanges s t
  shows   : FltShows (withSrc k x s).flt t.flt
  logged  : x.applied.testBit 0 = true → RamLogged 1 k (withSrc k x s) t
  alert   : x.applied.testBit 1 = true → flag t.flt.r F.FLT_STAT_alert = true ∧ getBit t.hst.r R.HST_IRQ_STAT 0 = true
  trips   : ∀ p : Fin 48, (x.applied.testBit 4 = true ∧ x.safePh.getLsbD p = true) ∨
    (x.applied.testBit 5 = true ∧ bankOf s p < 24 ∧ x.safeBk.getLsbD (bankOf s p) = true) ∨ x.applied.testBit 6 = true →
    tripped t.pwm.ph[p] = true
  auxAll  : x.applied.testBit 6 = true → t.pwm.auxAll = true
  faultN  : x.applied.testBit 7 = true → s.sys.idled = true → 3 ≤ opState s → getF t.flt.r F.FLT_STAT_faultn_low = 1

/-- The steps of an activation behind the log entry: what they do, from a state `u` in which the source stands as `x`. -/
theorem reacted_of_logged {k : Fin 128} {x : Src} {s u : State} (ha : x.active = true) (hu : LogChanges (withSrc k x s) u)
    (hl : x.applied.testBit 0 = true → RamLogged 1 k (withSrc k x s) u) :
    Reacted k x s (setFaultN (setReact (alerted (x.applied.testBit 1) u))) := by
  have hal := faultChanges_alerted (x.applied.testBit 1) u
  have hals := fltShows_alerted (x.applied.testBit 1) u
  have hlog := alerted_log (x.applied.testBit 1) u
  have hreg {o : Nat} := kvGet_alerted_ne (x.applied.testBit 1) u (o := o)
  have hsh : x.applied.testBit 1 = true → flag (alerted (x.applied.testBit 1) u).flt.r F.FLT_STAT_alert = true ∧
      getBit (alerted (x.applied.testBit 1) u).hst.r R.HST_IRQ_STAT 0 = true := fun h1 => by
    rw [h1]
    exact alerted_shows u
  generalize alerted (x.applied.testBit 1) u = v at *
  have hto : FaultChanges s v := FaultChanges.trans (show FaultChanges s (withSrc k x s) from rfl) (hu.faultChanges.trans hal)
  have hflt : FltShows (withSrc k x s).flt v.flt := hu.fltShows.trans hals
  have hsrc : v.flt.src[k] = x := by
    rw [hflt.src]
    exact getElem_vset_self _ _ k
  have hbank (p : Nat) : bankOf v p = bankOf s p := by
    unfold bankOf
    rw [hto.img]
  have hact : v.flt.src[k].active = true := by rw [hsrc, ha]
  have hf := followed v
  refine ⟨hto.trans hf.changes, hflt.trans hf.shows, fun h0 => ?_, fun h1 => ⟨?_, ?_⟩, fun p h => ?_, fun h6 => ?_, fun h7 hi hop => ?_⟩
  · exact (hl h0).keep (hf.log.trans hlog) ((hf.regs _ (by decide)).trans (hreg (by decide)))
      ((hf.regs _ (by decide)).trans (hreg (by decide)))
  · rw [flag, hf.flags _ (by decide) (by decide)]
    exact (hsh h1).1
  · rw [hf.hst]
    exact setReact_irqStat v (by decide) (hsh h1).2
  · rw [hf.pwm]
    refine tripped_setReact v (mem_reactPhases hact p.isLt ?_)
    rwa [hsrc, hbank]
  · rw [hf.pwm]
    exact setReact_auxAll v hact (by rwa [hsrc])
  · have hrt := tripChanges_setReact v
    refine setFaultN_low _ ?_ ?_ (k := k) ?_ ?_
    · rw [hrt.faultChanges.sys, hto.sys, hi]
    · rwa [hrt.faultChanges.opState, hto.opState]
    · rw [hrt.flt, hact]
    · rw [hrt.flt, hsrc, h7]

theorem reacted_activate (k : Fin 128) (unit sub count : Nat) (s : State) :
    Reacted k (activeSrc k unit sub count s) s (activate k unit sub count s) := by
  rw [activate_eq]
  refine reacted_of_logged rfl (logChanges_logHappening ..) fun h0 => ?_
  have h0' : (srcReact k (vget s.flt.src k {})).testBit 0 = true := h0
  rw [h0']
  exact ramLogged_logHappening ..

/-! ## Clears (R196, R342, R350) -/

/-- The trip latches that source `n` owns are clear, and those of external inputs and fast limits as they were (R196, R350). -/
structure OwnedCleared (n : Nat) (s t : State) : Prop where
  wd   : n = 0 → t.pwm.auxWd = false ∧ ∀ q : Fin 48, t.pwm.ph[q].wd = false
  crit : n = 1 → ∀ q : Fin 48, t.pwm.ph[q].crit = false
  kept : ∀ q : Fin 48, n ∉ t.pwm.ph[q].plaus ∧ t.pwm.ph[q].ext = s.pwm.ph[q].ext ∧ t.pwm.ph[q].flim = s.pwm.ph[q].flim

section
variable (n : Nat) (s : State)

/-- A clear of owned latches goes through one change of latches, which leaves the ring's latch as `ring` says. -/
theorem clearOwned_eq : ∃ ring : Nat → PhaseCh → Bool, clearOwned n s =
    let t := latchOp (fun p x => { x with
      wd := x.wd && n != 0, crit := x.crit && n != 1, ring := ring p x, plaus := x.plaus.filter (· != n) }) s
    if n = 0 then { t with pwm := { t.pwm with auxWd := false } } else t := ⟨_, rfl⟩

theorem tripChanges_clearOwned : TripChanges s (clearOwned n s) := by
  obtain ⟨ring, h⟩ := clearOwned_eq n s
  rw [h]
  dsimp only
  split
  · exact (tripChanges_latchOp _ s).trans rfl
  · exact tripChanges_latchOp _ s

theorem clearOwned_phase (q : Fin 48) : ∃ ring h l rise sw, (clearOwned n s).pwm.ph[q] = { s.pwm.ph[q] with
    wd := s.pwm.ph[q].wd && n != 0, crit := s.pwm.ph[q].crit && n != 1, ring := ring,
    plaus := s.pwm.ph[q].plaus.filter (· != n), h := h, l := l, rise := rise, sw := sw } := by
  obtain ⟨ring, heq⟩ := clearOwned_eq n s
  rw [heq]
  obtain ⟨h, l, rise, sw, hq⟩ := latchOp_phase (fun p x => { x with
    wd := x.wd && n != 0, crit := x.crit && n != 1, ring := ring p x, plaus := x.plaus.filter (· != n) }) s q
  refine ⟨_, h, l, rise, sw, Eq.trans ?_ hq⟩
  dsimp only
  split <;> rfl

theorem ownedCleared_clearOwned : OwnedCleared n s (clearOwned n s) := by
  refine ⟨fun h0 => ⟨?_, fun q => ?_⟩, fun h1 q => ?_, fun q => ?_⟩
  · obtain ⟨ring, heq⟩ := clearOwned_eq n s
    rw [heq]
    dsimp only
    rw [if_pos h0]
  · obtain ⟨ring, h, l, rise, sw, hq⟩ := clearOwned_phase n s q
    rw [hq]
    simp [h0]
  · obtain ⟨ring, h, l, rise, sw, hq⟩ := clearOwned_phase n s q
    rw [hq]
    simp [h1]
  · obtain ⟨ring, h, l, rise, sw, hq⟩ := clearOwned_phase n s q
    rw [hq]
    exact ⟨by simp, rfl, rfl⟩

/-- A clear of owned latches leaves those of the safe reactions. -/
theorem clearOwned_react (q : Fin 48) : (clearOwned n s).pwm.ph[q].react = s.pwm.ph[q].react := by
  obtain ⟨ring, h, l, rise, sw, hq⟩ := clearOwned_phase n s q
  rw [hq]

end

section
variable {n : Nat} {s t u : State}

theorem OwnedCleared.of_latches {v : State} (h : OwnedCleared n t u) (hu : v.pwm = u.pwm) (hs : t.pwm = s.pwm) :
    OwnedCleared n s v := by
  obtain ⟨hwd, hcrit, hkept⟩ := h
  rw [← hu] at hwd hcrit hkept
  rw [hs] at hkept
  exact ⟨hwd, hcrit, hkept⟩

theorem OwnedCleared.setReact (h : OwnedCleared n s t) : OwnedCleared n s (setReact t) := by
  have hlatch (q : Fin 48) : (Machine.setReact t).pwm.ph[q].wd = t.pwm.ph[q].wd ∧ (Machine.setReact t).pwm.ph[q].crit = t.pwm.ph[q].crit ∧
      (Machine.setReact t).pwm.ph[q].plaus = t.pwm.ph[q].plaus ∧ (Machine.setReact t).pwm.ph[q].ext = t.pwm.ph[q].ext ∧
      (Machine.setReact t).pwm.ph[q].flim = t.pwm.ph[q].flim := by
    obtain ⟨h, l, rise, sw, hq⟩ := setReact_phase t q
    rw [hq]
    exact ⟨rfl, rfl, rfl, rfl, rfl⟩
  refine ⟨fun h0 => ⟨?_, fun q => ?_⟩, fun h1 q => ?_, fun q => ?_⟩
  · rw [setReact_auxWd, (h.wd h0).1]
  · rw [(hlatch q).1, (h.wd h0).2 q]
  · rw [(hlatch q).2.1, h.crit h1 q]
  · obtain ⟨-, -, hplaus, hext, hflim⟩ := hlatch q
    rw [hplaus, hext, hflim]
    exact h.kept q

end

/-- The source as an accepted clear leaves it: not active, its count 0 and its window closed (R350). -/
def clearedSrc (x : Src) : Src := { x with active := false, count := 0, isOpen := false }

/-- The clear of the active source `k` was accepted: an entry of type 2 stands in the RAM log, the latches it owns are clear. -/
structure Cleared (k : Fin 128) (s t : State) : Prop where
  changes : FaultChanges s t
  shows   : FltShows (withSrc k (clearedSrc s.flt.src[k]) s).flt t.flt
  logged  : RamLogged 2 k s t
  latches : OwnedCleared k s t

theorem clearSource_eq (k : Fin 128) (s : State) : clearSource k s = setFaultN (setReact (clearOwned k
    (withSrc k (clearedSrc s.flt.src[k]) (logHappening 2 k true (srcClass k s.flt.src[k] == 3) s)))) := by
  unfold clearSource
  rw [vget_fin]
  rfl

theorem cleared_clearSource (k : Fin 128) (s : State) : Cleared k s (clearSource k s) := by
  rw [clearSource_eq]
  have hlog := logChanges_logHappening 2 k true (srcClass k s.flt.src[k] == 3) s
  have hram := ramLogged_logHappening 2 k (srcClass k s.flt.src[k] == 3) s
  generalize logHappening 2 k true (srcClass k s.flt.src[k] == 3) s = u at hlog hram ⊢
  have hown := tripChanges_clearOwned k (withSrc k (clearedSrc s.flt.src[k]) u)
  have hcl := ownedCleared_clearOwned k (withSrc k (clearedSrc s.flt.src[k]) u)
  have hshow : FltShows (withSrc k (clearedSrc s.flt.src[k]) s).flt (withSrc k (clearedSrc s.flt.src[k]) u).flt := by
    rw [withSrc, withSrc, hlog]
    rfl
  have hpwm : (withSrc k (clearedSrc s.flt.src[k]) u).pwm = s.pwm := hlog.pwm
  have hto : FaultChanges s (withSrc k (clearedSrc s.flt.src[k]) u) :=
    hlog.faultChanges.trans (show FaultChanges u (withSrc k (clearedSrc s.flt.src[k]) u) from rfl)
  have hramw : RamLogged 2 k s (withSrc k (clearedSrc s.flt.src[k]) u) := hram.keep rfl rfl rfl
  generalize withSrc k (clearedSrc s.flt.src[k]) u = v at *
  have hf := followed (clearOwned k v)
  have hflt := hown.flt
  refine ⟨hto.trans (hown.faultChanges.trans hf.changes), hshow.trans (hflt ▸ hf.shows), ?_, ?_⟩
  · refine hramw.keep (hf.log.trans (congrArg Flt.log hflt)) ?_ ?_
    · rw [hf.regs _ (by decide), hflt]
    · rw [hf.regs _ (by decide), hflt]
  · exact OwnedCleared.of_latches hcl.setReact hf.pwm hpwm

/-! ### A write of `FLT_ACTIVEn` -/

theorem activeWrite_eq (n : Nat) (mask : Word) (s : State) :
    activeWrite n mask s = (bitsOf mask).foldl (fun s i => clearRequest (32 * n + i) s) s := by
  unfold bitsOf
  rw [List.foldl_filter]
  rfl

theorem bitsOf_twoPow : ∀ i : Fin 32, bitsOf (BitVec.ofNat 32 (2 ^ i.val)) = [i.val] := by decide

theorem bitsOf_zero : bitsOf (0 : Word) = [] := by decide

theorem activeWrite_zero (n : Nat) (s : State) : activeWrite n 0 s = s := by
  rw [activeWrite_eq, bitsOf_zero, List.foldl_nil]

theorem activeWrite_bit (n : Nat) (i : Fin 32) (s : State) :
    activeWrite n (BitVec.ofNat 32 (2 ^ i.val)) s = clearRequest (32 * n + i) s := by
  rw [activeWrite_eq, bitsOf_twoPow, List.foldl_cons, List.foldl_nil]

/-- The state in which a refused clear is logged: its flag and its source are shown. -/
def clearRefused (k : Nat) (s : State) : State :=
  { s with flt := { s.flt with r := setF (setFlag s.flt.r F.FLT_STAT_clr_refused) F.FLT_STAT_clr_src k } }

theorem clearRequest_eq (k : Fin 128) (s : State) : clearRequest k s =
    if s.flt.src[k].active then
      if clearHolds s k then logHappening 3 k true false (clearRefused k s) else clearSource k s
    else if (k.val < 2 || ownsLatch s.img.str k) && !clearHolds s k then clearOwned k s
    else s := by
  unfold clearRequest
  rw [vget_fin]
  rfl

section
variable {k : Fin 128} {s : State}

theorem clearRequest_accepted (ha : s.flt.src[k].active = true) (hc : clearHolds s k = false) : clearRequest k s = clearSource k s := by
  rw [clearRequest_eq, if_pos ha, hc, if_neg Bool.false_ne_true]

theorem clearRequest_refused (ha : s.flt.src[k].active = true) (hc : clearHolds s k = true) :
    clearRequest k s = logHappening 3 k true false (clearRefused k s) := by
  rw [clearRequest_eq, if_pos ha, if_pos hc]

theorem clearRequest_idle (ha : s.flt.src[k].active = false) (h : (2 ≤ k.val ∧ ownsLatch s.img.str k = false) ∨ clearHolds s k = true) :
    clearRequest k s = s := by
  rw [clearRequest_eq, ha, if_neg Bool.false_ne_true, if_neg]
  obtain ⟨h2, ho⟩ | hc := h
  · simp [ho, not_lt.2 h2]
  · simp [hc]

theorem clearRequest_owned (ha : s.flt.src[k].active = false) (h : k.val < 2 ∨ ownsLatch s.img.str k = true)
    (hc : clearHolds s k = false) : clearRequest k s = clearOwned k s := by
  rw [clearRequest_eq, ha, if_neg Bool.false_ne_true, if_pos]
  simpa [hc] using h

end

/-- A refused clear changes the logs and two fields of `FLT_STAT` (R350). -/
theorem clearRefused_logged (k : Fin 128) (s : State) : LogChanges s (logHappening 3 k true false (clearRefused k s)) ∧
    flag (logHappening 3 k true false (clearRefused k s)).flt.r F.FLT_STAT_clr_refused = true ∧
    getF (logHappening 3 k true false (clearRefused k s)).flt.r F.FLT_STAT_clr_src = k := by
  have hstat : kvGet (logHappening 3 k true false (clearRefused k s)).flt.r R.FLT_STAT = kvGet (clearRefused k s).flt.r R.FLT_STAT :=
    kvGet_logHappening_ram _ _ _ (by decide) (by decide) (by decide)
  refine ⟨LogChanges.trans (show LogChanges s (clearRefused k s) from rfl) (logChanges_logHappening ..), ?_, ?_⟩
  · rw [flag, getF_congr hstat]
    show (getF (setF _ _ _) _ != 0) = true
    rw [getF_setF_bits _ _ (by decide) (by decide)]
    exact flag_setFlag_self _ _ (by decide) (by decide)
  · rw [getF_congr hstat]
    show getF (setF _ _ _) _ = _
    rw [getF_setF_self _ _ _ (by decide)]
    exact Nat.mod_eq_of_lt k.isLt

/-! ## Held entries (R16, R340) -/

section
variable (f : Flt)

theorem sendHeld_frame : sendHeld f = { f with q9 := (sendHeld f).q9, held := (sendHeld f).held } := by
  unfold sendHeld
  split
  · rfl
  · split <;> rfl

@[simp] theorem sendHeld_src : (sendHeld f).src = f.src := by rw [sendHeld_frame]

@[simp] theorem sendHeld_r : (sendHeld f).r = f.r := by rw [sendHeld_frame]

variable {f}

theorem sendHeld_idle (h : f.held = [] ∨ 64 ≤ f.q9.length) : sendHeld f = f := by
  unfold sendHeld
  split
  next => rfl
  next h' t hh =>
    refine if_pos (h.resolve_left ?_)
    rw [hh]
    exact List.cons_ne_nil _ _

variable {h : Held} {l : List Held} (hh : f.held = h :: l) (hq : f.q9.length < 64)
include hh hq

/-- The source that has held events longest sends one entry, of its last event's unit and tag. -/
theorem sendHeld_sends : sendHeld f = { f with
    q9 := f.q9 ++ [{ src := h.src, summary := 1 < min h.count 255, unit := h.unit,
                     sub := if 1 < min h.count 255 then min h.count 255 else h.sub, tag := h.tag }],
    held := if h.count ≤ 255 then l else { h with count := h.count - 255 } :: l } := by
  unfold sendHeld
  rw [hh]
  exact if_neg (not_le.2 hq)

theorem sendHeld_single (h1 : h.count = 1) : sendHeld f = { f with
    q9 := f.q9 ++ [{ src := h.src, summary := false, unit := h.unit, sub := h.sub, tag := h.tag }], held := l } := by
  rw [sendHeld_sends hh hq, h1]
  rfl

theorem sendHeld_summary (h2 : 2 ≤ h.count) (h255 : h.count ≤ 255) : sendHeld f = { f with
    q9 := f.q9 ++ [{ src := h.src, summary := true, unit := h.unit, sub := h.count, tag := h.tag }], held := l } := by
  have hlt : 1 < h.count := h2
  simp only [sendHeld_sends hh hq, Nat.min_eq_left h255, if_pos h255, if_pos hlt, decide_eq_true hlt]

theorem sendHeld_more (h255 : 255 < h.count) : sendHeld f = { f with
    q9 := f.q9 ++ [{ src := h.src, summary := true, unit := h.unit, sub := 255, tag := h.tag }],
    held := { h with count := h.count - 255 } :: l } := by
  simp only [sendHeld_sends hh hq, Nat.min_eq_right h255.le, if_neg (not_le.2 h255)]
  rfl

end

/-! ## Counting (R340 to R343) -/

/-- A source with `n` events counted in its window, which opens afresh where none is open (R343). -/
def countedSrc (s : State) (n : Nat) (x : Src) : Src :=
  { x with isOpen := true, start := if windowOpen s x then x.start else strideCnt s,
           count := min 255 ((if windowOpen s x then x.count else 0) + n) }

section
variable {k : Fin 128} (n unit sub : Nat) {s : State} {x : Src} (hx : s.flt.src[k] = x)
include hx

theorem takeEvents_eq : takeEvents k n unit sub s =
    if !srcEnabled s.img.str k x then s
    else if x.active then withSrc k { x with post := min 255 (x.post + n) } s
    else if k.val < 2 || x.thresh ≤ (countedSrc s n x).count then
      activate k unit sub (countedSrc s n x).count (withSrc k (countedSrc s n x) s)
    else withSrc k (countedSrc s n x) s := by
  unfold takeEvents
  rw [vget_fin, hx]
  rfl

theorem takeEvents_disabled (he : srcEnabled s.img.str k x = false) : takeEvents k n unit sub s = s := by
  rw [takeEvents_eq n unit sub hx, he]
  rfl

variable (he : srcEnabled s.img.str k x = true)
include he

theorem takeEvents_active (ha : x.active = true) : takeEvents k n unit sub s =
    withSrc k { x with post := min 255 (x.post + n) } s := by
  rw [takeEvents_eq n unit sub hx, he, if_neg (by decide), if_pos ha]

variable (ha : x.active = false)
include ha

theorem takeEvents_counts (hk : 2 ≤ k.val) (hc : (countedSrc s n x).count < x.thresh) :
    takeEvents k n unit sub s = withSrc k (countedSrc s n x) s := by
  rw [takeEvents_eq n unit sub hx, he, if_neg (by decide), ha, if_neg Bool.false_ne_true, decide_eq_false (not_lt.2 hk),
    decide_eq_false (not_le.2 hc), if_neg (by decide)]

theorem takeEvents_activates (h : k.val < 2 ∨ x.thresh ≤ (countedSrc s n x).count) : takeEvents k n unit sub s =
    activate k unit sub (countedSrc s n x).count (withSrc k (countedSrc s n x) s) := by
  rw [takeEvents_eq n unit sub hx, he, if_neg (by decide), ha, if_neg Bool.false_ne_true, if_pos (by simpa using h)]

end

section
variable {s : State}

theorem faultEventTake_asleep (h : coreReady s = false ∨ opState s < 3) : faultEventTake s = s :=
  if_pos (by simpa using h)

variable (hc : coreReady s = true) (hop : 3 ≤ opState s)
include hc hop

theorem faultEventTake_awake : faultEventTake s = match s.flt.q9 with
    | [] => { s with flt := sendHeld s.flt }
    | e :: t => takeEvents e.src (if e.summary then e.sub else 1) e.unit e.sub { s with flt := sendHeld { s.flt with q9 := t } } :=
  if_neg (by simp [hc, hop])

theorem faultEventTake_empty (hq : s.flt.q9 = []) : faultEventTake s = { s with flt := sendHeld s.flt } := by
  rw [faultEventTake_awake hc hop, hq]

theorem faultEventTake_front {e : FltEvent} {rest : List FltEvent} (hq : s.flt.q9 = e :: rest) : faultEventTake s =
    takeEvents e.src (if e.summary then e.sub else 1) e.unit e.sub { s with flt := sendHeld { s.flt with q9 := rest } } := by
  rw [faultEventTake_awake hc hop, hq]

end

/-! ## What an activation by an event leaves -/

theorem vget_withSrc (k : Fin 128) (x : Src) (s : State) : vget (withSrc k x s).flt.src k {} = x := by
  rw [vget_fin]
  exact getElem_vset_self _ _ k

theorem activeSrc_withSrc (k : Fin 128) (unit sub count : Nat) (x : Src) (s : State) :
    activeSrc k unit sub count (withSrc k x s) = { x with
      active := true, count := count, unit := unit, sub := sub, applied := srcReact k x,
      safePh := ofBits 48 (reachOf s k unit).1,
      safeBk := ofBits 24 (if (reachOf s k unit).2 then usedBanks s.img.str else banksOf s.img.str (reachOf s k unit).1),
      degAll := (activeSrc k unit sub count (withSrc k x s)).degAll, degBk := (activeSrc k unit sub count (withSrc k x s)).degBk } := by
  have hreach : reachOf (withSrc k x s) k unit = reachOf s k unit := rfl
  simp only [activeSrc, vget_withSrc, hreach]
  rfl

theorem withSrc_withSrc (k : Nat) (x y : Src) (s : State) : withSrc k x (withSrc k y s) = withSrc k x s := by
  unfold withSrc vset
  simp

theorem bank_lt {s : State} {k : Fin 128} {unit b : Nat} (h : b ∈ if (reachOf s k unit).2 then usedBanks s.img.str
    else banksOf s.img.str (reachOf s k unit).1) : b < 24 := by
  have hused : ∀ b ∈ usedBanks s.img.str, b < 24 := fun b hb => List.mem_range.1 (List.mem_of_mem_filter hb)
  split at h
  · exact hused b h
  · exact hused b (List.mem_of_mem_filter h)

/-- The words of an entry of a source that stands as `x`. -/
theorem logEntry_withSrc (type : Nat) (k : Fin 128) (x : Src) (s : State) (q : Word) : logEntry type k (withSrc k x s) q =
    { w0 := BitVec.ofNat 32 (strideCnt s),
      w1 := BitVec.ofNat 32 (x.sub * 2 ^ 24 + x.unit * 2 ^ 16 + type * 2 ^ 12 + srcClass k x * 256 + k),
      w2 := BitVec.ofNat 32 (0x5A * 2 ^ 24 + x.count * 2 ^ 16 + opState s * 256 + x.applied), w3 := q } := by
  unfold logEntry
  rw [vget_withSrc]
  rfl

/-- The collector's front entry activated source `k`, which its event had counted to stand as `z`. -/
structure Activated (k : Fin 128) (z : Src) (unit sub : Nat) (s t : State) : Prop where
  changes : FaultChanges s t
  q9      : t.flt.q9 = s.flt.q9
  held    : t.flt.held = s.flt.held
  others  : ∀ j : Fin 128, j ≠ k → t.flt.src[j] = s.flt.src[j]
  src     : t.flt.src[k] = { z with
    active := true, unit := unit, sub := sub, applied := srcReact k z, safePh := t.flt.src[k].safePh,
    safeBk := t.flt.src[k].safeBk, degBk := t.flt.src[k].degBk, degAll := t.flt.src[k].degAll }
  next    : (srcReact k z).testBit 0 = true → getF t.flt.r F.FLT_LOG_PTR_next = (getF s.flt.r F.FLT_LOG_PTR_next + 1) % 64
  entry   : (srcReact k z).testBit 0 = true → vget t.flt.log (getF s.flt.r F.FLT_LOG_PTR_next) {} =
    { w0 := BitVec.ofNat 32 (strideCnt s),
      w1 := BitVec.ofNat 32 (sub * 2 ^ 24 + unit * 2 ^ 16 + 2 ^ 12 + srcClass k z * 256 + k),
      w2 := BitVec.ofNat 32 (0x5A * 2 ^ 24 + z.count * 2 ^ 16 + opState s * 256 + srcReact k z), w3 := kvGet t.flt.r R.FLT_SEQ }
  alert   : (srcReact k z).testBit 1 = true → flag t.flt.r F.FLT_STAT_alert = true ∧ getBit t.hst.r R.HST_IRQ_STAT 0 = true
  trips   : ∀ p : Fin 48, ((srcReact k z).testBit 4 = true ∧ p.val ∈ (reachOf s k unit).1) ∨
    ((srcReact k z).testBit 5 = true ∧ bankOf s p ∈ (if (reachOf s k unit).2 then usedBanks s.img.str
      else banksOf s.img.str (reachOf s k unit).1)) ∨ (srcReact k z).testBit 6 = true → tripped t.pwm.ph[p] = true
  auxAll  : (srcReact k z).testBit 6 = true → t.pwm.auxAll = true
  faultN  : (srcReact k z).testBit 7 = true → s.sys.idled = true → 3 ≤ opState s → getF t.flt.r F.FLT_STAT_faultn_low = 1

theorem activated_of_reacted {k : Fin 128} {z y : Src} {unit sub : Nat} {s t : State}
    (hy : y = activeSrc k unit sub z.count (withSrc k z s)) (h : Reacted k y (withSrc k z s) t) : Activated k z unit sub s t := by
  rw [activeSrc_withSrc] at hy
  obtain ⟨hch, hsh, hlog, hal, htr, haux, hfn⟩ := h
  have hsrc : t.flt.src[k] = y := by
    rw [hsh.src]
    exact getElem_vset_self _ _ k
  have happ : y.applied = srcReact k z := by rw [hy]
  have hcls : srcClass k y = srcClass k z := by rw [hy]; rfl
  rw [happ] at hlog hal htr haux hfn
  refine ⟨.trans (show FaultChanges s (withSrc k z s) from rfl) hch, hsh.q9, hsh.held, fun j hj => ?_, ?_,
    fun h0 => (hlog h0).next, fun h0 => ?_, hal, fun p hp => htr p ?_, haux, hfn⟩
  · rw [hsh.src]
    exact (getElem_vset_ne _ _ hj).trans (getElem_vset_ne _ _ hj)
  · rw [hsrc, hy]
  · have he := (hlog h0).entry
    rw [withSrc_withSrc, logEntry_withSrc, happ, hcls, Nat.one_mul] at he
    rw [hy] at he
    exact he
  · obtain ⟨h4, hp⟩ | ⟨h5, hp⟩ | h6 := hp
    · refine .inl ⟨h4, ?_⟩
      rw [hy]
      exact getLsbD_ofBits hp p.isLt
    · have hlt := bank_lt hp
      refine .inr (.inl ⟨h5, hlt, ?_⟩)
      rw [hy]
      exact getLsbD_ofBits hp hlt
    · exact .inr (.inr h6)

theorem activated_activate (k : Fin 128) (z : Src) (unit sub : Nat) (s : State) :
    Activated k z unit sub s (activate k unit sub z.count (withSrc k z s)) :=
  activated_of_reacted rfl (reacted_activate k unit sub z.count (withSrc k z s))

/-- The entry of a refused clear stands where the pointer showed before it. -/
theorem clearRefused_low (k : Fin 128) (s : State) :
    ((vget (logHappening 3 k true false (clearRefused k s)).flt.log (getF s.flt.r F.FLT_LOG_PTR_next) {}).w1.extractLsb' 0 16).toNat =
      3 * 2 ^ 12 + srcClass k s.flt.src[k] * 256 + k := by
  have hptr : getF (clearRefused k s).flt.r F.FLT_LOG_PTR_next = getF s.flt.r F.FLT_LOG_PTR_next :=
    getF_congr ((kvGet_kvSet_ne _ _ (by decide)).trans (kvGet_kvSet_ne _ _ (by decide)))
  have hsrc : vget (clearRefused k s).flt.src k {} = s.flt.src[k] := vget_fin ..
  rw [← hptr, (ramLogged_logHappening 3 k false (clearRefused k s)).entry, logEntry_low (by decide) (by omega), hsrc]

/-! ## The statement -/

theorem exec_faultEventTake (s : State) : exec .faultEventTake s = .next (faultEventTake s) := rfl

/-- Both commands are the same write of `FLT_ACTIVEn`. -/
theorem exec_clear {s : State} (hc : coreReady s = true) {p : Path} {n : Fin 4} {m : Word} {c : Instr}
    (h : c ∈ [Instr.faultClear p n m, .tripLatchRelease p n m]) : exec c s = .next (activeWrite n m s) := by
  obtain rfl | rfl := List.mem_pair.1 h
  · exact whenCore_ready hc _
  · exact whenCore_ready hc _

theorem exec_clear_bit {s : State} (hc : coreReady s = true) {p : Path} {n : Fin 4} {i : Fin 32} {k : Fin 128} (hk : k.val = 32 * n + i)
    {m : Word} (hm : m = BitVec.ofNat 32 (2 ^ i.val)) {c : Instr} (h : c ∈ [Instr.faultClear p n m, .tripLatchRelease p n m]) :
    exec c s = .next (clearRequest k s) := by
  rw [exec_clear hc h, hm, activeWrite_bit, hk]

/-- Settles O43: an event by its source's state and count, a held entry by how many events it stands for, a clear by whether the source
is active and its condition holds. -/
theorem faultsAndClears : Obligations.FaultsAndClears := by
  unfold Obligations.FaultsAndClears
  refine ⟨fun s => ⟨fun h => ?_, fun hc hop hq => ?_, fun e rest k x f n base c hc hop hq hek hx hf hn hbase hcnt => ?_⟩,
    fun f => ⟨sendHeld_idle, fun h l hh hq => ⟨sendHeld_single hh hq, sendHeld_summary hh hq, sendHeld_more hh hq⟩⟩,
    fun p n i k m s hc hk hm c hcmd => ⟨fun ha hh => ?_, fun ha hh => ?_, fun ha h => ?_, fun ha h hh => ?_, fun c hz => ?_⟩⟩
  · rw [exec_faultEventTake, faultEventTake_asleep h]
  · rw [exec_faultEventTake, faultEventTake_empty hc hop hq]
  · have hsrc : f.src = s.flt.src := by rw [hf, sendHeld_src]
    have hr : f.r = s.flt.r := by rw [hf, sendHeld_r]
    have htake : exec .faultEventTake s = .next (takeEvents k n e.unit e.sub { s with flt := f }) := by
      rw [exec_faultEventTake, faultEventTake_front hc hop hq, hek, hn, hf]
    have hxf : ({ s with flt := f } : State).flt.src[k] = x := by
      rw [hx]
      exact congrArg (·[k]) hsrc
    have hcount : (countedSrc { s with flt := f } n x).count = c := by
      rw [hcnt, hbase]
      rfl
    have hset (z : Src) : withSrc k z { s with flt := f } = { s with flt := { f with src := f.src.set k z } } := by
      rw [withSrc, vset_fin]
    have hz : countedSrc { s with flt := f } n x = { x with
        isOpen := true, start := if windowOpen s x then x.start else strideCnt s, count := c } := by
      rw [← hcount]
      rfl
    rw [htake]
    refine ⟨fun he => ?_, fun he ha => ?_, fun he ha => ⟨_, rfl, fun hk hlt => ?_, fun hact => ?_⟩⟩
    · rw [takeEvents_disabled n e.unit e.sub hxf he]
    · rw [takeEvents_active n e.unit e.sub hxf he ha, hset]
    · rw [takeEvents_counts n e.unit e.sub hxf he ha hk (by rwa [hcount]), hset, hz]
      rfl
    · rw [takeEvents_activates n e.unit e.sub hxf he ha (by rwa [hcount])]
      have hA := activated_activate k (countedSrc { s with flt := f } n x) e.unit e.sub { s with flt := f }
      rw [hz] at hA ⊢
      generalize activate k e.unit e.sub _ _ = t at hA
      obtain ⟨hch, hq9, hheld, hoth, hy, hnext, hentry, hal, htr, haux, hfn⟩ := hA
      refine ⟨t, t.flt.src[k], _, _, rfl, rfl, rfl, rfl, ?_, hq9, hheld, fun j hj => ?_, hy, fun h0 => ⟨_, rfl, ?_, ?_⟩, hal, htr,
        haux, fun h7 hi => hfn h7 hi hop⟩
      · exact FaultChanges.trans (show FaultChanges s { s with flt := f } from rfl) hch
      · rw [hoth j hj, hsrc]
      · rw [hnext h0, hr]
      · rw [← hr, hentry h0]
        exact ⟨rfl, rfl, rfl, rfl⟩
  · have hcl := cleared_clearSource k s
    refine ⟨clearSource k s, ?_, hcl.changes, ?_, hcl.shows.q9, fun j hj => ?_, hcl.latches.wd, hcl.latches.crit, hcl.latches.kept, ?_⟩
    · rw [exec_clear_bit hc hk hm hcmd, clearRequest_accepted ha hh]
    · rw [hcl.shows.src]
      exact getElem_vset_self _ _ k
    · rw [hcl.shows.src]
      exact getElem_vset_ne _ _ hj
    · rw [hcl.logged.entry, logEntry_low (by decide) (by omega), vget_fin]
  · obtain ⟨hch, hflag, hclr⟩ := clearRefused_logged k s
    refine ⟨_, ?_, hch.frame, hch.fltShows.src, hch.fltShows.q9, hflag, hclr, ?_⟩
    · rw [exec_clear_bit hc hk hm hcmd, clearRequest_refused ha hh]
    · exact clearRefused_low k s
  · rw [exec_clear_bit hc hk hm hcmd, clearRequest_idle ha h]
  · have hown := ownedCleared_clearOwned k s
    refine ⟨clearOwned k s, ?_, tripChanges_clearOwned k s, hown.wd, hown.crit, fun q => ?_⟩
    · rw [exec_clear_bit hc hk hm hcmd, clearRequest_owned ha h hh]
    · obtain ⟨hplaus, hext, hflim⟩ := hown.kept q
      exact ⟨hplaus, hext, hflim, clearOwned_react k s q⟩
  · rw [exec_clear hc hz, activeWrite_zero]

end Sys2Proof.Machine
end

section
/-! The pacer's watchdog, HOLDOVER and marks (R38, R39, R41, R42): what each leaves, and the statements about them. -/
namespace Sys2Proof.Machine

/-! ## Fields behind a write of another field -/

section
variable (r : RegFile) {f g : Fld} (v : Nat)

theorem flag_setF_ofs (h : g.ofs ≠ f.ofs) : flag (setF r f v) g = flag r g := by
  unfold flag
  rw [getF_setF_ofs r v h]

theorem flag_setF_bits (hg : g.lo + g.width ≤ 32) (h : g.lo + g.width ≤ f.lo ∨ f.lo + f.width ≤ g.lo) :
    flag (setF r f v) g = flag r g := by
  unfold flag
  rw [getF_setF_bits r v hg h]

theorem getF_setFlag_ofs (h : g.ofs ≠ f.ofs) : getF (setFlag r f) g = getF r g := getF_setF_ofs r 1 h

theorem getF_setFlag_bits (hg : g.lo + g.width ≤ 32) (h : g.lo + g.width ≤ f.lo ∨ f.lo + f.width ≤ g.lo) :
    getF (setFlag r f) g = getF r g := getF_setF_bits r 1 hg h

theorem flag_setFlag_bits (hg : g.lo + g.width ≤ 32) (h : g.lo + g.width ≤ f.lo ∨ f.lo + f.width ≤ g.lo) :
    flag (setFlag r f) g = flag r g := flag_setF_bits r 1 hg h

theorem kvGet_setF_ne {k : Nat} (h : k ≠ f.ofs) : kvGet (setF r f v) k = kvGet r k := kvGet_kvSet_ne _ _ h

theorem kvGet_setFlag_ne {k : Nat} (h : k ≠ f.ofs) : kvGet (setFlag r f) k = kvGet r k := kvGet_kvSet_ne _ _ h

/-- A value that its field can hold reads back. -/
theorem getF_setF_small (h : f.lo + f.width ≤ 32) (hv : v < 2 ^ f.width) : getF (setF r f v) f = v := by
  rw [getF_setF_self r f v h, Nat.mod_eq_of_lt hv]

end

/-- A two's complement value that its field can hold reads back. -/
theorem getFI_setFI_self (r : RegFile) (f : Fld) {v : Int} (h : f.lo + f.width ≤ 32) (hw : 0 < f.width)
    (hlo : -(2 : Int) ^ (f.width - 1) ≤ v) (hhi : v < (2 : Int) ^ (f.width - 1)) : getFI (setFI r f v) f = v := by
  obtain ⟨n, hn⟩ : ∃ n, f.width = n + 1 := ⟨f.width - 1, by omega⟩
  rw [hn, Nat.add_sub_cancel] at hlo hhi
  have hpow : (2 : Int) ^ (n + 1) = 2 * 2 ^ n := by ring
  have hcast : ((2 ^ n : Nat) : Int) = 2 ^ n := by push_cast; rfl
  have hmod : (v % 2 ^ f.width).toNat % 2 ^ f.width = (v % 2 ^ f.width).toNat := by
    apply Nat.mod_eq_of_lt
    have := Int.emod_lt_of_pos v (show (0 : Int) < 2 ^ f.width by positivity)
    zify
    rwa [Int.toNat_of_nonneg (Int.emod_nonneg _ (by positivity))]
  unfold getFI setFI
  rw [getF_setF_self r f _ h, hmod]
  dsimp only
  rw [hn, Nat.add_sub_cancel, hpow]
  obtain hv | hv := le_or_gt 0 v
  · rw [Int.emod_eq_of_lt hv (by omega), if_pos (by omega), Int.toNat_of_nonneg hv]
  · have hneg : v % (2 * 2 ^ n) = v + 2 * 2 ^ n := by
      rw [← Int.add_emod_right, Int.emod_eq_of_lt (by omega) (by omega)]
    rw [hneg, if_neg (by omega), Int.toNat_of_nonneg (by omega)]
    omega

/-! ## The watchdog (R38, R39) -/

/-- The watchdog's mark in the pacer and in the hold of the auxiliary outputs. -/
def wdMarked (s : State) : State :=
  { tbsRegs_ (fun r => setFlag r F.TBS_STAT_wd_expired) s with pwm := { s.pwm with auxWd := true } }

/-- The watchdog latches every phase. -/
def wdTripped (s : State) : State := latchOp (fun _ x => { x with wd := true }) (wdMarked s)

theorem watchdogExpiry_runs {s : State} (hc : coreReady s = true) (hs : strides s = true) :
    watchdogExpiry s = raise 0 255 255 (wdTripped s) := if_neg (by simp [hc, hs])

theorem tripChanges_wdTripped (s : State) : TripChanges (wdMarked s) (wdTripped s) := tripChanges_latchOp _ _

theorem wdTripped_frame (s : State) : wdTripped s = { s with
    tbs := (wdMarked s).tbs, pwm := (wdTripped s).pwm, acq := (wdTripped s).acq, hst := (wdTripped s).hst, two := (wdTripped s).two,
    out := (wdTripped s).out } := by
  rw [tripChanges_wdTripped s]
  rfl

theorem wdTripped_auxWd (s : State) : (wdTripped s).pwm.auxWd = true := by
  unfold wdTripped
  rw [latchOp_pwm]
  rfl

theorem wdTripped_phase (s : State) (p : Fin 48) : ∃ h l rise sw, (wdTripped s).pwm.ph[p] =
    { s.pwm.ph[p] with wd := true, h := h, l := l, rise := rise, sw := sw } := latchOp_phase _ (wdMarked s) p

/-- A write of the pacer's status leaves the stride count. -/
theorem strideCnt_wdMarked (s : State) : strideCnt (wdMarked s) = strideCnt s := getF_setFlag_ofs _ (by decide)

theorem strideTag_wdTripped (s : State) : strideTag (wdTripped s) = strideTag s := by
  have htbs : (wdTripped s).tbs = (wdMarked s).tbs := by rw [tripChanges_wdTripped s]
  unfold strideTag
  rw [← strideCnt_wdMarked s, strideCnt, htbs, strideCnt]

/-! ## HOLDOVER (R42) -/

/-- The pacer as HOLDOVER begins. -/
def heldOver (s : State) : State :=
  tbsRegs_ (fun r => setFlag (setF r F.TBS_STAT_lock_state 3) F.TBS_STAT_lock_lost) { s with tbs := { s.tbs with goodRun := 0 } }

theorem holdoverEntry_begins {s : State} (hs : strides s = true) (hsrc : paceSrc s ≠ 0) (hst : getF s.tbs.r F.TBS_STAT_lock_state ≠ 3)
    (hm : getF s.tbs.r F.TBS_SYNC_CFG_holdover_strides ≤ s.tbs.missRun) : holdoverEntry s = raise 24 255 255 (heldOver s) :=
  if_neg (by simp [hs, hsrc, hst, hm])

theorem strideCnt_heldOver (s : State) : strideCnt (heldOver s) = strideCnt s :=
  (getF_setFlag_ofs _ (by decide)).trans (getF_setF_ofs _ _ (by decide))

theorem heldOver_shows (s : State) : getF (heldOver s).tbs.r F.TBS_STAT_lock_state = 3 ∧
    flag (heldOver s).tbs.r F.TBS_STAT_lock_lost = true :=
  ⟨(getF_setFlag_bits _ (by decide) (by decide)).trans (getF_setF_small _ _ (by decide) (by decide)),
    flag_setFlag_self _ _ (by decide) (by decide)⟩

theorem exec_strideWatchdogExpiry (s : State) : exec .strideWatchdogExpiry s = .next (watchdogExpiry s) := rfl
theorem exec_holdoverEntry (s : State) : exec .holdoverEntry s = .next (holdoverEntry s) := rfl

/-- Settles O18: the watchdog is one change of latches between a mark and an event; HOLDOVER is a write of the lock state. -/
theorem watchdogAndHoldover : Obligations.WatchdogAndHoldover := by
  unfold Obligations.WatchdogAndHoldover
  refine fun s hs => ⟨fun hc => ?_, fun hsrc hst hm => ?_⟩
  · refine ⟨_, exec_strideWatchdogExpiry s, ?_⟩
    rw [watchdogExpiry_runs hc hs]
    have hflag : flag (wdTripped s).tbs.r F.TBS_STAT_wd_expired = true := by
      rw [wdTripped_frame]
      exact flag_setFlag_self _ _ (by decide) (by decide)
    refine ⟨?_, hflag, wdTripped_auxWd s, fun p => ?_, fun p => ?_⟩
    · rw [raise, strideTag_wdTripped, wdTripped_frame]
      rfl
    · obtain ⟨h, l, rise, sw, hp⟩ := wdTripped_phase s p
      rw [raise_pwm, hp]
    · obtain ⟨h, l, rise, sw, hp⟩ := wdTripped_phase s p
      rw [raise_pwm, hp]
      exact ⟨rfl, rfl, rfl, rfl, rfl, rfl⟩
  · obtain ⟨hlock, hlost⟩ := heldOver_shows s
    refine ⟨_, exec_holdoverEntry s, ?_⟩
    rw [holdoverEntry_begins hs hsrc hst hm]
    refine ⟨?_, hlock, hlost, strideCnt_heldOver s⟩
    rw [raise, strideTag, strideCnt_heldOver]
    rfl

/-! ## Marks (R41, R42) -/

/-- The mark sets the clock in a single step: in LOADED, before any HOLDOVER (R41, R42). -/
def markSteps (s : State) : Bool := opState s == 4 && !s.tbs.trimOnly && getF s.tbs.r F.TBS_STAT_lock_state != 3

/-- The clock after a mark at clock `pos` of phase error `e`: set in a single step, or trimmed by the next stride. -/
def markTimed (pos : Nat) (e : Int) (step : Bool) (s : State) : State :=
  let c := (((pos : Int) - e) % (strideLen s : Int)).toNat
  if step then { s with tbs := { s.tbs with clock := c, t0 := (((s.tbs.t0 : Int) + pos - c) % 128).toNat, trim := 0 } }
  else { s with tbs := { s.tbs with trim := clampI (-1) 1 e } }

/-- The place in the lap after a lap mark that found another one: adopted in LOADED, reported later (R43). -/
def markPlaced (j : Nat) (s : State) : State :=
  if opState s = 4 then tbsRegs_ (fun r => setF r F.TBS_LAP_POS_stride_in_lap j) s
  else tbsRegs_ (fun r => setFlag r F.TBS_STAT_lap_misalign) s

/-- The pacer's state alone may change; its registers keep all but the status and the place in the lap, and of the status the
phase error stays. -/
structure Marked (s t : State) : Prop where
  frame : t = { s with tbs := t.tbs }
  regs  : ∀ o, o ≠ R.TBS_STAT → o ≠ R.TBS_LAP_POS → kvGet t.tbs.r o = kvGet s.tbs.r o

section
variable {s t u : State}

theorem Marked.trans (h1 : Marked s t) (h2 : Marked t u) : Marked s u := by
  refine ⟨?_, fun o ho hp => (h2.regs o ho hp).trans (h1.regs o ho hp)⟩
  rw [h2.frame, h1.frame]

theorem Marked.getF (h : Marked s t) {f : Fld} (ho : f.ofs ≠ R.TBS_STAT) (hp : f.ofs ≠ R.TBS_LAP_POS) :
    Machine.getF t.tbs.r f = Machine.getF s.tbs.r f := getF_congr (h.regs _ ho hp)

theorem Marked.strideCnt (h : Marked s t) : strideCnt t = Machine.strideCnt s := h.getF (by decide) (by decide)

theorem Marked.strideLen (h : Marked s t) : strideLen t = Machine.strideLen s := h.getF (by decide) (by decide)

end

section
variable (pos : Nat) (e k : Int) (next lap step : Bool) (j : Nat) (s : State)

theorem lockMark_eq : ∃ st good marked early only, lockMark e next s = { s with tbs := { s.tbs with
    goodRun := good, marked := marked, early := early, trimOnly := only,
    r := setFI (setF s.tbs.r F.TBS_STAT_lock_state st) F.TBS_STAT_phase_err (clampI (-127) 127 e) } } := ⟨_, _, _, _, _, rfl⟩

theorem marked_lockMark : Marked s (lockMark e next s) := by
  obtain ⟨st, good, marked, early, only, h⟩ := lockMark_eq e next s
  rw [h]
  exact ⟨rfl, fun o ho _ => (kvGet_setF_ne _ _ ho).trans (kvGet_setF_ne _ _ ho)⟩

theorem lockMark_clock : (lockMark e next s).tbs.clock = s.tbs.clock := by
  obtain ⟨st, good, marked, early, only, h⟩ := lockMark_eq e next s
  rw [h]

/-- The phase error is shown, limited to ±127 (R41). -/
theorem lockMark_phaseErr : getFI (lockMark e next s).tbs.r F.TBS_STAT_phase_err = max (-127) (min 127 e) := by
  obtain ⟨st, good, marked, early, only, h⟩ := lockMark_eq e next s
  rw [h]
  have hw : F.TBS_STAT_phase_err.width = 8 := rfl
  refine getFI_setFI_self _ _ (by decide) (by decide) ?_ ?_ <;> rw [hw, clampI] <;> omega

theorem marked_markTimed : Marked s (markTimed pos e step s) := by
  unfold markTimed
  dsimp only
  split
  · exact ⟨rfl, fun _ _ _ => rfl⟩
  · exact ⟨rfl, fun _ _ _ => rfl⟩

theorem markTimed_regs : (markTimed pos e step s).tbs.r = s.tbs.r := by
  unfold markTimed
  dsimp only
  split <;> rfl

theorem marked_markPlaced : Marked s (markPlaced j s) := by
  unfold markPlaced
  split
  · exact ⟨rfl, fun o _ hp => kvGet_setF_ne _ _ hp⟩
  · exact ⟨rfl, fun o ho _ => kvGet_setFlag_ne _ ho⟩

theorem markPlaced_phaseErr : getFI (markPlaced j s).tbs.r F.TBS_STAT_phase_err = getFI s.tbs.r F.TBS_STAT_phase_err := by
  have hget : getF (markPlaced j s).tbs.r F.TBS_STAT_phase_err = getF s.tbs.r F.TBS_STAT_phase_err := by
    unfold markPlaced
    split
    · exact getF_setF_ofs _ _ (by decide)
    · exact getF_setFlag_bits _ (by decide) (by decide)
  unfold getFI
  rw [hget]

theorem markPlaced_clock : (markPlaced j s).tbs.clock = s.tbs.clock ∧ (markPlaced j s).tbs.trim = s.tbs.trim := by
  unfold markPlaced
  split <;> exact ⟨rfl, rfl⟩

/-- A mark is judged, moves the clock, and may move the place in the lap. -/
theorem paceMark_cases : ∃ next, paceMark pos e k lap s = markTimed pos e (markSteps s) (lockMark e next s) ∨
    ∃ j, paceMark pos e k lap s = markPlaced j (markTimed pos e (markSteps s) (lockMark e next s)) := by
  refine ⟨decide (0 < k), ?_⟩
  have hlen : strideLen (lockMark e (decide (0 < k)) s) = strideLen s := (marked_lockMark ..).strideLen
  unfold paceMark markPlaced markTimed markSteps
  dsimp only
  rw [hlen]
  split
  · exact .inl rfl
  · exact .inr ⟨_, rfl⟩

theorem marked_paceMark : Marked s (paceMark pos e k lap s) := by
  obtain ⟨next, h | ⟨j, h⟩⟩ := paceMark_cases pos e k lap s
  · rw [h]
    exact (marked_lockMark ..).trans (marked_markTimed ..)
  · rw [h]
    exact ((marked_lockMark ..).trans (marked_markTimed ..)).trans (marked_markPlaced ..)

theorem paceMark_phaseErr : getFI (paceMark pos e k lap s).tbs.r F.TBS_STAT_phase_err = max (-127) (min 127 e) := by
  obtain ⟨next, h | ⟨j, h⟩⟩ := paceMark_cases pos e k lap s
  · rw [h, markTimed_regs, lockMark_phaseErr]
  · rw [h, markPlaced_phaseErr, markTimed_regs, lockMark_phaseErr]

/-- The clock and the trim are those that the mark's time gives. -/
theorem paceMark_clock : ∃ next, (paceMark pos e k lap s).tbs.clock = (markTimed pos e (markSteps s) (lockMark e next s)).tbs.clock ∧
    (paceMark pos e k lap s).tbs.trim = (markTimed pos e (markSteps s) (lockMark e next s)).tbs.trim := by
  obtain ⟨next, h | ⟨j, h⟩⟩ := paceMark_cases pos e k lap s
  · rw [h]
    exact ⟨next, rfl, rfl⟩
  · rw [h]
    exact ⟨next, markPlaced_clock ..⟩

theorem paceMark_trims (h : markSteps s = false) : (paceMark pos e k lap s).tbs.clock = s.tbs.clock ∧
    (paceMark pos e k lap s).tbs.trim = max (-1) (min 1 e) := by
  obtain ⟨next, hclk, htrim⟩ := paceMark_clock pos e k lap s
  rw [hclk, htrim, h]
  exact ⟨lockMark_clock e next s, rfl⟩

theorem paceMark_steps (h : markSteps s = true) (hlen : 0 < strideLen s) : (paceMark pos e k lap s).tbs.trim = 0 ∧
    ((paceMark pos e k lap s).tbs.clock : Int) = ((pos : Int) - e) % (strideLen s : Int) := by
  obtain ⟨next, hclk, htrim⟩ := paceMark_clock pos e k lap s
  rw [hclk, htrim, h, ← (marked_lockMark e next s).strideLen]
  refine ⟨rfl, Int.toNat_of_nonneg (Int.emod_nonneg _ ?_)⟩
  rw [(marked_lockMark e next s).strideLen]
  omega

end

theorem paceInEdge_idle {pos high : Nat} {s : State} (h : paceSrc s ≠ 1) : paceInEdge pos high s = s := if_pos (.inl h)

theorem paceInEdge_mark {pos high : Nat} {s : State} (hsrc : paceSrc s = 1) (hs : strides s = true) (hlen : 0 < s.tbs.len) {e k : Int}
    (hk : (e, k) = nearBoundary s.tbs.len ((pos : Int) + getFI s.tbs.r F.TBS_PACE_OFS_pace_ofs)) :
    paceInEdge pos high s = paceMark pos e k (decide (20 < high)) s := by
  have hrun : ¬(paceSrc s ≠ 1 ∨ ¬ strides s = true ∨ s.tbs.len = 0) := by simp [hsrc, hs, Nat.ne_of_gt hlen]
  unfold paceInEdge
  rw [if_neg hrun, ← hk]

theorem exec_paceInEdge (pos high : Nat) (s : State) : exec (.paceInEdge pos high) s = .next (paceInEdge pos high s) := rfl

/-- Settles O19: an edge is a mark, by whether it steps the clock or trims the next stride. -/
theorem paceInEdgeCorrects : Obligations.PaceInEdgeCorrects := by
  unfold Obligations.PaceInEdgeCorrects
  refine fun pos high e k s hsrc hs hlen hk => ⟨fun u hu => ?_, ?_⟩
  · rw [exec_paceInEdge, paceInEdge_idle hu]
  · refine ⟨_, exec_paceInEdge pos high s, ?_⟩
    rw [paceInEdge_mark hsrc hs hlen hk]
    have hm := marked_paceMark pos e k (decide (20 < high)) s
    refine ⟨hm.frame, hm.strideCnt, paceMark_phaseErr .., fun h4 => paceMark_trims _ _ _ _ _ ?_,
      fun h4 ht hl h0 => paceMark_steps _ _ _ _ _ ?_ h0⟩
    · simp [markSteps, h4]
    · simp [markSteps, h4, ht, hl]

end Sys2Proof.Machine
end

section
/-! State requests (R44, R89, R216, R263, R326 to R329, R337): what a refusal, an acceptance and a request done at once leave, and the
statement about which of them a request gets. -/
namespace Sys2Proof.Machine

/-! ## A cause raised by the state machine (R364) -/

/-- The records of the state machine may change, and the interrupt cause with its message, and nothing else. -/
def RequestChanges (s t : State) : Prop :=
  t = { s with sys := { s.sys with req := t.sys.req, r := t.sys.r }, img := { s.img with ready := t.img.ready }, hst := t.hst,
               two := t.two, out := t.out }

/-! ## A refusal (R327, R329) -/

section
variable (n : Nat) (s : State)

theorem refuseReq_frame : refuseReq n s = { s with
    sys := { s.sys with req := none, r := (refuseReq n s).sys.r }, img := { s.img with ready := none }, hst := (refuseReq n s).hst,
    two := (refuseReq n s).two, out := (refuseReq n s).out } := by
  unfold refuseReq
  rw [irq_frame]

theorem refuseReq_sysRegs : (refuseReq n s).sys.r = setF (setF (setFlag (setF s.sys.r F.SYS_STATE_STAT_reason n)
    F.SYS_STATE_STAT_refused) F.SYS_STATE_STAT_busy 0) F.SYS_STATE_STAT_target 0 := by
  unfold refuseReq
  rw [irq_sys]

theorem opState_refuseReq : opState (refuseReq n s) = opState s := by
  unfold opState
  rw [refuseReq_sysRegs, getF_setF_bits _ _ (by decide) (by decide), getF_setF_bits _ _ (by decide) (by decide),
    getF_setFlag_bits _ (by decide) (by decide), getF_setF_bits _ _ (by decide) (by decide)]

theorem kvGet_refuseReq_ne {o : Nat} (h : o ≠ R.SYS_STATE_STAT) : kvGet (refuseReq n s).sys.r o = kvGet s.sys.r o := by
  rw [refuseReq_sysRegs, kvGet_setF_ne _ _ h, kvGet_setF_ne _ _ h, kvGet_setFlag_ne _ h, kvGet_setF_ne _ _ h]

theorem refuseReq_refused : flag (refuseReq n s).sys.r F.SYS_STATE_STAT_refused = true := by
  rw [refuseReq_sysRegs, flag_setF_bits _ _ (by decide) (by decide), flag_setF_bits _ _ (by decide) (by decide)]
  exact flag_setFlag_self _ _ (by decide) (by decide)

theorem refuseReq_notBusy : flag (refuseReq n s).sys.r F.SYS_STATE_STAT_busy = false := by
  rw [refuseReq_sysRegs, flag_setF_bits _ _ (by decide) (by decide), flag, getF_setF_small _ _ (by decide) (by decide)]
  rfl

theorem refuseReq_reason (h : n < 256) : getF (refuseReq n s).sys.r F.SYS_STATE_STAT_reason = n := by
  rw [refuseReq_sysRegs, getF_setF_bits _ _ (by decide) (by decide), getF_setF_bits _ _ (by decide) (by decide),
    getF_setFlag_bits _ (by decide) (by decide), getF_setF_small _ _ (by decide) h]

theorem refuseReq_irq : getBit (refuseReq n s).hst.r R.HST_IRQ_STAT 1 = true := irq_stat 1 _ (by decide)

theorem requestChanges_refuseReq : RequestChanges s (refuseReq n s) := by
  unfold RequestChanges
  rw [refuseReq_frame]

end

/-! ## A second request (R327) -/

section
variable (s : State)

theorem refuseSecond_frame : refuseSecond s = { s with
    sys := { s.sys with r := (refuseSecond s).sys.r }, hst := (refuseSecond s).hst, two := (refuseSecond s).two,
    out := (refuseSecond s).out } := by
  unfold refuseSecond
  rw [irq_frame]

theorem refuseSecond_sysRegs : (refuseSecond s).sys.r =
    setFlag (setF s.sys.r F.SYS_STATE_STAT_reason 2) F.SYS_STATE_STAT_refused := by
  unfold refuseSecond
  rw [irq_sys]

theorem opState_refuseSecond : opState (refuseSecond s) = opState s := by
  unfold opState
  rw [refuseSecond_sysRegs, getF_setFlag_bits _ (by decide) (by decide), getF_setF_bits _ _ (by decide) (by decide)]

theorem refuseSecond_shows : flag (refuseSecond s).sys.r F.SYS_STATE_STAT_refused = true ∧
    getF (refuseSecond s).sys.r F.SYS_STATE_STAT_reason = 2 := by
  rw [refuseSecond_sysRegs]
  refine ⟨flag_setFlag_self _ _ (by decide) (by decide), ?_⟩
  rw [getF_setFlag_bits _ (by decide) (by decide), getF_setF_small _ _ (by decide) (by decide)]

theorem refuseSecond_irq : getBit (refuseSecond s).hst.r R.HST_IRQ_STAT 1 = true := irq_stat 1 _ (by decide)

end

/-! ## A request done at once (R326, R328) -/

section
variable (k : Nat) (s : State)

theorem stateDone_frame : stateDone k s = { s with
    sys := { s.sys with req := none, r := (stateDone k s).sys.r }, hst := (stateDone k s).hst, two := (stateDone k s).two,
    out := (stateDone k s).out } := by
  unfold stateDone
  rw [irq_frame]

theorem stateDone_sysRegs : (stateDone k s).sys.r = setF (setF (setFlag (setF s.sys.r F.SYS_STATE_STAT_state k)
    F.SYS_STATE_STAT_done) F.SYS_STATE_STAT_busy 0) F.SYS_STATE_STAT_target 0 := by
  unfold stateDone
  rw [irq_sys]

theorem opState_stateDone (h : k < 8) : opState (stateDone k s) = k := by
  unfold opState
  rw [stateDone_sysRegs, getF_setF_bits _ _ (by decide) (by decide), getF_setF_bits _ _ (by decide) (by decide),
    getF_setFlag_bits _ (by decide) (by decide), getF_setF_small _ _ (by decide) h]

theorem stateDone_done : flag (stateDone k s).sys.r F.SYS_STATE_STAT_done = true := by
  rw [stateDone_sysRegs, flag_setF_bits _ _ (by decide) (by decide), flag_setF_bits _ _ (by decide) (by decide)]
  exact flag_setFlag_self _ _ (by decide) (by decide)

theorem stateDone_irq : getBit (stateDone k s).hst.r R.HST_IRQ_STAT 1 = true := irq_stat 1 _ (by decide)

end

theorem opState_lt (s : State) : opState s < 8 := getF_lt s.sys.r F.SYS_STATE_STAT_state

/-! ## A request that becomes pending (R327) -/

section
variable (k : Nat) (f : ReqPhase) (s : State)

theorem opState_acceptReq : opState (acceptReq k f s) = opState s := by
  unfold opState acceptReq
  rw [getF_setF_bits _ _ (by decide) (by decide), getF_setF_bits _ _ (by decide) (by decide)]

theorem acceptReq_busy : flag (acceptReq k f s).sys.r F.SYS_STATE_STAT_busy = true := by
  unfold acceptReq
  rw [flag_setF_bits _ _ (by decide) (by decide), flag, getF_setF_small _ _ (by decide) (by decide)]
  rfl

theorem acceptReq_target (h : k < 8) : getF (acceptReq k f s).sys.r F.SYS_STATE_STAT_target = k := getF_setF_small _ _ (by decide) h

theorem kvGet_acceptReq_ne {o : Nat} (h : o ≠ R.SYS_STATE_STAT) : kvGet (acceptReq k f s).sys.r o = kvGet s.sys.r o :=
  (kvGet_setF_ne _ _ h).trans (kvGet_setF_ne _ _ h)

end

/-! ## Which request is judged how (R326 to R329) -/

theorem permitted_ne {a b : Nat} (h : permitted a b = true) : a ≠ b := by
  rintro rfl
  simp [permitted] at h
  omega

section
variable {k : Nat} {s : State}

theorem reqState_second (h : s.sys.req ≠ none) : reqState k s = refuseSecond s := if_pos (Option.isSome_iff_ne_none.2 h)

variable (hn : s.sys.req = none)
include hn

theorem reqState_first : reqState k s =
    if k = opState s then stateDone k s
    else if !permitted (opState s) k then refuseReq 1 s
    else if k ≤ 3 ∧ opState s ≤ 3 then if k = 3 ∧ ¬ coreReady s then refuseReq 8 s else arbitrate (acceptReq k .units s)
    else if k = 4 ∧ opState s = 3 then reqLoadedNow s
    else if k = 5 then reqArmedNow s
    else if k = 6 then reqRunNow s
    else acceptReq k .boundary s := if_neg (by simp [hn])

theorem reqState_inForce (h : k = opState s) : reqState k s = stateDone k s := by
  rw [reqState_first hn, if_pos h]

theorem reqState_barred (hk : k ≠ opState s) (h : permitted (opState s) k = false) : reqState k s = refuseReq 1 s := by
  rw [reqState_first hn, if_neg hk, h]
  rfl

theorem reqState_asleep (h : opState s = 1 ∨ opState s = 2) (hc : coreReady s = false) : reqState 3 s = refuseReq 8 s := by
  have hp : permitted (opState s) 3 = true := by obtain h | h := h <;> rw [h] <;> rfl
  rw [reqState_first hn, if_neg (by omega), hp, if_neg (by decide), if_pos (by omega), if_pos (by simp [hc])]

theorem reqState_loaded (h : opState s = 3) : reqState 4 s = reqLoadedNow s := by
  rw [reqState_first hn, h]
  rfl

/-- Of the states with strides running, a permitted request is for ARMED, for RUN, or waits for the boundary as it is. -/
theorem reqState_strides (h4 : 4 ≤ opState s) (hp : permitted (opState s) k = true) : reqState k s =
    if k = 5 then reqArmedNow s else if k = 6 then reqRunNow s else acceptReq k .boundary s := by
  rw [reqState_first hn, if_neg (permitted_ne hp).symm, hp, if_neg (by decide), if_neg (by omega), if_neg (by omega)]

end

/-! ## The checks for ARMED and RUN (R44, R89, R216, R263, R337) -/

theorem setPack_frame (p : PackResult) (s : State) : setPack p s = { s with plc := { s.plc with r := (setPack p s).plc.r } } := rfl

section
variable {s : State}

theorem reqArmedNow_fails (h : armCheck s ≠ none) : ∃ i p, reqArmedNow s =
    refuseReq 4 { s with img := { s.img with r := i }, plc := { s.plc with r := p } } := by
  obtain ⟨e, he⟩ := Option.ne_none_iff_exists'.1 h
  unfold reqArmedNow
  rw [he]
  dsimp only
  split
  · exact ⟨_, _, rfl⟩
  · exact ⟨_, _, rfl⟩

variable (h : armCheck s = none)
include h

/-- With the check of R89 passed the reference, the rings and the hive decide. -/
theorem reqArmedNow_passes : reqArmedNow s =
    if !flag s.acq.r F.ACQ_STAT_ref_ready then refuseReq 5 (setPack {} s)
    else if !ringsArmOk s then refuseReq 6 (setPack {} s)
    else if s.img.str.role = 1 ∧ 1 < s.img.str.hSize then
      acceptReq 5 (.hive 4) { setPack {} s with lnk := { s.lnk with reqMark := true, reports := [] } }
    else acceptReq 5 .boundary (setPack {} s) := by
  unfold reqArmedNow
  rw [h]
  rfl

theorem reqArmedNow_noRef (hr : flag s.acq.r F.ACQ_STAT_ref_ready = false) : reqArmedNow s = refuseReq 5 (setPack {} s) := by
  rw [reqArmedNow_passes h, hr]
  rfl

theorem reqArmedNow_rings (hr : flag s.acq.r F.ACQ_STAT_ref_ready = true) (hg : ringsArmOk s = false) :
    reqArmedNow s = refuseReq 6 (setPack {} s) := by
  rw [reqArmedNow_passes h, hr, hg]
  rfl

theorem reqArmedNow_ok (hr : flag s.acq.r F.ACQ_STAT_ref_ready = true) (hg : ringsArmOk s = true) : reqArmedNow s =
    if s.img.str.role = 1 ∧ 1 < s.img.str.hSize then
      acceptReq 5 (.hive 4) { setPack {} s with lnk := { s.lnk with reqMark := true, reports := [] } }
    else acceptReq 5 .boundary (setPack {} s) := by
  rw [reqArmedNow_passes h, hr, hg]
  rfl

end

section
variable {s : State}

theorem reqRunNow_over (h0 : getF s.bgt.r F.BGT_GD_CFG_gd_ma_total ≠ 0) (h : getF s.bgt.r F.BGT_GD_CFG_gd_ma_total < gdUse s) :
    reqRunNow s = refuseReq 9 s := if_pos ⟨h0, h⟩

theorem reqRunNow_within (h : getF s.bgt.r F.BGT_GD_CFG_gd_ma_total = 0 ∨ gdUse s ≤ getF s.bgt.r F.BGT_GD_CFG_gd_ma_total) :
    reqRunNow s = acceptReq 6 .boundary s := if_neg (by omega)

theorem reqLoadedNow_busy (h : imgBusy s = true) : reqLoadedNow s = refuseReq 10 s := if_pos h

end

/-! ## The statement -/

/-- The state requests by the state they ask for. -/
def stateRequests (p : Path) : List (Nat × Instr) :=
  [(1, .reqCold p), (2, .reqService p), (3, .reqIdle p), (4, .reqLoaded p), (5, .reqArmed p), (6, .reqRun p), (7, .reqHold p)]

/-- Each command of a state request is a write of `SYS_STATE_CMD`. -/
theorem exec_request {p : Path} {k : Nat} {c : Instr} {s : State} (hu : s.sys.up = true) (h : (k, c) ∈ stateRequests p) :
    exec c s = .next (reqState k s) := by
  have hup : whenUp (reqState k) s = .next (reqState k s) := by rw [whenUp_next, if_pos hu]
  simp only [stateRequests, List.mem_cons, Prod.mk.injEq, List.not_mem_nil, or_false] at h
  obtain ⟨rfl, rfl⟩ | ⟨rfl, rfl⟩ | ⟨rfl, rfl⟩ | ⟨rfl, rfl⟩ | ⟨rfl, rfl⟩ | ⟨rfl, rfl⟩ | ⟨rfl, rfl⟩ := h <;> exact hup

/-- A refusal with reason `n` beside which the reports of the check for ARMED may change. -/
structure Refused (n : Nat) (s t : State) : Prop where
  frame   : t = { s with sys := { s.sys with r := t.sys.r }, img := { s.img with r := t.img.r, ready := none },
                         plc := { s.plc with r := t.plc.r }, hst := t.hst, two := t.two, out := t.out }
  state   : opState t = opState s
  refused : flag t.sys.r F.SYS_STATE_STAT_refused = true
  reason  : getF t.sys.r F.SYS_STATE_STAT_reason = n
  busy    : flag t.sys.r F.SYS_STATE_STAT_busy = false
  irq     : getBit t.hst.r R.HST_IRQ_STAT 1 = true

theorem refused_refuseReq {n : Nat} (h : n < 256) {s : State} (hn : s.sys.req = none) (i p : RegFile) :
    Refused n s (refuseReq n { s with img := { s.img with r := i }, plc := { s.plc with r := p } }) := by
  refine ⟨?_, opState_refuseReq .., refuseReq_refused .., refuseReq_reason _ _ h, refuseReq_notBusy .., refuseReq_irq ..⟩
  rw [refuseReq_frame, ← hn]

/-- A request that is accepted for the boundary or the reports of a hive, as the second part of the statement has it. -/
theorem reqState_accepts {k : Nat} {s : State} (hn : s.sys.req = none) (h4 : 4 ≤ opState s) (hp : permitted (opState s) k = true)
    (h6 : k = 6 → getF s.bgt.r F.BGT_GD_CFG_gd_ma_total = 0 ∨ gdUse s ≤ getF s.bgt.r F.BGT_GD_CFG_gd_ma_total)
    (h5 : k = 5 → armCheck s = none ∧ flag s.acq.r F.ACQ_STAT_ref_ready = true ∧ ringsArmOk s = true) :
    ∃ (f : ReqPhase) (p : RegFile) (l : Lnk), reqState k s = acceptReq k f { s with plc := { s.plc with r := p }, lnk := l } ∧
      (k ≠ 5 → p = s.plc.r) ∧
      (if k = 5 ∧ s.img.str.role = 1 ∧ 1 < s.img.str.hSize then f = .hive 4 ∧ l = { s.lnk with reqMark := true, reports := [] }
       else f = .boundary ∧ l = s.lnk) := by
  rw [reqState_strides hn h4 hp]
  by_cases hk5 : k = 5
  · obtain ⟨hc, hr, hg⟩ := h5 hk5
    subst hk5
    rw [if_pos rfl, reqArmedNow_ok hc hr hg]
    by_cases hh : s.img.str.role = 1 ∧ 1 < s.img.str.hSize
    · rw [if_pos hh]
      exact ⟨_, _, _, rfl, fun h => absurd rfl h, by rw [if_pos ⟨rfl, hh⟩]; exact ⟨rfl, rfl⟩⟩
    · rw [if_neg hh]
      exact ⟨_, _, _, rfl, fun h => absurd rfl h, by rw [if_neg fun h => hh h.2]; exact ⟨rfl, rfl⟩⟩
  · have hbound : (if k = 6 then reqRunNow s else acceptReq k .boundary s) = acceptReq k .boundary s := by
      split
      next hk6 =>
        subst hk6
        exact reqRunNow_within (h6 rfl)
      next => rfl
    rw [if_neg hk5, hbound]
    exact ⟨_, _, _, rfl, fun _ => rfl, by rw [if_neg fun h => hk5 h.1]; exact ⟨rfl, rfl⟩⟩

/-- What refuses a request of a permitted transition, by its reason (R84, R89, R216, R263, R329, R337). -/
def RefusedFor (s : State) : Nat → Prop
  | 8 => (opState s = 1 ∨ opState s = 2) ∧ coreReady s = false
  | 10 => opState s = 3 ∧ imgBusy s = true
  | 4 => opState s = 4 ∧ armCheck s ≠ none
  | 5 => opState s = 4 ∧ armCheck s = none ∧ flag s.acq.r F.ACQ_STAT_ref_ready = false
  | 6 => opState s = 4 ∧ armCheck s = none ∧ flag s.acq.r F.ACQ_STAT_ref_ready = true ∧ ringsArmOk s = false
  | _ => (opState s = 5 ∨ opState s = 7) ∧ getF s.bgt.r F.BGT_GD_CFG_gd_ma_total ≠ 0 ∧ getF s.bgt.r F.BGT_GD_CFG_gd_ma_total < gdUse s

/-- The reasons of these refusals, each with the state its request asks for. -/
def refusals : List (Nat × Nat) := [(8, 3), (10, 4), (4, 5), (5, 5), (6, 5), (9, 6)]

/-- A request that cannot be carried out is refused with its reason; only the check for ARMED leaves a report. -/
theorem reqState_refuses {k n : Nat} {s : State} (hn : s.sys.req = none)
    (hk : (n, k) ∈ refusals) (h : RefusedFor s n) : ∃ i p : RegFile,
    reqState k s = refuseReq n { s with img := { s.img with r := i }, plc := { s.plc with r := p } } ∧
      (n ≠ 4 → i = s.img.r) ∧ (n < 4 ∨ 6 < n → p = s.plc.r) := by
  have harmed (h4 : opState s = 4) : reqState 5 s = reqArmedNow s := by
    rw [reqState_strides hn (by omega) (by rw [h4]; rfl), if_pos rfl]
  simp only [refusals, List.mem_cons, Prod.mk.injEq, List.not_mem_nil, or_false] at hk
  obtain ⟨rfl, rfl⟩ | ⟨rfl, rfl⟩ | ⟨rfl, rfl⟩ | ⟨rfl, rfl⟩ | ⟨rfl, rfl⟩ | ⟨rfl, rfl⟩ := hk
  · obtain ⟨hst, hc⟩ := h
    exact ⟨_, _, reqState_asleep hn hst hc, fun _ => rfl, fun _ => rfl⟩
  · obtain ⟨hst, hb⟩ := h
    exact ⟨_, _, (reqState_loaded hn hst).trans (reqLoadedNow_busy hb), fun _ => rfl, fun _ => rfl⟩
  · obtain ⟨hst, hf⟩ := h
    obtain ⟨i, p, heq⟩ := reqArmedNow_fails hf
    exact ⟨i, p, (harmed hst).trans heq, fun h => absurd rfl h, fun h => absurd h (by decide)⟩
  · obtain ⟨hst, hf, hr⟩ := h
    exact ⟨_, _, (harmed hst).trans (reqArmedNow_noRef hf hr), fun _ => rfl, fun h => absurd h (by decide)⟩
  · obtain ⟨hst, hf, hr, hg⟩ := h
    exact ⟨_, _, (harmed hst).trans (reqArmedNow_rings hf hr hg), fun _ => rfl, fun h => absurd h (by decide)⟩
  · obtain ⟨hst, h0, hlt⟩ := h
    have hp : permitted (opState s) 6 = true := by obtain h | h := hst <;> rw [h] <;> rfl
    rw [reqState_strides hn (by omega) hp, if_neg (by decide), if_pos rfl, reqRunNow_over h0 hlt]
    exact ⟨_, _, rfl, fun _ => rfl, fun _ => rfl⟩

/-- Settles O13: a second request, one of the state in force and one not permitted; those that wait for a boundary; and each refusal
by its reason. -/
theorem stateRequestsJudged : Obligations.StateRequestsJudged := by
  unfold Obligations.StateRequestsJudged
  refine ⟨fun p k c s hmem hu => ?_, fun p k c s hmem hu hn h4 hp h6 h5 => ?_, fun p n c s hmem hu hn hcase => ?_⟩
  · refine ⟨_, exec_request hu hmem, fun h => ?_, fun h => ?_, fun hn h => ?_, fun hn hk h => ?_⟩
    · by_cases hn : s.sys.req = none
      · by_cases hk : k = opState s
        · rw [reqState_inForce hn hk]
          refine ⟨?_, ?_, stateDone_irq k s⟩
          · rw [stateDone_frame]
          · rw [opState_stateDone k s (hk ▸ opState_lt s), hk]
        · obtain h | h | h := h
          · exact absurd hn h
          · exact absurd h hk
          · rw [reqState_barred hn hk h]
            exact ⟨requestChanges_refuseReq 1 s, opState_refuseReq 1 s, refuseReq_irq 1 s⟩
      · rw [reqState_second hn]
        refine ⟨?_, opState_refuseSecond s, refuseSecond_irq s⟩
        rw [refuseSecond_frame]
    · obtain ⟨href, hreason⟩ := refuseSecond_shows s
      rw [reqState_second h]
      refine ⟨?_, ?_, href, hreason⟩ <;> rw [refuseSecond_frame]
    · rw [reqState_inForce hn h]
      refine ⟨?_, stateDone_done k s⟩
      rw [stateDone_frame]
    · rw [reqState_barred hn hk h]
      refine ⟨?_, refuseReq_refused 1 s, refuseReq_reason 1 s (by decide)⟩
      rw [refuseReq_frame]
  · have hk : k < 8 := by
      simp only [List.mem_cons, Prod.mk.injEq, List.not_mem_nil, or_false] at hmem
      omega
    obtain ⟨f, q, l, heq, hplc, hif⟩ := reqState_accepts hn h4 hp h6 h5
    refine ⟨_, exec_request hu (List.mem_cons_of_mem _ (List.mem_cons_of_mem _ hmem)), ?_⟩
    rw [heq]
    refine ⟨rfl, fun h => ?_, opState_acceptReq .., ?_, acceptReq_busy .., acceptReq_target _ _ _ hk, fun o ho => kvGet_acceptReq_ne _ _ _ ho⟩
    · rw [hplc h]
      rfl
    · split at hif
      next hh =>
        obtain ⟨rfl, rfl⟩ := hif
        rw [if_pos hh, hh.1]
        exact ⟨rfl, rfl⟩
      next hh =>
        obtain ⟨rfl, rfl⟩ := hif
        rw [if_neg hh]
        exact ⟨rfl, rfl⟩
  · obtain ⟨k, hk, hreq⟩ : ∃ k, (n, k) ∈ refusals ∧ (k, c) ∈ stateRequests p := by
      simp only [refusals, stateRequests, List.mem_cons, Prod.mk.injEq, List.not_mem_nil, or_false] at hmem ⊢
      obtain ⟨rfl, rfl⟩ | ⟨rfl, rfl⟩ | ⟨rfl, rfl⟩ | ⟨rfl, rfl⟩ | ⟨rfl, rfl⟩ | ⟨rfl, rfl⟩ := hmem <;> simp
    have hfor : RefusedFor s n := hcase
    have hlt : n < 256 := by
      simp only [refusals, List.mem_cons, Prod.mk.injEq, List.not_mem_nil, or_false] at hk
      omega
    obtain ⟨i, q, heq, himg, hplc⟩ := reqState_refuses hn hk hfor
    have href := refused_refuseReq hlt hn i q
    refine ⟨_, exec_request hu hreq, ?_⟩
    rw [heq]
    refine ⟨href.frame, href.state, href.refused, href.reason, href.busy, fun h => ?_, fun h => ?_, href.irq⟩
    · rw [refuseReq_frame, himg h]
    · rw [refuseReq_frame, hplc h]

end Sys2Proof.Machine
end

section
/-! Aborts not acknowledged, the snapshot and the context window (R34, R91, R113, R125, R126): what each access leaves, and the
statement about them. -/
namespace Sys2Proof.Machine

/-! ## A write that is ignored (R91) -/

/-- A write that a block ignored sets the block's flag; beside it only the SYS register that holds the first such write may change. -/
theorem wrIgnored_flag {b : Nat} {f : Fld} (hf : wignFld b = some f) (ofs : Nat) (s : State) : ∃ q : RegFile,
    wrIgnored b ofs s = setRegs b (setFlag (blkRegs b s) f) { s with sys := { s.sys with r := q } } ∧
      ∀ o, o ≠ R.SYS_WRITE_IGN_ADDR → kvGet q o = kvGet s.sys.r o := by
  have hblk (q : RegFile) : blkRegs b { s with sys := { s.sys with r := q } } = blkRegs b s := by
    unfold blkRegs
    split
    · cases hf
    all_goals rfl
  unfold wrIgnored
  rw [hf]
  dsimp only
  split
  · rw [hblk]
    exact ⟨_, rfl, fun o ho => (kvGet_setF_ne _ _ ho).trans (kvGet_setFlag_ne _ ho)⟩
  · exact ⟨s.sys.r, rfl, fun _ _ => rfl⟩

/-! ## Contexts -/

section
variable {c j : Nat} (f : Ctx → Ctx) (x : Cea)

theorem getD_modCtx_self (h : c < x.ctxs.length) : (modCtx c f x).ctxs.getD c {} = f (x.ctxs.getD c {}) := by
  simp [modCtx, List.getD_eq_getElem?_getD, h]

theorem getD_modCtx_ne (h : j ≠ c) : (modCtx c f x).ctxs.getD j {} = x.ctxs.getD j {} := by
  simp [modCtx, List.getD_eq_getElem?_getD, Ne.symm h]

end

/-- Context `c` of the state changes by `f` and no other context does. -/
structure CtxChanged (c : Nat) (f : Ctx → Ctx) (s t : State) : Prop where
  self  : ctxAt t c = f (ctxAt s c)
  other : ∀ j, j ≠ c → ctxAt t j = ctxAt s j

theorem ctxChanged_of_ctxs {c : Nat} {f : Ctx → Ctx} {s t : State} (hc : c < s.cea.ctxs.length)
    (h : t.cea.ctxs = (modCtx c f s.cea).ctxs) : CtxChanged c f s t := by
  refine ⟨?_, fun j hj => ?_⟩
  · rw [ctxAt, h, getD_modCtx_self f s.cea hc]
    rfl
  · rw [ctxAt, h, getD_modCtx_ne f s.cea hj]
    rfl

/-! ## Aborts (R34) -/

/-- The context that an abort not acknowledged names. -/
def abortedCtx (g : Eng) : Nat := (if g.aborting then g.run else g.lateCtx).getD 255

/-- Engine `e` is marked in `CEA_ENG_STAT`, and its abort is over. -/
def abortMarked (e : Fin 16) (s : State) : State :=
  { s with cea := { s.cea with r := putBit s.cea.r R.CEA_ENG_STAT e true,
                               eng := s.cea.eng.set e { s.cea.eng[e] with aborting := false, lateCtx := none } } }

section
variable {e : Fin 16} {s : State}

theorem engineAbortTimeout_outstanding (h : s.cea.eng[e].aborting = true ∨ s.cea.eng[e].lateCtx ≠ none) :
    engineAbortTimeout e s = raise (32 + e) e (abortedCtx s.cea.eng[e]) (abortMarked e s) := by
  have hrun : ¬((!s.cea.eng[e].aborting && s.cea.eng[e].lateCtx.isNone) = true) := by
    obtain h | h := h
    · rw [h]
      exact Bool.false_ne_true
    · rw [Option.isNone_eq_false_iff.2 (Option.isSome_iff_ne_none.2 h), Bool.and_false]
      exact Bool.false_ne_true
  unfold engineAbortTimeout abortMarked
  rw [vget_fin]
  dsimp only
  rw [if_neg hrun, vset_fin]
  rfl

theorem engineAbortTimeout_none (ha : s.cea.eng[e].aborting = false) (hl : s.cea.eng[e].lateCtx = none) : engineAbortTimeout e s = s := by
  unfold engineAbortTimeout
  rw [vget_fin]
  exact if_pos (by rw [ha, hl]; rfl)

theorem getBit_abortMarked_ne {i : Nat} (h : i ≠ e.val) :
    getBit (abortMarked e s).cea.r R.CEA_ENG_STAT i = getBit s.cea.r R.CEA_ENG_STAT i := by
  by_cases hi : i < 32
  · exact getBit_putBit_ne _ _ _ _ _ _ (.inr h) hi
  · unfold getBit
    rw [BitVec.getLsbD_of_ge _ _ (not_lt.1 hi), BitVec.getLsbD_of_ge _ _ (not_lt.1 hi)]

end

/-! ## Coefficient words (R113, R126) -/

/-- What a write of a coefficient word of bank A does to its context. -/
def coefSetA (i : Nat) (val : Word) (x : Ctx) : Ctx :=
  { x with parBad := x.parBad.filter (· != 4 * i), bankA := x.bankA.set i val }

/-- What a write of a coefficient word of bank B does to its context. -/
def coefSetB (i : Nat) (val : Word) (x : Ctx) : Ctx :=
  { x with parBad := x.parBad.filter (· != 0x140 + 4 * i), bankB := x.bankB.set i val }

section
variable {i : Nat} (val : Word)

theorem putCoef_bankA (c : Nat) (x : Cea) (hi : i < 80) : putCoef c (4 * i) val x = modCtx c (coefSetA i val) x := by
  unfold putCoef
  congr 1
  funext k
  dsimp only
  rw [if_pos (by omega), Nat.mul_div_cancel_left i (by decide)]
  rfl

theorem putCoef_bankB (c : Nat) (x : Cea) : putCoef c (0x140 + 4 * i) val x = modCtx c (coefSetB i val) x := by
  unfold putCoef
  congr 1
  funext k
  dsimp only
  rw [if_neg (by omega), Nat.add_sub_cancel_left, Nat.mul_div_cancel_left i (by decide)]
  rfl

variable {k : Nat} {s : State} (hk : k = getF s.cea.r F.CEA_WIN_SEL_ctx) (hlen : k < s.cea.ctxs.length)
  (hi : i < 5 * (ctxAt s k).cfg.nSec) (h80 : i < 80)
include hk hlen hi h80

/-- A write of a word of bank A takes effect at once, or is ignored while contexts compute. -/
theorem coeffWrite_bankA : coeffWrite (4 * i) val s =
    if computing s then (if (ctxAt s k).bankA.getD i 0 = val then s else wrIgnored 4 (0x8000 + 4 * i) s)
    else { s with cea := modCtx k (coefSetA i val) s.cea } := by
  unfold coeffWrite
  dsimp only
  rw [← hk, if_pos (show 4 * i < 0x140 by omega), if_pos (show 4 * i < 0x140 by omega), Nat.mul_div_cancel_left i (by decide),
    if_neg (by omega), putCoef_bankA val _ _ h80]

/-- A write of a word of bank B takes effect at once, waits for the boundary, or is ignored while the bank is in force. -/
theorem coeffWrite_bankB : coeffWrite (0x140 + 4 * i) val s =
    if bankSel s.cea k then
      (if (ctxAt s k).bankB.getD i 0 = val then s else wrIgnored 4 (0x8000 + (0x140 + 4 * i)) s)
    else if strides s then
      { s with cea := { modCtx k (fun x => { x with parBad := x.parBad.filter (· != 0x140 + 4 * i) }) s.cea with
        live := s.cea.live ++ [{ sel := k, ofs := 0x8140 + 4 * i, lo := 0, width := 32, val := val.toNat }] } }
    else { s with cea := modCtx k (coefSetB i val) s.cea } := by
  have hofs : 0x8000 + (0x140 + 4 * i) = 0x8140 + 4 * i := by omega
  unfold coeffWrite
  dsimp only
  rw [← hk, if_neg (show ¬ 0x140 + 4 * i < 0x140 by omega), if_neg (show ¬ 0x140 + 4 * i < 0x140 by omega), Nat.add_sub_cancel_left,
    Nat.mul_div_cancel_left i (by decide), if_neg (by omega), putCoef_bankB, hofs]

end

/-! ## State words (R126) -/

/-- The low word of `s1` of section `i` waits for its high word. -/
def lowWritten (i : Nat) (lo : Word) (x : Ctx) : Ctx := { x with lowWr := (2 * i, lo) :: x.lowWr.filter (·.1 != 2 * i) }

/-- The low word that a write of the high word of `s1` of section `i` takes with it. -/
def lowTaken (i : Nat) (x : Ctx) : Word := ((x.lowWr.find? (·.1 == 2 * i)).map (·.2)).getD ((stateWords x i).getD 0 0)

/-- The high word of `s1` of section `i` is written with its low word. -/
def highWritten (i : Nat) (val : Word) (x : Ctx) : Ctx :=
  { x with lowWr := x.lowWr.filter (·.1 != 2 * i), s1 := x.s1.set i (val ++ lowTaken i x) }

theorem lowTaken_lowWritten (i : Nat) (lo : Word) (x : Ctx) : lowTaken i (lowWritten i lo x) = lo := by
  simp [lowTaken, lowWritten]

/-- The state after the low word of `s1` of section `i` of context `k` was written, and after its high word was. -/
def stateLow (k i : Nat) (lo : Word) (s : State) : State :=
  { s with cea := { modCtx k (lowWritten i lo) s.cea with snap := kvSet s.cea.snap (0x280 + 16 * i) lo } }

def stateHigh (k i : Nat) (val : Word) (s : State) : State :=
  { s with cea := { modCtx k (highWritten i val) s.cea with snap := kvSet s.cea.snap (0x284 + 16 * i) val } }

section
variable {i k : Nat} (val : Word) {s : State} (hk : k = getF s.cea.r F.CEA_WIN_SEL_ctx) (hlen : k < s.cea.ctxs.length) (h16 : i < 16)
  (hi : i < (ctxAt s k).cfg.nSec)
include hk hlen h16 hi

theorem stateWrite_low (hc : computing s = false) : stateWrite (0x280 + 16 * i) val s =
    stateLow k i val s := by
  have hword : (0x280 + 16 * i - 0x280) / 4 = 4 * i := by omega
  have heven : 4 * i % 2 = 0 := by omega
  have hkey : 4 * i / 2 = 2 * i := by omega
  unfold stateWrite
  dsimp only
  rw [← hk, hword, Nat.mul_div_cancel_left i (by decide), hkey, if_neg (by omega), hc, if_neg Bool.false_ne_true]
  simp only [heven, if_true]
  rfl

theorem stateWrite_high (hc : computing s = false) : stateWrite (0x284 + 16 * i) val s =
    stateHigh k i val s := by
  have hword : (0x284 + 16 * i - 0x280) / 4 = 4 * i + 1 := by omega
  have hsec : (4 * i + 1) / 4 = i := by omega
  have hodd : (4 * i + 1) % 2 = 1 := by omega
  have hpos : (4 * i + 1) % 4 = 1 := by omega
  have hkey : (4 * i + 1) / 2 = 2 * i := by omega
  unfold stateWrite
  dsimp only
  rw [← hk, hword, hsec, hkey, if_neg (by omega), hc, if_neg Bool.false_ne_true]
  simp only [hodd, hpos, one_ne_zero, if_false, if_true]
  rfl

/-- While contexts compute a write that would change the word is ignored. -/
theorem stateWrite_computing (hc : computing s = true) (h : val ≠ ((ctxAt s k).s1.getD i 0).setWidth 32) :
    stateWrite (0x280 + 16 * i) val s = wrIgnored 4 (0x8000 + (0x280 + 16 * i)) s := by
  have hword : (0x280 + 16 * i - 0x280) / 4 = 4 * i := by omega
  have hpos : 4 * i % 4 = 0 := by omega
  unfold stateWrite
  dsimp only
  rw [← hk, hword, Nat.mul_div_cancel_left i (by decide), hpos, if_neg (by omega), hc, if_pos rfl]
  exact if_neg h.symm

end

section
variable {k : Nat} {s : State} (hlen : k < s.cea.ctxs.length) (i : Nat) (v : Word)
include hlen

theorem ctxChanged_stateLow : CtxChanged k (lowWritten i v) s (stateLow k i v s) := ctxChanged_of_ctxs hlen rfl

theorem ctxChanged_stateHigh : CtxChanged k (highWritten i v) s (stateHigh k i v s) := ctxChanged_of_ctxs hlen rfl

theorem stateLow_length : k < (stateLow k i v s).cea.ctxs.length := by
  unfold stateLow modCtx
  rwa [List.length_modify]

end

/-! ## The statement -/

section
variable {s : State} (hc : coreReady s = true)
include hc

theorem exec_engineAbortTimeout (e : Fin 16) : exec (.engineAbortTimeout e) s = .next (engineAbortTimeout e s) := whenCore_ready hc _
theorem exec_snapshotRequest (p : Path) : exec (.snapshotRequest p) s = .next (snapRequest s) := whenCore_ready hc _
theorem exec_contextCoeffWrite (p : Path) (ofs : Nat) (v : Word) : exec (.contextCoeffWrite p ofs v) s = .next (coeffWrite ofs v s) :=
  whenCore_ready hc _
theorem exec_contextStateWrite (p : Path) (ofs : Nat) (v : Word) : exec (.contextStateWrite p ofs v) s = .next (stateWrite ofs v s) :=
  whenCore_ready hc _

end

/-- What a write that CEA ignored leaves. -/
theorem wrIgnored_cea (ofs : Nat) (s : State) : wrIgnored 4 ofs s = { s with
      cea := { s.cea with r := (wrIgnored 4 ofs s).cea.r }, sys := { s.sys with r := (wrIgnored 4 ofs s).sys.r } } ∧
    flag (wrIgnored 4 ofs s).cea.r F.CEA_STAT_write_ignored = true ∧
    ∀ o, o ≠ R.CEA_STAT → kvGet (wrIgnored 4 ofs s).cea.r o = kvGet s.cea.r o := by
  obtain ⟨q, h, -⟩ := wrIgnored_flag (b := 4) rfl ofs s
  rw [h]
  exact ⟨rfl, flag_setFlag_self _ _ (by decide) (by decide), fun o ho => kvGet_setFlag_ne _ ho⟩

/-- Settles O26: an abort by whether it is outstanding, and each write of the window by the bank or the state word it names. -/
theorem engineAndWindowAccess : Obligations.EngineAndWindowAccess := by
  unfold Obligations.EngineAndWindowAccess
  refine ⟨fun p e s hc => ⟨fun h => ?_, fun ha hl => ?_, fun h => ?_, fun h => ?_⟩, fun p i k val s hc hk hlen =>
    ⟨fun hi h80 hA hB => ⟨fun hcomp => ?_, fun hst hsel => ?_, fun hst hsel => ?_, fun b hb => ?_⟩,
      fun h16 hi hs1 lo => ⟨fun hcomp => ?_, fun hcomp hlo => ?_⟩⟩⟩
  · refine ⟨_, exec_engineAbortTimeout hc e, ?_⟩
    rw [engineAbortTimeout_outstanding h]
    exact ⟨rfl, getBit_putBit_self _ _ _ _ (by omega), fun i hi => getBit_abortMarked_ne hi, fun o ho => kvGet_putBit_ne _ _ _ _ _ ho⟩
  · rw [exec_engineAbortTimeout hc, engineAbortTimeout_none ha hl]
  · rw [exec_snapshotRequest hc, snapRequest, h]
    rfl
  · rw [exec_snapshotRequest hc, snapRequest, if_pos (Option.isSome_iff_ne_none.2 h)]
  · refine ⟨_, exec_contextCoeffWrite hc p _ val, ?_⟩
    rw [coeffWrite_bankA val hk hlen hi h80, hcomp, if_neg Bool.false_ne_true]
    obtain ⟨hself, hother⟩ := ctxChanged_of_ctxs (t := { s with cea := modCtx k (coefSetA i val) s.cea }) hlen rfl
    refine ⟨rfl, ?_, ?_, hother⟩ <;> rw [hself] <;> rfl
  · refine ⟨_, exec_contextCoeffWrite hc p _ val, ?_⟩
    rw [coeffWrite_bankB val hk hlen hi h80, hsel, hst, if_neg Bool.false_ne_true, if_neg Bool.false_ne_true]
    obtain ⟨hself, hother⟩ := ctxChanged_of_ctxs (t := { s with cea := modCtx k (coefSetB i val) s.cea }) hlen rfl
    refine ⟨rfl, ?_, ?_, hother⟩ <;> rw [hself] <;> rfl
  · refine ⟨_, exec_contextCoeffWrite hc p _ val, ?_⟩
    rw [coeffWrite_bankB val hk hlen hi h80, hsel, hst, if_neg Bool.false_ne_true, if_pos rfl]
    have hself := getD_modCtx_self (fun x => { x with parBad := x.parBad.filter (· != 0x140 + 4 * i) }) s.cea hlen
    refine ⟨rfl, ?_, ?_, rfl⟩ <;> rw [ctxAt, hself] <;> rfl
  · cases b with
    | false =>
      obtain ⟨hcomp, hne⟩ := hb
      rw [if_neg Bool.false_ne_true, Nat.zero_add]
      refine ⟨_, exec_contextCoeffWrite hc p _ val, ?_⟩
      rw [coeffWrite_bankA val hk hlen hi h80, hcomp, if_pos rfl, if_neg hne]
      exact wrIgnored_cea _ s
    | true =>
      obtain ⟨hsel, hne⟩ := hb
      refine ⟨_, exec_contextCoeffWrite hc p _ val, ?_⟩
      rw [if_pos rfl, coeffWrite_bankB val hk hlen hi h80, hsel, if_pos rfl, if_neg hne]
      exact wrIgnored_cea _ s
  · have hlow := ctxChanged_stateLow hlen i lo
    have hlen' := stateLow_length hlen i lo
    have hhigh := ctxChanged_stateHigh hlen' i val
    have hsec : i < (ctxAt (stateLow k i lo s) k).cfg.nSec := by rwa [hlow.self]
    have hctx : ctxAt (stateHigh k i val (stateLow k i lo s)) k = highWritten i val (lowWritten i lo (ctxAt s k)) := by
      rw [hhigh.self, hlow.self]
    refine ⟨stateLow k i lo s, stateHigh k i val (stateLow k i lo s), ?_, rfl, ?_, ?_, rfl, ?_, ?_, fun j hj => ?_, ?_, ?_⟩
    · rw [exec_contextStateWrite hc, stateWrite_low lo hk hlen h16 hi hcomp]
    · rw [hlow.self]
      rfl
    · rw [exec_contextStateWrite (s := stateLow k i lo s) hc,
        stateWrite_high (s := stateLow k i lo s) val hk hlen' h16 hsec hcomp]
    · rw [hctx, highWritten, lowTaken_lowWritten]
      rfl
    · rw [hctx]
      rfl
    · rw [hhigh.other j hj, hlow.other j hj]
    · exact kvGet_kvSet_self ..
    · exact (kvGet_kvSet_ne _ _ (by omega)).trans (kvGet_kvSet_self ..)
  · refine ⟨_, exec_contextStateWrite hc p _ lo, ?_⟩
    rw [stateWrite_computing lo hk hlen h16 hi hcomp hlo]
    obtain ⟨hframe, hflag, -⟩ := wrIgnored_cea (0x8000 + (0x280 + 16 * i)) s
    exact ⟨hframe, hflag⟩

end Sys2Proof.Machine
end

section
/-! CONTEXT_COMPLETE (R32, R99, R109, R112): what a completion leaves in its context, its engine and its outputs, and the statement
about it. -/
namespace Sys2Proof.Machine

/-! ## Signals (R106) -/

/-- A number that a signal can hold. -/
def IsSignal (x : Int) : Prop := -2 ^ 31 ≤ x ∧ x < 2 ^ 31

theorem isSignal_toSignal (x : Int) : IsSignal (toSignal x) := by
  unfold IsSignal toSignal satInt
  omega

theorem isSignal_toInt (w : Word) : IsSignal w.toInt := ⟨BitVec.le_toInt w, BitVec.toInt_lt⟩

theorem isSignal_clampOut {hi lo u : Int} (hh : IsSignal hi) (hl : IsSignal lo) (hu : IsSignal u) : IsSignal (clampOut hi lo u) := by
  unfold IsSignal clampOut at *
  omega

theorem toInt_wordOf {x : Int} (h : IsSignal x) : (wordOf x).toInt = x := by
  unfold IsSignal at h
  exact BitVec.toInt_ofInt_eq_self (by decide) h.1 h.2

theorem isSignal_inputStage : ∀ l : List Int, IsSignal (inputStage l)
  | [] => ⟨by decide, by decide⟩
  | _ :: _ => isSignal_toSignal _

/-- The unclamped output is a signal. -/
theorem isSignal_cascade (coef : List Word) (s1 s2 : List (BitVec 64)) (hi lo : Int) (n j : Nat) {x : Int} (hx : IsSignal x) :
    IsSignal (cascade coef s1 s2 hi lo n j x).u := by
  induction n generalizing j x with
  | zero => exact hx
  | succ n ih => exact ih (j + 1) (isSignal_toSignal _)

/-- The published value is the unclamped output within the clamps (R109). -/
theorem completeCtx_pub (coef : List Word) (x : Ctx) : (completeCtx coef x).pub.toInt =
    min (max (completeCtx coef x).u.toInt x.clampLo.toInt) x.clampHi.toInt := by
  have hu : IsSignal (cascade coef x.s1 x.s2 x.clampHi.toInt x.clampLo.toInt x.cfg.nSec 0 (inputStage x.v)).u :=
    isSignal_cascade _ _ _ _ _ _ _ (isSignal_inputStage _)
  unfold completeCtx
  dsimp only
  rw [toInt_wordOf hu, toInt_wordOf (isSignal_clampOut (isSignal_toInt _) (isSignal_toInt _) hu)]
  rfl

/-! ## Outputs (R112) -/

theorem getElem_vmod {α : Type} {n : Nat} (v : Vector α n) (i : Nat) (f : α → α) (j : Fin n) :
    (vmod v i f)[j] = if i = j.val then f v[j] else v[j] := by
  split
  next h =>
    subst h
    simp [vmod]
  next h =>
    rw [← vget_fin (vmod v i f) v[j] j, vget_vmod_ne v f _ (Ne.symm h), vget_fin]

section
variable (pub : Word) (b : Binding) (s : State)

/-- An output binding changes the queued set of its output or the command published, and nothing else. -/
theorem driveOut_frame : driveOut pub b s = { s with
    pwm := { s.pwm with ph := (driveOut pub b s).pwm.ph, aux := (driveOut pub b s).pwm.aux },
    bus := { s.bus with pubCmd := (driveOut pub b s).bus.pubCmd } } := by
  unfold driveOut
  split
  · rfl
  · split
    · rfl
    · split <;> rfl

theorem driveOut_phases : (driveOut pub b s).pwm.ph = if b.kind = 0x11 then
    vmod s.pwm.ph b.idx fun x => { x with c := queueSet pub (strideTag s) x.c } else s.pwm.ph := by
  unfold driveOut
  split
  · rfl
  · split
    · rfl
    · split <;> rfl

theorem driveOut_auxes : (driveOut pub b s).pwm.aux = if b.kind = 0x14 then
    vmod s.pwm.aux b.idx fun x => { x with c := queueSet pub (strideTag s) x.c } else s.pwm.aux := by
  unfold driveOut
  split
  next h => rw [h]; rfl
  next =>
    split
    next h => rw [h]; rfl
    next => split <;> rfl

theorem driveOut_phase (p : Fin 48) : (driveOut pub b s).pwm.ph[p] = if b.kind = 0x11 ∧ b.idx = p.val then
    { s.pwm.ph[p] with c := queueSet pub (strideTag s) s.pwm.ph[p].c } else s.pwm.ph[p] := by
  rw [driveOut_phases]
  by_cases hk : b.kind = 0x11
  · simp only [hk, if_true, true_and, getElem_vmod]
  · simp only [hk, if_false, false_and]

theorem driveOut_aux (x : Fin 8) : (driveOut pub b s).pwm.aux[x] = if b.kind = 0x14 ∧ b.idx = x.val then
    { s.pwm.aux[x] with c := queueSet pub (strideTag s) s.pwm.aux[x].c } else s.pwm.aux[x] := by
  rw [driveOut_auxes]
  by_cases hk : b.kind = 0x14
  · simp only [hk, if_true, true_and, getElem_vmod]
  · simp only [hk, if_false, false_and]

theorem driveOut_pubCmd : (driveOut pub b s).bus.pubCmd = if b.kind = 0x12 then some pub else s.bus.pubCmd := by
  unfold driveOut
  split
  next h => rw [if_neg (by rw [h]; decide)]
  next h =>
    split
    · rfl
    · split <;> rfl

theorem strideTag_driveOut : strideTag (driveOut pub b s) = strideTag s := by
  rw [driveOut_frame]
  rfl

end

/-- What one member's step establishes and every step keeps holds in the end; `I` holds throughout. -/
theorem foldl_of_mem {α β : Type} {I P : β → Prop} {f : β → α → β} (hI : ∀ b x, I b → I (f b x))
    (hkeep : ∀ b x, I b → P b → P (f b x)) {x : α} (hset : ∀ b, I b → P (f b x)) :
    ∀ (l : List α) (b : β), x ∈ l → I b → P (l.foldl f b) := by
  have hstay : ∀ (l : List α) (b : β), I b → P b → P (l.foldl f b) := by
    intro l
    induction l with
    | nil => exact fun b _ h => h
    | cons y t ih => exact fun b hb h => ih _ (hI b y hb) (hkeep b y hb h)
  intro l
  induction l with
  | nil => exact fun b h => absurd h List.not_mem_nil
  | cons y t ih =>
    intro b h hb
    obtain rfl | h := List.mem_cons.1 h
    · exact hstay t _ (hI b x hb) (hset b hb)
    · exact ih _ h (hI b y hb)

/-- The outputs of a context are driven, in the order of its bindings. -/
def driveOuts (pub : Word) (l : List Binding) (s : State) : State := l.foldl (fun s b => driveOut pub b s) s

section
variable (pub : Word)

theorem driveOuts_cons (b : Binding) (l : List Binding) (s : State) : driveOuts pub (b :: l) s = driveOuts pub l (driveOut pub b s) :=
  List.foldl_cons ..

theorem driveOuts_frame (l : List Binding) (s : State) : driveOuts pub l s = { s with
    pwm := { s.pwm with ph := (driveOuts pub l s).pwm.ph, aux := (driveOuts pub l s).pwm.aux },
    bus := { s.bus with pubCmd := (driveOuts pub l s).bus.pubCmd } } := by
  induction l generalizing s with
  | nil => rfl
  | cons b t ih =>
    rw [driveOuts_cons, ih, driveOut_frame]

variable {b : Binding} {l : List Binding} (s : State)

/-- A phase that an output binding names has the value queued with the stride's tag. -/
theorem driveOuts_queued (hb : b ∈ l) (hk : b.kind = 0x11) {p : Fin 48} (hp : p.val = b.idx) :
    (driveOuts pub l s).pwm.ph[p].c.queued = some { duty := pub, tag := strideTag s } := by
  refine foldl_of_mem (f := fun s b => driveOut pub b s) (I := fun t => strideTag t = strideTag s)
    (P := fun t => t.pwm.ph[p].c.queued = some { duty := pub, tag := strideTag s }) (fun t x ht => (strideTag_driveOut pub x t).trans ht)
    (fun t x ht h => ?_) (fun t ht => ?_) l s hb rfl
  · rw [driveOut_phase, ht]
    split
    · rfl
    · exact h
  · rw [driveOut_phase, ht, if_pos ⟨hk, hp.symm⟩]
    rfl

theorem driveOuts_queuedAux (hb : b ∈ l) (hk : b.kind = 0x14) {x : Fin 8} (hx : x.val = b.idx) :
    (driveOuts pub l s).pwm.aux[x].c.queued = some { duty := pub, tag := strideTag s } := by
  refine foldl_of_mem (f := fun s b => driveOut pub b s) (I := fun t => strideTag t = strideTag s)
    (P := fun t => t.pwm.aux[x].c.queued = some { duty := pub, tag := strideTag s }) (fun t y ht => (strideTag_driveOut pub y t).trans ht)
    (fun t y ht h => ?_) (fun t ht => ?_) l s hb rfl
  · rw [driveOut_aux, ht]
    split
    · rfl
    · exact h
  · rw [driveOut_aux, ht, if_pos ⟨hk, hx.symm⟩]
    rfl

theorem driveOuts_pubCmd (hb : b ∈ l) (hk : b.kind = 0x12) : (driveOuts pub l s).bus.pubCmd = some pub := by
  refine foldl_of_mem (f := fun s b => driveOut pub b s) (I := fun _ => True) (P := fun t => t.bus.pubCmd = some pub)
    (fun _ _ _ => trivial) (fun t x _ h => ?_) (fun t _ => ?_) l s hb trivial
  · rw [driveOut_pubCmd]
    split
    · rfl
    · exact h
  · rw [driveOut_pubCmd, if_pos hk]

/-- A phase that no output binding names keeps its set. -/
theorem driveOuts_other (l : List Binding) {p : Fin 48} (h : ∀ b ∈ l, b.kind = 0x11 → b.idx ≠ p.val) :
    (driveOuts pub l s).pwm.ph[p] = s.pwm.ph[p] := by
  induction l generalizing s with
  | nil => rfl
  | cons b t ih =>
    obtain ⟨hb, ht⟩ := List.forall_mem_cons.1 h
    rw [driveOuts_cons, ih _ ht, driveOut_phase, if_neg fun hk => hb hk.1 hk.2]

end

/-! ## The completion (R32, R99) -/

/-- The clock has reached the last clock of context `c`. -/
def lastReached (c : Nat) (s : State) : State := { s with tbs := { s.tbs with clock := max s.tbs.clock (lastClk s c) } }

/-- The context as it completes. -/
abbrev completedCtx (s : State) (c : Nat) : Ctx := completeCtx (bankWords s.cea c) (ctxAt s c)

/-- The context and its engine as it completes, before its outputs are driven. -/
def ctxFinished (e c : Nat) (s : State) : State :=
  { s with cea := { modCtx c (fun _ => completedCtx s c) s.cea with
      r := completeMaps c (completedCtx s c) s.cea.r, eng := vmod s.cea.eng e fun g => { g with run := none, lastDone := some c } } }

theorem finishCtx_eq (e c : Nat) (s : State) : finishCtx e c s =
    driveOuts (completedCtx s c).pub (ctxAt s c).cfg.outs (ctxFinished e c s) := rfl

section
variable {e : Fin 16} {s : State}

theorem contextComplete_idle (h : s.cea.eng[e].run = none ∨ s.cea.eng[e].aborting = true ∨
    (∃ c, s.cea.eng[e].run = some c ∧ commitClk s ≤ lastClk s c)) : contextComplete e s = s := by
  unfold contextComplete
  rw [vget_fin]
  dsimp only
  split
  next c hrun =>
    refine if_pos ?_
    obtain h | h | ⟨d, hd, h⟩ := h
    · rw [hrun] at h
      cases h
    · rw [h, Bool.true_or]
    · obtain rfl : c = d := Option.some.inj (hrun.symm.trans hd)
      rw [decide_eq_true h, Bool.or_true]
  next => rfl

theorem contextComplete_finishes {c : Nat} (hrun : s.cea.eng[e].run = some c) (ha : s.cea.eng[e].aborting = false)
    (hlast : lastClk s c < commitClk s) : contextComplete e s = finishCtx e c (lastReached c s) := by
  unfold contextComplete
  rw [vget_fin]
  dsimp only
  rw [hrun]
  dsimp only
  rw [ha, decide_eq_false (not_le.2 hlast), if_neg (by decide)]
  rfl

theorem ctxFinished_ctx {c : Nat} (hlen : c < s.cea.ctxs.length) :
    CtxChanged c (fun _ => completedCtx s c) s (ctxFinished e c s) := ctxChanged_of_ctxs hlen rfl

theorem ctxFinished_eng (c : Nat) (g : Fin 16) : (ctxFinished e c s).cea.eng[g] =
    if e = g then { s.cea.eng[g] with run := none, lastDone := some c } else s.cea.eng[g] := by
  have h := getElem_vmod s.cea.eng e (fun g => { g with run := none, lastDone := some c }) g
  simp only [Fin.val_inj] at h
  exact h

end

theorem exec_contextComplete {s : State} (hc : coreReady s = true) (e : Fin 16) :
    exec (.contextComplete e) s = .next (contextComplete e s) := whenCore_ready hc _

/-- A completion changes the maps, the context, its engine and the outputs. -/
theorem finishCtx_frame (e c : Nat) (s : State) : finishCtx e c s = { s with
    cea := { s.cea with r := (finishCtx e c s).cea.r, ctxs := (finishCtx e c s).cea.ctxs, eng := (finishCtx e c s).cea.eng },
    pwm := { s.pwm with ph := (finishCtx e c s).pwm.ph, aux := (finishCtx e c s).pwm.aux },
    bus := { s.bus with pubCmd := (finishCtx e c s).bus.pubCmd } } := by
  rw [finishCtx_eq, driveOuts_frame]
  rfl

theorem finishCtx_cea (e c : Nat) (s : State) : (finishCtx e c s).cea = (ctxFinished e c s).cea := by
  rw [finishCtx_eq, driveOuts_frame]

/-- Settles O25: the context completes, then its outputs are driven with what it published. -/
theorem contextCompletes : Obligations.ContextCompletes := by
  unfold Obligations.ContextCompletes
  refine fun e s hc => ⟨fun h => ?_, fun c hrun ha hlen hlast => ⟨_, exec_contextComplete hc e, ?_⟩⟩
  · rw [exec_contextComplete hc, contextComplete_idle h]
  · rw [contextComplete_finishes hrun ha hlast]
    have hcea := finishCtx_cea e c (lastReached c s)
    have hctx := ctxFinished_ctx (e := e) (s := lastReached c s) hlen
    have hself : ctxAt (finishCtx e c (lastReached c s)) c = completedCtx s c := (congrArg (·.ctxs.getD c {}) hcea).trans hctx.self
    have heng (g : Fin 16) := (congrArg (·.eng[g]) hcea).trans (ctxFinished_eng (e := e) (s := lastReached c s) c g)
    have hrunning := (heng e).trans (if_pos rfl)
    rw [hself]
    refine ⟨finishCtx_frame e c _, rfl, rfl, rfl, by rw [hrunning], by rw [hrunning], completeCtx_pub _ _, fun k hk => ?_,
      fun g hg => (heng g).trans (if_neg (Ne.symm hg)), fun b hb hk p hp => driveOuts_queued _ _ hb hk hp,
      fun b hb hk x hx => driveOuts_queuedAux _ _ hb hk hx, fun b hb hk => driveOuts_pubCmd _ _ hb hk,
      fun p hp => driveOuts_other _ _ _ hp⟩
    exact (congrArg (·.ctxs.getD k {}) hcea).trans (hctx.other k hk)

end Sys2Proof.Machine
end

section
/-! Lanes, codes and fetches (R202 to R204, R213 to R216): what a conversion period, a code that leaves a lane and a fetch change, and
the statement about them. -/
namespace Sys2Proof.Machine

/-! ## Conversion periods (R29, R202, R204, R214, R215) -/

section
variable {s : State} {l : Nat} {x : Lane}

theorem convertLane_idle (h : x.running = false ∨ (laneOf s.acq.r l).n = 0 ∨ s.tbs.len < 8 * x.period + 8) : convertLane s l x = x := by
  refine if_pos ?_
  obtain h | h | h := h
  · simp [h]
  · simp [h]
  · simp [show s.tbs.len / 8 ≤ x.period by omega]

/-- The lane runs, has a sequence and has a period of the stride left. -/
def Converts (s : State) (l : Nat) (x : Lane) : Prop := x.running = true ∧ (laneOf s.acq.r l).n ≠ 0 ∧ 8 * x.period + 8 ≤ s.tbs.len

theorem Converts.busy (h : Converts s l x) : ¬(!x.running || (laneOf s.acq.r l).n = 0 || s.tbs.len / 8 ≤ x.period : Bool) := by
  obtain ⟨hrun, hn, hlen⟩ := h
  simp [hrun, hn]
  omega

theorem convertLane_fetch (h : Converts s l x) (hf : x.fetch = true) (hp : x.period ≠ 0) : convertLane s l x =
    { x with period := x.period + 1, fetches := x.fetches + 1, fetch := false, late := false,
             pipe := x.pipe ++ [{ ain := 8 * l + getF s.acq.r (F.ACQ_FETCH_CFGl_mux l), fetch := true, late := x.late,
                                  clk := 8 * x.period, stride := strideCnt s }] } :=
  (if_neg h.busy).trans (if_pos (by simp [hf, hp]))

theorem convertLane_seq (h : Converts s l x) (hf : x.fetch = false ∨ x.period = 0) : convertLane s l x =
    { x with period := x.period + 1, seqCnt := x.seqCnt + 1, late := x.fetch,
             pipe := x.pipe ++ [{ ain := 8 * l + (laneOf s.acq.r l).mux.getD (x.seqCnt % (laneOf s.acq.r l).n) 0,
                                  round := x.seqCnt / (laneOf s.acq.r l).n, clk := 8 * x.period, stride := strideCnt s }] } :=
  (if_neg h.busy).trans (if_neg (by obtain hf | hf := hf <;> simp [hf]))

end

theorem adcConversion_stopped {s : State} (h : strides s = false) : adcConversion s = s := if_pos (by simp [h])

theorem adcConversion_runs {s : State} (h : strides s = true) :
    adcConversion s = { s with acq := { s.acq with lanes := vmapI s.acq.lanes (convertLane s) } } := if_neg (by simp [h])

/-! ## What leaves the lanes as they were -/

section
variable (s : State)

theorem lanes_latchOp (f : Nat → PhaseCh → PhaseCh) : (latchOp f s).acq.lanes = s.acq.lanes := by
  obtain h | h := latchOp_cases f s
  · rw [h]
  · rw [h, irq_frame]
    rfl

theorem lanes_judgeCode (a : Nat) (v : Int) : (judgeCode a v s).acq.lanes = s.acq.lanes := by
  unfold judgeCode
  dsimp only
  split
  · rfl
  · split
    · exact lanes_latchOp _ _
    · rfl

theorem lanes_putRecord (i : Nat) (v : BitVec 64) : (putRecord i v s).acq.lanes = s.acq.lanes := by
  unfold putRecord
  split
  · split <;> rfl
  · split
    · dsimp only
      split <;> rfl
    · dsimp only
      split
      · rfl
      · split <;> rfl

theorem lanes_record (ain kind : Nat) (val : Word) (ref ow clip : Bool) (clk stride : Nat) :
    (record ain kind val ref ow clip clk stride s).acq.lanes = s.acq.lanes := by
  unfold record
  dsimp only
  split
  · rfl
  · split
    · split
      · exact lanes_putRecord ..
      · exact lanes_putRecord ..
    · split
      · exact (lanes_putRecord ..).trans (lanes_putRecord ..)
      · exact (lanes_putRecord ..).trans (lanes_putRecord ..)

end

/-! ## Codes that leave a lane (R203, R213, R215) -/

/-- The result register of lane `l` shows the code of conversion `c`. -/
def fetchShown (l : Nat) (c : Conv) (v : Int) (r : RegFile) : RegFile :=
  setF (setF (setF (setFlag r (F.ACQ_FETCH_RESl_valid l)) (F.ACQ_FETCH_RESl_late l) c.late.toNat)
    (F.ACQ_FETCH_RESl_clock l) c.clk) (F.ACQ_FETCH_RESl_code l) (v % 65536).toNat

section
variable (l : Nat) (c : Conv) (v : Int) (r : RegFile)

theorem kvGet_fetchShown_ne {o : Nat} (h : o ≠ R.ACQ_FETCH_RESl l) : kvGet (fetchShown l c v r) o = kvGet r o := by
  unfold fetchShown
  rw [kvGet_setF_ne _ _ h, kvGet_setF_ne _ _ h, kvGet_setF_ne _ _ h, kvGet_setFlag_ne _ h]

theorem fetchShown_valid : flag (fetchShown l c v r) (F.ACQ_FETCH_RESl_valid l) = true := by
  unfold fetchShown F.ACQ_FETCH_RESl_valid F.ACQ_FETCH_RESl_late F.ACQ_FETCH_RESl_clock F.ACQ_FETCH_RESl_code
  rw [flag_setF_bits, flag_setF_bits, flag_setF_bits, flag_setFlag_self] <;> simp

theorem fetchShown_late : flag (fetchShown l c v r) (F.ACQ_FETCH_RESl_late l) = c.late := by
  unfold fetchShown F.ACQ_FETCH_RESl_valid F.ACQ_FETCH_RESl_late F.ACQ_FETCH_RESl_clock F.ACQ_FETCH_RESl_code
  rw [flag_setF_bits, flag_setF_bits, flag, getF_setF_self]
  · cases c.late <;> rfl
  all_goals simp

theorem fetchShown_clock : getF (fetchShown l c v r) (F.ACQ_FETCH_RESl_clock l) = c.clk % 8192 := by
  unfold fetchShown F.ACQ_FETCH_RESl_valid F.ACQ_FETCH_RESl_late F.ACQ_FETCH_RESl_clock F.ACQ_FETCH_RESl_code
  rw [getF_setF_bits, getF_setF_self] <;> simp

theorem fetchShown_code (code : BitVec 14) :
    getF (fetchShown l c code.toInt r) (F.ACQ_FETCH_RESl_code l) = (code.signExtend 16).toNat := by
  have hcode : (code.signExtend 16).toNat = (code.toInt % 65536).toNat := BitVec.toNat_ofInt _
  rw [hcode]
  exact getF_setF_small _ _ (Nat.le_of_ble_eq_true rfl) (hcode ▸ (code.signExtend 16).isLt)

end

section
variable (c : Conv) (rest : List Conv) (code : BitVec 14) (s : State)

/-- A fetch's code is shown in the result register of its lane. -/
def codeShown : State :=
  if c.fetch then { s with acq := { s.acq with r := fetchShown (c.ain / 8) c code.toInt s.acq.r } } else s

/-- The channel's last raw code, judged by the fast limit. -/
def codeJudged : State := judgeCode c.ain code.toInt
  { s with acq := { s.acq with chans := vmod s.acq.chans c.ain fun x => { x with lastRaw := some code.toInt } } }

/-- A sequence code enters its window. -/
def codeAdded : State :=
  if c.fetch then s else { s with acq := { s.acq with chans := vmod s.acq.chans c.ain (windowAdd s c rest code.toInt) } }

/-- The channel's raw codes are recorded. -/
def codeRecorded : State :=
  if 2 ≤ getF s.acq.r (F.ACQ_CHn_CFG_rec c.ain) then
    record c.ain (if c.fetch then 2 else 0) (wordOf code.toInt) (!flag s.acq.r F.ACQ_STAT_ref_ready) (owPhase s c.ain 2 3)
      (code.toInt == -8192 || code.toInt == 8191) c.clk c.stride s
  else s

theorem takeCode_eq : takeCode c rest code s = if !(vget (codeShown c code s).acq.chans c.ain {}).present then codeShown c code s
    else codeRecorded c code (codeAdded c rest code (codeJudged c code (codeShown c code s))) := rfl

theorem chans_codeShown : (codeShown c code s).acq.chans = s.acq.chans := by
  unfold codeShown
  split <;> rfl

theorem codeShown_frame : codeShown c code s = { s with acq := { s.acq with r := (codeShown c code s).acq.r } } := by
  unfold codeShown
  split <;> rfl

theorem kvGet_codeShown_ne {o : Nat} (h : o ≠ R.ACQ_FETCH_RESl (c.ain / 8)) : kvGet (codeShown c code s).acq.r o = kvGet s.acq.r o := by
  unfold codeShown
  split
  · exact kvGet_fetchShown_ne _ _ _ _ h
  · rfl

theorem codeShown_sequence (h : c.fetch = false) : codeShown c code s = s := if_neg (by rw [h]; decide)

theorem codeShown_fetch (h : c.fetch = true) : (codeShown c code s).acq.r = fetchShown (c.ain / 8) c code.toInt s.acq.r := by
  rw [codeShown, if_pos h]

theorem lanes_codeShown : (codeShown c code s).acq.lanes = s.acq.lanes := by
  unfold codeShown
  split <;> rfl

theorem lanes_codeAdded : (codeAdded c rest code s).acq.lanes = s.acq.lanes := by
  unfold codeAdded
  split <;> rfl

theorem lanes_codeRecorded : (codeRecorded c code s).acq.lanes = s.acq.lanes := by
  unfold codeRecorded
  split
  · exact lanes_record ..
  · rfl

/-- The code of an input with no channel entry is shown and no more. -/
theorem takeCode_absent (h : (vget s.acq.chans c.ain {}).present = false) : takeCode c rest code s = codeShown c code s := by
  rw [takeCode_eq, chans_codeShown, h]
  rfl

theorem lanes_takeCode : (takeCode c rest code s).acq.lanes = s.acq.lanes := by
  rw [takeCode_eq]
  split
  · exact lanes_codeShown ..
  · rw [lanes_codeRecorded, lanes_codeAdded, codeJudged, lanes_judgeCode]
    exact lanes_codeShown ..

end

/-- Lane `l` without its oldest conversion. -/
def poppedLane (l : Nat) (rest : List Conv) (s : State) : State :=
  { s with acq := { s.acq with lanes := vmod s.acq.lanes l fun x => { x with pipe := rest } } }

section
variable {s : State} {l : Fin 16} {code : BitVec 14}

theorem rawCodeOut_empty (h : s.acq.lanes[l].pipe = []) : rawCodeOut l code s = s := by
  unfold rawCodeOut
  rw [vget_fin, h]

theorem rawCodeOut_pops {c : Conv} {rest : List Conv} (h : s.acq.lanes[l].pipe = c :: rest) : rawCodeOut l code s =
    if s.flt.fLane.getLsbD l then poppedLane l rest s else takeCode c rest code (poppedLane l rest s) := by
  unfold rawCodeOut
  rw [vget_fin, h]
  rfl

end

/-! ## Fetches (R214, R215) -/

/-- The lane takes a fetch. -/
def takesFetch (r : RegFile) (l : Nat) (x : Lane) : Bool :=
  x.running && getF r (F.ACQ_FETCH_CFGl_trig l) != 0 && decide (x.fetches < getF r (F.ACQ_FETCH_CFGl_fetch_max l))

/-- A register file that differs in `ACQ_STAT` alone: no lane's configuration does. -/
def AcqStatOnly (r q : RegFile) : Prop := ∀ o, o ≠ R.ACQ_STAT → kvGet q o = kvGet r o

theorem takesFetch_acqStat {r q : RegFile} (h : AcqStatOnly r q) (l : Nat) (x : Lane) : takesFetch q l x = takesFetch r l x := by
  have hcfg : kvGet q (0x140 + 4 * l) = kvGet r (0x140 + 4 * l) := h _ (by unfold R.ACQ_STAT; omega)
  unfold takesFetch
  rw [getF_congr (f := F.ACQ_FETCH_CFGl_trig l) hcfg, getF_congr (f := F.ACQ_FETCH_CFGl_fetch_max l) hcfg]

/-- Lane `l` has had its trigger, where `take` says that it may take a fetch. -/
structure LaneTriggered (l : Fin 16) (take : Bool) (a b : Acq) : Prop where
  frame : b = { a with r := b.r, lanes := b.lanes }
  regs  : AcqStatOnly a.r b.r
  self  : b.lanes[l] = { a.lanes[l] with fetch := a.lanes[l].fetch || take }
  other : ∀ j : Fin 16, j ≠ l → b.lanes[j] = a.lanes[j]

/-- What already waits, or may not be taken, stays. -/
theorem laneTriggered_same {l : Fin 16} {take : Bool} {a b : Acq} (h : a.lanes[l].fetch = true ∨ take = false)
    (hb : b = { a with r := b.r }) (hr : AcqStatOnly a.r b.r) : LaneTriggered l take a b := by
  have hlanes : b.lanes = a.lanes := by rw [hb]
  refine ⟨?_, hr, ?_, fun j _ => by rw [hlanes]⟩
  · rw [hlanes, ← hb]
  · have hfetch : (a.lanes[l].fetch || take) = a.lanes[l].fetch := by
      obtain h | h := h
      · rw [h, Bool.true_or]
      · rw [h, Bool.or_false]
    rw [hlanes, hfetch]

/-- A trigger refuses the fetch in the status, or leaves one waiting where the lane takes it. -/
theorem laneTriggered_fetchTrigger (l : Fin 16) (a : Acq) : LaneTriggered l (takesFetch a.r l a.lanes[l]) a (fetchTrigger l a) := by
  unfold fetchTrigger
  rw [vget_fin]
  dsimp only
  split
  next h =>
    refine laneTriggered_same (.inr ?_) rfl fun _ _ => rfl
    unfold takesFetch
    obtain h | h : a.lanes[l].running = false ∨ getF a.r (F.ACQ_FETCH_CFGl_trig l) = 0 := by simpa using h
    · rw [h]
      rfl
    · rw [h]
      simp
  next hrun =>
    split
    next h => exact laneTriggered_same (.inl h) rfl fun _ _ => rfl
    next =>
      split
      next h =>
        refine laneTriggered_same (.inr ?_) rfl fun o ho => kvGet_setFlag_ne _ ho
        unfold takesFetch
        rw [decide_eq_false (not_lt.2 h), Bool.and_false]
      next h =>
        have htake : takesFetch a.r l a.lanes[l] = true := by
          unfold takesFetch
          rw [decide_eq_true (not_le.1 h)]
          simpa using hrun
        rw [htake]
        refine ⟨rfl, fun _ _ => rfl, ?_, fun j hj => getElem_vset_ne _ _ hj⟩
        rw [Bool.or_true]
        exact getElem_vset_self ..

/-- Lanes below `n` of the mask have had their trigger; of the registers only `ACQ_STAT` and of the rest nothing has changed. -/
structure Triggered (lanes : BitVec 16) (n : Nat) (a b : Acq) : Prop where
  frame : b = { a with r := b.r, lanes := b.lanes }
  regs  : AcqStatOnly a.r b.r
  lane  : ∀ l : Fin 16, b.lanes[l] =
    { a.lanes[l] with fetch := a.lanes[l].fetch || (decide (l.val < n) && lanes.getLsbD l && takesFetch a.r l a.lanes[l]) }

theorem triggered_zero (lanes : BitVec 16) (a : Acq) : Triggered lanes 0 a a :=
  ⟨rfl, fun _ _ => rfl, fun l => by simp⟩

section
variable {lanes : BitVec 16} {l : Fin 16} {a b c : Acq}

/-- A lane whose trigger is still to come is as it was. -/
theorem Triggered.pending (h : Triggered lanes l a b) : b.lanes[l] = a.lanes[l] := by
  rw [h.lane l]
  simp

theorem Triggered.succ (h : Triggered lanes l a b) (hl : LaneTriggered l (lanes.getLsbD l && takesFetch a.r l a.lanes[l]) b c) :
    Triggered lanes (l + 1) a c := by
  refine ⟨?_, fun o ho => (hl.regs o ho).trans (h.regs o ho), fun j => ?_⟩
  · rw [hl.frame, h.frame]
  · obtain rfl | hj := eq_or_ne j l
    · rw [hl.self, h.pending, decide_eq_true (Nat.lt_succ_self _), Bool.true_and]
    · have hlt : j.val < l.val + 1 ↔ j.val < l.val := by
        have := Fin.val_ne_of_ne hj
        omega
      rw [hl.other j hj, h.lane j, decide_eq_decide.2 hlt]

end

/-- The trigger of lane `l` where the mask holds it. -/
theorem laneTriggered_masked (lanes : BitVec 16) (l : Fin 16) (a : Acq) :
    LaneTriggered l (lanes.getLsbD l && takesFetch a.r l a.lanes[l]) a (if lanes.getLsbD l then fetchTrigger l a else a) := by
  split
  next h =>
    rw [h, Bool.true_and]
    exact laneTriggered_fetchTrigger l a
  next h => exact laneTriggered_same (.inr (by rw [Bool.eq_false_of_not_eq_true h, Bool.false_and])) rfl fun _ _ => rfl

theorem triggered_foldN (lanes : BitVec 16) (a : Acq) {n : Nat} (hn : n ≤ 16) :
    Triggered lanes n a (foldN n (fun q l => if lanes.getLsbD l then fetchTrigger l q else q) a) := by
  induction n with
  | zero => exact triggered_zero lanes a
  | succ n ih =>
    have hprev := ih (by omega)
    unfold foldN at hprev ⊢
    rw [List.range_succ, List.foldl_append]
    refine Triggered.succ (l := ⟨n, hn⟩) hprev ?_
    rw [← hprev.pending (l := ⟨n, hn⟩), ← takesFetch_acqStat hprev.regs]
    exact laneTriggered_masked lanes ⟨n, hn⟩ _

/-! ## The reference buffer (R91, R216) -/

/-- `ACQ_REF.en` as written; a buffer turned off is not ready. -/
def refWritten (en : Bool) (r : RegFile) : RegFile :=
  let q := setF r F.ACQ_REF_en en.toNat
  if en then q else setF q F.ACQ_STAT_ref_ready 0

section
variable (en : Bool) (r : RegFile)

theorem refWritten_en : flag (refWritten en r) F.ACQ_REF_en = en := by
  have hen : flag (setF r F.ACQ_REF_en en.toNat) F.ACQ_REF_en = en := by
    rw [flag, getF_setF_small _ _ (by decide) (Bool.toNat_lt _)]
    cases en <;> rfl
  unfold refWritten
  dsimp only
  split
  · exact hen
  · rw [flag_setF_ofs _ _ (by decide), hen]

theorem refWritten_off : flag (refWritten false r) F.ACQ_STAT_ref_ready = false := by
  have hzero : getF (refWritten false r) F.ACQ_STAT_ref_ready = 0 := getF_setF_small _ _ (by decide) (by decide)
  rw [flag, hzero]
  rfl

theorem kvGet_refWritten_on {o : Nat} (h : o ≠ R.ACQ_REF) : kvGet (refWritten true r) o = kvGet r o := kvGet_setF_ne _ _ h

theorem kvGet_refWritten_ne {o : Nat} (h : o ≠ R.ACQ_REF) (hs : o ≠ R.ACQ_STAT) : kvGet (refWritten en r) o = kvGet r o := by
  unfold refWritten
  dsimp only
  split
  · exact kvGet_setF_ne _ _ h
  · exact (kvGet_setF_ne _ _ hs).trans (kvGet_setF_ne _ _ h)

end

section
variable {en : Bool} {s : State}

theorem refEnable_applies (h : opState s = 3 ∨ opState s = 4) :
    refEnable en s = { s with acq := { s.acq with r := refWritten en s.acq.r } } := if_pos h

theorem refEnable_cfgErr (h : opState s < 3) :
    refEnable en s = { s with acq := { s.acq with r := setFlag s.acq.r F.ACQ_STAT_cfg_err } } :=
  (if_neg (by omega)).trans (if_pos h)

theorem refEnable_same (h : 5 ≤ opState s) (hen : flag s.acq.r F.ACQ_REF_en = en) : refEnable en s = s :=
  (if_neg (by omega)).trans ((if_neg (by omega)).trans (if_pos hen))

theorem refEnable_ignored (h : 5 ≤ opState s) (hen : flag s.acq.r F.ACQ_REF_en = !en) : refEnable en s = wrIgnored 7 R.ACQ_REF s :=
  (if_neg (by omega)).trans ((if_neg (by omega)).trans (if_neg (by rw [hen]; cases en <;> decide)))

end

section
variable {s : State} (hc : coreReady s = true)
include hc

theorem exec_adcConversion : exec .adcConversion s = .next (adcConversion s) := whenCore_ready hc _
theorem exec_rawCodeOut (l : Fin 16) (code : BitVec 14) : exec (.rawCodeOut l code) s = .next (rawCodeOut l code s) := whenCore_ready hc _
theorem exec_fetchGo (p : Path) (lanes : BitVec 16) : exec (.fetchGo p lanes) s = .next (fetchGo lanes s) := whenCore_ready hc _
theorem exec_refEnable (p : Path) (en : Bool) : exec (.refEnable p en) s = .next (refEnable en s) := whenCore_ready hc _
theorem exec_refReady : exec .refReady s = .next (refReady s) := whenCore_ready hc _

end

/-- Settles O29: a conversion period lane by lane, a code by whether its lane is fenced and its input has a channel, the triggers by
induction over the lanes, and the reference by the state. -/
theorem conversionsAndFetches : Obligations.ConversionsAndFetches := by
  unfold Obligations.ConversionsAndFetches
  refine ⟨fun s hc => ⟨fun hs => ?_, fun hs => ⟨_, exec_adcConversion hc, ?_⟩, fun l code hp => ?_, fun l code c rest hp hl =>
    ⟨_, exec_rawCodeOut hc l code, ?_⟩⟩, fun p lanes en s hc => ⟨⟨_, exec_fetchGo hc p lanes, ?_⟩,
    fun h => ⟨_, exec_refEnable hc p en, ?_⟩,
    fun h => ?_, fun h hen => ?_, fun h hen => ⟨_, exec_refEnable hc p en, ?_⟩, fun hen => ⟨_, exec_refReady hc, ?_⟩, fun hen => ?_⟩⟩
  · rw [exec_adcConversion hc, adcConversion_stopped hs]
  · rw [adcConversion_runs hs]
    refine ⟨rfl, fun l => ?_⟩
    have hlane : (vmapI s.acq.lanes (convertLane s))[l] = convertLane s l s.acq.lanes[l] := Vector.getElem_mapIdx ..
    refine ⟨fun h => hlane.trans (convertLane_idle h), fun hrun hn hlen => ?_⟩
    have hconv : Converts s l s.acq.lanes[l] := ⟨hrun, hn, hlen⟩
    exact ⟨fun hf hp => hlane.trans (convertLane_fetch hconv hf hp), fun h => hlane.trans (convertLane_seq hconv h)⟩
  · rw [exec_rawCodeOut hc, rawCodeOut_empty hp]
  · rw [rawCodeOut_pops hp]
    have hpop : (poppedLane l rest s).acq.lanes = s.acq.lanes.set l { s.acq.lanes[l] with pipe := rest } := by
      simp [poppedLane, vmod]
    refine ⟨?_, fun hf => ?_, fun hf hch => ?_⟩
    · split
      · exact hpop
      · exact (lanes_takeCode ..).trans hpop
    · rw [if_pos hf]
      rfl
    · rw [if_neg (by rw [hf]; decide), takeCode_absent c rest code (poppedLane l rest s) hch]
      refine ⟨by rw [lanes_codeShown]; exact codeShown_frame .., fun h => ?_,
        fun o ho => kvGet_codeShown_ne _ _ _ (hl ▸ ho), fun h => ?_⟩
      · rw [codeShown_sequence _ _ _ h]
        rfl
      · rw [codeShown_fetch _ _ _ h, ← hl]
        exact ⟨fetchShown_valid .., fetchShown_late .., fetchShown_clock .., fetchShown_code ..⟩
  · obtain ⟨hframe, hregs, hlane⟩ := triggered_foldN lanes s.acq (le_refl 16)
    refine ⟨congrArg (fun q => { s with acq := q }) hframe, hregs, fun l => (hlane l).trans ?_⟩
    rw [decide_eq_true l.isLt, Bool.true_and, takesFetch, ← Bool.and_assoc, ← Bool.and_assoc]
  · rw [refEnable_applies h]
    exact ⟨rfl, refWritten_en _ _, fun he => by rw [he]; exact refWritten_off _,
      fun he o ho => by rw [he]; exact kvGet_refWritten_on _ ho, fun o ho hs => kvGet_refWritten_ne _ _ ho hs⟩
  · rw [exec_refEnable hc, refEnable_cfgErr h]
  · rw [exec_refEnable hc, refEnable_same h hen]
  · obtain ⟨q, hq, hkeep⟩ := wrIgnored_flag (b := 7) rfl R.ACQ_REF s
    rw [refEnable_ignored h hen, hq]
    exact ⟨rfl, hkeep⟩
  · rw [refReady, if_pos hen]
    exact ⟨rfl, flag_setFlag_self _ _ (by decide) (by decide), fun o ho => kvGet_setFlag_ne _ ho⟩
  · rw [exec_refReady hc, refReady, if_neg (by simp [hen])]

end Sys2Proof.Machine
end

section
/-! COMMIT_POINT (R31, R32): a set that a context publishes at the commit point itself, and the refutation of the statement about it. -/
namespace Sys2Proof.Machine

/-- A context of one section whose output is phase 0 runs on engine 0 in RUN, ends in clock 1 and has queued nothing yet. -/
def completingState : State :=
  let reg := setF (setFlag State.reset.sys.r F.SYS_PWR_STAT_core_ready) F.SYS_STATE_STAT_state 6
  { State.reset with
      sys := { State.reset.sys with r := reg }
      cea := { State.reset.cea with
        ctxs := [{ cfg := { nSec := 1, outs := [{ kind := 0x11, idx := 0 }] }, started := true }]
        eng := State.reset.cea.eng.set 0 { run := some 0 } } }

theorem completingState_runs : coreReady completingState = true ∧ strides completingState = true ∧
    completingState.tbs.committed = false := by decide

theorem completingState_noneQueued : (commitSet completingState.pwm.ph[(0 : Fin 48)].c).committed = none := by decide

/-- The context completes before the commit point, and the set it queues is committed with the others. -/
theorem commitPoint_completingState : (commitPoint 0 completingState).pwm.ph[(0 : Fin 48)].c.committed = some { duty := 0, tag := 0 } := by
  decide +kernel

theorem exec_commitPoint {s : State} (hc : coreReady s = true) (bad : BitVec 16) :
    exec (.commitPoint bad) s = .next (commitPoint bad s) := whenCore_ready hc _

/-- Refutes O16: a context that completes at the commit point queues its set there, and that set is committed although none was queued
before. -/
theorem not_boundaryAdvances : ¬ Obligations.BoundaryAdvances := by
  unfold Obligations.BoundaryAdvances
  intro h
  obtain ⟨hc, hs, hopen⟩ := completingState_runs
  obtain ⟨t, ht, -, -, hphase, -⟩ := (h.2 0 completingState hc hs).2 hopen
  rw [exec_commitPoint hc] at ht
  obtain rfl := Host.Outcome.next.inj ht
  have hnone : (commitPoint 0 completingState).pwm.ph[(0 : Fin 48)].c.committed = none := by
    rw [hphase 0, completingState_noneQueued]
  rw [commitPoint_completingState] at hnone
  exact Option.some_ne_none _ hnone

end Sys2Proof.Machine
end

section
/-! The hive's frames (R44, R227, R237 to R240): what receiving, forwarding and using one change, and the statement about them. -/
namespace Sys2Proof.Machine

/-! ## Ports and what leaves them (R225, R228, R238) -/

/-- What no change of a port changes is the same of every port. -/
theorem portOf_modPort {α : Type} (g : LnkPort → α) {f : LnkPort → LnkPort} (hf : ∀ x, g (f x) = g x) (p q : Nat) (s : State) :
    g (portOf (modPort p f s) q) = g (portOf s q) := by
  unfold portOf modPort
  dsimp only
  obtain rfl | hq := eq_or_ne q p
  · by_cases h : q < 50
    · rw [vget_vmod_self _ _ _ h, hf]
    · simp only [vget, dif_neg h]
  · rw [vget_vmod_ne _ _ _ hq]

/-- The link's registers and ports and what the device sent are replaced. -/
def linkSent (r : RegFile) (port : Vector LnkPort 50) (out : List Out) (s : State) : State :=
  { s with lnk := { s.lnk with r := r, port := port }, out := out }

/-- Only frames have come or gone: of the link its registers and ports, and what the device sent; every port's state and segment delay
stay. -/
structure Sent (s t : State) : Prop where
  frame : t = { s with lnk := { s.lnk with r := t.lnk.r, port := t.lnk.port }, out := t.out }
  st    : ∀ q, (portOf t q).st = (portOf s q).st
  seg   : ∀ q, (portOf t q).seg = (portOf s q).seg

section
variable {s t u : State}

theorem Sent.refl (s : State) : Sent s s := ⟨rfl, fun _ => rfl, fun _ => rfl⟩

theorem Sent.trans (h1 : Sent s t) (h2 : Sent t u) : Sent s u := by
  refine ⟨?_, fun q => (h2.st q).trans (h1.st q), fun q => (h2.seg q).trans (h1.seg q)⟩
  rw [h2.frame, h1.frame]

theorem Sent.eq (h : Sent s t) : ∃ r port out, t = linkSent r port out s := ⟨_, _, _, h.frame⟩

theorem sent_modPort (p : Nat) {f : LnkPort → LnkPort} (hst : ∀ x, (f x).st = x.st) (hseg : ∀ x, (f x).seg = x.seg) (s : State) :
    Sent s (modPort p f s) := ⟨rfl, fun q => portOf_modPort _ hst p q s, fun q => portOf_modPort _ hseg p q s⟩

theorem sent_lnkRegs (r : RegFile) (s : State) : Sent s { s with lnk := { s.lnk with r := r } } := ⟨rfl, fun _ => rfl, fun _ => rfl⟩

theorem sent_emit (o : Out) (s : State) : Sent s (emit o s) := ⟨rfl, fun _ => rfl, fun _ => rfl⟩

theorem sent_transmit (p : Nat) (time : Int) (ws : List Half) (fin : Half) (s : State) : Sent s (transmit p time ws fin s) := by
  refine Sent.trans ?_ (sent_emit _ _)
  exact sent_modPort p (fun _ => by rfl) (fun _ => by rfl) s

theorem sent_sendFrame (p clk : Nat) (ws : List Half) (s : State) : Sent s (sendFrame p clk ws s) := by
  unfold sendFrame
  split
  · exact sent_transmit ..
  · exact Sent.refl s

theorem sent_hiveSend (clk type : Nat) (req : Bool) (payload : BitVec 64) (s : State) : Sent s (hiveSend clk type req payload s) :=
  (sent_sendFrame ..).trans (sent_sendFrame ..)

theorem sent_hiveForward (p : Nat) (ok : Bool) (time : Int) (ws : List Half) (s : State) : Sent s (hiveForward p ok time ws s) := by
  unfold hiveForward
  dsimp only
  split
  · exact Sent.refl s
  · split
    · exact (sent_lnkRegs ..).trans (sent_transmit ..)
    · exact sent_transmit ..

/-- A frame cut short leaves the counts of frames. -/
theorem hiveForward_cut_regs (p : Nat) (time : Int) (ws : List Half) (s : State) :
    (hiveForward p false time ws s).lnk.r = s.lnk.r := by
  unfold hiveForward
  dsimp only
  split
  · rfl
  · rw [if_neg (by decide)]
    rfl

end

/-! ## Receiving (R227, R230, R237, R238) -/

/-- The receiver of port `p` after a frame with no word in error. -/
def portTook (p : Nat) (f : RxFrame) (s : State) : State :=
  countErrors p (rxScan f).code (rxScan f).disp (modPort p (fun x => { x with rd := (rxScan f).rd, errs := (portOf s p).errs }) s)

/-- When the frame's `SOF` ended. -/
def sofEnd (f : RxFrame) : Int := (f.time : Int) - 1024

/-- A frame that the device may use has been taken and goes on. -/
def frameTaken (p : Nat) (f : RxFrame) (s : State) : State := hiveForward p true (sofEnd f) (rxWords f) (portTook p f s)

/-- A frame with a wrong CRC has been taken and counted, and goes on cut short. -/
def badCrcTaken (p : Nat) (f : RxFrame) (s : State) : State :=
  let u := portTook p f s
  hiveForward p false (sofEnd f) (rxWords f) { u with lnk := { u.lnk with r := incF u.lnk.r F.LNK_HIVE_CNT_crc_fail_cnt 1 } }

section
variable (p : Nat) (f : RxFrame) (s : State)

theorem sent_portTook : Sent s (portTook p f s) := by
  refine Sent.trans ?_ (sent_modPort p (fun _ => by rfl) (fun _ => by rfl) _)
  exact sent_modPort p (fun _ => by rfl) (fun _ => by rfl) s

theorem portTook_st (q : Fin 50) : (portTook p f s).lnk.port[q].st = s.lnk.port[q].st := by
  have h := (sent_portTook p f s).st q
  unfold portOf at h
  rwa [vget_fin, vget_fin] at h

theorem sent_frameTaken : Sent s (frameTaken p f s) := (sent_portTook p f s).trans (sent_hiveForward ..)

theorem sent_badCrcTaken : Sent s (badCrcTaken p f s) :=
  ((sent_portTook p f s).trans (sent_lnkRegs ..)).trans (sent_hiveForward ..)

theorem badCrcTaken_count : getF (badCrcTaken p f s).lnk.r F.LNK_HIVE_CNT_crc_fail_cnt =
    min (getF s.lnk.r F.LNK_HIVE_CNT_crc_fail_cnt + 1) 255 := by
  unfold badCrcTaken
  dsimp only
  rw [hiveForward_cut_regs, getF_incF _ _ _ (by decide)]
  rfl

end

/-- Word `i` of a frame. -/
abbrev rxWord (f : RxFrame) (i : Nat) : Half := (rxWords f).getD i 0

/-- The frame's CRC word is that of the others. -/
abbrev CrcOk (f : RxFrame) : Prop := crc16 0xFFFF ((rxWords f).take 7) = rxWord f 7

section
variable {p : Nat} {f : RxFrame} {s : State}

/-- A frame of the hive's length with no word in error only moves the receiver's tally. -/
theorem takeErrors_clean (hclean : rxClean f 8 = true) (herr : (rxScan f).errAt = []) (time : Int) :
    takeErrors p (rxScan f) (rxMisplaced f 8).toNat time s = portTook p f s := by
  have hlen : (rxScan f).words.length = 8 := by
    simp only [rxClean, Bool.and_eq_true, beq_iff_eq] at hclean
    exact hclean.2
  have hplace : rxMisplaced f 8 = false := by simp [rxMisplaced, hlen]
  unfold takeErrors
  rw [hplace, herr]
  rfl

/-- The frame's type or address leaves the device no use for it. -/
abbrev NotUsed (f : RxFrame) (s : State) : Prop :=
  (4 ≤ (rxWord f 0).toNat / 8192 ∨ ((rxWord f 0).toNat / 256 % 16 = (hiveImg s).hAddr ∧ hiveRole s ≠ 0) ∨
    (2 ≤ (rxWord f 0).toNat / 8192 ∧ (rxWord f 0).toNat / 4096 % 2 = 1))

/-- What a frame, taken and forwarded, is used for. -/
def frameUsed (p role : Nat) (f : RxFrame) (u : State) : State :=
  let type := (rxWord f 0).toNat / 8192
  if role = 2 ∧ type ≤ 1 then useMark p f.time (rxWords f) u
  else if role = 2 ∧ type = 2 then useCommand (rxWords f) u
  else if role = 1 ∧ type = 3 then useReport (rxWords f) u
  else u

section
variable (hup : portUp s p = true) (hopen : bypassed s = false) (hclean : rxClean f 8 = true) (herr : (rxScan f).errAt = [])
include hup hopen hclean herr

theorem hiveReceive_whole : hiveReceive p f s =
    if ¬CrcOk f then badCrcTaken p f s
    else if NotUsed f s then portTook p f s
    else frameUsed p (hiveRole s) f (frameTaken p f s) := by
  have habt : rxAbt f = false := by
    simp only [rxClean, Bool.and_eq_true, Bool.not_eq_true'] at hclean
    exact hclean.1.1.2
  have hstill : portUp (portTook p f s) p = true := by
    rw [portUp, (sent_portTook p f s).st]
    exact hup
  unfold hiveReceive
  dsimp only
  rw [if_neg (by simp [hup, hopen]), takeErrors_clean hclean herr, habt, if_neg (by decide), hclean, hstill, if_neg (by decide)]
  rfl

theorem hiveReceive_badCrc (hcrc : ¬CrcOk f) : hiveReceive p f s = badCrcTaken p f s :=
  (hiveReceive_whole hup hopen hclean herr).trans (if_pos hcrc)

theorem hiveReceive_notUsed (hcrc : CrcOk f) (h : NotUsed f s) : hiveReceive p f s = portTook p f s :=
  (hiveReceive_whole hup hopen hclean herr).trans ((if_neg (not_not.2 hcrc)).trans (if_pos h))

theorem hiveReceive_used (hcrc : CrcOk f) (h : ¬NotUsed f s) : hiveReceive p f s = frameUsed p (hiveRole s) f (frameTaken p f s) :=
  (hiveReceive_whole hup hopen hclean herr).trans ((if_neg (not_not.2 hcrc)).trans (if_neg h))

end

section
variable {u : State}

theorem frameUsed_mark (h : (rxWord f 0).toNat / 8192 ≤ 1) : frameUsed p 2 f u = useMark p f.time (rxWords f) u := if_pos ⟨rfl, h⟩

theorem frameUsed_command (h : (rxWord f 0).toNat / 8192 = 2) : frameUsed p 2 f u = useCommand (rxWords f) u :=
  (if_neg (by omega)).trans (if_pos ⟨rfl, h⟩)

theorem frameUsed_report (h : (rxWord f 0).toNat / 8192 = 3) : frameUsed p 1 f u = useReport (rxWords f) u := by
  unfold frameUsed
  dsimp only
  rw [if_neg (by simp), if_neg (by simp), if_pos ⟨rfl, h⟩]

end
end

/-! ## Marks (R43, R239, R240) -/

/-- The path delay has been taken already: beyond it the pacer's state and frames may change. -/
structure PathKept (s t : State) : Prop where
  frame : t = { s with tbs := t.tbs, lnk := t.lnk, out := t.out }
  delay : getF t.tbs.r F.TBS_HIVE_STAT_hive_delay = getF s.tbs.r F.TBS_HIVE_STAT_hive_delay

section
variable {s t u : State}

theorem PathKept.trans (h1 : PathKept s t) (h2 : PathKept t u) : PathKept s u := by
  refine ⟨?_, h2.delay.trans h1.delay⟩
  rw [h2.frame, h1.frame]

theorem pathKept_lnk (k : Lnk) (s : State) : PathKept s { s with lnk := k } := ⟨rfl, rfl⟩

theorem Sent.pathKept (h : Sent s t) : PathKept s t := by
  obtain ⟨r, port, out, rfl⟩ := h.eq
  exact ⟨rfl, rfl⟩

theorem Marked.pathKept (h : Marked s t) : PathKept s t := by
  refine ⟨?_, h.getF (by decide) (by decide)⟩
  rw [h.frame]

/-- A mark that is not the pacer's leaves the state; one that is moves the pacer and the leader's count. -/
theorem pathKept_paced (b : Bool) (pos ofs : Nat) (e k : Int) (lap : Bool) (s : State) :
    PathKept s (if b then paceMark pos e k lap { s with lnk := { s.lnk with leadOfs := ofs } } else s) := by
  split
  · exact (pathKept_lnk _ s).trans (marked_paceMark ..).pathKept
  · exact ⟨rfl, rfl⟩

/-- A mark may be answered with a report. -/
theorem pathKept_answered (c : Prop) [Decidable c] (clk type : Nat) (req : Bool) (payload : BitVec 64) (lead : Option Nat) (s : State) :
    PathKept s (if c then hiveSend clk type req payload { s with lnk := { s.lnk with reported := lead } } else s) := by
  split
  · exact (pathKept_lnk _ s).trans (sent_hiveSend ..).pathKept
  · exact ⟨rfl, rfl⟩

end

/-- The delay of the path that a mark came by on port `p`, in clocks, rounded up. -/
def pathDelay (p : Nat) (ws : List Half) (s : State) : Nat := ((ws.getD 2 0).toNat + (portOf s p).seg + 1152 + 4) / 5

/-- The path delay is shown. -/
def pathShown (p : Nat) (ws : List Half) (s : State) : State :=
  { s with tbs := { s.tbs with r := setF s.tbs.r F.TBS_HIVE_STAT_hive_delay (min 4095 (pathDelay p ws s)) } }

section
variable {p time : Nat} {ws : List Half} {s : State}

theorem useMark_saturated (h : ws.getD 2 0 = 65535) : useMark p time ws s = s := if_pos (by rw [h]; rfl)

theorem pathKept_useMark (h : ws.getD 2 0 ≠ 65535) : PathKept (pathShown p ws s) (useMark p time ws s) := by
  have hcorr : (ws.getD 2 0).toNat ≠ 65535 := fun he => h (BitVec.eq_of_toNat_eq he)
  unfold useMark
  dsimp only
  rw [if_neg hcorr]
  exact PathKept.trans (pathKept_paced _ _ _ _ _ _ (pathShown p ws s)) (pathKept_answered ..)

theorem pathShown_delay : getF (pathShown p ws s).tbs.r F.TBS_HIVE_STAT_hive_delay = min 4095 (pathDelay p ws s) :=
  getF_setF_small _ _ (by decide) (Nat.lt_succ_of_le (Nat.min_le_left _ _))

end

/-! ## Commands (R44, R175) -/

/-- The tag of the stride in progress at the leader. -/
def leadTag (s : State) : Nat := (strideCnt s + s.lnk.leadOfs) % 256

/-- The entry of queue 1 that a command becomes. -/
def commandEntry (ws : List Half) (s : State) : Q1Entry :=
  { c := ws.getD 4 0 ++ ws.getD 3 0, v := (ws.getD 5 0).toNat, tag := strideTag s }

/-- A command that came after its boundary is stale and reported. -/
def commandLate (s : State) : State := raise 25 255 255 (tbsRegs_ (fun r => setFlag r F.TBS_HIVE_STAT_late) (qStale 1 0 1 s))

theorem commandLate_frame (s : State) : commandLate s = { s with
    tbs := { s.tbs with r := setFlag s.tbs.r F.TBS_HIVE_STAT_late }, sys := { s.sys with qcnt := (qStale 1 0 1 s).sys.qcnt },
    flt := postEvent 25 255 255 (strideTag s) s.flt } := by
  have htag : strideTag (tbsRegs_ (fun r => setFlag r F.TBS_HIVE_STAT_late) (qStale 1 0 1 s)) = strideTag s :=
    congrArg (· % 256) (getF_setFlag_ofs s.tbs.r (by decide))
  unfold commandLate raise
  rw [htag]
  rfl

theorem q1Put_room {e : Q1Entry} {s : State} (h : s.bus.q1.length < 4) :
    q1Put e s = { s with bus := { s.bus with q1 := s.bus.q1 ++ [e] } } := if_pos h

section
variable {ws : List Half} {s : State} (hcomp : computing s = true)
include hcomp

theorem useCommand_inTime (htag : (ws.getD 6 0).toNat % 256 = leadTag s) : useCommand ws s =
    if s.bus.gotCmd then s
    else { q1Put (commandEntry ws s) s with bus := { (q1Put (commandEntry ws s) s).bus with gotCmd := true } } :=
  (if_neg (by rw [hcomp]; decide)).trans (if_pos htag)

theorem useCommand_first (htag : (ws.getD 6 0).toNat % 256 = leadTag s) (hgot : s.bus.gotCmd = false) (hroom : s.bus.q1.length < 4) :
    useCommand ws s = { s with bus := { s.bus with q1 := s.bus.q1 ++ [commandEntry ws s], gotCmd := true } } := by
  rw [useCommand_inTime hcomp htag, hgot, if_neg (by decide), q1Put_room hroom]

theorem useCommand_again (htag : (ws.getD 6 0).toNat % 256 = leadTag s) (hgot : s.bus.gotCmd = true) : useCommand ws s = s := by
  rw [useCommand_inTime hcomp htag, hgot, if_pos rfl]

theorem useCommand_stale (htag : (ws.getD 6 0).toNat % 256 ≠ leadTag s)
    (hold : s.bus.gotPrev = false ∨ (ws.getD 6 0).toNat % 256 ≠ (leadTag s + 255) % 256) : useCommand ws s = commandLate s := by
  have hnew : ¬((ws.getD 6 0).toNat % 256 = (leadTag s + 255) % 256 ∧ s.bus.gotPrev = true) := by
    rintro ⟨ht, hp⟩
    obtain h | h := hold
    · rw [hp] at h
      cases h
    · exact h ht
  exact (if_neg (by rw [hcomp]; decide)).trans ((if_neg htag).trans (if_neg hnew))

end

/-! ## Reports (R44, R240) -/

/-- The leader has one report more: its follower and the delay. -/
def reportTaken (x : Nat × Nat) (s : State) : State := { s with lnk := { s.lnk with reports := s.lnk.reports ++ [x] } }

section
variable {s : State}

theorem useReport_first {ws : List Half} {n v : Nat} {w : BitVec 32} (hreq : s.sys.req = some { target := v, phase := .hive n, woken := w })
    (hn : n ≠ 0) (hnew : ∀ x ∈ s.lnk.reports, x.1 ≠ (ws.getD 0 0).toNat / 256 % 16) : useReport ws s =
      reportTaken ((ws.getD 0 0).toNat / 256 % 16, (ws.getD 3 0).toNat % 4096) s := by
  unfold useReport
  dsimp only
  rw [hreq]
  dsimp only
  have hany : (s.lnk.reports.any fun x => x.1 == (ws.getD 0 0).toNat / 256 % 16) = false :=
    List.any_eq_false.2 fun x hx => by rw [beq_iff_eq]; exact hnew x hx
  exact if_neg (by rw [hany, decide_eq_false hn]; decide)

/-- No check while no request waits for reports. -/
theorem reportCheck_idle {t : State} (h : ∀ q, s.sys.req = some q → ∀ n, q.phase ≠ .hive n) (ht : t.sys.req = s.sys.req) :
    reportCheck t = t := by
  unfold reportCheck
  split
  next hreq => exact absurd rfl (h _ (ht.symm.trans hreq) _)
  next => rfl

section
variable {n v : Nat} {w : BitVec 32} (hreq : s.sys.req = some { target := v, phase := .hive n, woken := w })
include hreq

theorem reportCheck_over (h : ∃ x ∈ s.lnk.reports, hiveLimit s < (x.2 : Int)) : reportCheck s = refuseReq 7 s := by
  unfold reportCheck
  rw [hreq]
  dsimp only
  exact if_pos (by simpa using h)

theorem reportCheck_within (h : ∀ x ∈ s.lnk.reports, (x.2 : Int) ≤ hiveLimit s) : reportCheck s =
    { s with sys := { s.sys with req := some {
      target := v, woken := w, phase := if s.img.str.hSize ≤ s.lnk.reports.length + 1 then .boundary else .hive n } } } := by
  unfold reportCheck setPhase
  rw [hreq]
  dsimp only
  rw [if_neg (by simpa using h)]
  split
  · rfl
  · rw [← hreq]

theorem hiveTimeout_over (hn : n = 0) : hiveTimeout s = refuseReq 7 s := by
  subst hn
  unfold hiveTimeout
  rw [hreq]
  rfl

end

theorem hiveTimeout_idle (h : ∀ v w, s.sys.req ≠ some { target := v, phase := .hive 0, woken := w }) : hiveTimeout s = s := by
  unfold hiveTimeout
  split
  next hreq => exact absurd hreq (h _ _)
  next => rfl

end

/-! ## The statement -/

theorem exec_hiveFrame {s : State} (hc : coreReady s = true) {port : PortEnd} {f : RxFrame} {c : Instr}
    (h : c ∈ [Instr.hiveMarkReceive port f, .hiveCommandReceive port f, .hiveReportReceive port f]) :
    exec c s = .next (reportCheck (hiveReceive (hivePort port) f s)) := by
  simp only [List.mem_cons, List.not_mem_nil, or_false] at h
  obtain rfl | rfl | rfl := h
  · exact whenCore_ready hc _
  · exact whenCore_ready hc _
  · exact whenCore_ready hc _

theorem exec_hiveReportTimeout {s : State} (hc : coreReady s = true) : exec .hiveReportTimeout s = .next (hiveTimeout s) :=
  whenCore_ready hc _

/-- A mark, a command or a report of another device is of use. -/
theorem not_notUsed {f : RxFrame} {s : State} (haddr : (rxWord f 0).toNat / 256 % 16 ≠ (hiveImg s).hAddr)
    (htype : (rxWord f 0).toNat / 8192 ≤ 1 ∨ (rxWord f 0).toNat / 4096 = 4 ∨ (rxWord f 0).toNat / 4096 = 6) : ¬NotUsed f s := by
  unfold NotUsed
  omega

theorem type_of_command {f : RxFrame} (h : (rxWord f 0).toNat / 4096 = 4) : (rxWord f 0).toNat / 8192 = 2 := by omega

theorem type_of_report {f : RxFrame} (h : (rxWord f 0).toNat / 4096 = 6) : (rxWord f 0).toNat / 8192 = 3 := by omega

/-- Settles O34: a frame is taken, and used by its CRC, its address, its type and the device's role; reports are checked by the request
that waits for them. -/
theorem hiveFrames : Obligations.HiveFrames := by
  unfold Obligations.HiveFrames
  refine ⟨fun port f s w hc hw hup hopen hclean herr c hcmd => ?_, fun s hc => ⟨fun v w hreq => ?_, fun h => ?_⟩⟩
  · subst hw
    have hexec := exec_hiveFrame hc hcmd
    refine ⟨fun hcrc hidle => ⟨_, hexec, ?_⟩, fun hcrc hrole haddr hidle => ⟨_, hexec, ?_⟩, fun hcrc hrole haddr hidle => ?_,
      fun hcrc hrole haddr htype n u d a ha hd hreq hn hnew hold => ⟨_, hexec, ?_⟩⟩
    · rw [hiveReceive_badCrc hup hopen hclean herr hcrc]
      have hcount := badCrcTaken_count (hivePort port) f s
      obtain ⟨r, q, out, hu⟩ := (sent_badCrcTaken (hivePort port) f s).eq
      rw [hu] at hcount ⊢
      rw [reportCheck_idle hidle]
      · exact ⟨rfl, hcount⟩
      · rfl
    · rw [hiveReceive_notUsed hup hopen hclean herr hcrc (.inr (.inl ⟨haddr, hrole⟩)), reportCheck_idle hidle]
      · exact ⟨rfl, fun x => portTook_st _ _ _ x⟩
      · rfl
    · have hused (h) := hiveReceive_used hup hopen hclean herr hcrc (not_notUsed haddr h)
      rw [hrole] at hused
      have hsent := sent_frameTaken (hivePort port) f s
      obtain ⟨r, q, out, hu⟩ := hsent.eq
      refine ⟨fun htype hcorr => ⟨_, hexec, ?_⟩, fun htype hcorr => ⟨_, hexec, ?_⟩, fun htype hcomp =>
        ⟨fun htag hgot hroom => ⟨_, hexec, ?_⟩, fun htag hgot => ⟨_, hexec, ?_⟩, fun htag hold => ⟨_, hexec, ?_⟩⟩⟩
      · rw [hused (.inl htype), frameUsed_mark htype]
        obtain ⟨hframe, hdelay⟩ := pathKept_useMark (p := hivePort port) (time := f.time) (s := frameTaken (hivePort port) f s) hcorr
        rw [pathShown_delay, pathDelay, hsent.seg] at hdelay
        rw [reportCheck_idle hidle]
        · refine ⟨?_, hdelay⟩
          rw [hframe, hu]
          rfl
        · rw [hframe, hu]
          rfl
      · rw [hused (.inl htype), frameUsed_mark htype, useMark_saturated hcorr, hu, reportCheck_idle hidle]
        · rfl
        · rfl
      all_goals rw [hused (.inr (.inl htype)), frameUsed_command (type_of_command htype), hu]
      · rw [useCommand_first (s := linkSent r q out s) hcomp htag hgot hroom, reportCheck_idle hidle]
        · exact ⟨rfl, rfl⟩
        · rfl
      · rw [useCommand_again (s := linkSent r q out s) hcomp htag hgot, reportCheck_idle hidle]
        · rfl
        · rfl
      · rw [useCommand_stale (s := linkSent r q out s) hcomp htag hold, commandLate_frame, reportCheck_idle hidle]
        · exact ⟨rfl, flag_setFlag_self _ _ (by decide) (by decide)⟩
        · rfl
    · have hused := hiveReceive_used hup hopen hclean herr hcrc (not_notUsed haddr (.inr (.inr htype)))
      obtain ⟨r, q, out, hu⟩ := (sent_frameTaken (hivePort port) f s).eq
      subst ha hd
      rw [hused, hrole, frameUsed_report (type_of_report htype), hu, useReport_first (s := linkSent r q out s) hreq hn hnew]
      set x := ((rxWord f 0).toNat / 256 % 16, (rxWord f 3).toNat % 4096)
      obtain hle | hgt := le_or_gt (x.2 : Int) (hiveLimit s)
      · rw [reportCheck_within (s := reportTaken x (linkSent r q out s)) hreq]
        · refine ⟨rfl, fun _ => ⟨rfl, ?_⟩, fun h => absurd h (not_lt.2 hle)⟩
          simp [reportTaken, linkSent]
        · exact List.forall_mem_append.2 ⟨hold, List.forall_mem_singleton.2 hle⟩
      · rw [reportCheck_over (s := reportTaken x (linkSent r q out s)) hreq
          ⟨x, List.mem_append_right _ (List.mem_singleton_self x), hgt⟩]
        refine ⟨?_, fun h => absurd hgt (not_lt.2 h), fun _ => ⟨?_, refuseReq_refused ..,
          refuseReq_reason _ _ (by decide), opState_refuseReq ..⟩⟩
        · rw [refuseReq_frame]
          rfl
        · rw [refuseReq_frame]
          rfl
  · refine ⟨_, exec_hiveReportTimeout hc, ?_⟩
    rw [hiveTimeout_over hreq rfl]
    refine ⟨?_, refuseReq_refused .., refuseReq_reason _ _ (by decide), opState_refuseReq .., fun o ho => kvGet_refuseReq_ne _ _ ho,
      refuseReq_irq ..⟩
    rw [refuseReq_frame]
  · rw [exec_hiveReportTimeout hc, hiveTimeout_idle h]

end Sys2Proof.Machine
end

section
/-! The service port's DETACH (R80, R356, R405) with a host link that is no longer wanted: the refutation of the statement about the
service port's attachment. -/
namespace Sys2Proof.Machine

/-- IDLE, a partner attached in the service mode, the loader claimed over PCIe; the unit of the host link is granted and no longer
asked for. -/
def linkUnwanted : State :=
  let reg := setF (setFlag State.reset.sys.r F.SYS_PWR_STAT_core_ready) F.SYS_STATE_STAT_state 3
  { State.reset with
      sys := { State.reset.sys with r := reg, up := true }
      img := { State.reset.img with r := setF State.reset.img.r F.IMG_STAT_owner (pathCode .pcie) }
      bgt := { State.reset.bgt with granted := unitBit 23 }
      hst := { State.reset.hst with r := setF State.reset.hst.r F.HST_PCIE_CFG_en 0 }
      svc := { State.reset.svc with r := setFlag (setF State.reset.svc.r F.SVC_STAT_cc_state 2) F.SVC_STAT_alt } }

theorem linkUnwanted_attached : linkUnwanted.sys.up = true ∧ svcAttached linkUnwanted = true ∧ imgOwner linkUnwanted = 1 := by decide

/-- Leaving the service mode runs the arbiter, which releases the host link's unit and so resets the link (R334, R356); with it goes the
ownership of its path. -/
theorem imgOwner_svcDetach_linkUnwanted : imgOwner (svcDetach (0 : BitVec 16).toNat linkUnwanted) = 0 := by decide +kernel

theorem exec_detach {s : State} (hu : s.sys.up = true) (mv : BitVec 16) : exec (.detach mv) s = .next (svcDetach mv.toNat s) := by
  show whenUp (svcDetach mv.toNat) s = _
  rw [whenUp_next, if_pos hu]

/-- Refutes O50: a DETACH out of the service mode can end the ownership of the PCIe path as well, not the service port's alone. -/
theorem not_svcAttachment : ¬ Obligations.SvcAttachment := by
  unfold Obligations.SvcAttachment
  intro h
  obtain ⟨hu, hatt, hown⟩ := linkUnwanted_attached
  obtain ⟨t, ht, -, -, -, -, -, -, -, -, -, -, -, -, -, -, -, howner, -⟩ := (h.2 0 .svc linkUnwanted hu).1 hatt
  rw [exec_detach hu] at ht
  obtain rfl := Host.Outcome.next.inj ht
  rw [imgOwner_svcDetach_linkUnwanted, hown] at howner
  exact absurd howner (by decide)

end Sys2Proof.Machine
end

section
/-! COMMIT (R90, R92 to R94, R281): what a staged set of the cell supervision sends to a ring while no strides run, and the refutation
of the statement about commits. -/
namespace Sys2Proof.Machine

/-- COMMIT of a block with staged fields captures its set. -/
theorem exec_commit_staged {s : State} (hu : s.sys.up = true) (hc : coreReady s = true) (p : Path) {blk : Fin 21}
    (hb : blk.val ∈ stagedBlocks) : exec (.commit p blk false) s = .next (commitBlk blk false s) := by
  obtain ⟨d, x, hd⟩ : ∃ d x, findReg blk.val R.blk_COMMIT = some (d, x) := by
    have hall : ∀ b ∈ stagedBlocks, (findReg b R.blk_COMMIT).isSome = true := by decide +kernel
    obtain ⟨⟨d, x⟩, hd⟩ := Option.isSome_iff_exists.1 (hall blk hb)
    exact ⟨d, x, hd⟩
  have hwin : inWindow blk.val R.blk_COMMIT = false := by
    have hall : ∀ b ∈ stagedBlocks, inWindow b R.blk_COMMIT = false := by decide
    exact hall blk hb
  have hcont : stagedBlocks.contains blk.val = true := List.contains_iff_mem.2 hb
  have hwrite : writeReg p blk R.blk_COMMIT d 1 s = commitBlk blk false s := (if_pos (by rw [hcont]; rfl)).trans rfl
  show whenUp (fun s => if false && stagedBlocks.contains blk.val && coreReady s then commitBlk blk true s
    else hostWrite p (blk * 65536 + R.blk_COMMIT) 1 s) s = _
  rw [whenUp_next, if_pos hu, if_neg (by simp), hostWrite_mapped (by decide) (by omega) (.inr hc) hwin hd, hwrite]

/-- IDLE, ring 0 in TIMING with its LIMITS sent, a new limit set for its node staged. -/
def limitsSent : State :=
  let reg := setF (setFlag State.reset.sys.r F.SYS_PWR_STAT_core_ready) F.SYS_STATE_STAT_state 3
  let word (k v : Nat) : Pend := { ofs := 0x100 + 4 * k, lo := 0, width := 32, val := v }
  { State.reset with
      sys := { State.reset.sys with r := reg, up := true }
      img := { State.reset.img with str := { hasRings := true, rings := [{ ring := 0, nodes := 1 }], sets := [{}] } }
      rng := { State.reset.rng with
        r := setF State.reset.rng.r (F.RNG_RINGr_STAT_state 0) 5
        ring := State.reset.rng.ring.set 0 { limSent := true } }
      csv := { State.reset.csv with st := { stg := [word 0 0x40003, word 1 0x20001, word 2 0x40003, word 3 0x20001] } } }

theorem limitsSent_idle : limitsSent.sys.up = true ∧ coreReady limitsSent = true ∧ strides limitsSent = false ∧
    limitsSent.rng.ring[0].limSent = true := by decide

/-- The set is accepted, and the ring is to be sent its LIMITS again (R281). -/
theorem limSent_commitBlk_limitsSent : (commitBlk 10 false limitsSent).rng.ring[0].limSent = false := by decide +kernel

/-- Refutes O60: without strides a commit of limit sets changes a ring in TIMING. -/
theorem not_commitAndBankWrites : ¬ Obligations.CommitAndBankWrites := by
  unfold Obligations.CommitAndBankWrites
  intro h
  obtain ⟨hu, hc, hs, hsent⟩ := limitsSent_idle
  obtain ⟨t, ht, -, hidle⟩ := (h.2 .pcie limitsSent hu hc).1 10 (by decide)
  rw [exec_commit_staged hu hc .pcie (by decide)] at ht
  obtain rfl := Host.Outcome.next.inj ht
  obtain ⟨-, -, -, -, -, -, -, -, -, -, -, hrng, -⟩ := hidle hs
  have hunsent : limitsSent.rng.ring[0].limSent = false := by
    rw [← hrng]
    exact limSent_commitBlk_limitsSent
  rw [hsent] at hunsent
  exact absurd hunsent (by decide)

end Sys2Proof.Machine
end

section
/-! The loader (R80 to R82, R86, R98): ownership, the buffer's bytes, how a job ends and how an abort ends it, and the statement about
ownership. -/
namespace Sys2Proof.Machine

/-- A command that reaches the service island out of reset takes effect (R442). -/
theorem whenUp_ready {s : State} (hu : s.sys.up = true) (f : State → State) : whenUp f s = .next (f s) := by
  rw [whenUp_next, if_pos hu]

/-! ## Bytes copied between memories -/

section
variable {n : Nat} {k : Nat}

theorem kvGet_append_of_left {l : List (Nat × BitVec n)} (h : ∀ p ∈ l, p.1 ≠ k) (m : List (Nat × BitVec n)) :
    kvGet (l ++ m) k = kvGet m k := by
  induction l with
  | nil => rfl
  | cons p t ih =>
    obtain ⟨hp, ht⟩ := List.forall_mem_cons.1 h
    exact (if_neg hp).trans (ih ht)

theorem kvGet_eq_zero {l : List (Nat × BitVec n)} (h : ∀ p ∈ l, p.1 ≠ k) : kvGet l k = 0 := by
  rw [← List.append_nil l, kvGet_append_of_left h]
  rfl

theorem kvGet_append_of_right (l : List (Nat × BitVec n)) {m : List (Nat × BitVec n)} (h : ∀ p ∈ m, p.1 ≠ k) :
    kvGet (l ++ m) k = kvGet l k := by
  induction l with
  | nil => exact kvGet_eq_zero h
  | cons p t ih =>
    show (if p.1 = k then p.2 else kvGet (t ++ m) k) = if p.1 = k then p.2 else kvGet t k
    rw [ih]

theorem kvGet_filter_of_pos (l : List (Nat × BitVec n)) {q : Nat × BitVec n → Bool} (h : ∀ w, q (k, w) = true) :
    kvGet (l.filter q) k = kvGet l k := by
  induction l with
  | nil => rfl
  | cons p t ih =>
    obtain ⟨a, w⟩ := p
    by_cases ha : a = k
    · subst ha
      rw [List.filter_cons_of_pos (h w)]
      simp [kvGet]
    · by_cases hq : q (a, w) = true
      · rw [List.filter_cons_of_pos hq]
        simp [kvGet, ha, ih]
      · rw [List.filter_cons_of_neg hq]
        simp [kvGet, ha, ih]

/-- Words moved from `b` on to `a` on. -/
theorem kvGet_map_shift (a b : Nat) (h : a ≤ k) : ∀ l : List (Nat × BitVec n), (∀ p ∈ l, b ≤ p.1) →
    kvGet (l.map fun c => (c.1 - b + a, c.2)) k = kvGet l (k - a + b)
  | [], _ => rfl
  | p :: t, hl => by
    obtain ⟨hp, ht⟩ := List.forall_mem_cons.1 hl
    have hkey : p.1 - b + a = k ↔ p.1 = k - a + b := by omega
    simp [kvGet, hkey, kvGet_map_shift a b h t ht]

end

/-- A copy replaces the bytes of its range and no others. -/
theorem Memory.read_blit (dst src : Memory) (a b n x : Nat) :
    (dst.blit a src b n).read x = if a ≤ x ∧ x < a + n then src.read (x - a + b) else dst.read x := by
  have hbelow : a ≤ x → ∀ p ∈ dst.filter (fun c => c.1 < a), p.1 ≠ x := fun h p hp => by
    have := of_decide_eq_true (List.mem_filter.1 hp).2
    omega
  have habove : x < a + n → ∀ p ∈ dst.filter (fun c => a + n ≤ c.1), p.1 ≠ x := fun h p hp => by
    have := of_decide_eq_true (List.mem_filter.1 hp).2
    omega
  have hpart : ∀ p ∈ src.filter (fun c => b ≤ c.1 && c.1 < b + n), b ≤ p.1 ∧ p.1 < b + n := fun p hp => by
    simpa using (List.mem_filter.1 hp).2
  have hcopied : ¬(a ≤ x ∧ x < a + n) →
      ∀ p ∈ (src.filter fun c => b ≤ c.1 && c.1 < b + n).map fun c => (c.1 - b + a, c.2), p.1 ≠ x := fun h p hp => by
    obtain ⟨c, hc, rfl⟩ := List.mem_map.1 hp
    have := hpart c hc
    dsimp only
    omega
  unfold Memory.read Memory.blit
  split
  next h =>
    rw [kvGet_append_of_right _ (habove h.2), kvGet_append_of_left (hbelow h.1), kvGet_map_shift a b h.1 _ fun p hp => (hpart p hp).1]
    exact kvGet_filter_of_pos src fun w => by simp; omega
  next h =>
    obtain hx | hx := lt_or_ge x a
    · rw [kvGet_append_of_right _ fun p hp => ?_, kvGet_append_of_right _ (hcopied h)]
      · exact kvGet_filter_of_pos dst fun w => decide_eq_true hx
      · have := of_decide_eq_true (List.mem_filter.1 hp).2
        omega
    · rw [kvGet_append_of_left]
      · exact kvGet_filter_of_pos dst fun w => decide_eq_true (by dsimp only; omega)
      · exact List.forall_mem_append.2 ⟨hbelow hx, hcopied h⟩

theorem Memory.read_blit_in {dst src : Memory} {a b n i : Nat} (h : i < n) : (dst.blit a src b n).read (a + i) = src.read (b + i) := by
  rw [Memory.read_blit, if_pos (by omega), Nat.add_sub_cancel_left, Nat.add_comm]

theorem Memory.read_blit_out {dst src : Memory} {a b n x : Nat} (h : x < a ∨ a + n ≤ x) : (dst.blit a src b n).read x = dst.read x := by
  rw [Memory.read_blit, if_neg (by omega)]

/-! ## The loader's commands -/

section
variable {s : State} (hu : s.sys.up = true) (p : Path)
include hu

theorem exec_claim : exec (.claim p) s = .next (imgClaim p s) := whenUp_ready hu _
theorem exec_takeOver : exec (.takeOver p) s = .next (imgTakeOver p s) := whenUp_ready hu _
theorem exec_release : exec (.release p) s = .next (imgRelease p s) := whenUp_ready hu _
theorem exec_check : exec (.check p) s = .next (ownerDo p (imgCheckStart false) s) := whenUp_ready hu _
theorem exec_fetch (sl : Bool) : exec (.fetch p sl) s = .next (imgFetch p sl.toNat s) := whenUp_ready hu _
theorem exec_store (sl : Bool) : exec (.store p sl) s = .next (imgStore p sl.toNat s) := whenUp_ready hu _
theorem exec_abort (n : Nat) : exec (.abort p n) s = .next (imgAbort p n s) := whenUp_ready hu _
theorem exec_imgBufferWrite (ofs : Nat) (v : Word) : exec (.imgBufferWrite p ofs v) s = .next (bufferWrite p ofs v s) := whenUp_ready hu _

end

/-! ## Ownership (R80, R81) -/

theorem pathCode_lt (p : Path) : pathCode p < 8 := by cases p <;> decide

/-- The loader's registers alone may change, and of them `IMG_STAT` alone. -/
structure StatOnly (s t : State) : Prop where
  frame : t = { s with img := { s.img with r := t.img.r } }
  regs  : ∀ o, o ≠ R.IMG_STAT → kvGet t.img.r o = kvGet s.img.r o

theorem statOnly_cmdErr (s : State) : StatOnly s (cmdErr s) := ⟨rfl, fun _ ho => kvGet_setFlag_ne _ ho⟩

theorem cmdErr_shows (s : State) : flag (cmdErr s).img.r F.IMG_STAT_cmd_err = true := flag_setFlag_self _ _ (by decide) (by decide)

section
variable {p : Path} {s : State}

theorem ownerDo_other (h : imgOwner s ≠ pathCode p) (f : State → State) : ownerDo p f s = cmdErr s := if_neg fun ho => h ho.1

theorem ownerDo_idle (ho : imgOwner s = pathCode p) (hb : imgBusy s = false) (f : State → State) : ownerDo p f s = f s :=
  if_pos ⟨ho, by simp [hb]⟩

/-- The registers behind a CLAIM of path `p`. -/
def claimedRegs (p : Path) (r : RegFile) : RegFile :=
  setF (kvSet (kvSet (setF (setF r F.IMG_STAT_owner (pathCode p)) F.IMG_STAT_buf_hwm 0) R.IMG_ERR 0) R.IMG_ERR_OFS 0) F.IMG_STAT_checked 0

/-- The registers behind a TAKE_OVER of path `p`. -/
def takenRegs (p : Path) (r : RegFile) : RegFile := setF (setF r F.IMG_STAT_owner (pathCode p)) F.IMG_STAT_checked 0

theorem imgClaim_free (hb : imgBusy s = false) (ho : imgOwner s = 0 ∨ imgOwner s = pathCode p) :
    imgClaim p s = { s with img := { s.img with r := claimedRegs p s.img.r, next := none } } := by
  unfold imgClaim
  rw [if_neg]
  · rfl
  · rw [hb]
    rintro (h | ⟨h0, hp⟩)
    · exact absurd h Bool.false_ne_true
    · exact ho.elim h0 hp

theorem imgClaim_owned (h0 : imgOwner s ≠ 0) (hp : imgOwner s ≠ pathCode p) : imgClaim p s = cmdErr s := if_pos (.inr ⟨h0, hp⟩)

theorem imgTakeOver_idle (hb : imgBusy s = false) :
    imgTakeOver p s = { s with img := { s.img with r := takenRegs p s.img.r, next := none } } := if_neg (by simp [hb])

theorem imgRelease_idle (ho : imgOwner s = pathCode p) (hb : imgBusy s = false) :
    imgRelease p s = imgRegs_ (fun r => setF r F.IMG_STAT_owner 0) s := ownerDo_idle ho hb _

/-- A field of `IMG_STAT` beside `checked` behind a CLAIM. -/
theorem getF_claimedRegs (p : Path) (r : RegFile) {f : Fld} (ho : f.ofs = R.IMG_STAT) (hf : f.lo + f.width ≤ 32)
    (h : f.lo + f.width ≤ F.IMG_STAT_checked.lo ∨ F.IMG_STAT_checked.lo + F.IMG_STAT_checked.width ≤ f.lo) :
    getF (claimedRegs p r) f = getF (setF (setF r F.IMG_STAT_owner (pathCode p)) F.IMG_STAT_buf_hwm 0) f := by
  have hofs : f.ofs ≠ R.IMG_ERR_OFS := by rw [ho]; decide
  have herr : f.ofs ≠ R.IMG_ERR := by rw [ho]; decide
  rw [claimedRegs, getF_setF_bits _ _ hf h, getF_congr (kvGet_kvSet_ne _ _ hofs), getF_congr (kvGet_kvSet_ne _ _ herr)]

theorem claimedRegs_owner (p : Path) (r : RegFile) : getF (claimedRegs p r) F.IMG_STAT_owner = pathCode p := by
  rw [getF_claimedRegs p r rfl (by decide) (by decide), getF_setF_bits _ _ (by decide) (by decide),
    getF_setF_small _ _ (by decide) (pathCode_lt p)]

theorem claimedRegs_hwm (p : Path) (r : RegFile) : getF (claimedRegs p r) F.IMG_STAT_buf_hwm = 0 := by
  rw [getF_claimedRegs p r rfl (by decide) (by decide), getF_setF_small _ _ (by decide) (by decide)]

/-- A flag cleared last reads false. -/
theorem flag_clear_self (r : RegFile) {f : Fld} (h : f.lo + f.width ≤ 32) : flag (setF r f 0) f = false := by
  rw [flag, getF_setF_small _ _ h (Nat.two_pow_pos _)]
  rfl

theorem claimedRegs_err (p : Path) (r : RegFile) : kvGet (claimedRegs p r) R.IMG_ERR = 0 ∧ kvGet (claimedRegs p r) R.IMG_ERR_OFS = 0 := by
  unfold claimedRegs
  rw [kvGet_setF_ne _ _ (by decide), kvGet_setF_ne _ _ (by decide), kvGet_kvSet_ne _ _ (by decide), kvGet_kvSet_self, kvGet_kvSet_self]
  exact ⟨rfl, rfl⟩

theorem takenRegs_owner (p : Path) (r : RegFile) : getF (takenRegs p r) F.IMG_STAT_owner = pathCode p := by
  unfold takenRegs
  rw [getF_setF_bits _ _ (by decide) (by decide), getF_setF_small _ _ (by decide) (pathCode_lt p)]

end

/-! ## The buffer (R82) -/

section
variable {p : Path} {s : State}

/-- The place in the buffer of window offset `ofs`. -/
abbrev bufferPlace (ofs : Nat) (s : State) : Nat := 16384 * getF s.img.r F.IMG_BUF_PAGE_page + (ofs - 0xC000)

/-- The registers behind a write of the four bytes at `a`. -/
def bufferRegs (a : Nat) (r : RegFile) : RegFile :=
  setF (setF r F.IMG_STAT_buf_hwm (max (getF r F.IMG_STAT_buf_hwm) (a + 4))) F.IMG_STAT_checked 0

theorem bufferWrite_idle (ho : imgOwner s = pathCode p) (hb : imgBusy s = false) (ofs : Nat) (v : Word) : bufferWrite p ofs v s =
    { s with img := { s.img with r := bufferRegs (bufferPlace ofs s) s.img.r,
                                 buf := s.img.buf.writeBytes (bufferPlace ofs s) (wordBytes v), next := none } } := ownerDo_idle ho hb _

theorem bufferRegs_hwm {a : Nat} (ha : a + 4 < 2 ^ 17) (r : RegFile) :
    getF (bufferRegs a r) F.IMG_STAT_buf_hwm = max (getF r F.IMG_STAT_buf_hwm) (a + 4) := by
  have hold : getF r F.IMG_STAT_buf_hwm < 2 ^ 17 := getF_lt r F.IMG_STAT_buf_hwm
  unfold bufferRegs
  rw [getF_setF_bits _ _ (by decide) (by decide), getF_setF_small _ _ (by decide) (max_lt hold ha)]

theorem wordBytes_getD (v : Word) {k : Nat} (hk : k < 4) : (wordBytes v).getD k 0 = v.extractLsb' (8 * k) 8 := by
  interval_cases k <;> rfl

end

/-! ## The end of a job (R85, R364) -/

section
variable (s : State)

/-- The registers behind the end of a job. -/
def endedRegs (r : RegFile) : RegFile := setF (setF r F.IMG_STAT_busy 0) F.IMG_STAT_step 0

theorem endJob_frame : endJob s = { s with
    img := { s.img with job := none, r := endedRegs s.img.r }, hst := (endJob s).hst, two := (endJob s).two, out := (endJob s).out } := by
  unfold endJob
  rw [irq_frame]
  rfl

theorem endJob_img : (endJob s).img = { s.img with job := none, r := endedRegs s.img.r } := by rw [endJob_frame]

theorem endJob_nvm : (endJob s).nvm = s.nvm := by rw [endJob_frame]

theorem endJob_irq : getBit (endJob s).hst.r R.HST_IRQ_STAT 2 = true := irq_stat 2 _ (by decide)

theorem endJob_notBusy : imgBusy (endJob s) = false := by
  unfold imgBusy
  rw [endJob_img]
  exact (flag_setF_bits _ _ (by decide) (by decide)).trans (flag_clear_self _ (by decide))

end

/-- A register of the loader beside `IMG_STAT` keeps its value at the end of a job. -/
theorem kvGet_endedRegs_ne (r : RegFile) {o : Nat} (h : o ≠ R.IMG_STAT) : kvGet (endedRegs r) o = kvGet r o :=
  (kvGet_setF_ne _ _ h).trans (kvGet_setF_ne _ _ h)

theorem getF_endedRegs_ofs (r : RegFile) {f : Fld} (h : f.ofs ≠ R.IMG_STAT) : getF (endedRegs r) f = getF r f :=
  getF_congr (kvGet_endedRegs_ne r h)

/-- A field of `IMG_STAT` beside `busy` and `step` keeps its value there. -/
theorem getF_endedRegs_bits (r : RegFile) {f : Fld} (hf : f.lo + f.width ≤ 32)
    (hb : f.lo + f.width ≤ F.IMG_STAT_busy.lo ∨ F.IMG_STAT_busy.lo + F.IMG_STAT_busy.width ≤ f.lo)
    (hs : f.lo + f.width ≤ F.IMG_STAT_step.lo ∨ F.IMG_STAT_step.lo + F.IMG_STAT_step.width ≤ f.lo) : getF (endedRegs r) f = getF r f :=
  (getF_setF_bits _ _ hf hs).trans (getF_setF_bits _ _ hf hb)

/-- The registers behind a recorded failure (R88). -/
def errRegs (e : ImgErr) (r : RegFile) : RegFile :=
  kvSet (setF (setF (setF r F.IMG_ERR_sec_type e.sec) F.IMG_ERR_step e.step) F.IMG_ERR_code e.code) R.IMG_ERR_OFS (BitVec.ofNat 32 e.ofs)

theorem setImgErr_eq (e : ImgErr) (s : State) : setImgErr e s = { s with img := { s.img with r := errRegs e s.img.r } } := rfl

section
variable (e : ImgErr) (r : RegFile)

theorem errRegs_code : getF (errRegs e r) F.IMG_ERR_code = e.code % 256 :=
  (getF_congr (kvGet_kvSet_ne _ _ (by decide))).trans (getF_setF_self _ _ _ (by decide))

theorem errRegs_step : getF (errRegs e r) F.IMG_ERR_step = e.step % 8 := by
  rw [errRegs, getF_congr (kvGet_kvSet_ne _ _ (by decide)), getF_setF_bits _ _ (by decide) (by decide), getF_setF_self _ _ _ (by decide)]
  rfl

/-- A field of another register keeps its value where a failure is recorded. -/
theorem getF_errRegs_ofs {f : Fld} (h : f.ofs ≠ R.IMG_ERR) (h' : f.ofs ≠ R.IMG_ERR_OFS) : getF (errRegs e r) f = getF r f := by
  refine getF_congr ?_
  rw [errRegs, kvGet_kvSet_ne _ _ h', kvGet_setF_ne _ _ h, kvGet_setF_ne _ _ h, kvGet_setF_ne _ _ h]

theorem flag_errRegs_ofs {f : Fld} (h : f.ofs ≠ R.IMG_ERR) (h' : f.ofs ≠ R.IMG_ERR_OFS) : flag (errRegs e r) f = flag r f := by
  rw [flag, getF_errRegs_ofs e r h h', flag]

end

/-! ## The store's slots (R427, R428) -/

/-- A copy into a slot leaves the control bytes behind the slots. -/
theorem read_storeBytes {slot n : Nat} (hs : slot < 2) (hn : n ≤ 114688) (s : State) {x : Nat} (hx : nvmCtl ≤ x) :
    (storeBytes slot n s).nvm.mem.read x = s.nvm.mem.read x := by
  refine Memory.read_blit_out (.inr ?_)
  have hslot : nvmSlot slot ≤ 0x1C000 := by interval_cases slot <;> decide
  have hctl : nvmCtl = 0x3C000 := rfl
  omega

theorem nvmActive_congr {m q : Memory} (h : m.read nvmCtl = q.read nvmCtl) : nvmActive m = nvmActive q := by
  unfold nvmActive
  rw [h]

theorem nvmValid_congr {m q : Memory} {slot : Nat} (h : m.read (nvmCtl + 1 + slot) = q.read (nvmCtl + 1 + slot)) :
    nvmValid m slot = nvmValid q slot := by
  unfold nvmValid
  rw [h]

theorem bufLen_le (s : State) : bufLen s ≤ 114688 := min_le_left ..

/-! ## ABORT (R86, R98) -/

section
variable {p : Path} {s : State}

theorem imgAbort_other (h : imgOwner s ≠ pathCode p) (n : Nat) : imgAbort p n s = cmdErr s := if_pos h

variable (ho : imgOwner s = pathCode p) (n : Nat)
include ho

theorem imgAbort_idle (hj : s.img.job = none) : imgAbort p n s = s := by
  unfold imgAbort
  rw [if_neg (not_not.2 ho), hj]

theorem imgAbort_check (hj : s.img.job = some (.check false)) : imgAbort p n s =
    endJob (setImgErr ⟨0x14, getF s.img.r F.IMG_STAT_step, 0, 0⟩ s) := by
  unfold imgAbort
  rw [if_neg (not_not.2 ho), hj]
  rfl

theorem imgAbort_fetch {sl : Nat} (hj : s.img.job = some (.fetch sl)) : imgAbort p n s =
    endJob (setImgErr ⟨0x14, 0, 0, 0⟩
      (uncheck (imgRegs_ (fun r => setF r F.IMG_STAT_buf_hwm 0) (fetchBytes sl (min n (slotLen s.nvm.mem sl)) s)))) := by
  unfold imgAbort
  rw [if_neg (not_not.2 ho), hj]

theorem imgAbort_store {sl : Nat} (hj : s.img.job = some (.store sl)) : imgAbort p n s =
    endJob (storeErr 5 (storeBytes sl (min n (bufLen s)) s)) := by
  unfold imgAbort
  rw [if_neg (not_not.2 ho), hj]

end

/-- The registers behind the abort of a fetch. -/
def fetchCutRegs (r : RegFile) : RegFile := setF (setF r F.IMG_STAT_buf_hwm 0) F.IMG_STAT_checked 0

/-- The buffer after an aborted fetch is that of no image (R98). -/
theorem fetchCut_eq (sl m : Nat) (s : State) : uncheck (imgRegs_ (fun r => setF r F.IMG_STAT_buf_hwm 0) (fetchBytes sl m s)) =
    { s with img := { s.img with r := fetchCutRegs s.img.r, buf := (fetchBytes sl m s).img.buf, next := none } } := rfl

theorem fetchCutRegs_hwm (r : RegFile) : getF (fetchCutRegs r) F.IMG_STAT_buf_hwm = 0 :=
  (getF_setF_bits _ _ (by decide) (by decide)).trans (getF_setF_small _ _ (by decide) (by decide))

theorem fetchCutRegs_checked (r : RegFile) : flag (fetchCutRegs r) F.IMG_STAT_checked = false := flag_clear_self _ (by decide)

/-- The outcome of a store, in the loader's registers. -/
theorem storeErr_eq (e : Nat) (s : State) :
    storeErr e s = { s with img := { s.img with r := setF s.img.r F.IMG_NVM_STAT_store_err e } } := rfl

/-! ## The statement -/

/-- A command of a path that does not own the loader is refused (R81). -/
theorem exec_notOwner {p : Path} {s : State} (hu : s.sys.up = true) (ho : imgOwner s ≠ pathCode p) {ofs : Nat} {v : Word} {sl : Bool}
    {c : Instr} (hmem : c ∈ [Instr.release p, .check p, .fetch p sl, .store p sl, .imgBufferWrite p ofs v, .claim p])
    (hcl : c = .claim p → imgOwner s ≠ 0) : exec c s = .next (cmdErr s) := by
  simp only [List.mem_cons, List.not_mem_nil, or_false] at hmem
  obtain rfl | rfl | rfl | rfl | rfl | rfl := hmem
  · rw [exec_release hu, imgRelease, ownerDo_other ho]
  · rw [exec_check hu, ownerDo_other ho]
  · rw [exec_fetch hu, imgFetch, ownerDo_other ho]
  · rw [exec_store hu, imgStore, ownerDo_other ho]
  · rw [exec_imgBufferWrite hu, bufferWrite, ownerDo_other ho]
  · rw [exec_claim hu, imgClaim_owned (hcl rfl) ho]

/-- Settles O10: each command is a write of `IMG_STAT` and of what stands beside it; an abort is the end of the job behind it. -/
theorem loaderOwnership : Obligations.LoaderOwnership := by
  unfold Obligations.LoaderOwnership
  refine ⟨fun p s hu hb => ⟨fun ho => ?_, ?_, fun ho => ?_, fun ofs v ho hofs => ?_, fun ofs v sl ho c hmem hcl => ?_⟩,
    fun p n s hu => ⟨fun ho hj => ?_, fun sl ho hj => ?_, fun sl hsl ho hj => ?_, fun ho hj => ?_, fun ho => ?_⟩⟩
  · refine ⟨_, exec_claim hu p, ?_⟩
    rw [imgClaim_free hb ho]
    exact ⟨rfl, claimedRegs_owner p _, claimedRegs_hwm p _, flag_clear_self _ (by decide), claimedRegs_err p _⟩
  · refine ⟨_, exec_takeOver hu p, ?_⟩
    rw [imgTakeOver_idle hb]
    exact ⟨rfl, takenRegs_owner p _, flag_clear_self _ (by decide), fun o ho => (kvGet_setF_ne _ _ ho).trans (kvGet_setF_ne _ _ ho)⟩
  · refine ⟨_, exec_release hu p, ?_⟩
    rw [imgRelease_idle ho hb]
    exact ⟨rfl, getF_setF_small _ _ (by decide) (by decide), fun o ho => kvGet_setF_ne _ _ ho⟩
  · refine ⟨_, exec_imgBufferWrite hu p ofs v, ?_⟩
    rw [bufferWrite_idle ho hb]
    refine ⟨rfl, flag_clear_self _ (by decide), fun o ho => (kvGet_setF_ne _ _ ho).trans (kvGet_setF_ne _ _ ho), fun hend hpage => ?_,
      fun k hk => ?_, fun a ha => Memory.read_writeBytes_out a (wordBytes v) _ _ ha⟩
    · exact bufferRegs_hwm (by unfold bufferPlace; omega) _
    · rw [← wordBytes_getD v hk]
      exact Memory.read_writeBytes_in (wordBytes v) _ _ k hk
  · exact ⟨_, exec_notOwner hu ho hmem hcl, (statOnly_cmdErr s).frame, cmdErr_shows s, (statOnly_cmdErr s).regs⟩
  · refine ⟨_, exec_abort hu p n, ?_⟩
    rw [imgAbort_check ho n hj, setImgErr_eq]
    refine ⟨?_, endJob_notBusy _, ?_, ?_⟩
    · rw [endJob_frame]
    · rw [endJob_img, getF_endedRegs_ofs _ (by decide), errRegs_code]
      rfl
    · rw [endJob_img, getF_endedRegs_ofs _ (by decide), errRegs_step]
  · refine ⟨_, exec_abort hu p n, ?_⟩
    rw [imgAbort_fetch ho n hj, setImgErr_eq, fetchCut_eq]
    refine ⟨?_, endJob_notBusy _, ?_, ?_, ?_⟩
    · rw [endJob_frame]
    · rw [endJob_img, getF_endedRegs_ofs _ (by decide), errRegs_code]
      rfl
    · rw [endJob_img, getF_endedRegs_bits _ (by decide) (by decide) (by decide), getF_errRegs_ofs _ _ (by decide) (by decide),
        fetchCutRegs_hwm]
    · rw [endJob_img, flag, getF_endedRegs_bits _ (by decide) (by decide) (by decide), getF_errRegs_ofs _ _ (by decide) (by decide)]
      exact fetchCutRegs_checked _
  · have hctl := @read_storeBytes sl (min n (bufLen s)) hsl ((min_le_right ..).trans (bufLen_le s)) s
    refine ⟨_, exec_abort hu p n, ?_⟩
    rw [imgAbort_store ho n hj, storeErr_eq]
    refine ⟨?_, endJob_notBusy _, ?_, fun _ _ => ?_⟩
    · rw [endJob_frame]
      rfl
    · rw [endJob_img, getF_endedRegs_ofs _ (by decide), getF_setF_small _ _ (by decide) (by decide)]
    · rw [endJob_nvm]
      exact ⟨nvmActive_congr (hctl le_rfl), fun hv => (nvmValid_congr (hctl (by omega))).trans hv⟩
  · exact (exec_abort hu p n).trans (congrArg _ (imgAbort_idle ho n hj))
  · refine ⟨_, exec_abort hu p n, ?_⟩
    rw [imgAbort_other ho]
    exact ⟨(statOnly_cmdErr s).frame, cmdErr_shows s⟩

end Sys2Proof.Machine
end

section
/-! The loader's jobs (R83, R96, R97): how CHECK, FETCH and STORE start, what each of them ends with, and the statement about them. -/
namespace Sys2Proof.Machine

/-! ## The store's counters (R435) -/

theorem read_putBytes {x : Nat} : ∀ (l : List (Nat × Byte)) (m : Memory), (∀ p ∈ l, p.1 ≠ x) → (putBytes m l).read x = m.read x
  | [], _, _ => rfl
  | p :: t, m, h => by
    obtain ⟨hp, ht⟩ := List.forall_mem_cons.1 h
    exact (read_putBytes t (m.write p.1 p.2) ht).trans (Memory.read_write_ne m p.2 hp.symm)

/-- A count changes no byte below the counters. -/
theorem read_ctrIncr_below (m : Memory) (n : Nat) {x : Nat} (h : x < nvmCtr 0 0) : (ctrIncr m n).read x = m.read x := by
  unfold ctrIncr
  split
  · refine read_putBytes _ m fun p hp => ?_
    obtain ⟨i, -, rfl⟩ := List.mem_map.1 hp
    dsimp only [nvmCtr] at h ⊢
    omega
  · rfl

/-! ## The start of a job (R83, R96, R97) -/

/-- The registers behind the start of a job that shows step `n`. -/
def startedRegs (n : Nat) (r : RegFile) : RegFile := setF (setFlag r F.IMG_STAT_busy) F.IMG_STAT_step n

theorem startJob_eq (j : Job) (n : Nat) (s : State) :
    startJob j n s = { s with img := { s.img with r := startedRegs n s.img.r, job := some j } } := rfl

theorem startedRegs_busy (n : Nat) (r : RegFile) : flag (startedRegs n r) F.IMG_STAT_busy = true :=
  (flag_setF_bits _ _ (by decide) (by decide)).trans (flag_setFlag_self _ _ (by decide) (by decide))

/-- A check starts; the step it shows is a free value. -/
theorem imgCheckStart_eq (forLoad : Bool) (s : State) : ∃ n, imgCheckStart forLoad s =
    { s with img := { s.img with r := startedRegs n s.img.r, job := some (.check forLoad) }, free := s.free + 1 } := ⟨_, rfl⟩

section
variable {p : Path} {slot : Nat} {s : State} (ho : imgOwner s = pathCode p) (hb : imgBusy s = false)
include ho hb

theorem imgFetch_starts (hv : nvmValid s.nvm.mem slot = true) (hlo : 256 ≤ slotLen s.nvm.mem slot)
    (hhi : slotLen s.nvm.mem slot ≤ 114688) : imgFetch p slot s = startJob (.fetch slot) 9 s := by
  rw [imgFetch, ownerDo_idle ho hb]
  exact if_neg (by simp [hv]; omega)

theorem imgFetch_noCopy (hv : nvmValid s.nvm.mem slot = false) : imgFetch p slot s = setImgErr ⟨0x13, 0, 0, 0⟩ s := by
  rw [imgFetch, ownerDo_idle ho hb]
  exact if_pos (by simp [hv])

theorem imgStore_starts (hc : flag s.img.r F.IMG_STAT_checked = true) (ha : nvmActive s.nvm.mem ≠ slot)
    (hw : flag s.nvm.r F.NVM_STAT_wr_unlocked = true) :
    imgStore p slot s = { s with img := { s.img with r := startedRegs 10 s.img.r, job := some (.store slot) }
                                 nvm := { s.nvm with mem := s.nvm.mem.write (nvmCtl + 1 + slot) 0 } } := by
  rw [imgStore, ownerDo_idle ho hb, hc, hw]
  exact if_neg ha

end

/-! ## The end of a job (R83, R96, R97) -/

section
variable {s : State}

/-- A check that fails leaves no image for a build, and its code and step. -/
theorem checkComplete_fails {e : ImgErr} {q : Option PackResult} (hj : s.img.job = some (.check false))
    (hc : checkBuffer s = .error (e, q)) : checkComplete s =
      endJob { s with img := { s.img with r := errRegs e (setF s.img.r F.IMG_STAT_checked 0), next := none } } := by
  unfold checkComplete
  rw [hj]
  dsimp only
  rw [hc]
  rfl

/-- A check that holds keeps its image for the build. -/
theorem checkComplete_holds {im : Img} {q : PackResult} (hj : s.img.job = some (.check false)) (hc : checkBuffer s = .ok (im, q)) :
    checkComplete s = endJob { s with img := { s.img with r := setFlag s.img.r F.IMG_STAT_checked, next := some im } } := by
  unfold checkComplete
  rw [hj]
  dsimp only
  rw [hc]
  rfl

variable {slot : Nat}

/-- The registers behind a fetch of `n` bytes. -/
def fetchedRegs (n : Nat) (r : RegFile) : RegFile := setF (setF r F.IMG_STAT_buf_hwm n) F.IMG_STAT_checked 0

theorem fetchComplete_eq (hj : s.img.job = some (.fetch slot)) : fetchComplete s = endJob { s with img := { s.img with
    r := fetchedRegs (slotLen s.nvm.mem slot) s.img.r
    buf := s.img.buf.blit 0 s.nvm.mem (nvmSlot slot) (slotLen s.nvm.mem slot)
    next := none } } := by
  unfold fetchComplete
  rw [hj]
  rfl

/-- The store after a store job whose read-back compared equal. -/
def storedMem (slot : Nat) (s : State) : Memory :=
  ctrIncr (((storeBytes slot (bufLen s) s).nvm.mem.write (nvmCtl + 1 + slot) 0xA5).write nvmCtl (BitVec.ofNat 8 slot)) 2

theorem storeComplete_equal (hj : s.img.job = some (.store slot)) : storeComplete true s = endJob { s with
    img := { s.img with r := setF s.img.r F.IMG_NVM_STAT_store_err 0 }, nvm := { s.nvm with mem := storedMem slot s } } := by
  simp only [storeComplete, hj, if_true, nvmByte, storeErr, imgRegs_, storeBytes, storedMem]

theorem storeComplete_differs (hj : s.img.job = some (.store slot)) : storeComplete false s = endJob { s with
    img := { s.img with r := setF s.img.r F.IMG_NVM_STAT_store_err 3 }
    nvm := { s.nvm with mem := (storeBytes slot (bufLen s) s).nvm.mem } } := by
  unfold storeComplete
  rw [hj]
  rfl

variable (hs : slot < 2) (s)
include hs

theorem storedMem_valid : nvmValid (storedMem slot s) slot = true := by
  have hlt : nvmCtl + 1 + slot < nvmCtr 0 0 := by
    dsimp only [nvmCtl, nvmCtr]
    omega
  rw [nvmValid, storedMem, read_ctrIncr_below _ _ hlt, Memory.read_write_ne _ _ (by omega), Memory.read_write_self]
  rfl

theorem storedMem_active : nvmActive (storedMem slot s) = slot := by
  rw [nvmActive, storedMem, read_ctrIncr_below _ _ (by decide), Memory.read_write_self]
  interval_cases slot <;> rfl

theorem storedMem_image {a : Nat} (ha : a < bufLen s) : (storedMem slot s).read (nvmSlot slot + a) = s.img.buf.read a := by
  have hlt : nvmSlot slot + a < nvmCtl := by
    have hslot : nvmSlot slot ≤ 0x1C000 := by interval_cases slot <;> decide
    have hlen := bufLen_le s
    have hctl : nvmCtl = 0x3C000 := rfl
    omega
  have hbelow : nvmCtl < nvmCtr 0 0 := by decide
  rw [storedMem, read_ctrIncr_below _ _ (hlt.trans hbelow), Memory.read_write_ne _ _ (by omega), Memory.read_write_ne _ _ (by omega)]
  exact (Memory.read_blit_in ha).trans (congrArg _ (Nat.zero_add a))

end

/-! ## The statement -/

/-- Settles O11: each job starts with a write of `IMG_STAT` and ends, behind what it leaves, with the end that all jobs share. -/
theorem loaderJobs : Obligations.LoaderJobs := by
  unfold Obligations.LoaderJobs
  intro p sl s hu
  have hsl : sl.toNat < 2 := sl.toNat_lt
  refine ⟨fun hb ho => ⟨?_, fun hv hlo hhi => ?_, fun hv => ?_, fun hc ha hw => ?_⟩, fun hj => ?_, fun hj hlen => ?_, fun hj => ?_,
    fun hj => ?_⟩
  · obtain ⟨n, hn⟩ := imgCheckStart_eq false s
    refine ⟨_, exec_check hu p, ?_⟩
    rw [ownerDo_idle ho hb, hn]
    exact ⟨rfl, startedRegs_busy n _⟩
  · refine ⟨_, exec_fetch hu p sl, ?_⟩
    rw [imgFetch_starts ho hb hv hlo hhi, startJob_eq]
    exact ⟨rfl, startedRegs_busy 9 _⟩
  · refine ⟨_, exec_fetch hu p sl, ?_⟩
    rw [imgFetch_noCopy ho hb hv, setImgErr_eq]
    have hbusy := flag_errRegs_ofs ⟨0x13, 0, 0, 0⟩ s.img.r (f := F.IMG_STAT_busy) (by decide) (by decide)
    exact ⟨rfl, errRegs_code ⟨0x13, 0, 0, 0⟩ s.img.r, hbusy.trans hb⟩
  · refine ⟨_, exec_store hu p sl, ?_⟩
    rw [imgStore_starts ho hb hc ha hw]
    exact ⟨startedRegs_busy 10 _, rfl, Memory.read_write_self s.nvm.mem _ 0, fun a ha => Memory.read_write_ne s.nvm.mem 0 ha⟩
  · refine ⟨_, whenUp_ready hu checkComplete, ?_⟩
    rcases hchk : checkBuffer s with ⟨e, q⟩ | ⟨im, q⟩
    · rw [checkComplete_fails hj hchk]
      refine ⟨?_, endJob_notBusy _, endJob_irq _, ?_⟩
      · rw [endJob_frame]
      · dsimp only
        rw [endJob_img, flag, getF_endedRegs_bits _ (by decide) (by decide) (by decide), getF_endedRegs_ofs _ (by decide),
          getF_endedRegs_ofs _ (by decide), errRegs_code, errRegs_step, getF_errRegs_ofs _ _ (by decide) (by decide)]
        exact ⟨flag_clear_self _ (by decide), rfl, rfl, rfl⟩
    · rw [checkComplete_holds hj hchk]
      refine ⟨?_, endJob_notBusy _, endJob_irq _, ?_⟩
      · rw [endJob_frame]
      · dsimp only
        rw [endJob_img, flag, getF_endedRegs_bits _ (by decide) (by decide) (by decide)]
        exact ⟨flag_setFlag_self _ _ (by decide) (by decide), rfl⟩
  · refine ⟨_, whenUp_ready hu fetchComplete, ?_⟩
    rw [fetchComplete_eq hj]
    refine ⟨?_, endJob_notBusy _, ?_, ?_, endJob_irq _, fun a ha _ _ => ?_, fun a ha _ _ => ?_⟩
    · rw [endJob_frame]
    · rw [endJob_img, flag, getF_endedRegs_bits _ (by decide) (by decide) (by decide)]
      exact flag_clear_self _ (by decide)
    · rw [endJob_img, getF_endedRegs_bits _ (by decide) (by decide) (by decide), fetchedRegs, getF_setF_bits _ _ (by decide) (by decide)]
      exact getF_setF_small _ _ (by decide) (lt_of_le_of_lt hlen (by decide))
    · rw [endJob_img]
      simpa using Memory.read_blit_in (dst := s.img.buf) (a := 0) ha
    · rw [endJob_img]
      exact Memory.read_blit_out (.inr (by omega))
  · refine ⟨_, whenUp_ready hu (storeComplete true), ?_⟩
    rw [storeComplete_equal hj]
    refine ⟨?_, endJob_notBusy _, ?_, ?_, ?_, endJob_irq _, fun _ _ a ha => ?_⟩
    · rw [endJob_frame]
    · rw [endJob_img, getF_endedRegs_ofs _ (by decide), getF_setF_small _ _ (by decide) (by decide)]
    · rw [endJob_nvm, storedMem_valid s hsl]
    · rw [endJob_nvm, storedMem_active s hsl]
    · rw [endJob_nvm, storedMem_image s hsl ha]
  · refine ⟨_, whenUp_ready hu (storeComplete false), ?_⟩
    rw [storeComplete_differs hj]
    refine ⟨?_, endJob_notBusy _, ?_, endJob_irq _⟩
    · rw [endJob_frame]
    · rw [endJob_img, getF_endedRegs_ofs _ (by decide), getF_setF_small _ _ (by decide) (by decide)]

end Sys2Proof.Machine
end

section
/-! What lies beside the data path: the state machine's registers and request, the loader, the pacer's registers, the service port, the
rails, the sites, the tag lines and the store. The link ports, the interrupt causes and the trip latches leave it alone. -/
namespace Sys2Proof.Machine

/-- What the operations of the data path leave alone; of the state machine's record the counters of the queues may change. -/
structure Kept where
  sys  : Sys
  img  : ImgBlk
  pace : RegFile
  live : List Pend
  svc  : Svc
  seq  : Seq
  thm  : Thm
  tag  : Tag
  nvm  : Nvm

def kept (s : State) : Kept :=
  { sys := { s.sys with qcnt := [] }, img := s.img, pace := s.tbs.r, live := s.tbs.live, svc := s.svc, seq := s.seq, thm := s.thm,
    tag := s.tag, nvm := s.nvm }

/-! ## Updates beside it -/

section
variable (s : State) (plc : Plc) (cea : Cea) (bus : Bus) (pwm : Pwm) (acq : Acq) (lnk : Lnk) (rng : Rng) (csv : Csv) (spx : Spx)
  (bgt : Bgt) (flt : Flt) (hst : Hst) (two : Two) (pending : List Instr) (out : List Out) (free : Nat)

@[simp] theorem kept_update : kept { s with
    plc := plc, cea := cea, bus := bus, pwm := pwm, acq := acq, lnk := lnk, rng := rng, csv := csv, spx := spx, bgt := bgt, flt := flt,
    hst := hst, two := two, pending := pending, out := out, free := free } = kept s := rfl

@[simp] theorem kept_counters (q : RegFile) : kept { s with sys := { s.sys with qcnt := q } } = kept s := rfl

end

@[simp] theorem kept_ite {c : Prop} [Decidable c] (s t : State) : kept (if c then s else t) = if c then kept s else kept t :=
  apply_ite kept c s t

/-- A fold whose steps leave it alone does. -/
@[simp] theorem kept_foldl {α : Type} {f : State → α → State} (h : ∀ s x, kept (f s x) = kept s) :
    ∀ (l : List α) (s : State), kept (l.foldl f s) = kept s
  | [], _ => rfl
  | x :: t, s => (kept_foldl h t (f s x)).trans (h s x)

@[simp] theorem kept_foldN {f : State → Nat → State} (h : ∀ s i, kept (f s i) = kept s) (n : Nat) (s : State) : kept (foldN n f s) = kept s :=
  kept_foldl h _ s

/-! ## What is sent, counters, causes, events -/

section
variable (s : State)

@[simp] theorem kept_emit (o : Out) : kept (emit o s) = kept s := rfl
@[simp] theorem kept_qOvr (q ring n : Nat) : kept (qOvr q ring n s) = kept s := rfl
@[simp] theorem kept_qFlush (q ring n : Nat) : kept (qFlush q ring n s) = kept s := rfl
@[simp] theorem kept_setAlert (low : Bool) : kept (setAlert low s) = kept s := rfl
@[simp] theorem kept_raise (src unit sub : Nat) : kept (raise src unit sub s) = kept s := rfl
@[simp] theorem kept_raiseParity (b : Nat) : kept (raiseParity b s) = kept s := rfl

@[simp] theorem kept_irq (v : Nat) : kept (irq v s) = kept s := by
  rw [irq_frame]
  rfl

@[simp] theorem kept_alertCheck : kept (alertCheck s) = kept s := by
  unfold alertCheck
  split <;> simp

/-! ## Trip latches -/

@[simp] theorem kept_latchOp (f : Nat → PhaseCh → PhaseCh) : kept (latchOp f s) = kept s := by
  rw [tripChanges_latchOp f s]
  rfl

@[simp] theorem kept_latchOn (l : List Nat) (f : PhaseCh → PhaseCh) : kept (latchOn l f s) = kept s := kept_latchOp s _

@[simp] theorem kept_setFaultN : kept (setFaultN s) = kept s := by
  rw [setFaultN_frame]
  rfl

/-! ## Link ports -/

@[simp] theorem kept_modPort (p : Nat) (f : LnkPort → LnkPort) : kept (modPort p f s) = kept s := rfl
@[simp] theorem kept_portDown (p : Nat) : kept (portDown p s) = kept s := rfl

@[simp] theorem kept_startPort (p : Nat) : kept (startPort p s) = kept s := by
  unfold startPort
  split
  · rfl
  · rfl

@[simp] theorem kept_startPorts : kept (startPorts s) = kept s := kept_foldN (fun s p => kept_startPort s p) 50 s

@[simp] theorem kept_stopPorts : kept (stopPorts s) = kept s := by
  refine kept_foldN (fun s p => ?_) 50 s
  split <;> simp

@[simp] theorem kept_enablePorts (im : Option Img) : kept (enablePorts im s) = kept s := by
  unfold enablePorts
  simp

@[simp] theorem kept_portsBack : kept (portsBack s) = kept s := kept_enablePorts s _

end

/-! ## The arbiter (R333 to R335, R356) -/

theorem img_of_kept {s t : State} (h : kept t = kept s) : t.img = s.img := congrArg Kept.img h
theorem imgOwner_of_kept {s t : State} (h : kept t = kept s) : imgOwner t = imgOwner s := by
  rw [imgOwner, img_of_kept h, imgOwner]

/-- The loader without an owner. -/
def disowned (s : State) : State := imgRegs_ (fun r => setF r F.IMG_STAT_owner 0) s

theorem kept_disowned {s t : State} (h : kept t = kept s) : kept (disowned t) = kept (disowned s) := by
  unfold disowned imgRegs_
  rw [img_of_kept h]
  exact congrArg (fun k : Kept => { k with img := { s.img with r := setF s.img.r F.IMG_STAT_owner 0 } }) h

/-- What lies beside the data path is as it was, but that the PCIe path may have lost the loader with its link (R80, R356). -/
def LinkLost (s t : State) : Prop := kept t = kept s ∨ imgOwner s = 1 ∧ kept t = kept (disowned s)

section
variable {s t u : State}

theorem LinkLost.of_kept (h : kept t = kept s) : LinkLost s t := .inl h

theorem LinkLost.trans_kept (h : LinkLost s t) (hk : kept u = kept t) : LinkLost s u := by
  unfold LinkLost
  rwa [hk]

theorem LinkLost.from_kept (h : LinkLost t u) (hk : kept t = kept s) : LinkLost s u := by
  unfold LinkLost at h
  rwa [hk, kept_disowned hk, imgOwner_of_kept hk] at h

/-- With another owner, or none, there is nothing to lose. -/
theorem LinkLost.kept (h : LinkLost s t) (ho : imgOwner s ≠ 1) : Machine.kept t = Machine.kept s := h.resolve_right fun hl => ho hl.1

end

theorem linkLost_hostLinkReset (up : Bool) (s : State) : LinkLost s (hostLinkReset up s) := by
  obtain ⟨u, h, hu⟩ : ∃ u, (hostLinkReset up s = if imgOwner u = 1 then disowned u else u) ∧ kept u = kept s :=
    ⟨_, rfl, kept_alertCheck _⟩
  rw [h]
  split
  next ho => exact .inr ⟨imgOwner_of_kept hu ▸ ho, kept_disowned hu⟩
  next => exact .inl hu

theorem linkLost_afterRelease (gone : BitVec 32) (s : State) : LinkLost s (afterRelease gone s) := by
  have hlink : LinkLost s (if gone.getLsbD 23 then hostLinkReset false s else s) := by
    split
    · exact linkLost_hostLinkReset false s
    · exact .of_kept rfl
  unfold afterRelease
  dsimp only
  split
  · exact hlink
  · exact hlink.trans_kept (kept_stopPorts _)

@[simp] theorem kept_denyUnit (s : State) (u : Nat) : kept (denyUnit s u) = kept s := by
  unfold denyUnit
  split
  · rfl
  · rfl

/-- The first part of a pass: the units that are no longer wanted go, with what follows from it. -/
def unwantedReleased (s : State) : State :=
  afterRelease (s.bgt.granted &&& ~~~unitWant s)
    { s with bgt := { releaseUnits (unitWant s) s.bgt with r := kvSet (releaseUnits (unitWant s) s.bgt).r R.BGT_UNIT_REQ (unitReq s) } }

/-- The reservations lie above the budget. -/
def overBudget (s : State) : Bool := decide (getF s.bgt.r F.BGT_CORE_CFG_core_ma < reservedMa s.bgt)

/-- The second part: reservations that come to lie above the budget are reported. -/
def overNoted (s : State) : State :=
  if overBudget s && !s.bgt.isOver then
    raise 22 255 255 { s with bgt := { s.bgt with r := setFlag s.bgt.r F.BGT_STAT_over } } else s

/-- The third part: the grants and the units denied. -/
def unitsGranted (want : BitVec 32) (s : State) : Bgt × List Nat :=
  unitOrder.foldl (grantUnit want (getF s.bgt.r F.BGT_CORE_CFG_core_ma)) ({ (overNoted s).bgt with isOver := overBudget s }, [])

theorem arbitrate1_eq (s : State) : arbitrate1 s =
    ((unitsGranted (unitWant s) (unwantedReleased s)).2.foldl denyUnit { overNoted (unwantedReleased s) with
      bgt := showBgt (unitsGranted (unitWant s) (unwantedReleased s)).1 }, (unitsGranted (unitWant s) (unwantedReleased s)).2) := by
  unfold arbitrate1 unitsGranted overNoted overBudget unwantedReleased
  rfl

@[simp] theorem kept_overNoted (s : State) : kept (overNoted s) = kept s := by
  unfold overNoted
  split
  · rfl
  · rfl

theorem linkLost_arbitrate1 (s : State) : LinkLost s (arbitrate1 s).1 := by
  have hgone : LinkLost s (unwantedReleased s) := (linkLost_afterRelease _ _).from_kept rfl
  refine hgone.trans_kept ?_
  rw [arbitrate1_eq]
  dsimp only
  rw [kept_foldl kept_denyUnit, kept_update, kept_overNoted]

/-- The request waits for units (R334). -/
def waitsForUnits (s : State) : Bool :=
  match s.sys.req with
  | some q => q.phase == .units || q.phase == .build
  | none => false

theorem arbitrate_asleep {s : State} (hc : coreReady s = false) : arbitrate s = s := if_pos (by simp [hc])

theorem arbitrate_ready {s : State} (hc : coreReady s = true) : arbitrate s =
    if waitsForUnits s && !(arbitrate1 s).2.isEmpty then (arbitrate1 (refuseUnits (arbitrate1 s).2 s)).1 else (arbitrate1 s).1 := by
  unfold arbitrate
  rw [if_neg (by simp [hc])]
  rfl

/-- The arbiter runs once, or refuses a request that waits for units and runs again. -/
theorem arbitrate_cases (s : State) : LinkLost s (arbitrate s) ∨
    waitsForUnits s = true ∧ ∃ l, LinkLost (refuseUnits l s) (arbitrate s) := by
  obtain hc | hc := Bool.eq_false_or_eq_true (coreReady s)
  · rw [arbitrate_ready hc]
    split
    next h => exact .inr ⟨(Bool.and_eq_true_iff.1 h).1, _, linkLost_arbitrate1 _⟩
    next => exact .inl (linkLost_arbitrate1 s)
  · rw [arbitrate_asleep hc]
    exact .inl (.of_kept rfl)

/-- Without a request that waits for units nothing is refused. -/
theorem linkLost_arbitrate {s : State} (h : waitsForUnits s = false) : LinkLost s (arbitrate s) :=
  (arbitrate_cases s).resolve_right fun hr => Bool.false_ne_true (h ▸ hr.1)

end Sys2Proof.Machine
end

section
/-! Requests among COLD, SERVICE and IDLE that wait for their units, and the request for LOADED (R84, R326, R328, R334): the arbiter's
pass where nothing has to move, the start of a build and its refusal for want of a unit, and the statement about them. -/
namespace Sys2Proof.Machine

/-! ## What the arbiter leaves beside the loader's owner -/

section
variable {s t : State}

theorem req_of_kept (h : kept t = kept s) : t.sys.req = s.sys.req := congrArg (fun k : Kept => k.sys.req) h
theorem sysRegs_of_kept (h : kept t = kept s) : t.sys.r = s.sys.r := congrArg (fun k : Kept => k.sys.r) h
theorem nvm_of_kept (h : kept t = kept s) : t.nvm = s.nvm := congrArg Kept.nvm h

theorem opState_of_kept (h : kept t = kept s) : opState t = opState s := by
  unfold opState
  rw [sysRegs_of_kept h]

theorem LinkLost.req (h : LinkLost s t) : t.sys.req = s.sys.req := h.elim req_of_kept fun hl => req_of_kept (s := disowned s) hl.2
theorem LinkLost.sysRegs (h : LinkLost s t) : t.sys.r = s.sys.r := h.elim sysRegs_of_kept fun hl => sysRegs_of_kept (s := disowned s) hl.2
theorem LinkLost.nvm (h : LinkLost s t) : t.nvm = s.nvm := h.elim nvm_of_kept fun hl => nvm_of_kept (s := disowned s) hl.2

theorem LinkLost.opState (h : LinkLost s t) : Machine.opState t = Machine.opState s := by
  unfold Machine.opState
  rw [h.sysRegs]

/-- Of the loader only the owner can change. -/
theorem LinkLost.img (h : LinkLost s t) : t.img = s.img ∨ t.img = { s.img with r := setF s.img.r F.IMG_STAT_owner 0 } :=
  h.imp img_of_kept fun hl => img_of_kept (s := disowned s) hl.2

theorem LinkLost.imgBuf (h : LinkLost s t) : t.img.buf = s.img.buf := by obtain h | h := h.img <;> rw [h]
theorem LinkLost.imgStr (h : LinkLost s t) : t.img.str = s.img.str := by obtain h | h := h.img <;> rw [h]
theorem LinkLost.imgJob (h : LinkLost s t) : t.img.job = s.img.job := by obtain h | h := h.img <;> rw [h]

theorem LinkLost.imgBusy (h : LinkLost s t) : Machine.imgBusy t = Machine.imgBusy s := by
  unfold Machine.imgBusy
  obtain h | h := h.img
  · rw [h]
  · rw [h]
    exact flag_setF_bits _ _ (by decide) (by decide)

end

/-! ## The arbiter where no unit moves (R333, R334) -/

/-- A unit that is not wanted, or granted already, leaves the grants alone. -/
theorem grantUnit_settled {want : BitVec 32} {b : Bgt} (h : want = b.granted) (ma : Nat) (l : List Nat) (u : Nat) :
    grantUnit want ma (b, l) u = (b, l) := by
  subst h
  exact if_pos (by simp)

section
variable {s : State} (hw : unitWant s = s.bgt.granted)
include hw

theorem unwantedReleased_settled : unwantedReleased s = { s with
    bgt := { releaseUnits (unitWant s) s.bgt with r := kvSet (releaseUnits (unitWant s) s.bgt).r R.BGT_UNIT_REQ (unitReq s) } } := by
  have hgone : s.bgt.granted &&& ~~~unitWant s = 0 := by rw [hw, BitVec.and_not_self]
  unfold unwantedReleased
  rw [hgone]
  rfl

/-- Where the units wanted are those granted and the reservations lie within the budget, a pass writes the arbiter's registers and
marks at most: no grant moves and no unit is denied. -/
theorem arbitrate1_settled (hb : reservedMa s.bgt ≤ getF s.bgt.r F.BGT_CORE_CFG_core_ma) :
    ∃ b : Bgt, b.granted = s.bgt.granted ∧ arbitrate1 s = ({ s with bgt := b }, []) := by
  have hgranted : (unwantedReleased s).bgt.granted = s.bgt.granted := by
    rw [unwantedReleased_settled hw, hw]
    exact BitVec.and_self
  have hover : overBudget (unwantedReleased s) = false := by
    have hma : getF (unwantedReleased s).bgt.r F.BGT_CORE_CFG_core_ma = getF s.bgt.r F.BGT_CORE_CFG_core_ma := by
      rw [unwantedReleased_settled hw]
      exact getF_congr (kvGet_kvSet_ne _ _ (by decide))
    have hres : reservedMa (unwantedReleased s).bgt = reservedMa s.bgt := by rw [reservedMa, hgranted, reservedMa]
    rw [overBudget, hma, hres]
    exact decide_eq_false (by omega)
  have hnote : overNoted (unwantedReleased s) = unwantedReleased s := by simp [overNoted, hover]
  have hunits : unitsGranted (unitWant s) (unwantedReleased s) = ({ (unwantedReleased s).bgt with isOver := false }, []) := by
    rw [unitsGranted, hnote, hover]
    exact List.foldl_fixed' (grantUnit_settled (b := { (unwantedReleased s).bgt with isOver := false }) (hw.trans hgranted.symm) _ _) _
  refine ⟨showBgt { (unwantedReleased s).bgt with isOver := false }, hgranted, ?_⟩
  rw [arbitrate1_eq, hunits, hnote, unwantedReleased_settled hw]
  rfl

theorem arbitrate_settled (hc : coreReady s = true) (hb : reservedMa s.bgt ≤ getF s.bgt.r F.BGT_CORE_CFG_core_ma) :
    ∃ b : Bgt, b.granted = s.bgt.granted ∧ arbitrate s = { s with bgt := b } := by
  obtain ⟨b, hg, h1⟩ := arbitrate1_settled hw hb
  refine ⟨b, hg, ?_⟩
  rw [arbitrate_ready hc, h1]
  exact if_neg (by simp)

end

/-! ## Requests that wait for their units (R326, R328) -/

theorem coreReady_acceptReq (k : Nat) (f : ReqPhase) (s : State) : coreReady (acceptReq k f s) = coreReady s := by
  rw [coreReady, flag, getF_congr (kvGet_acceptReq_ne k f s (by decide)), coreReady, flag]

/-- Among COLD, SERVICE and IDLE a permitted request waits for its units; IDLE needs the core domain. -/
theorem reqState_units {k : Nat} {s : State} (hn : s.sys.req = none) (hk : k ≤ 3) (hs : opState s ≤ 3)
    (hp : permitted (opState s) k = true) (hc : k = 3 → coreReady s = true) : reqState k s = arbitrate (acceptReq k .units s) := by
  rw [reqState_first hn, if_neg (permitted_ne hp).symm, hp, if_neg (by decide), if_pos ⟨hk, hs⟩, if_neg fun h => h.2 (hc h.1)]

/-- The arbiter leaves such a request pending where it sleeps or no unit has to move. -/
theorem arbitrate_acceptReq {k : Nat} {s : State} (h : coreReady s = false ∨ coreReady s = true ∧
      unitWant (acceptReq k .units s) = s.bgt.granted ∧ reservedMa s.bgt ≤ getF s.bgt.r F.BGT_CORE_CFG_core_ma) :
    ∃ b : Bgt, b.granted = s.bgt.granted ∧ arbitrate (acceptReq k .units s) = { acceptReq k .units s with bgt := b } := by
  obtain hc | ⟨hc, hw, hb⟩ := h
  · exact ⟨s.bgt, rfl, arbitrate_asleep ((coreReady_acceptReq ..).trans hc)⟩
  · exact arbitrate_settled (s := acceptReq k .units s) hw ((coreReady_acceptReq ..).trans hc) hb

/-! ## The request for LOADED (R84) -/

section
variable {s : State} (hb : imgBusy s = false)
include hb

theorem reqLoadedNow_unchecked (hc : flag s.img.r F.IMG_STAT_checked = false) :
    reqLoadedNow s = imgCheckStart true (acceptReq 4 .check s) := by
  rw [reqLoadedNow, hb, hc]
  rfl

theorem reqLoadedNow_checked (hc : flag s.img.r F.IMG_STAT_checked = true) : reqLoadedNow s = startBuild (acceptReq 4 .build s) := by
  rw [reqLoadedNow, hb, hc]
  rfl

end

/-- A refusal for want of a unit while a build runs: reason 8, and the buffer, the structure and the store stay (R329, R334). -/
theorem refuseUnits_build {s : State} (hj : s.img.job = some .build) (l : List Nat) : ∃ u, kept u = kept s ∧
    kept (refuseUnits l s) = kept (endJob (refuseReq 8 u)) := by
  refine ⟨l.foldl denyUnit s, kept_foldl kept_denyUnit l s, ?_⟩
  have hjob : (refuseReq 8 (l.foldl denyUnit s)).img.job = some .build := by
    rw [refuseReq_frame]
    exact (congrArg ImgBlk.job (img_of_kept (kept_foldl kept_denyUnit l s))).trans hj
  rw [refuseUnits, if_pos hjob, kept_portsBack]

/-- The build starts beside the pending request, or the request is refused with reason 8. -/
theorem startBuild_outcomes (s : State) :
    opState (startBuild (acceptReq 4 .build s)) = opState s ∧ (startBuild (acceptReq 4 .build s)).img.buf = s.img.buf ∧
      (startBuild (acceptReq 4 .build s)).img.str = s.img.str ∧ (startBuild (acceptReq 4 .build s)).nvm = s.nvm ∧
      ((startBuild (acceptReq 4 .build s)).sys.req = some { target := 4, phase := .build } ∧
          (startBuild (acceptReq 4 .build s)).img.job = some .build ∧ imgBusy (startBuild (acceptReq 4 .build s)) = true ∨
        (startBuild (acceptReq 4 .build s)).sys.req = none ∧
          flag (startBuild (acceptReq 4 .build s)).sys.r F.SYS_STATE_STAT_refused = true ∧
          getF (startBuild (acceptReq 4 .build s)).sys.r F.SYS_STATE_STAT_reason = 8) := by
  obtain ⟨x, hx, hk⟩ : ∃ x, startBuild (acceptReq 4 .build s) = arbitrate x ∧ kept x = kept (startJob .build 8 (acceptReq 4 .build s)) :=
    ⟨_, rfl, kept_enablePorts _ _⟩
  have himg : x.img = { s.img with r := startedRegs 8 s.img.r, job := some .build } := img_of_kept hk
  have hreq : x.sys.req = some { target := 4, phase := .build } := req_of_kept hk
  have hst : opState x = opState s := (opState_of_kept hk).trans (opState_acceptReq 4 .build s)
  have hnvm : x.nvm = s.nvm := (nvm_of_kept hk : x.nvm = (startJob .build 8 (acceptReq 4 .build s)).nvm)
  rw [hx]
  obtain h | ⟨-, l, h⟩ := arbitrate_cases x
  · refine ⟨h.opState.trans hst, ?_, ?_, h.nvm.trans hnvm, .inl ⟨h.req.trans hreq, ?_, ?_⟩⟩
    · rw [h.imgBuf, himg]
    · rw [h.imgStr, himg]
    · rw [h.imgJob, himg]
    · rw [h.imgBusy, imgBusy, himg]
      exact startedRegs_busy 8 _
  · obtain ⟨u, hu, hr⟩ := refuseUnits_build (congrArg ImgBlk.job himg) l
    have hl : LinkLost (endJob (refuseReq 8 u)) (arbitrate x) := h.from_kept hr
    have hsys : (endJob (refuseReq 8 u)).sys = (refuseReq 8 u).sys := by rw [endJob_frame]
    have huimg : (refuseReq 8 u).img = { x.img with ready := none } := by rw [refuseReq_frame, img_of_kept hu]
    refine ⟨?_, ?_, ?_, ?_, .inr ⟨?_, ?_, ?_⟩⟩
    · rw [hl.opState, opState, hsys, ← opState, opState_refuseReq, opState_of_kept hu, hst]
    · rw [hl.imgBuf, endJob_img, huimg, himg]
    · rw [hl.imgStr, endJob_img, huimg, himg]
    · rw [hl.nvm, endJob_nvm, refuseReq_frame]
      exact (nvm_of_kept hu).trans hnvm
    · rw [hl.req, hsys, refuseReq_frame]
    · rw [hl.sysRegs, hsys]
      exact refuseReq_refused 8 u
    · rw [hl.sysRegs, hsys]
      exact refuseReq_reason 8 u (by decide)

/-! ## The statement -/

/-- Settles O14: a request among COLD, SERVICE and IDLE is accepted and the arbiter has nothing to move; a request for LOADED starts
its check, or its build, whose arbiter may refuse it. -/
theorem idleRequestsAccepted : Obligations.IdleRequestsAccepted := by
  unfold Obligations.IdleRequestsAccepted
  refine ⟨fun p k c s hmem hu hn hs hp hcase => ?_, fun p s hu hn hs hb => ⟨fun hc => ?_, fun hc => ?_⟩⟩
  · have hk : (k, c) ∈ stateRequests p := List.mem_of_mem_take (i := 3) hmem
    have hk3 : k ≤ 3 := by
      simp only [List.mem_cons, Prod.mk.injEq, List.not_mem_nil, or_false] at hmem
      omega
    have hcore : k = 3 → coreReady s = true := fun h => hcase.elim (fun h' => by omega) (·.1)
    obtain ⟨b, hg, ht⟩ := arbitrate_acceptReq (hcase.imp_left (·.1))
    refine ⟨_, exec_request hu hk, ?_⟩
    rw [reqState_units hn hk3 hs hp hcore, ht]
    exact ⟨rfl, rfl, opState_acceptReq .., acceptReq_busy .., acceptReq_target k _ s (by omega), hg⟩
  · obtain ⟨n, hstart⟩ := imgCheckStart_eq true (acceptReq 4 .check s)
    refine ⟨_, exec_request (k := 4) (p := p) hu (by simp [stateRequests]), ?_⟩
    rw [reqState_loaded hn hs, reqLoadedNow_unchecked hb hc, hstart]
    exact ⟨rfl, rfl, (opState_acceptReq 4 .check s).trans hs, acceptReq_busy .., rfl, startedRegs_busy n _, rfl, rfl⟩
  · refine ⟨_, exec_request (k := 4) (p := p) hu (by simp [stateRequests]), ?_⟩
    rw [reqState_loaded hn hs, reqLoadedNow_checked hb hc, ← hs]
    exact startBuild_outcomes s

end Sys2Proof.Machine
end

section
/-! What a stride boundary and the structure's build leave alone beside the data path: the units of the data path, function by function. -/
namespace Sys2Proof.Machine

section
variable (s : State)

/-! ## Acquisition (R202 to R222) -/

@[simp] theorem kept_flimLatch (a : Nat) : kept (flimLatch a s) = kept s := by simp [flimLatch]
@[simp] theorem kept_tripRelatch : kept (tripRelatch s) = kept s := by simp [tripRelatch]
@[simp] theorem kept_dropRecord (i : Nat) : kept (dropRecord i s) = kept s := by simp [dropRecord]
@[simp] theorem kept_putRecord (i : Nat) (v : BitVec 64) : kept (putRecord i v s) = kept s := by simp [putRecord]

@[simp] theorem kept_record (ain kind : Nat) (val : Word) (ref ow clip : Bool) (clk stride : Nat) :
    kept (record ain kind val ref ow clip clk stride s) = kept s := by simp [record]

@[simp] theorem kept_q0Put (e : Q0Entry) : kept (q0Put e s) = kept s := by simp [q0Put]
@[simp] theorem kept_publish (a : Nat) (f : Int) (res : Res) : kept (publish a f res s) = kept s := by simp [publish]
@[simp] theorem kept_channelResult (a : Nat) : kept (channelResult a s) = kept s := by simp [channelResult]

@[simp] theorem kept_slowPublish (a : Nat) : kept (slowPublish a s) = kept s := by
  simp only [slowPublish, kept_ite]
  split
  · rfl
  · split <;> simp

@[simp] theorem kept_fencedBeyond (was : BitVec 16) : kept (fencedBeyond was s) = kept s := by simp [fencedBeyond]
@[simp] theorem kept_acqBoundary (was : BitVec 16) (old : Nat) : kept (acqBoundary was old s) = kept s := by simp [acqBoundary]
@[simp] theorem kept_laneRefCheck (bad : BitVec 16) : kept (laneRefCheck bad s) = kept s := by simp [laneRefCheck]

/-! ## Shares and placement (R131 to R170) -/

@[simp] theorem kept_mapBanks (f : Nat → BankSt → BankSt) : kept (mapBanks f s) = kept s := rfl
@[simp] theorem kept_mapPh (f : Nat → PhaseSt → PhaseSt) : kept (mapPh f s) = kept s := rfl
@[simp] theorem kept_jumpShares : kept (jumpShares s) = kept s := rfl
@[simp] theorem kept_equalFracs (b : Nat) : kept (equalFracs b s) = kept s := rfl
@[simp] theorem kept_safePhase (p : Nat) : kept (safePhase s p) = kept s := by simp [safePhase]
@[simp] theorem kept_shareSafe : kept (shareSafe s) = kept s := by simp [shareSafe]
@[simp] theorem kept_shareReturn : kept (shareReturn s) = kept s := by simp [shareReturn]
@[simp] theorem kept_setPack (p : PackResult) : kept (setPack p s) = kept s := rfl
@[simp] theorem kept_setN1 (cs : List CtxRec) (df : Nat → Nat) (C : Nat) : kept (setN1 cs df C s) = kept s := rfl
@[simp] theorem kept_installPlacement (im : Img) (p : PackResult) : kept (installPlacement im p s) = kept s := by simp [installPlacement]
@[simp] theorem kept_benchFenced (was : BitVec 256) : kept (benchFenced was s) = kept s := rfl
@[simp] theorem kept_critUnplaced (c : Nat) : kept (critUnplaced s c) = kept s := by simp [critUnplaced]
@[simp] theorem kept_benchedNow (c : Nat) : kept (benchedNow s c) = kept s := by simp [benchedNow]
@[simp] theorem kept_leftUnplaced (old : List Nat) : kept (leftUnplaced old s) = kept s := by simp [leftUnplaced]

/-! ## Faults, queues, compare sets -/

@[simp] theorem kept_buildFlt (im : Img) : kept (buildFlt im s) = kept s := by simp [buildFlt]
@[simp] theorem kept_fltLive : kept (fltLive s) = kept s := by simp [fltLive]
@[simp] theorem kept_regParity (bad : BitVec 21) : kept (regParity bad s) = kept s :=
  kept_foldl (fun s b => kept_raiseParity s b) _ s
@[simp] theorem kept_flushed (q ring n : Nat) : kept (flushed q ring n s) = kept s := by simp [flushed]
@[simp] theorem kept_flushQ0 : kept (flushQ0 s) = kept s := by simp [flushQ0]
@[simp] theorem kept_flushQ1 : kept (flushQ1 s) = kept s := by simp [flushQ1]
@[simp] theorem kept_flushQ2 : kept (flushQ2 s) = kept s := by simp [flushQ2]
@[simp] theorem kept_flushQ3 : kept (flushQ3 s) = kept s := by simp [flushQ3]
@[simp] theorem kept_flushQ10 : kept (flushQ10 s) = kept s := by simp [flushQ10]
@[simp] theorem kept_flushAll : kept (flushAll s) = kept s := by simp [flushAll]
@[simp] theorem kept_fenceFlush (was : Flt) (p : Placement) : kept (fenceFlush was p s) = kept s := by simp [fenceFlush]
@[simp] theorem kept_setsEligible : kept (setsEligible s) = kept s := by simp [setsEligible]

/-! ## The hive (R235 to R241) -/

@[simp] theorem kept_transmit (p : Nat) (t : Int) (ws : List Half) (fin : Half) : kept (transmit p t ws fin s) = kept s := by simp [transmit]
@[simp] theorem kept_sendFrame (p clk : Nat) (ws : List Half) : kept (sendFrame p clk ws s) = kept s := by simp [sendFrame]

@[simp] theorem kept_hiveSend (clk type : Nat) (req : Bool) (payload : BitVec 64) : kept (hiveSend clk type req payload s) = kept s := by
  simp [hiveSend, hiveSendOn]

@[simp] theorem kept_hiveMark : kept (hiveMark s) = kept s := by simp [hiveMark]

/-! ## Rings: messages and the mailbox -/

@[simp] theorem kept_modRing (r : Nat) (f : RingSt → RingSt) : kept (modRing r f s) = kept s := rfl
@[simp] theorem kept_rngRegs (f : RegFile → RegFile) : kept (rngRegs_ f s) = kept s := rfl
@[simp] theorem kept_mailboxEnd (err : Nat) : kept (mailboxEnd err s) = kept s := by simp [mailboxEnd]

@[simp] theorem kept_wagUni (front : Bool) (type a : Nat) (payload : List Half) (use : WagUse) (r : Nat) :
    kept (wagUni front type a payload use r s) = kept s := by
  unfold wagUni
  split <;> rfl

@[simp] theorem kept_sendConfig (front : Bool) (r a : Nat) : kept (sendConfig front r a s) = kept s := kept_wagUni ..

@[simp] theorem kept_sendTiming (r a : Nat) : kept (sendTiming r a s) = kept s := by
  simp only [sendTiming]
  split <;> simp

@[simp] theorem kept_sendLimits (r set : Nat) : kept (sendLimits r set s) = kept s := rfl
@[simp] theorem kept_sendAllLimits (r : Nat) : kept (sendAllLimits r s) = kept s :=
  kept_foldl (fun s i => kept_sendLimits s r i) _ (modRing r _ s)
@[simp] theorem kept_resendConfig (r : Nat) : kept (resendConfig r s) = kept s := by simp [resendConfig]

/-! ## Cells, wire tests, balancing (R285 to R303) -/

@[simp] theorem kept_csvRegs (f : RegFile → RegFile) : kept (csvRegs_ f s) = kept s := rfl
@[simp] theorem kept_modCsvRing (r : Nat) (f : CsvRing → CsvRing) : kept (modCsvRing r f s) = kept s := rfl
@[simp] theorem kept_modCsv (r a : Nat) (f : CsvNode → CsvNode) : kept (modCsv r a f s) = kept s := rfl
@[simp] theorem kept_combPutN (r a i v : Nat) : kept (combPutN r a i v s) = kept s := by simp [combPutN, combPut]
@[simp] theorem kept_put4 (r a c on off : Nat) : kept (put4 r a c on off s) = kept s := by simp [put4]
@[simp] theorem kept_putMapPt (r a i k : Nat) (b : Bool) : kept (putMapPt r a i k b s) = kept s := by simp [putMapPt]

@[simp] theorem kept_wireMark (r a : Nat) (res : Option Bool) (k : Nat) : kept (wireMark r a res k s) = kept s := by
  simp only [wireMark]
  split <;> simp

@[simp] theorem kept_wiresIndet (r a : Nat) (mask : BitVec 13) : kept (wiresIndet r a mask s) = kept s := by simp [wiresIndet]

@[simp] theorem kept_wireIndet (r : Nat) : kept (wireIndet r s) = kept s := by
  unfold wireIndet
  split <;> simp

@[simp] theorem kept_wireStart (r a : Nat) (mask : BitVec 13) (tp : Nat) : kept (wireStart r a mask tp s) = kept s := by simp [wireStart]

@[simp] theorem kept_autoTest (r : Nat) : kept (autoTest r s) = kept s := by
  simp only [autoTest]
  split <;> simp

@[simp] theorem kept_wireAgain (r : Nat) : kept (wireAgain r s) = kept s := by
  unfold wireAgain
  split <;> simp

@[simp] theorem kept_wireLap (r : Nat) : kept (wireLap r s) = kept s := by
  unfold wireLap
  split <;> simp

@[simp] theorem kept_balRefuse (reason : Nat) : kept (balRefuse reason s) = kept s := by simp [balRefuse]
@[simp] theorem kept_balShow (r a laps : Nat) (mask : BitVec 12) : kept (balShow r a laps mask s) = kept s := by simp [balShow]
@[simp] theorem kept_balStops (r : Nat) : kept (balStops r s) = kept s := by
  refine kept_foldl (fun s a => ?_) _ s
  simp
@[simp] theorem kept_csvNodeLap (r a : Nat) : kept (csvNodeLap r s a) = kept s := by simp [csvNodeLap]
@[simp] theorem kept_csvLap (r : Nat) : kept (csvLap s r) = kept s := by simp [csvLap]
@[simp] theorem kept_csvApply (r : RegFile) : kept (csvApply r s) = kept s := by
  refine kept_foldl (fun s k => ?_) _ (csvRegs_ _ s)
  rw [kept_ite, kept_ite, kept_foldl fun s i => kept_sendLimits s k i]
  simp
@[simp] theorem kept_csvPut (r : RegFile) : kept (csvPut r s) = kept s := by simp [csvPut]
@[simp] theorem kept_csvLive : kept (csvLive s) = kept s := by simp [csvLive]
@[simp] theorem kept_buildCsv (im : Img) : kept (buildCsv im s) = kept s := rfl

/-! ## Rings: states, laps, launches (R242 to R284) -/

@[simp] theorem kept_ringDown (r : Nat) : kept (ringDown r s) = kept s := by
  simp only [ringDown]
  split <;> split <;> simp

@[simp] theorem kept_setRing (r st : Nat) : kept (setRing r st s) = kept s := by simp [setRing]
@[simp] theorem kept_enterEnum (r : Nat) : kept (enterEnum r s) = kept s := by
  simp only [enterEnum, kept_update, kept_modRing, kept_rngRegs, kept_setRing]
@[simp] theorem kept_trainDone (r : Nat) : kept (trainDone r s) = kept s := by simp [trainDone]
@[simp] theorem kept_ringsTrain : kept (ringsTrain s) = kept s := by simp [ringsTrain]
@[simp] theorem kept_enterProbe (r : Nat) : kept (enterProbe r s) = kept s := by simp [enterProbe]
@[simp] theorem kept_enterTiming (r : Nat) : kept (enterTiming r s) = kept s := by simp [enterTiming]

@[simp] theorem kept_ringAdvance (r : Nat) : kept (ringAdvance r s) = kept s := by
  simp only [ringAdvance]
  split <;> simp

@[simp] theorem kept_launchData (r : Nat) (e : PortEnd) : kept (launchData r s e) = kept s := by simp [launchData]
@[simp] theorem kept_launchEnum (r : Nat) (e : PortEnd) : kept (launchEnum r e s) = kept s := by simp [launchEnum]
@[simp] theorem kept_launchProbe (r : Nat) (e : PortEnd) (a : Nat) : kept (launchProbe r e a s) = kept s := by simp [launchProbe]

@[simp] theorem kept_ringLaunch (r : Nat) : kept (ringLaunch s r) = kept s := by
  simp only [ringLaunch]
  split
  · rw [kept_ite]
    split
    · rfl
    · split
      · rw [kept_ite, kept_launchEnum, ite_self]
      · rw [kept_ite, kept_launchEnum, kept_modRing, ite_self]
  · split <;> simp
  · simp

@[simp] theorem kept_ringsBoundary : kept (ringsBoundary s) = kept s := by simp [ringsBoundary]

@[simp] theorem kept_adoptPlan (r : Nat) : kept (adoptPlan r s) = kept s := by
  simp only [adoptPlan]
  split <;> simp

@[simp] theorem kept_ringLap (r : Nat) : kept (ringLap s r) = kept s := by simp [ringLap, divBoundary]

end
end Sys2Proof.Machine
end

section
/-! What a stride boundary and the entry to LOADED leave alone beside the data path: campaigns, the ordered steps of R24, and the
boundary as a whole where no contexts compute. -/
namespace Sys2Proof.Machine

/-! ## Campaigns (R304 to R324) -/

section
variable (s : State)

@[simp] theorem kept_spxRegs (f : RegFile → RegFile) : kept (spxRegs_ f s) = kept s := rfl
@[simp] theorem kept_modCamp (f : Camp → Camp) : kept (modCamp f s) = kept s := rfl

@[simp] theorem kept_modSpx (r a : Nat) (f : SpxNode → SpxNode) : kept (modSpx r a f s) = kept s := by
  unfold modSpx
  split <;> rfl

@[simp] theorem kept_endIncomplete (r a : Nat) : kept (endIncomplete r a s) = kept s := by
  unfold endIncomplete
  split
  · rfl
  · split
    · rfl
    · exact kept_modSpx ..

@[simp] theorem kept_endOpen (r a : Nat) : kept (endOpen r a s) = kept s := by
  unfold endOpen
  split <;> simp

@[simp] theorem kept_endRing (x : SpxRing) : kept (endRing s x) = kept s := by simp [endRing]

@[simp] theorem kept_endAll : kept (endAll s) = kept s := by
  unfold endAll
  split <;> simp

@[simp] theorem kept_frontBcast (r : Nat) (ms : List (Nat × List Half)) (use : WagUse) : kept (frontBcast r ms use s) = kept s := rfl
@[simp] theorem kept_campBroadcast (d : Nat) (c : Camp) : kept (campBroadcast d c s) = kept s :=
  kept_foldl (by intros; rfl) (placeRings s c) { s with spx := _ }
@[simp] theorem kept_startNow : kept (startNow s) = kept s := by simp [startNow]

@[simp] theorem kept_sendStop : kept (sendStop s) = kept s := by
  unfold sendStop
  split
  · rfl
  next c _ => exact kept_foldl (by intros; rfl) c.rings (modCamp _ (spxRegs_ _ s))

@[simp] theorem kept_stopDone : kept (stopDone s) = kept s := by
  unfold stopDone
  split <;> simp

@[simp] theorem kept_rampDown : kept (rampDown s) = kept s := rfl
@[simp] theorem kept_showWin (c : Camp) (cut : Bool) : kept (showWin c cut s) = kept s := rfl

@[simp] theorem kept_stopNow : kept (stopNow s) = kept s := by
  simp only [stopNow]
  split
  · rfl
  · split <;> simp

@[simp] theorem kept_spxRestart (c : Camp) (x : SpxRing) (a : Nat) : kept (spxRestart c x a s) = kept s := by
  unfold spxRestart
  split <;> simp

@[simp] theorem kept_spxNodeStride (c : Camp) (x : SpxRing) (a : Nat) : kept (spxNodeStride c x s a) = kept s := by
  simp only [spxNodeStride]
  split <;> simp

@[simp] theorem kept_spxElig (x : SpxRing) : kept (spxElig s x) = kept s := by simp [spxElig]
@[simp] theorem kept_spxRingStride (c : Camp) (x : SpxRing) : kept (spxRingStride c s x) = kept s := by simp [spxRingStride]

@[simp] theorem kept_spxWindows : kept (spxWindows s) = kept s := by
  unfold spxWindows
  split <;> simp

@[simp] theorem kept_decidePlace (c : Camp) : kept (decidePlace c s) = kept s := rfl
@[simp] theorem kept_startMark (c : Camp) : kept (startMark c s) = kept s := by simp [startMark]

@[simp] theorem kept_campStride : kept (campStride s) = kept s := by
  simp only [campStride]
  split
  · rfl
  · rw [kept_ite]
    split
    · simp
    · split <;> simp

@[simp] theorem kept_spxBoundary : kept (spxBoundary s) = kept s := by simp [spxBoundary]

/-! ## Balancing grants (R300, R338) -/

/-- A fold that carries a number beside the state. -/
theorem kept_foldl_fst {α β : Type} {f : State × β → α → State × β} (h : ∀ a x, kept (f a x).1 = kept a.1) :
    ∀ (l : List α) (a : State × β), kept (l.foldl f a).1 = kept a.1
  | [], _ => rfl
  | x :: t, a => (kept_foldl_fst h t (f a x)).trans (h a x)

@[simp] theorem kept_balGrants : kept (balGrants s) = kept s :=
  (kept_foldl (fun s r => kept_balStops s r) _ _).trans (kept_foldl_fst (by intros; rfl) (mapRings s) (s, _))

/-! ## Steps 1 and 2: fences, re-placement (R24) -/

@[simp] theorem kept_stepFaults : kept (stepFaults s).1 = kept s := by simp [stepFaults]

@[simp] theorem kept_stepReplace (was : Flt) : kept (stepReplace was s) = kept s := by
  unfold stepReplace
  rw [kept_ite]
  split
  · rfl
  · exact (kept_leftUnplaced _ _).trans rfl

end

/-! ## Step 3: staged sets and live fields (R8, R93) -/

section
variable {b : Nat} (hb : b ∈ stagedBlocks)
include hb

theorem kept_setRegs (r : RegFile) (s : State) : kept (setRegs b r s) = kept s := by
  simp only [stagedBlocks, List.mem_cons, List.not_mem_nil, or_false] at hb
  obtain rfl | rfl | rfl | rfl | rfl := hb <;> rfl

theorem kept_putStaging (t : Staging) (s : State) : kept (putStaging b t s) = kept s := by
  simp only [stagedBlocks, List.mem_cons, List.not_mem_nil, or_false] at hb
  obtain rfl | rfl | rfl | rfl | rfl := hb <;> rfl

theorem kept_applySet (ps : List Pend) (s : State) : kept (applySet b ps s) = kept s := by
  simp [applySet, kept_setRegs hb]

theorem kept_settleSet (bad : BitVec 21) (s : State) : kept (settleSet bad s b) = kept s := by
  simp only [settleSet]
  split
  · rfl
  · simp [kept_setRegs hb, kept_putStaging hb, kept_applySet hb]

end

theorem kept_settled (bad : BitVec 21) (s : State) : kept (stagedBlocks.foldl (settleSet bad) s) = kept s :=
  stagedBlocks.foldlRecOn (motive := fun t => kept t = kept s) (settleSet bad) rfl
    fun t ht _ hb => (kept_settleSet hb bad t).trans ht

theorem kept_liveRegs {s : State} (h : s.tbs.live = []) : kept (liveRegs s) = kept s := by
  unfold liveRegs
  rw [h]
  unfold kept
  rw [h]
  rfl

/-- With no live write of the pacer waiting. -/
theorem kept_stepFields (bad : BitVec 21) {s : State} (h : s.tbs.live = []) : kept (stepFields bad s) = kept s := by
  have hs := kept_settled bad s
  have hlive := (congrArg Kept.live hs).trans h
  simp only [stepFields, kept_update, kept_fltLive, kept_csvLive]
  exact (kept_liveRegs hlive).trans hs

/-! ## The laps and the units where no contexts compute -/

theorem computing_of_kept {s t : State} (h : kept t = kept s) : computing t = computing s := by
  unfold computing
  rw [opState_of_kept h]

theorem kept_stepLap {s : State} (h : computing s = false) (jumped : Bool) (len : Nat) : kept (stepLap jumped len s) = kept s := by
  have hc : computing (shareReturn s) = false := (computing_of_kept (kept_shareReturn s)).trans h
  simp [stepLap, hc, kept_foldl fun s r => (kept_csvLap (ringLap s r) r).trans (kept_ringLap s r)]

@[simp] theorem kept_paceOut (s : State) : kept (paceOut s) = kept s := rfl

section
variable {s : State} (hr : s.sys.req = none) (ho : imgOwner s ≠ 1)
include hr ho

/-- Without a request, and with the loader not the PCIe path's, the arbiter leaves all this alone. -/
theorem kept_arbitrate : kept (arbitrate s) = kept s :=
  (linkLost_arbitrate (by rw [waitsForUnits, hr])).kept ho

theorem kept_stepUnits (badRef was : BitVec 16) (late : Bool) (old : Nat) : kept (stepUnits badRef was late old s) = kept s := by
  obtain ⟨u, h, hu⟩ : ∃ u, kept (stepUnits badRef was late old s) = kept (arbitrate u) ∧ kept u = kept s :=
    ⟨_, rfl, by simp⟩
  rw [h, kept_arbitrate ((req_of_kept hu).trans hr) (imgOwner_of_kept hu ▸ ho), hu]

/-- The boundary of a stride in LOADED. -/
theorem kept_strideBody (hc : computing s = false) (hl : s.tbs.live = []) (chk : BoundaryChecks) (late : Bool) (old : Nat) :
    kept (strideBody chk late old s) = kept s := by
  obtain ⟨u, jumped, len, h, hu⟩ : ∃ u jumped len, strideBody chk late old s = (
      let s1 := if computing u then applyCommand (old % 256) u else u
      let s2 := spxBoundary (if strideInLap s1 = 0 then stepLap jumped len s1 else s1)
      regParity chk.regs (stepUnits chk.lanes s.flt.fLane late old (if computing s2 then stepShares s2 else s2))) ∧ kept u = kept s := by
    have hr := (kept_stepReplace _ s.flt).trans (kept_stepFaults s)
    exact ⟨_, _, _, rfl, (kept_stepFields chk.staged ((congrArg Kept.live hr).trans hl)).trans hr⟩
  have hcu : computing u = false := (computing_of_kept hu).trans hc
  obtain ⟨v, hv, hkv⟩ : ∃ v, v = spxBoundary (if strideInLap u = 0 then stepLap jumped len u else u) ∧ kept v = kept s :=
    ⟨_, rfl, by simp [kept_stepLap hcu, hu]⟩
  have hcv : computing v = false := (computing_of_kept hkv).trans hc
  rw [h]
  simp only [hcu, Bool.false_eq_true, if_false, ← hv, hcv, kept_regParity]
  rw [kept_stepUnits ((req_of_kept hkv).trans hr) (imgOwner_of_kept hkv ▸ ho), hkv]

end
end Sys2Proof.Machine
end

section
/-! The end of a build and the moves of the units (R84, R328, R335): the structure built, the entry to LOADED, the request that waits for
its units, and the statement about them. -/
namespace Sys2Proof.Machine

/-! ## The structure is built (R84) -/

/-- The loader behind a build: the structure in force with its identity. -/
def builtImg (im : Img) (i : ImgBlk) : ImgBlk :=
  { i with str := im, r := kvSet (kvSet i.r R.IMG_ID_IN_FORCE im.id) R.IMG_VER_IN_FORCE im.ver }

/-- The build puts the image in force; beside the data path it writes the pacer's registers and the rail table, and drops the pacer's
live writes. -/
theorem kept_buildAll (im : Img) (p : PackResult) (s : State) : ∃ (pace : RegFile) (seq : Seq), kept (buildAll im p s) =
    { kept s with sys := { s.sys with built := true, qcnt := [] }, img := builtImg im s.img, pace := pace, live := [], seq := seq } := by
  obtain ⟨u, h, hu⟩ : ∃ u, buildAll im p s = tripRelatch (installPlacement im p { u with
      img := builtImg im u.img, sys := { u.sys with built := true } }) ∧
      kept u = { kept s with pace := (buildTbs im s).tbs.r, live := [], seq := buildSeq im s.seq } := by
    refine ⟨_, rfl, ?_⟩
    simp only [kept_update, kept_buildCsv, kept_buildFlt]
    rfl
  refine ⟨(buildTbs im s).tbs.r, buildSeq im s.seq, ?_⟩
  rw [h, kept_tripRelatch, kept_installPlacement]
  exact congrArg (fun k : Kept => { k with img := builtImg im k.img, sys := { k.sys with built := true } }) hu

/-! ## LOADED comes into force (R328) -/

/-- The state machine's registers when state `k` comes into force. -/
def doneRegs (k : Nat) (r : RegFile) : RegFile :=
  setF (setF (setFlag (setF r F.SYS_STATE_STAT_state k) F.SYS_STATE_STAT_done) F.SYS_STATE_STAT_busy 0) F.SYS_STATE_STAT_target 0

theorem doneRegs_state {k : Nat} (h : k < 8) (r : RegFile) : getF (doneRegs k r) F.SYS_STATE_STAT_state = k := by
  rw [doneRegs, getF_setF_bits _ _ (by decide) (by decide), getF_setF_bits _ _ (by decide) (by decide),
    getF_setFlag_bits _ (by decide) (by decide), getF_setF_small _ _ (by decide) h]

theorem doneRegs_done (k : Nat) (r : RegFile) : flag (doneRegs k r) F.SYS_STATE_STAT_done = true := by
  rw [doneRegs, flag_setF_bits _ _ (by decide) (by decide), flag_setF_bits _ _ (by decide) (by decide)]
  exact flag_setFlag_self _ _ (by decide) (by decide)

theorem kept_stateDone (k : Nat) (s : State) :
    kept (stateDone k s) = { kept s with sys := { s.sys with req := none, r := doneRegs k s.sys.r, qcnt := [] } } := by
  unfold stateDone
  rw [kept_irq]
  rfl

/-- LOADED comes into force from IDLE, the loader without an owner. -/
theorem kept_applyLoaded {s : State} (hs : opState s = 3) (ho : imgOwner s = 0) : kept (applyState 4 s) = kept (stateDone 4 s) := by
  have h : applyState 4 s = setFaultN (arbitrate (stateDone 4 s)) := by
    rw [applyState, hs]
    rfl
  have hreq : (stateDone 4 s).sys.req = none := by rw [stateDone_frame]
  have himg : (stateDone 4 s).img = s.img := by rw [stateDone_frame]
  have howner : imgOwner (stateDone 4 s) = 0 := by rw [imgOwner, himg, ← imgOwner, ho]
  rw [h, kept_setFaultN, kept_arbitrate hreq (by omega)]

/-! ## Stride 0 begins (R28) -/

/-- The pacer's registers at stride 0, the first of a lap, with its lock at rest. -/
def startedPace (lock : Nat) (r : RegFile) : RegFile :=
  setF (setF (setF r F.TBS_STRIDE_CNT_stride_cnt 0) F.TBS_LAP_POS_stride_in_lap 0) F.TBS_STAT_lock_state lock

theorem startedPace_cnt (lock : Nat) (r : RegFile) : getF (startedPace lock r) F.TBS_STRIDE_CNT_stride_cnt = 0 := by
  rw [startedPace, getF_setF_ofs _ _ (by decide), getF_setF_ofs _ _ (by decide), getF_setF_small _ _ (by decide) (by decide)]

theorem startedPace_lap (lock : Nat) (r : RegFile) : getF (startedPace lock r) F.TBS_LAP_POS_stride_in_lap = 0 := by
  rw [startedPace, getF_setF_ofs _ _ (by decide), getF_setF_small _ _ (by decide) (by decide)]

theorem kept_pacerStart (s : State) : ∃ lock, kept (pacerStart s) = { kept s with pace := startedPace lock s.tbs.r } := ⟨_, rfl⟩

/-! ## The entry to LOADED (R13, R28, R80, R84) -/

/-- The loader behind the entry: the image in force, no path its owner. -/
def enteredImg (im : Img) (i : ImgBlk) : ImgBlk :=
  { builtImg im i with ready := none, r := setF (builtImg im i).r F.IMG_STAT_owner 0 }

/-- The first half of the entry: the queues emptied, the structure built, the loader without an owner. -/
def builtFor (im : Img) (s : State) : State :=
  imgRegs_ (fun r => setF r F.IMG_STAT_owner 0) (buildAll im (imgPack im) (flushAll { s with img := { s.img with ready := none } }))

/-- The second half: LOADED comes into force and stride 0 begins. -/
def startedLoaded (s : State) : State :=
  strideBody {} false 0 (ringsTrain (startPorts (pacerStart { applyState 4 s with pwm := refStart (applyState 4 s).pwm })))

theorem enterLoaded_eq (im : Img) (s : State) : enterLoaded im s = startedLoaded (builtFor im s) := rfl

theorem kept_builtFor (im : Img) (s : State) : ∃ (pace : RegFile) (seq : Seq), kept (builtFor im s) =
    { kept s with sys := { s.sys with built := true, qcnt := [] }, img := enteredImg im s.img, pace := pace, live := [], seq := seq } := by
  obtain ⟨a, ha, hka⟩ : ∃ a, builtFor im s = imgRegs_ (fun r => setF r F.IMG_STAT_owner 0) (buildAll im (imgPack im) a) ∧
      kept a = { kept s with img := { s.img with ready := none } } := ⟨_, rfl, kept_flushAll _⟩
  obtain ⟨pace, seq, hb⟩ := kept_buildAll im (imgPack im) a
  refine ⟨pace, seq, ?_⟩
  rw [ha]
  have hown := congrArg (fun k : Kept => { k with img := { k.img with r := setF k.img.r F.IMG_STAT_owner 0 } }) hb
  refine hown.trans ?_
  exact congrArg (fun k : Kept => { k with
    sys := { k.sys with built := true }
    img := { builtImg im k.img with r := setF (builtImg im k.img).r F.IMG_STAT_owner 0 }
    pace := pace, live := [], seq := seq }) hka

theorem kept_startedLoaded {s : State} (hs : opState s = 3) (ho : imgOwner s = 0) (hl : s.tbs.live = []) : ∃ lock,
    kept (startedLoaded s) =
      { kept s with sys := { s.sys with req := none, r := doneRegs 4 s.sys.r, qcnt := [] }, pace := startedPace lock s.tbs.r } := by
  have happ := (kept_applyLoaded hs ho).trans (kept_stateDone 4 s)
  obtain ⟨lock, hp⟩ := kept_pacerStart { applyState 4 s with pwm := refStart (applyState 4 s).pwm }
  obtain ⟨u, hu, hku⟩ : ∃ u, startedLoaded s = strideBody {} false 0 u ∧ kept u =
      { kept s with sys := { s.sys with req := none, r := doneRegs 4 s.sys.r, qcnt := [] }, pace := startedPace lock s.tbs.r } := by
    refine ⟨_, rfl, ?_⟩
    rw [kept_ringsTrain, kept_startPorts, hp]
    exact congrArg (fun k : Kept => { k with pace := startedPace lock k.pace }) happ
  have hsys : u.sys.r = doneRegs 4 s.sys.r := congrArg (fun k : Kept => k.sys.r) hku
  have hst : opState u = 4 := by rw [opState, hsys, doneRegs_state (by decide)]
  have hc : computing u = false := by rw [computing, hst]; rfl
  have hreq : u.sys.req = none := congrArg (fun k : Kept => k.sys.req) hku
  have howner : imgOwner u = 0 := (congrArg (fun k : Kept => getF k.img.r F.IMG_STAT_owner) hku).trans ho
  have hlive : u.tbs.live = [] := (congrArg Kept.live hku).trans hl
  refine ⟨lock, ?_⟩
  rw [hu, kept_strideBody hreq (by omega) hc hlive, hku]

/-- What the entry to LOADED with the structure `im` leaves beside the data path. -/
theorem kept_enterLoaded (im : Img) {s : State} (hs : opState s = 3) : ∃ (lock : Nat) (pace : RegFile) (seq : Seq),
    kept (enterLoaded im s) = { kept s with
      sys := { s.sys with built := true, req := none, r := doneRegs 4 s.sys.r, qcnt := [] }
      img := enteredImg im s.img, pace := startedPace lock pace, live := [], seq := seq } := by
  obtain ⟨pace, seq, hb⟩ := kept_builtFor im s
  have hst : opState (builtFor im s) = 3 := (congrArg (fun k : Kept => getF k.sys.r F.SYS_STATE_STAT_state) hb).trans hs
  have howner : imgOwner (builtFor im s) = 0 :=
    (congrArg (fun k : Kept => getF k.img.r F.IMG_STAT_owner) hb).trans (getF_setF_small _ _ (by decide) (by decide))
  obtain ⟨lock, hk⟩ := kept_startedLoaded hst howner (congrArg Kept.live hb)
  refine ⟨lock, pace, seq, ?_⟩
  rw [enterLoaded_eq, hk]
  exact congrArg (fun k : Kept => { k with
    sys := { k.sys with req := none, r := doneRegs 4 k.sys.r }, pace := startedPace lock k.pace }) hb

/-! ## The units a request waits for (R328, R335) -/

section
variable {s t : State} (hsys : t.sys = s.sys) (hbgt : t.bgt = s.bgt) (hsvc : t.svc = s.svc) (hstr : t.img.str = s.img.str)
  (hen : flag t.hst.r F.HST_PCIE_CFG_en = flag s.hst.r F.HST_PCIE_CFG_en)
include hsys hbgt hsvc hstr hen

theorem unitsOf_congr (k : Nat) (im : Img) : unitsOf k im t = unitsOf k im s := by
  simp only [unitsOf, hsys, hbgt, hsvc, hstr, hen]

theorem unitsReady_congr (himg : buildImg t = buildImg s) : unitsReady t = unitsReady s := by
  have hst : opState t = opState s := by rw [opState, hsys, opState]
  have hfor : unitState t = unitState s := by rw [unitState, hsys, hst, unitState]
  have hreq : unitReq t = unitReq s := by
    rw [unitReq, unitsOf_congr hsys hbgt hsvc hstr hen, hfor, hst, himg, hstr, unitReq]
  rw [unitsReady, unitWant, hreq, hbgt, unitsReady, unitWant]

end

theorem unitsReady_endJob (s : State) : unitsReady (endJob s) = unitsReady s := by
  have hen : flag (endJob s).hst.r F.HST_PCIE_CFG_en = flag s.hst.r F.HST_PCIE_CFG_en := by
    unfold endJob flag
    rw [getF_congr (irq_hst 2 _ R.HST_PCIE_CFG (by decide) (by decide))]
  refine unitsReady_congr ?_ ?_ ?_ ?_ hen ?_
  · rw [endJob_frame]
  · rw [endJob_frame]
  · rw [endJob_frame]
  · rw [endJob_img]
  · unfold buildImg
    rw [endJob_img]

/-! ## BUILD_COMPLETE (R84, R328) -/

section
variable {s : State}

/-- A request at its build takes effect once its units are awake and its structure is ready. -/
theorem tryChange_build {im : Img} (hq : s.sys.req = some { target := 4, phase := .build }) (hu : unitsReady s = true)
    (hi : s.img.ready = some im) : tryChange s = enterLoaded im s := by
  simp [tryChange, hq, hu, hi]

theorem tryChange_waits (hq : s.sys.req = some { target := 4, phase := .build }) (hu : unitsReady s = false) : tryChange s = s := by
  simp [tryChange, hq, hu]

theorem tryChange_none (hq : s.sys.req = none) : tryChange s = s := by
  simp [tryChange, hq]

end

/-- The state behind the end of a build whose structure is ready. -/
def buildEnded (im : Img) (s : State) : State := endJob { s with img := { s.img with ready := some im } }

/-- The build of an image that can be placed ends, and the request that waits for it may take effect. -/
theorem buildComplete_placed {im : Img} {s : State} (hj : s.img.job = some .build) (hn : s.img.next = some im)
    (hp : (imgPack im).reason = 0) : buildComplete s = tryChange (buildEnded im s) := by
  simp [buildComplete, buildEnded, hj, hn, hp]

theorem buildEnded_sys (im : Img) (s : State) : (buildEnded im s).sys = s.sys := by rw [buildEnded, endJob_frame]

theorem buildEnded_img (im : Img) (s : State) :
    (buildEnded im s).img = { s.img with ready := some im, job := none, r := endedRegs s.img.r } := by rw [buildEnded, endJob_img]

theorem kept_buildEnded (im : Img) (s : State) : kept (buildEnded im s) =
    { kept s with img := { s.img with ready := some im, job := none, r := endedRegs s.img.r } } := by
  rw [buildEnded, endJob_frame]
  rfl

/-! ## Switches (R335) -/

/-- The links' records, what was sent and the free values drawn may change, and nothing else. -/
def PortsOnly (s t : State) : Prop := t = { s with lnk := t.lnk, out := t.out, free := t.free }

theorem PortsOnly.refl (s : State) : PortsOnly s s := rfl

theorem PortsOnly.trans {s t u : State} (h1 : PortsOnly s t) (h2 : PortsOnly t u) : PortsOnly s u := by
  unfold PortsOnly at *
  rw [h2, h1]

theorem portsOnly_startPort (p : Nat) (s : State) : PortsOnly s (startPort p s) := by
  unfold startPort
  split
  · rfl
  · rfl

theorem portsOnly_startPorts (s : State) : PortsOnly s (startPorts s) := by
  unfold startPorts foldN
  exact List.foldlRecOn (motive := PortsOnly s) (List.range 50) (fun s p => startPort p s) (PortsOnly.refl s)
    fun t ht p _ => ht.trans (portsOnly_startPort p t)

theorem PortsOnly.req {s t : State} (h : PortsOnly s t) : t.sys.req = s.sys.req := by rw [h]
theorem PortsOnly.bgt {s t : State} (h : PortsOnly s t) : t.bgt = s.bgt := by rw [h]

theorem kvGet_showBgt_ne (b : Bgt) {o : Nat} (h : o ≠ R.BGT_STAT) : kvGet (showBgt b).r o = kvGet b.r o :=
  (kvGet_setF_ne _ _ h).trans (kvGet_setF_ne _ _ h)

/-- The switch of unit `u` has closed, `rest` still to wake. -/
def unitAwake (u : Nat) (rest : List Nat) (s : State) : State :=
  { s with bgt := showBgt { s.bgt with wake := rest, on := s.bgt.on ||| unitBit u } }

section
variable {u : Nat} {rest : List Nat} {s : State} (hd : s.bgt.down = []) (hw : s.bgt.wake = u :: rest)
include hd hw

/-- The unit at the front of the wakes is awake; a PHY group's wake starts its ports. -/
theorem unitWake_front : unitWake s =
    if 16 ≤ u ∧ u < 23 ∧ opState s ≠ 2 then startPorts (unitAwake u rest s) else unitAwake u rest s := by
  unfold unitWake
  rw [hd, hw]
  rfl

theorem portsOnly_unitWake : PortsOnly (unitAwake u rest s) (unitWake s) := by
  rw [unitWake_front hd hw]
  split
  · exact portsOnly_startPorts _
  · rfl

theorem unitWake_noPorts (h : ¬(16 ≤ u ∧ u < 23)) : unitWake s = unitAwake u rest s := by
  rw [unitWake_front hd hw, if_neg fun hu => h ⟨hu.1, hu.2.1⟩]

end

/-! ## The statement -/

/-- A build that ends with its units awake puts the structure in force. -/
theorem buildEnded_enters {im : Img} {s t : State} (hs : opState s = 3) (ht : t = enterLoaded im (buildEnded im s)) :
    t.img.job = none ∧ t.img.str = im ∧ t.sys.built = true ∧ kvGet t.img.r R.IMG_ID_IN_FORCE = im.id ∧
      kvGet t.img.r R.IMG_VER_IN_FORCE = im.ver ∧ opState t = 4 ∧ t.sys.req = none ∧ strideCnt t = 0 ∧ strideInLap t = 0 ∧
      imgOwner t = 0 ∧ flag t.sys.r F.SYS_STATE_STAT_done = true ∧ t.img.buf = s.img.buf ∧ t.svc = s.svc ∧ t.thm = s.thm ∧
      t.tag = s.tag ∧ t.nvm = s.nvm := by
  have hst : opState (buildEnded im s) = 3 := by rw [opState, buildEnded_sys, ← opState, hs]
  obtain ⟨lock, pace, seq, hk⟩ := kept_enterLoaded im hst
  rw [kept_buildEnded, ← ht] at hk
  have himg : t.img = enteredImg im (buildEnded im s).img := congrArg Kept.img hk
  have hsys : t.sys.r = doneRegs 4 (buildEnded im s).sys.r := congrArg (fun k : Kept => k.sys.r) hk
  have hpace : t.tbs.r = startedPace lock pace := congrArg Kept.pace hk
  rw [buildEnded_img] at himg
  refine ⟨?_, ?_, congrArg (fun k : Kept => k.sys.built) hk, ?_, ?_, ?_, congrArg (fun k : Kept => k.sys.req) hk, ?_, ?_, ?_, ?_, ?_,
    congrArg Kept.svc hk, congrArg Kept.thm hk, congrArg Kept.tag hk, congrArg Kept.nvm hk⟩
  · rw [himg]
    rfl
  · rw [himg]
    rfl
  · rw [himg]
    exact (kvGet_setF_ne _ _ (by decide)).trans ((kvGet_kvSet_ne _ _ (by decide)).trans (kvGet_kvSet_self _ _ _))
  · rw [himg]
    exact (kvGet_setF_ne _ _ (by decide)).trans (kvGet_kvSet_self _ _ _)
  · rw [opState, hsys]
    exact doneRegs_state (by decide) _
  · rw [strideCnt, hpace, startedPace_cnt]
  · rw [strideInLap, hpace, startedPace_lap]
  · rw [imgOwner, himg]
    exact getF_setF_small _ _ (by decide) (by decide)
  · rw [hsys]
    exact doneRegs_done _ _
  · rw [himg]
    rfl

/-- Settles O12: a build that ends enters LOADED or waits for its units, and each switch moves the front of its queue alone. -/
theorem buildAndUnits : Obligations.BuildAndUnits := by
  unfold Obligations.BuildAndUnits
  intro s hc
  refine ⟨fun im hj hn hp => ⟨fun hq hs hu => ?_, fun hq hu => ?_⟩, fun u rest hq hd hw => ?_, fun hq => ?_⟩
  · refine ⟨_, whenCore_ready hc buildComplete, buildEnded_enters hs ?_⟩
    rw [buildComplete_placed hj hn hp]
    refine tryChange_build (s := buildEnded im s) ?_ ((unitsReady_endJob _).trans hu) ?_
    · rw [buildEnded_sys, hq]
    · rw [buildEnded_img]
  · have hq' : (buildEnded im s).sys.req = some { target := 4, phase := .build } := by rw [buildEnded_sys, hq]
    refine ⟨_, whenCore_ready hc buildComplete, ?_⟩
    rw [buildComplete_placed hj hn hp, tryChange_waits hq' ((unitsReady_endJob _).trans hu)]
    refine ⟨?_, endJob_notBusy _, fun o ho => ?_, endJob_irq _⟩
    · rw [buildEnded, endJob_frame]
    · rw [buildEnded_img]
      exact kvGet_endedRegs_ne _ ho
  · refine ⟨_, whenCore_ready hc unitWakeDone, ?_⟩
    have hports := portsOnly_unitWake hd hw
    rw [unitWakeDone, tryChange_none (hports.req.trans hq)]
    refine ⟨?_, fun o ho => ?_, fun h => ?_⟩
    · rw [hports.bgt]
      exact hports
    · rw [hports.bgt]
      exact kvGet_showBgt_ne _ ho
    · rw [unitWake_noPorts hd hw h]
      exact ⟨rfl, rfl, rfl⟩
  · refine ⟨_, whenCore_ready hc unitDownDone, ?_⟩
    rw [unitDownDone, tryChange_none (s := unitDown s) hq]
    exact ⟨rfl, fun o ho => kvGet_showBgt_ne _ ho⟩

end Sys2Proof.Machine
end

section
/-! The `sat` flag (R111): what a completion makes of it, that the commit point leaves it to the completions, and the statement about
it. -/
namespace Sys2Proof.Machine

/-- What a change of a context keeps, every context keeps. -/
theorem getD_modCtx_keeps {α : Type} (g : Ctx → α) {f : Ctx → Ctx} (hf : ∀ x, g (f x) = g x) (k c : Nat) (x : Cea) :
    g ((modCtx k f x).ctxs.getD c {}) = g (x.ctxs.getD c {}) := by
  simp only [modCtx, List.getD_eq_getElem?_getD, List.getElem?_modify]
  obtain h | ⟨y, h⟩ := (x.ctxs[c]?).eq_none_or_eq_some
  · rw [h]
    rfl
  · rw [h]
    by_cases hk : k = c
    · simp [hk, hf]
    · simp [hk]

/-! ## The flag that a completion leaves -/

section
variable {hi lo u : Int} (old : Bool)

theorem newSat_beyond (h : hi < u ∨ u < lo) : newSat hi lo u old = true := by
  simp [newSat, h]

theorem newSat_between (hl : lo < u) (hh : u < hi) : newSat hi lo u old = false := by
  have hin : ¬(hi < u ∨ u < lo) := by omega
  simp [newSat, hin, hl, hh]

theorem newSat_at (h : u = lo ∨ u = hi) (hle : lo ≤ hi) : newSat hi lo u old = old := by
  have hin : ¬(hi < u ∨ u < lo) := by omega
  have hon : ¬(lo < u ∧ u < hi) := by omega
  simp [newSat, hin, hon]

end

/-- The flag follows from the unclamped output and the clamps. -/
theorem completeCtx_sat (coef : List Word) (x : Ctx) :
    (completeCtx coef x).sat = newSat x.clampHi.toInt x.clampLo.toInt (completeCtx coef x).u.toInt x.sat := by
  have hu : IsSignal (cascade coef x.s1 x.s2 x.clampHi.toInt x.clampLo.toInt x.cfg.nSec 0 (inputStage x.v)).u :=
    isSignal_cascade _ _ _ _ _ _ _ (isSignal_inputStage _)
  unfold completeCtx
  dsimp only
  rw [toInt_wordOf hu]

/-- A context that completes is the completed one in the state that follows. -/
theorem ctxAt_contextComplete {e : Fin 16} {c : Nat} {s : State} (hrun : s.cea.eng[e].run = some c) (ha : s.cea.eng[e].aborting = false)
    (hlast : lastClk s c < commitClk s) (hlen : c < s.cea.ctxs.length) : ctxAt (contextComplete e s) c = completedCtx s c := by
  rw [contextComplete_finishes hrun ha hlast]
  exact (congrArg (·.ctxs.getD c {}) (finishCtx_cea e c (lastReached c s))).trans (ctxFinished_ctx (e := e) (s := lastReached c s) hlen).self

/-! ## A context that no engine completes at the commit point (R32) -/

/-- Every engine that runs context `c` waits for its abort, or `c` would end at the commit point or later. -/
def NotCompleting (c : Nat) (s : State) : Prop :=
  ∀ g : Fin 16, s.cea.eng[g].run = some c → s.cea.eng[g].aborting = true ∨ commitClk s ≤ lastClk s c

/-- Completions elsewhere leave the context as it was, and no engine completes it afterwards. -/
theorem notCompleting_contextComplete {c : Nat} {s : State} (h : NotCompleting c s) (e : Fin 16) :
    NotCompleting c (contextComplete e s) ∧ ctxAt (contextComplete e s) c = ctxAt s c := by
  by_cases hidle : s.cea.eng[e].run = none ∨ s.cea.eng[e].aborting = true ∨
      ∃ d, s.cea.eng[e].run = some d ∧ commitClk s ≤ lastClk s d
  · rw [contextComplete_idle hidle]
    exact ⟨h, rfl⟩
  · simp only [not_or, not_exists, not_and, Bool.not_eq_true, not_le] at hidle
    obtain ⟨hsome, ha, hlast⟩ := hidle
    obtain ⟨d, hrun⟩ := Option.ne_none_iff_exists'.1 hsome
    have hne : c ≠ d := by
      rintro rfl
      obtain habort | hlate := h e hrun
      · rw [ha] at habort
        cases habort
      · exact absurd (hlast c hrun) (not_lt.2 hlate)
    rw [contextComplete_finishes hrun ha (hlast d hrun)]
    have hcea := finishCtx_cea e d (lastReached d s)
    have hctx : ctxAt (finishCtx e d (lastReached d s)) c = ctxAt s c :=
      (congrArg (·.ctxs.getD c {}) hcea).trans (getD_modCtx_ne _ _ hne)
    refine ⟨fun g hg => ?_, hctx⟩
    have heng := (congrArg (·.eng[g]) hcea).trans (ctxFinished_eng (e := e) (s := lastReached d s) d g)
    rw [heng] at hg ⊢
    have hcommit : commitClk (finishCtx e d (lastReached d s)) = commitClk s := by
      rw [finishCtx_frame]
      rfl
    rw [lastClk, hctx, hcommit]
    split at hg
    · cases hg
    next hge =>
      rw [if_neg hge]
      exact h g hg

/-- The completions of the commit point leave such a context as it was. -/
theorem ctxAt_completions {c : Nat} {s : State} (h : NotCompleting c s) :
    ctxAt (foldN 16 (fun s e => contextComplete e s) s) c = ctxAt s c := by
  refine (List.foldlRecOn (List.range 16) _ (motive := fun t => NotCompleting c t ∧ ctxAt t c = ctxAt s c) ⟨h, rfl⟩
    fun t ⟨ht, hctx⟩ e he => ?_).2
  obtain ⟨hn, hself⟩ := notCompleting_contextComplete ht ⟨e, List.mem_range.1 he⟩
  exact ⟨hn, hself.trans hctx⟩

/-! ## What the commit point does after the completions -/

section
variable (s : State)

/-- The abort marks contexts; their flags stay. -/
theorem sat_overrunCtx (k c : Nat) : (ctxAt (overrunCtx k s) c).sat = (ctxAt s c).sat := by
  refine getD_modCtx_keeps Ctx.sat ?_ k c s.cea
  exact fun _ => rfl

theorem sat_abortAll (c : Nat) : (ctxAt (abortAll s) c).sat = (ctxAt s c).sat :=
  List.foldlRecOn (motive := fun t => (ctxAt t c).sat = (ctxAt s c).sat) _ _ rfl
    fun t ht k _ => (sat_overrunCtx t k c).trans ht

theorem ctxs_shadowCheck (bad : BitVec 16) (e : Nat) : (shadowCheck bad s e).cea.ctxs = s.cea.ctxs := by
  unfold shadowCheck
  split
  · rfl
  · split
    · rfl
    · dsimp only
      split <;> rfl

theorem ctxs_latchOn (l : List Nat) (f : PhaseCh → PhaseCh) : (latchOn l f s).cea.ctxs = s.cea.ctxs := by
  rw [latchOn, tripChanges_latchOp]

theorem ctxs_fireModel (i : Nat) (m : PlausRec) (x : Ctx) (d : Int) : (fireModel i m x d s).cea.ctxs = s.cea.ctxs := by
  unfold fireModel
  dsimp only
  split
  · exact ctxs_latchOn _ _ _
  · rfl

theorem ctxs_evalModel (i : Nat) : (evalModel s i).cea.ctxs = s.cea.ctxs := by
  unfold evalModel
  extract_lets
  split
  · rfl
  · split
    · exact ctxs_fireModel _ _ _ _ _
    · rfl

theorem ctxs_sendCommand : (sendCommand s).cea.ctxs = s.cea.ctxs := by
  have hput (e : Q1Entry) (t : State) : (q1Put e t).cea = t.cea := by
    unfold q1Put
    split <;> rfl
  unfold sendCommand
  split
  · rfl
  · dsimp only
    split
    · rfl
    · split
      · rw [(sent_hiveSend _ _ _ _ _).frame, hput]
      · rw [hput]

theorem ctxs_snapCapture : (snapCapture s).cea.ctxs = s.cea.ctxs := by
  unfold snapCapture
  split <;> rfl

end

theorem sat_of_ctxs {s t : State} (h : t.cea.ctxs = s.cea.ctxs) (c : Nat) : (ctxAt t c).sat = (ctxAt s c).sat := by
  rw [ctxAt, h]
  rfl

/-- A fold whose steps leave every context as it was keeps the flags. -/
theorem sat_foldN {f : State → Nat → State} (h : ∀ s i, (f s i).cea.ctxs = s.cea.ctxs) (n : Nat) (s : State) (c : Nat) :
    (ctxAt (foldN n f s) c).sat = (ctxAt s c).sat :=
  sat_of_ctxs (List.foldlRecOn (motive := fun t => t.cea.ctxs = s.cea.ctxs) _ _ rfl fun t ht i _ => (h t i).trans ht) c

/-- The aborts and the checks that follow the completions (R31, R33, R121, R122). -/
def checksAfter (bad : BitVec 16) (s : State) : State :=
  let s := foldN 16 (shadowCheck bad) (abortAll s)
  sendCommand (foldN s.img.str.plaus.length evalModel s)

theorem sat_checksAfter (bad : BitVec 16) (s : State) (c : Nat) : (ctxAt (checksAfter bad s) c).sat = (ctxAt s c).sat :=
  (sat_of_ctxs (ctxs_sendCommand _) c).trans <| (sat_foldN ctxs_evalModel _ _ c).trans <|
    (sat_foldN (fun s e => ctxs_shadowCheck s bad e) 16 _ c).trans (sat_abortAll s c)

/-- The clock has reached the commit point. -/
def commitReached (s : State) : State := { s with tbs := { s.tbs with committed := true, clock := max s.tbs.clock (commitClk s) } }

/-- The completions of the commit point are the only step of it that judges a `sat` flag. -/
theorem sat_commitPoint {c : Nat} {s : State} (h : NotCompleting c s) (bad : BitVec 16) :
    (ctxAt (commitPoint bad s) c).sat = (ctxAt s c).sat := by
  unfold commitPoint
  split
  · rfl
  · refine (sat_of_ctxs (ctxs_snapCapture _) c).trans ?_
    dsimp only
    split
    · refine (sat_checksAfter bad _ c).trans (congrArg Ctx.sat ?_)
      exact ctxAt_completions (s := commitReached s) h
    · rfl

/-- Settles O9: a completion judges the flag by its clamps, and nothing else at the commit point does. -/
theorem satFlag : Obligations.SatFlag := by
  unfold Obligations.SatFlag
  refine fun e c s hc hlen => ⟨fun hrun ha hlast => ⟨_, exec_contextComplete hc e, ?_⟩, fun h => ?_, fun bad h =>
    ⟨_, exec_commitPoint hc bad, sat_commitPoint h bad⟩⟩
  · rw [ctxAt_contextComplete hrun ha hlast hlen, completedCtx, completeCtx_sat]
    exact ⟨newSat_beyond _, newSat_between _, newSat_at _⟩
  · rw [exec_contextComplete hc, contextComplete_idle]
    exact .inr (h.imp_right fun h => ⟨c, h⟩)

end Sys2Proof.Machine
end

section
/-! CONTEXT_START (R99, R100, R116): what a context that starts reads and takes, what a parity failure aborts, and the statement about
it. -/
namespace Sys2Proof.Machine

/-! ## Words that newly fail their parity (R116) -/

/-- The words of `bad` join those of context `c` that fail. -/
def parNoted (c : Nat) (bad : List Nat) (s : State) : State :=
  { s with cea := modCtx c (fun x => { x with parBad := x.parBad ++ bad.filter fun w => !x.parBad.contains w }) s.cea }

/-- A word that an engine fetches for context `c` fails. -/
def parFails (c : Nat) (s : State) : Bool := (fetchedWords s.cea c).any fun w => (ctxAt s c).parBad.contains w

section
variable (c : Nat) (bad : List Nat) (s : State)

/-- What does not depend on the failing words is the same of every context. -/
theorem ctxAt_parNoted {α : Type} (g : Ctx → α) (hg : ∀ (x : Ctx) (l : List Nat), g { x with parBad := l } = g x) (k : Nat) :
    g (ctxAt (parNoted c bad s) k) = g (ctxAt s k) :=
  getD_modCtx_keeps g (fun x => hg x _) c k s.cea

theorem cfg_parNoted (k : Nat) : (ctxAt (parNoted c bad s) k).cfg = (ctxAt s k).cfg := ctxAt_parNoted c bad s Ctx.cfg (fun _ _ => rfl) k

theorem ctxAt_parNoted_ne {k : Nat} (hk : k ≠ c) : ctxAt (parNoted c bad s) k = ctxAt s k := getD_modCtx_ne _ _ hk

theorem length_parNoted : (parNoted c bad s).cea.ctxs.length = s.cea.ctxs.length := List.length_modify ..

theorem fetchedWords_parNoted : fetchedWords (parNoted c bad s).cea c = fetchedWords s.cea c := by
  have hcfg : ((parNoted c bad s).cea.ctxs.getD c {}).cfg = (s.cea.ctxs.getD c {}).cfg := cfg_parNoted c bad s c
  unfold fetchedWords
  dsimp only
  rw [hcfg]
  rfl

/-- A word fails after it was noted or before. -/
theorem mem_parBad_parNoted {c : Nat} (hlen : c < s.cea.ctxs.length) (w : Nat) :
    w ∈ (ctxAt (parNoted c bad s) c).parBad ↔ w ∈ bad ∨ w ∈ (ctxAt s c).parBad := by
  have hself : ctxAt (parNoted c bad s) c = _ := getD_modCtx_self _ s.cea hlen
  rw [hself]
  simp only [List.mem_append, List.mem_filter, Bool.not_eq_true', List.contains_eq_mem, decide_eq_false_iff_not]
  change w ∈ (ctxAt s c).parBad ∨ w ∈ bad ∧ w ∉ (ctxAt s c).parBad ↔ _
  tauto

theorem parFails_parNoted {c : Nat} (hlen : c < s.cea.ctxs.length) : parFails c (parNoted c bad s) = true ↔
    ∃ w ∈ fetchedWords s.cea c, w ∈ bad ∨ w ∈ (ctxAt s c).parBad := by
  simp only [parFails, List.any_eq_true, List.contains_iff_mem, fetchedWords_parNoted, mem_parBad_parNoted bad s hlen]

end

/-! ## Inputs (R101, R107) -/

/-- The inputs depend on the context's bindings and the values it holds alone. -/
theorem readInputs_congr (s : State) {x y : Ctx} (hcfg : x.cfg = y.cfg) (hheld : x.held = y.held) : readInputs s x = readInputs s y := by
  unfold readInputs
  rw [hcfg, hheld]

section
variable (c : Nat) (bad : List Nat) (s : State)

theorem bindRead_parNoted (held : Word) (b : Binding) : bindRead (parNoted c bad s) held b = bindRead s held b := by
  have hpub (k : Nat) := ctxAt_parNoted c bad s Ctx.pub (fun _ _ => rfl) k
  have hprev (k : Nat) := ctxAt_parNoted c bad s Ctx.pubPrev (fun _ _ => rfl) k
  have hdone (k : Nat) := ctxAt_parNoted c bad s Ctx.completed (fun _ _ => rfl) k
  unfold bindRead
  dsimp only
  rw [hpub, hprev, hdone]
  rfl

/-- The failing words change no input. -/
theorem readInputs_parNoted : readInputs (parNoted c bad s) (ctxAt (parNoted c bad s) c) = readInputs s (ctxAt s c) := by
  have hheld := ctxAt_parNoted c bad s Ctx.held (fun _ _ => rfl) c
  have hfactor (x : CtxRec) : v0Factor (parNoted c bad s) x = v0Factor s x := rfl
  rw [readInputs_congr _ (cfg_parNoted c bad s c) hheld]
  unfold readInputs
  simp only [bindRead_parNoted, hfactor]

end

/-! ## Queues (R15, R16) -/

section
variable (s : State)

/-- The bindings' reads take entries of queue 0 and count. -/
theorem q0Read_frame (ains : List Nat) : q0Read ains s = { s with
    acq := { s.acq with q0 := (q0Read ains s).acq.q0 }, sys := { s.sys with qcnt := (q0Read ains s).sys.qcnt } } := by
  unfold q0Read
  dsimp only
  split <;> rfl

theorem q2Read_frame : q2Read s = { s with
    plc := { s.plc with q2 := (q2Read s).plc.q2 }, sys := { s.sys with qcnt := (q2Read s).sys.qcnt } } := by
  unfold q2Read
  dsimp only
  split <;> rfl

/-- Of the channels read only this stride's entries stay, while a context has yet to read them. -/
theorem mem_q0Read {ains : List Nat} {x : Q0Entry} : x ∈ (q0Read ains s).acq.q0 ↔
    x ∈ s.acq.q0 ∧ (x.ain ∉ ains ∨ x.tag = strideTag s ∧ allRead s x.ain = false) := by
  have hq0 : (q0Read ains s).acq.q0 =
      s.acq.q0.filter fun x => !ains.contains x.ain || (x.tag == strideTag s && !allRead s x.ain) := by
    unfold q0Read
    dsimp only
    split <;> rfl
  rw [hq0]
  simp

end

/-! ## The start (R99) -/

/-- The channels that a context's bindings read. -/
def channelsOf (x : Ctx) : List Nat := (x.cfg.ins.filter (·.kind == 1)).map (·.idx)

theorem mem_channelsOf {x : Ctx} {a : Nat} : a ∈ channelsOf x ↔ ∃ b ∈ x.cfg.ins, b.kind = 1 ∧ b.idx = a := by
  simp [channelsOf, and_assoc]

/-- The context `x` as context `c` starts, its inputs read. -/
def begunCtx (s : State) (c : Nat) (x : Ctx) : Ctx :=
  { x with started := true, startClk := s.tbs.clock, held := (readInputs s (ctxAt s c)).1, v := (readInputs s (ctxAt s c)).2.1,
           stale := (readInputs s (ctxAt s c)).2.2 }

/-- The engine taken by context `c`. -/
def takenEng (s : State) (c : Nat) (g : Eng) : Eng := { g with run := some c, freeClk := s.tbs.clock + 2 * (ctxAt s c).cfg.nSec }

/-- Context `c` and engine `e` as it starts, before queue entries leave. -/
def ctxBegun (e c : Nat) (s : State) : State :=
  { s with cea := { modCtx c (begunCtx s c) s.cea with eng := vmod s.cea.eng e (takenEng s c) } }

theorem startCtx_eq (e c : Nat) (s : State) : startCtx e c s =
    if (ctxAt s c).cfg.ins.any (·.kind == 3) then q2Read (q0Read (channelsOf (ctxAt s c)) (ctxBegun e c s))
    else q0Read (channelsOf (ctxAt s c)) (ctxBegun e c s) := rfl

theorem getElem_vmod_fin {α : Type} {n : Nat} (v : Vector α n) (i : Fin n) (f : α → α) (j : Fin n) :
    (vmod v i f)[j] = if i = j then f v[j] else v[j] := by
  rw [getElem_vmod]
  simp only [Fin.val_inj]

section
variable (e c : Nat) (s : State)

/-- A start changes contexts, engines, the entries of queues 0 and 2 and the queues' counters. -/
theorem startCtx_frame : startCtx e c s = { s with
    cea := { s.cea with ctxs := (startCtx e c s).cea.ctxs, eng := (startCtx e c s).cea.eng },
    acq := { s.acq with q0 := (startCtx e c s).acq.q0 }, plc := { s.plc with q2 := (startCtx e c s).plc.q2 },
    sys := { s.sys with qcnt := (startCtx e c s).sys.qcnt } } := by
  rw [startCtx_eq]
  split
  · rw [q2Read_frame, q0Read_frame]
    rfl
  · rw [q0Read_frame]
    rfl

theorem cea_startCtx : (startCtx e c s).cea = (ctxBegun e c s).cea := by
  rw [startCtx_eq]
  split
  · rw [q2Read_frame, q0Read_frame]
  · rw [q0Read_frame]

theorem q0_startCtx : (startCtx e c s).acq.q0 = (q0Read (channelsOf (ctxAt s c)) (ctxBegun e c s)).acq.q0 := by
  rw [startCtx_eq]
  split
  · rw [q2Read_frame]
  · rfl

theorem ctxChanged_startCtx {c : Nat} (hlen : c < s.cea.ctxs.length) : CtxChanged c (begunCtx s c) s (startCtx e c s) := by
  refine ctxChanged_of_ctxs hlen ?_
  rw [cea_startCtx]
  rfl

theorem eng_startCtx (e g : Fin 16) : (startCtx e c s).cea.eng[g] =
    if e = g then takenEng s c s.cea.eng[g] else s.cea.eng[g] :=
  (congrArg (·.eng[g]) (cea_startCtx e c s)).trans (getElem_vmod_fin s.cea.eng e (takenEng s c) g)

/-- An entry that stays is one of another channel or bears the stride's tag. -/
theorem mem_q0_startCtx {x : Q0Entry} (h : x ∈ (startCtx e c s).acq.q0) : x ∈ s.acq.q0 ∧
    ∀ b ∈ (ctxAt s c).cfg.ins, b.kind = 1 → b.idx = x.ain → x.tag = strideTag s := by
  rw [q0_startCtx, mem_q0Read] at h
  obtain ⟨hx, hother | ⟨htag, -⟩⟩ := h
  · exact ⟨hx, fun b hb hk hi => absurd (mem_channelsOf.2 ⟨b, hb, hk, hi⟩) hother⟩
  · exact ⟨hx, fun _ _ _ _ => htag⟩

/-- An entry of a channel that the context does not read stays. -/
theorem q0_startCtx_other {x : Q0Entry} (hx : x ∈ s.acq.q0) (h : ∀ b ∈ (ctxAt s c).cfg.ins, b.kind = 1 → b.idx ≠ x.ain) :
    x ∈ (startCtx e c s).acq.q0 := by
  rw [q0_startCtx, mem_q0Read]
  refine ⟨hx, .inl fun hin => ?_⟩
  obtain ⟨b, hb, hk, hi⟩ := mem_channelsOf.1 hin
  exact h b hb hk hi

end

/-! ## The abort on parity (R116) -/

/-- The engine free in the clock after the abort. -/
def abortedEng (s : State) (g : Eng) : Eng := { g with freeClk := s.tbs.clock + 1 }

section
variable (c : Nat) (s : State)

theorem parErr_parityAbort (e : Nat) : flag (parityAbort e c s).cea.r F.CEA_STAT_par_err = true :=
  (flag_setF_bits _ _ (by decide) (by decide)).trans (flag_setFlag_self _ _ (by decide) (by decide))

theorem ctxChanged_parityAbort (e : Nat) {c : Nat} (hlen : c < s.cea.ctxs.length) :
    CtxChanged c (fun x => { x with parAbort := true }) s (parityAbort e c s) := ctxChanged_of_ctxs hlen rfl

theorem eng_parityAbort (e g : Fin 16) : (parityAbort e c s).cea.eng[g] = if e = g then abortedEng s s.cea.eng[g] else s.cea.eng[g] :=
  getElem_vmod_fin s.cea.eng e (abortedEng s) g

end

/-! ## The command -/

section
variable {e c : Nat} {s : State} (bad : List Nat)

theorem contextStart_idle (h : engineFree s e = false ∨ nextReady s e = none) : contextStart e bad s = s := by
  unfold contextStart
  split
  · rfl
  next hfree =>
    obtain h | h := h
    · rw [h] at hfree
      exact absurd rfl hfree
    · rw [h]

theorem contextStart_ready (hfree : engineFree s e = true) (hnext : nextReady s e = some c) : contextStart e bad s =
    if parFails c (parNoted c bad s) then parityAbort e c (parNoted c bad s) else startCtx e c (parNoted c bad s) := by
  unfold contextStart
  rw [hfree, hnext]
  rfl

end

theorem exec_contextStart {s : State} (hc : coreReady s = true) (e : Fin 16) (bad : List Nat) :
    exec (.contextStart e bad) s = .next (contextStart e bad s) := whenCore_ready hc _

/-- Settles O24: the context starts with what it reads, or a word that newly fails aborts it. -/
theorem contextStarts : Obligations.ContextStarts := by
  unfold Obligations.ContextStarts
  refine fun e bad s hc => ⟨fun h => ?_, fun c hfree hnext hlen => ⟨fun hgood => ⟨_, exec_contextStart hc e bad, ?_⟩,
    fun ⟨w, hw, hbad⟩ => ⟨_, exec_contextStart hc e bad, ?_⟩⟩⟩
  · rw [exec_contextStart hc, contextStart_idle bad h]
  · have hpass : ¬parFails c (parNoted c bad s) = true := by
      rw [parFails_parNoted bad s hlen]
      rintro ⟨w, hw, hfail⟩
      exact hfail.elim (hgood w hw).1 (hgood w hw).2
    rw [contextStart_ready bad hfree hnext, if_neg hpass]
    obtain ⟨hself, hother⟩ := ctxChanged_startCtx e (parNoted c bad s) ((length_parNoted c bad s).symm ▸ hlen)
    have hcfg := cfg_parNoted c bad s c
    have htaken := (eng_startCtx c (parNoted c bad s) e e).trans (if_pos rfl)
    rw [hself, htaken]
    refine ⟨startCtx_frame e c _, rfl, ?_, rfl, rfl, congrArg (·.2.1) (readInputs_parNoted c bad s),
      fun k hk => (hother k hk).trans (ctxAt_parNoted_ne c bad s hk),
      fun g hg => (eng_startCtx c _ e g).trans (if_neg (Ne.symm hg)), fun x hx => ?_, fun x hx h => ?_⟩
    · rw [takenEng, hcfg]
      rfl
    · rw [← hcfg]
      exact mem_q0_startCtx e c _ hx
    · rw [← hcfg] at h
      exact q0_startCtx_other e c _ hx h
  · have hfail : parFails c (parNoted c bad s) = true := (parFails_parNoted bad s hlen).2 ⟨w, hw, .inl hbad⟩
    rw [contextStart_ready bad hfree hnext, if_pos hfail]
    obtain ⟨hself, hother⟩ := ctxChanged_parityAbort (parNoted c bad s) e ((length_parNoted c bad s).symm ▸ hlen)
    have hfreed := (eng_parityAbort c (parNoted c bad s) e e).trans (if_pos rfl)
    rw [hself, hfreed]
    exact ⟨rfl, parErr_parityAbort c _ e, rfl, ctxAt_parNoted c bad s Ctx.started (fun _ _ => rfl) c, rfl, rfl,
      fun k hk => (hother k hk).trans (ctxAt_parNoted_ne c bad s hk),
      fun g hg => (eng_parityAbort c _ e g).trans (if_neg (Ne.symm hg)), rfl⟩

end Sys2Proof.Machine
end

section
/-! Voltage targets and the leader's loss (R149, R150, R176, R378): what a target taken, a target refused and a loss event leave, and
the statement about them. -/
namespace Sys2Proof.Machine

/-! ## Judging a target (R149, R150) -/

/-- The target `v` is in force, or waits for the boundary while strides run. -/
def targetTaken (v : Nat) (s : State) : State :=
  { s with bus := if strides s then { s.bus with tgtNext := some v } else putTarget v s.bus }

/-- The BUS registers after a refusal, which sets `vcmd_rej` where `flagged`. -/
def rejCounted (flagged : Bool) (r : RegFile) : RegFile :=
  if flagged then setFlag (incF r F.BUS_CNT_vcmd_rej_cnt 1) F.BUS_STAT_vcmd_rej else incF r F.BUS_CNT_vcmd_rej_cnt 1

/-- A target of source `src` was refused: on a follower, and from the source selected, the refusal is flagged. -/
def targetRefused (src : Nat) (s : State) : State :=
  { s with bus := { s.bus with r := rejCounted (s.img.str.role = 2 ∨ getF s.bus.r F.BUS_VCMD_CFG_vsrc = src) s.bus.r } }

section
variable {src v : Nat} {s : State}

theorem voltageTarget_accepted (hrole : s.img.str.role ≠ 2) (hsrc : getF s.bus.r F.BUS_VCMD_CFG_vsrc = src)
    (hlo : getF s.bus.r F.BUS_VLIM_v_lo ≤ v) (hhi : v ≤ getF s.bus.r F.BUS_VLIM_v_hi) :
    voltageTarget src v s = (targetTaken v s, false) := by
  unfold voltageTarget targetTaken
  by_cases hs : strides s = true <;> simp [hrole, hsrc, hlo, hhi, hs]

theorem voltageTarget_refused (h : s.img.str.role = 2 ∨ getF s.bus.r F.BUS_VCMD_CFG_vsrc ≠ src ∨ v < getF s.bus.r F.BUS_VLIM_v_lo ∨
    getF s.bus.r F.BUS_VLIM_v_hi < v) : voltageTarget src v s = (targetRefused src s, true) := by
  unfold voltageTarget targetRefused rejCounted
  by_cases hrole : s.img.str.role = 2
  · simp [hrole]
  by_cases hsrc : getF s.bus.r F.BUS_VCMD_CFG_vsrc = src
  · have hout : ¬(getF s.bus.r F.BUS_VLIM_v_lo ≤ v ∧ v ≤ getF s.bus.r F.BUS_VLIM_v_hi) := by omega
    simp [hrole, hsrc, hout]
  · simp [hrole, hsrc]

end

theorem targetTaken_frame (v : Nat) (s : State) : targetTaken v s = { s with bus := { s.bus with
    r := (targetTaken v s).bus.r, tgt := (targetTaken v s).bus.tgt, tgtNext := (targetTaken v s).bus.tgtNext } } := by
  unfold targetTaken
  split <;> rfl

theorem targetTaken_shows (v : Nat) (s : State) : if strides s = true then
    (targetTaken v s).bus.tgtNext = some v ∧ (targetTaken v s).bus.tgt = s.bus.tgt ∧ (targetTaken v s).bus.r = s.bus.r
    else (targetTaken v s).bus.tgt = v := by
  unfold targetTaken
  split
  · exact ⟨rfl, rfl, rfl⟩
  · rfl

/-! ## The registers of a refusal (R149) -/

section
variable (flagged : Bool) (r : RegFile)

theorem kvGet_rejCounted_ne {o : Nat} (hc : o ≠ R.BUS_CNT) (hs : o ≠ R.BUS_STAT) : kvGet (rejCounted flagged r) o = kvGet r o := by
  cases flagged
  · exact kvGet_setF_ne _ _ hc
  · exact (kvGet_setFlag_ne _ hs).trans (kvGet_setF_ne _ _ hc)

theorem getF_rejCounted : getF (rejCounted flagged r) F.BUS_CNT_vcmd_rej_cnt =
    min (getF r F.BUS_CNT_vcmd_rej_cnt + 1) (2 ^ F.BUS_CNT_vcmd_rej_cnt.width - 1) := by
  have hcount := getF_incF r F.BUS_CNT_vcmd_rej_cnt 1 (by decide)
  cases flagged
  · exact hcount
  · exact (getF_setFlag_ofs _ (by decide)).trans hcount

theorem rejCounted_flag : flag (rejCounted true r) F.BUS_STAT_vcmd_rej = true := flag_setFlag_self _ _ (by decide) (by decide)

end

/-! ## The host's target (R149) -/

section
variable {v : Nat} {s : State}

theorem hostTarget_refused (h : voltageTarget 1 v s = (targetRefused 1 s, true)) : hostTarget v s = targetRefused 1 s := by
  simp [hostTarget, h]

/-- Beside the target an accepted host write changes `BUS_VCMD_HOST`, a live field that waits for the boundary while strides run. -/
theorem hostTarget_accepted (h : voltageTarget 1 v s = (targetTaken v s, false)) :
    hostTarget v s = { s with bus := { s.bus with r := (hostTarget v s).bus.r, live := (hostTarget v s).bus.live,
                                                  tgt := (hostTarget v s).bus.tgt, tgtNext := (hostTarget v s).bus.tgtNext } } ∧
    if strides s = true then
      (hostTarget v s).bus.tgtNext = some v ∧ (hostTarget v s).bus.tgt = s.bus.tgt ∧ (hostTarget v s).bus.r = s.bus.r
    else (hostTarget v s).bus.tgt = v := by
  by_cases hs : strides s = true
  · simp [hostTarget, h, targetTaken, hs]
  · simp [hostTarget, h, targetTaken, hs, putTarget]

theorem exec_hostVoltageTarget (hc : coreReady s = true) (p : Path) (w : BitVec 16) :
    exec (.hostVoltageTarget p (w.setWidth 32)) s = .next (hostTarget w.toNat s) := by
  have hval : (w.setWidth 32).toNat % 65536 = w.toNat := by
    rw [BitVec.toNat_setWidth]
    omega
  exact (whenCore_ready hc _).trans (by rw [hval])

end

/-! ## VSET (R378) -/

section
variable {v : Nat} {s : State}

theorem vsetJudge_accepted (hc : coreReady s = true) (h : voltageTarget 0 v s = (targetTaken v s, false)) :
    vsetJudge v s = twoRegs_ (fun r => incF r F.TWO_A_CNT_vset_cnt 1) (targetTaken v s) := by
  simp [vsetJudge, hc, h]

theorem vsetJudge_refused (hc : coreReady s = true) (h : voltageTarget 0 v s = (targetRefused 0 s, true)) :
    vsetJudge v s = emit (.nack .portA) { targetRefused 0 s with
      two := { s.two with vsetRef := true, r := incF s.two.r F.TWO_A_CNT_nack_cnt 1 } } := by
  simp [vsetJudge, hc, h, targetRefused]

/-- A read on port A only sends bytes. -/
theorem readA_sends (bs : List Byte) (n : Nat) (s : State) :
    ∃ sent, readA bs n s = { s with out := s.out ++ sent } ∧ (n = 0 → sent = []) := by
  unfold readA sendA
  split
  · exact ⟨[], by rw [List.append_nil], fun _ => rfl⟩
  · next h => exact ⟨_, emit_frame _ s, fun hn => absurd (by rw [hn]; rfl) h⟩

theorem exec_vset (hu : s.sys.up = true) (w : BitVec 16) (n : Nat) :
    exec (.vset ⟨[w.setWidth 8, (w >>> 8).setWidth 8], n⟩) s = .next (readA [] n (vsetJudge w.toNat (touchA s))) := by
  have hw : (w.setWidth 8).toNat + 256 * ((w >>> 8).setWidth 8).toNat = w.toNat := by
    rw [BitVec.toNat_setWidth, BitVec.toNat_setWidth, BitVec.toNat_ushiftRight, Nat.shiftRight_eq_div_pow]
    omega
  change whenUp (fun s => readA [] n (vsetA [w.setWidth 8, (w >>> 8).setWidth 8] (touchA s))) s = _
  rw [whenUp_next, if_pos hu, ← hw]
  rfl

end

/-! ## The leader's loss (R176) -/

section
variable {c : Word} {m hold ramp : Nat}

theorem lossOfM_ramp (hh : hold < m) (hr : m < hold + ramp) :
    lossOfM c m hold ramp = (wordOf (rround ((c.toInt * (ramp - (m - hold) : Nat) : Int) / (ramp : Rat))), 3) := by
  rw [lossOfM, if_neg (by omega), if_neg (by omega), if_pos hr]

theorem lossOfM_lost (hh : hold < m) (hr : hold + ramp ≤ m) : lossOfM c m hold ramp = (0, 4) := by
  rw [lossOfM, if_neg (by omega), if_neg (by omega), if_neg (by omega)]

end

/-- The BUS registers that show c, the loss state and the missing boundaries. -/
def lossRegs (c : Word) (st m : Nat) (r : RegFile) : RegFile :=
  setF (setF (kvSet r R.BUS_CMD c) F.BUS_HIVE_STAT_loss_state st) F.BUS_HIVE_STAT_miss m

section
variable (c : Word) (m : Nat) (r : RegFile)

theorem lossRegs_state {st : Nat} (h : st < 8) : getF (lossRegs c st m r) F.BUS_HIVE_STAT_loss_state = st :=
  (getF_setF_bits _ _ (by decide) (by decide)).trans (getF_setF_small _ _ (by decide) h)

theorem lossRegs_cmd (st : Nat) : kvGet (lossRegs c st m r) R.BUS_CMD = c :=
  (kvGet_setF_ne _ _ (by decide)).trans ((kvGet_setF_ne _ _ (by decide)).trans (kvGet_kvSet_self _ _ _))

theorem getF_lossRegs_ne (st : Nat) {f : Fld} (hc : f.ofs ≠ R.BUS_CMD) (hs : f.ofs ≠ R.BUS_HIVE_STAT) :
    getF (lossRegs c st m r) f = getF r f :=
  getF_congr ((kvGet_setF_ne _ _ hs).trans ((kvGet_setF_ne _ _ hs).trans (kvGet_kvSet_ne _ _ hc)))

end

/-- c and the loss state `st` are in force; state 4 sets `leader_lost`. -/
def lossShown (c : Word) (st : Nat) (s : State) : State :=
  let r := lossRegs c st (min s.bus.m 65535) s.bus.r
  { s with bus := { s.bus with r := if st = 4 then setFlag r F.BUS_STAT_leader_lost else r, c := c } }

/-- A loss event that names the state its m brings about puts that state in force. -/
theorem lossEvent_settles {s : State} {c : Word} {st : Nat} (hcomp : computing s = true)
    (hloss : getF s.bus.r F.BUS_HIVE_STAT_loss_state ≠ 0)
    (h : lossOfM s.bus.cHeld s.bus.m (getF s.bus.r F.BUS_LOSS_CFG_loss_hold) (getF s.bus.r F.BUS_LOSS_CFG_loss_ramp) = (c, st)) :
    lossEvent st s = if st = 4 ∧ getF s.bus.r F.BUS_HIVE_STAT_loss_state ≠ 4 then raise 23 255 255 (lossShown c st s)
      else lossShown c st s := by
  unfold lossEvent settleLoss
  rw [h, if_pos (by simp [hcomp, hloss])]
  rfl

/-- The hold's expiry puts state 3 in force and sends no event. -/
theorem lossEvent_ramp {s : State} {c : Word} (hcomp : computing s = true) (hloss : getF s.bus.r F.BUS_HIVE_STAT_loss_state ≠ 0)
    (h : lossOfM s.bus.cHeld s.bus.m (getF s.bus.r F.BUS_LOSS_CFG_loss_hold) (getF s.bus.r F.BUS_LOSS_CFG_loss_ramp) = (c, 3)) :
    lossEvent 3 s = lossShown c 3 s := by
  rw [lossEvent_settles hcomp hloss h, if_neg fun h => absurd h.1 (by decide)]

/-- The ramp's end puts state 4 in force, with an event where it was not in force before. -/
theorem lossEvent_lost {s : State} {c : Word} (hcomp : computing s = true) (hloss : getF s.bus.r F.BUS_HIVE_STAT_loss_state ≠ 0)
    (h : lossOfM s.bus.cHeld s.bus.m (getF s.bus.r F.BUS_LOSS_CFG_loss_hold) (getF s.bus.r F.BUS_LOSS_CFG_loss_ramp) = (c, 4)) :
    lossEvent 4 s = { lossShown c 4 s with flt := (if getF s.bus.r F.BUS_HIVE_STAT_loss_state = 4 then s.flt
      else postEvent 23 255 255 (strideTag s) s.flt) } := by
  rw [lossEvent_settles hcomp hloss h]
  by_cases hwas : getF s.bus.r F.BUS_HIVE_STAT_loss_state = 4
  · rw [if_neg fun hnew => hnew.2 hwas, if_pos hwas]
    rfl
  · rw [if_pos ⟨rfl, hwas⟩, if_neg hwas]
    rfl

/-- In state 4 the clear returns the command to where no entry has been applied. -/
theorem clearLeaderLost_lost {s : State} (h : getF s.bus.r F.BUS_HIVE_STAT_loss_state = 4) :
    clearLeaderLost s = { s with bus := { s.bus with r := lossRegs 0 0 0 (setF s.bus.r F.BUS_STAT_leader_lost 0),
                                                     c := 0, cHeld := 0, m := 0, vEntry := none } } :=
  if_pos ((getF_setF_ofs _ _ (by decide)).trans h)

section
variable {s : State} (hc : coreReady s = true)
include hc

theorem exec_lossHoldExpiry : exec .lossHoldExpiry s = .next (lossEvent 3 s) := whenCore_ready hc _
theorem exec_leaderLost : exec .leaderLost s = .next (lossEvent 4 s) := whenCore_ready hc _
theorem exec_leaderLostClear (p : Path) : exec (.leaderLostClear p) s = .next (clearLeaderLost s) := whenCore_ready hc _

end

/-! ## The statement -/

/-- Settles O23: a target is taken or refused whichever source sends it, and each loss event shows what m brings about. -/
theorem busCommandInputs : Obligations.BusCommandInputs := by
  unfold Obligations.BusCommandInputs
  refine ⟨fun p v n s hc => ⟨fun hrole hlo hhi => ⟨fun hsrc => ?_, fun hu hsrc => ?_⟩, fun h => ?_, fun hu h => ?_⟩,
    fun p hold ramp s hc hcomp hloss hh hr => ⟨fun hm hin => ?_, fun hm hend => ?_, fun hst => ?_⟩⟩
  · exact ⟨_, exec_hostVoltageTarget hc p v, hostTarget_accepted (voltageTarget_accepted hrole hsrc hlo hhi)⟩
  · have hjudged := vsetJudge_accepted (s := touchA s) hc (voltageTarget_accepted hrole hsrc hlo hhi)
    obtain ⟨sent, hread, hnone⟩ := readA_sends [] n (vsetJudge v.toNat (touchA s))
    refine ⟨_, exec_vset hu v n, ?_⟩
    rw [hread, hjudged]
    refine ⟨?_, targetTaken_shows v.toNat (touchA s), ?_, fun o ho => ?_, fun hn => ?_⟩
    · rw [targetTaken_frame]
      rfl
    · rw [targetTaken_frame]
      exact getF_incF _ _ _ (by decide)
    · rw [targetTaken_frame]
      exact kvGet_setF_ne _ _ ho
    · rw [hnone hn, targetTaken_frame]
      exact List.append_nil _
  · refine ⟨_, exec_hostVoltageTarget hc p v, ?_⟩
    rw [hostTarget_refused (voltageTarget_refused h)]
    refine ⟨rfl, fun hf => ?_, fun o => kvGet_rejCounted_ne _ _, getF_rejCounted _ _⟩
    rw [targetRefused, decide_eq_true hf]
    exact rejCounted_flag _
  · obtain ⟨sent, hread, -⟩ := readA_sends [] n (vsetJudge v.toNat (touchA s))
    refine ⟨_, exec_vset hu v n, ?_⟩
    rw [hread, vsetJudge_refused (s := touchA s) hc (voltageTarget_refused h)]
    exact ⟨rfl, List.mem_append_left _ (List.mem_append_right _ (List.mem_singleton_self _)), getF_rejCounted _ _⟩
  · subst hh hr
    refine ⟨_, exec_lossHoldExpiry hc, ?_⟩
    rw [lossEvent_ramp hcomp hloss (lossOfM_ramp hm hin)]
    exact ⟨rfl, lossRegs_state _ _ _ (by decide), rfl, lossRegs_cmd _ _ _ _⟩
  · subst hh hr
    refine ⟨_, exec_leaderLost hc, ?_⟩
    rw [lossEvent_lost hcomp hloss (lossOfM_lost hm hend)]
    exact ⟨rfl, (getF_setFlag_ofs _ (by decide)).trans (lossRegs_state _ _ _ (by decide)), flag_setFlag_self _ _ (by decide) (by decide),
      rfl, (kvGet_setFlag_ne _ (by decide)).trans (lossRegs_cmd _ _ _ _)⟩
  · refine ⟨_, exec_leaderLostClear hc p, ?_⟩
    rw [clearLeaderLost_lost hst]
    refine ⟨rfl, lossRegs_state _ _ _ (by decide), ?_⟩
    have hclear := getF_setF_small s.bus.r (f := F.BUS_STAT_leader_lost) 0 (by decide) (by decide)
    rw [flag, getF_lossRegs_ne _ _ _ _ (by decide) (by decide), hclear]
    rfl

end Sys2Proof.Machine
end

section
/-! Gate outputs and trip levels (R186, R187, R197): the statement's exclusion is lost where a tripped phase still has a rise waiting,
because a write of its trip level moves the outputs and leaves the rise as it was. -/
namespace Sys2Proof.Machine

/-- In IDLE phase 0 is tripped by a reaction and its H waits out a dead time, L inactive as the exclusion asks; a host write that gives
phase 0 the trip level with L active is next. -/
def trippedWaiting : State :=
  { Tests.up 3 with
    pwm := { ph := (Vector.replicate 48 {}).set 0 { rise := some true, react := true } }
    pending := [.registerWrite .pcie (6 * 65536 + R.PWM_TRIP_LVLn 0) 15 1] }

theorem outputsExclusive_trippedWaiting : trippedWaiting.outputsExclusive := fun p => by
  unfold PhaseCh.exclusive
  revert p
  decide +kernel

/-- What `trippedWaiting` becomes: the host's write is done. -/
def levelWritten : State :=
  hostWrite .pcie (6 * 65536 + R.PWM_TRIP_LVLn 0) 1 { trippedWaiting with pending := [] }

theorem step_trippedWaiting : step trippedWaiting = .next levelWritten :=
  exec_registerWrite_word (s := { trippedWaiting with pending := [] }) rfl .pcie (by decide) 1

/-- H still waits, and L is active. -/
theorem levelWritten_phase : levelWritten.pwm.ph[(0 : Fin 48)].rise = some true ∧ levelWritten.pwm.ph[(0 : Fin 48)].l = true := by
  decide +kernel

/-- Refutes O3: the statement is about every state, and its hypothesis admits a tripped phase whose H waits out a dead time. A write of
`PWM_TRIP_LVLn` puts the phase at its new level at once, L active, and does not cancel the wait (`atTripLevel`). -/
theorem not_outputsExclude : ¬ Obligations.OutputsExclude := by
  unfold Obligations.OutputsExclude
  intro hkept
  obtain ⟨hrise, hl⟩ := levelWritten_phase
  obtain ⟨-, hwaits, -⟩ := hkept trippedWaiting levelWritten outputsExclusive_trippedWaiting step_trippedWaiting 0
  exact Bool.false_ne_true ((hwaits hrise).symm.trans hl)

end Sys2Proof.Machine
end

section
/-! Trip inputs, their clears and the auxiliary command word (R193, R195 to R200): what a change of latches does to the phases it
reaches and to the others, what a host clear of one phase does, and the statement about them. -/
namespace Sys2Proof.Machine

/-! ## A change of latches, phase by phase (R196 to R198) -/

/-- A phase whose latches stay keeps its outputs. -/
theorem settlePhase_self (r : RegFile) (running : Bool) (p : Nat) (x : PhaseCh) : settlePhase r running p x x = x := by
  unfold settlePhase
  cases tripped x <;> rfl

/-- A phase that becomes tripped is at its trip level, a running dead time cancelled (R198). -/
theorem settlePhase_trips (r : RegFile) (running : Bool) (p : Nat) {old new : PhaseCh} (ho : tripped old = false)
    (hn : tripped new = true) : settlePhase r running p old new =
      { new with h := (tripLevel r p).1, l := (tripLevel r p).2, rise := none, sw := false } := by
  rw [settlePhase, if_pos hn, if_neg (by rw [ho]; decide)]

/-- The latches and the sets of a phase decide whether it is tripped, its outputs do not. -/
theorem tripped_settlePhase (r : RegFile) (running : Bool) (p : Nat) (old new : PhaseCh) :
    tripped (settlePhase r running p old new) = tripped new := by
  obtain ⟨h, l, rise, sw, heq⟩ := settlePhase_latches r running p old new
  rw [heq]
  rfl

section
variable (f : Nat → PhaseCh → PhaseCh) (g : PhaseCh → PhaseCh) (s : State) (l : List Nat) (p : Fin 48)

theorem latchOp_settles : (latchOp f s).pwm.ph[p] = settlePhase s.pwm.r (opState s == 6) p s.pwm.ph[p] (f p s.pwm.ph[p]) := by
  rw [latchOp_pwm]
  exact Vector.getElem_mapIdx ..

theorem latchOp_untouched (h : f p s.pwm.ph[p] = s.pwm.ph[p]) : (latchOp f s).pwm.ph[p] = s.pwm.ph[p] := by
  rw [latchOp_settles, h, settlePhase_self]

theorem latchOn_notMem (h : p.val ∉ l) : (latchOn l g s).pwm.ph[p] = s.pwm.ph[p] :=
  latchOp_untouched _ s p (if_neg (by simpa using h))

theorem latchOn_mem (h : p.val ∈ l) :
    (latchOn l g s).pwm.ph[p] = settlePhase s.pwm.r (opState s == 6) p s.pwm.ph[p] (g s.pwm.ph[p]) := by
  rw [latchOn, latchOp_settles, if_pos (by simpa using h)]

/-- Where a phase was tripped `any_trip` does not rise: nothing but the phases changes. -/
theorem latchOp_anyTrip (h : tripped s.pwm.ph[p] = true) : latchOp f s = { s with pwm := { s.pwm with ph := latched f s } } := by
  have hany : anyTrip s.pwm = true :=
    List.any_eq_true.2 ⟨s.pwm.ph[p], Vector.mem_toList_iff.2 (Vector.getElem_mem p.isLt), h⟩
  unfold latchOp latched
  rw [hany]
  rfl

end

/-! ## Trip inputs (R195, R196) -/

/-- `PWM_TRIP_IN` shows input `t` at level `b`, raw and filtered. -/
def inputShown (t : Nat) (b : Bool) (r : RegFile) : RegFile := putBit (putBit r R.PWM_TRIP_IN t b) R.PWM_TRIP_IN (16 + t) b

section
variable (t : Fin 16) (b : Bool) (r : RegFile)

theorem getBit_inputShown : getBit (inputShown t b r) R.PWM_TRIP_IN (16 + t) = b := getBit_putBit_self _ _ _ _ (by omega)

theorem kvGet_inputShown_ne {o : Nat} (h : o ≠ R.PWM_TRIP_IN) : kvGet (inputShown t b r) o = kvGet r o := by
  rw [inputShown, kvGet_putBit_ne _ _ _ _ _ h, kvGet_putBit_ne _ _ _ _ _ h]

theorem tripLevel_inputShown (p : Nat) : tripLevel (inputShown t b r) p = tripLevel r p := by
  have hofs : R.PWM_TRIP_LVLn (p / 16) ≠ R.PWM_TRIP_IN := by
    unfold R.PWM_TRIP_LVLn R.PWM_TRIP_IN
    omega
  have hcode : getF (inputShown t b r) ⟨R.PWM_TRIP_LVLn (p / 16), 2 * (p % 16), 2⟩ =
      getF r ⟨R.PWM_TRIP_LVLn (p / 16), 2 * (p % 16), 2⟩ := getF_congr (kvGet_inputShown_ne t b r hofs)
  rw [tripLevel, hcode, tripLevel]

end

/-- The latch of input `t` is set. -/
def extLatched (t : Nat) (x : PhaseCh) : PhaseCh := { x with ext := x.ext ||| ofBits 16 [t] }

theorem extLatched_ext (t : Fin 16) (x : PhaseCh) : (extLatched t x).ext.getLsbD t = true := by
  rw [extLatched, BitVec.getLsbD_or, getLsbD_ofBits (List.mem_singleton_self _) t.isLt, Bool.or_true]

theorem tripped_extLatched (t : Fin 16) (x : PhaseCh) : tripped (extLatched t x) = true := by
  have hne : (extLatched t x).ext ≠ 0 := by
    intro h0
    have hbit := extLatched_ext t x
    rw [h0] at hbit
    simp at hbit
  unfold tripped
  rw [bne_iff_ne.2 hne]
  rfl

/-- Input `t` is shown asserted and latched in the phases it reaches. -/
def inputLatched (t : Nat) (s : State) : State :=
  latchOn (tripReach s.img.str t) (extLatched t) { s with pwm := { s.pwm with r := inputShown t true s.pwm.r } }

theorem tripAssert_eq (t : Nat) (s : State) : tripAssert t s =
    if getBit s.pwm.r R.PWM_TRIP_IN (16 + t) then inputLatched t s else raise 8 t 255 (inputLatched t s) := rfl

section
variable (t : Fin 16) (s : State)

theorem tripChanges_inputLatched :
    TripChanges { s with pwm := { s.pwm with r := inputShown t true s.pwm.r } } (inputLatched t s) := tripChanges_latchOp ..

theorem inputLatched_pwm : (inputLatched t s).pwm =
    { s.pwm with r := inputShown t true s.pwm.r, ph := (inputLatched t s).pwm.ph } := by
  unfold inputLatched latchOn
  rw [latchOp_pwm]

theorem tripAssert_pwm : (tripAssert t s).pwm = (inputLatched t s).pwm := by
  rw [tripAssert_eq]
  split <;> rfl

theorem tripAssert_frame : tripAssert t s = { s with
    pwm := { s.pwm with r := (tripAssert t s).pwm.r, ph := (tripAssert t s).pwm.ph }, acq := (tripAssert t s).acq,
    hst := (tripAssert t s).hst, two := (tripAssert t s).two, out := (tripAssert t s).out, flt := (tripAssert t s).flt } := by
  have hframe : inputLatched t s = { s with
      pwm := { s.pwm with r := (inputLatched t s).pwm.r, ph := (inputLatched t s).pwm.ph }, acq := (inputLatched t s).acq,
      hst := (inputLatched t s).hst, two := (inputLatched t s).two, out := (inputLatched t s).out, flt := (inputLatched t s).flt } := by
    conv_lhs => rw [tripChanges_inputLatched t s, inputLatched_pwm]
    rw [inputLatched_pwm, (tripChanges_inputLatched t s).flt]
  rw [tripAssert_eq]
  split
  · exact hframe
  · exact congrArg (fun u : State => { u with flt := (raise 8 t 255 (inputLatched t s)).flt }) hframe

theorem tripAssert_flt : (tripAssert t s).flt =
    if getBit s.pwm.r R.PWM_TRIP_IN (16 + t) = true then s.flt else postEvent 8 t 255 (strideTag s) s.flt := by
  have hflt : (inputLatched t s).flt = s.flt := (tripChanges_inputLatched t s).flt
  have htag : strideTag (inputLatched t s) = strideTag s := by rw [tripChanges_inputLatched t s]; rfl
  rw [tripAssert_eq]
  split
  · exact hflt
  · rw [raise_flt, htag, hflt]

end

/-! ## Clears (R200) -/

/-- A host clear of one phase's bit acts on that phase alone. -/
theorem tripClear_bit {n i : Nat} (hi : i < 32) (hp : 32 * n + i < 48) (s : State) :
    tripClear n (BitVec.ofNat 32 (2 ^ i)) s = tripClearPhase (32 * n + i) s := by
  have hfold (mask : Word) : tripClear n mask s =
      (bitsOf mask).foldl (fun s i => if 32 * n + i < 48 then tripClearPhase (32 * n + i) s else s) s := by
    rw [bitsOf, List.foldl_filter]
    simp only [tripClear, foldN, Bool.and_eq_true, decide_eq_true_eq, ite_and]
  rw [hfold, bitsOf_twoPow ⟨i, hi⟩, List.foldl_cons, List.foldl_nil, if_pos hp]

/-- The external and fast-limit latches of phase `p` alone are cleared. -/
def inputsCleared (p q : Nat) (x : PhaseCh) : PhaseCh := if q = p then { x with ext := 0, flim := [] } else x

section
variable {s : State} {p : Nat}

theorem tripClearPhase_untripped (h : tripped (vget s.pwm.ph p {}) = false) : tripClearPhase p s = s := if_pos (by rw [h]; rfl)

theorem tripClearPhase_held (h : tripped (vget s.pwm.ph p {}) = true) (hh : tripHolds s p = true) : tripClearPhase p s =
    { s with pwm := { s.pwm with r := setF (setFlag s.pwm.r F.PWM_STAT_trip_clr_refused) F.PWM_STAT_clr_phase p } } := by
  rw [tripClearPhase, if_neg (by rw [h]; decide), if_pos hh]

theorem tripClearPhase_clears (hp : p < 48) (h : tripped (vget s.pwm.ph p {}) = true) (hh : tripHolds s p = false) :
    tripClearPhase p s = { s with pwm := { s.pwm with ph := latched (inputsCleared p) s } } := by
  rw [tripClearPhase, if_neg (by rw [h]; decide), if_neg (by rw [hh]; decide)]
  exact latchOp_anyTrip _ s ⟨p, hp⟩ (by rwa [← vget_fin _ {}])

theorem latched_eq (f : Nat → PhaseCh → PhaseCh) (s : State) : latched f s = (latchOp f s).pwm.ph := by rw [latchOp_pwm]

end

/-! ## The statement -/

section
variable {s : State} (hc : coreReady s = true)
include hc

theorem exec_tripFilterAssert (t : Fin 16) : exec (.tripFilterAssert t) s = .next (tripAssert t s) := whenCore_ready hc _
theorem exec_tripFilterDeassert (t : Fin 16) : exec (.tripFilterDeassert t) s = .next (tripDeassert t s) := whenCore_ready hc _
theorem exec_auxCword (p : Path) (mask : BitVec 8) : exec (.auxCword p mask) s = .next (auxCword mask s) := whenCore_ready hc _

theorem exec_tripClear_bit (p : Path) {n : Fin 2} {i : Nat} (hi : i < 32) (hp : 32 * n.val + i < 48) :
    exec (.tripClear p n (BitVec.ofNat 32 (2 ^ i))) s = .next (tripClearPhase (32 * n + i) s) :=
  (whenCore_ready hc _).trans (congrArg _ (tripClear_bit hi hp s))

end

/-- The phases an asserted input reaches are latched and at their trip level; the others are as they were (R196 to R198). -/
theorem tripAssert_phases (t : Fin 16) (s : State) (p : Fin 48) :
    (p.val ∉ tripReach s.img.str t → (tripAssert t s).pwm.ph[p] = s.pwm.ph[p]) ∧
    (p.val ∈ tripReach s.img.str t → (tripAssert t s).pwm.ph[p].ext.getLsbD t = true ∧ tripped (tripAssert t s).pwm.ph[p] = true ∧
      (tripAssert t s).pwm.ph[p].c = s.pwm.ph[p].c ∧
      (tripped s.pwm.ph[p] = false → ((tripAssert t s).pwm.ph[p].h, (tripAssert t s).pwm.ph[p].l) = tripLevel s.pwm.r p ∧
        (tripAssert t s).pwm.ph[p].rise = none)) := by
  rw [tripAssert_pwm]
  refine ⟨fun h => latchOn_notMem _ _ _ p h, fun h => ?_⟩
  have hset : (inputLatched t s).pwm.ph[p] = settlePhase (inputShown t true s.pwm.r) (opState s == 6) p s.pwm.ph[p]
      (extLatched t s.pwm.ph[p]) := latchOn_mem (extLatched t) _ _ p h
  rw [hset, tripped_settlePhase]
  refine ⟨?_, tripped_extLatched t _, ?_, fun hu => ?_⟩
  · obtain ⟨h', l, rise, sw, heq⟩ := settlePhase_latches (inputShown t true s.pwm.r) (opState s == 6) p s.pwm.ph[p]
      (extLatched t s.pwm.ph[p])
    rw [heq]
    exact extLatched_ext t _
  · obtain ⟨h', l, rise, sw, heq⟩ := settlePhase_latches (inputShown t true s.pwm.r) (opState s == 6) p s.pwm.ph[p]
      (extLatched t s.pwm.ph[p])
    rw [heq]
    rfl
  · rw [settlePhase_trips _ _ _ hu (tripped_extLatched t _), tripLevel_inputShown]
    exact ⟨rfl, rfl⟩

/-- Settles O27: an asserted input latches what it reaches, a clear acts on its own phase unless a cause holds it. -/
theorem tripsAndClears : Obligations.TripsAndClears := by
  unfold Obligations.TripsAndClears
  refine ⟨fun t s hc => ⟨⟨_, exec_tripFilterAssert hc t, tripAssert_frame t s, ?_, fun o ho => ?_, tripAssert_flt t s,
      tripAssert_phases t s⟩, _, exec_tripFilterDeassert hc t, rfl, getBit_inputShown t false _,
      fun o ho => kvGet_inputShown_ne t false _ ho⟩,
    fun path n i mask s hc => ⟨fun hi hp ht => ⟨_, exec_tripClear_bit hc path hi hp, ?_⟩, fun hi hp ht => ?_,
      _, exec_auxCword hc path mask, rfl, fun x => ?_⟩⟩
  · rw [tripAssert_pwm, inputLatched_pwm]
    exact getBit_inputShown t true _
  · rw [tripAssert_pwm, inputLatched_pwm]
    exact kvGet_inputShown_ne t true _ ho
  · by_cases hh : tripHolds s (32 * n + i) = true
    · rw [tripClearPhase_held ht hh, if_pos hh]
      refine ⟨rfl, fun _ _ => rfl, ?_, getF_setF_small _ _ (by decide) (lt_trans hp (by decide)), rfl⟩
      exact (flag_setF_bits _ _ (by decide) (by decide)).trans (flag_setFlag_self _ _ (by decide) (by decide))
    · rw [tripClearPhase_clears hp ht (Bool.eq_false_of_not_eq_true hh), if_neg hh, latched_eq]
      refine ⟨rfl, fun p hne => latchOp_untouched _ s p (if_neg hne), rfl, fun p he => ?_⟩
      obtain ⟨h, l, rise, sw, heq⟩ := latchOp_phase (inputsCleared (32 * n + i)) s p
      dsimp only
      rw [heq, inputsCleared, if_pos he]
      exact ⟨rfl, rfl, rfl, rfl, rfl, rfl, rfl, rfl⟩
  · rw [exec_tripClear_bit hc path hi hp, tripClearPhase_untripped ht]
  · exact Vector.getElem_mapIdx ..

end Sys2Proof.Machine
end

section
/-! The fast limit (R196, R199, R203, R212): what a raw code leaves in its channel, which phases a code beyond a limit latches, and the
statement about them. -/
namespace Sys2Proof.Machine

/-! ## Acquisition behind a change of latches -/

section
variable (f : Nat → PhaseCh → PhaseCh) (s : State)

theorem latchOp_acq : (latchOp f s).acq = s.acq ∨ (latchOp f s).acq = tripStreams s.acq := by
  obtain h | h := latchOp_cases f s
  · exact .inl (by rw [h])
  · exact .inr (by rw [h, irq_acq])

theorem chans_latchOp : (latchOp f s).acq.chans = s.acq.chans := by
  obtain h | h := latchOp_acq f s
  · rw [h]
  · rw [h]
    rfl

theorem regs_latchOp : (latchOp f s).acq.r = s.acq.r := by
  obtain h | h := latchOp_acq f s
  · rw [h]
  · rw [h]
    rfl

end

/-! ## The latch of an input (R196, R199) -/

/-- The fast-limit latch of input `a` is set. -/
def flimLatched (a : Nat) (x : PhaseCh) : PhaseCh := if x.flim.contains a then x else { x with flim := x.flim ++ [a] }

theorem mem_flimLatched (a : Nat) (x : PhaseCh) : a ∈ (flimLatched a x).flim := by
  unfold flimLatched
  split
  next h => simpa using h
  next => simp

theorem tripped_of_mem_flim {a : Nat} {x : PhaseCh} (h : a ∈ x.flim) : tripped x = true := by
  have hne : x.flim.isEmpty = false := by simpa using List.ne_nil_of_mem h
  simp [tripped, hne]

theorem flimLatch_eq (a : Nat) (s : State) : flimLatch a s =
    raise 7 a ((flimReach s.img.str a).headD 255) (latchOn (flimReach s.img.str a) (flimLatched a) s) := rfl

section
variable (a : Nat) (s : State)

theorem tripChanges_latchOn (l : List Nat) (g : PhaseCh → PhaseCh) : TripChanges s (latchOn l g s) := tripChanges_latchOp ..

theorem flimLatch_flt : (flimLatch a s).flt = postEvent 7 a ((flimReach s.img.str a).headD 255) (strideTag s) s.flt := by
  have htrip := tripChanges_latchOn s (flimReach s.img.str a) (flimLatched a)
  have htag : strideTag (latchOn (flimReach s.img.str a) (flimLatched a) s) = strideTag s := by rw [htrip]; rfl
  rw [flimLatch_eq, raise_flt, htag, htrip.flt]

theorem flimLatch_notMem {p : Fin 48} (h : p.val ∉ flimReach s.img.str a) : (flimLatch a s).pwm.ph[p] = s.pwm.ph[p] :=
  latchOn_notMem (flimLatched a) s _ p h

theorem flimLatch_mem {p : Fin 48} (h : p.val ∈ flimReach s.img.str a) : a ∈ (flimLatch a s).pwm.ph[p].flim := by
  have hset : (flimLatch a s).pwm.ph[p] = settlePhase s.pwm.r (opState s == 6) p s.pwm.ph[p] (flimLatched a s.pwm.ph[p]) :=
    latchOn_mem (flimLatched a) s _ p h
  obtain ⟨h', l, rise, sw, heq⟩ := settlePhase_latches s.pwm.r (opState s == 6) p s.pwm.ph[p] (flimLatched a s.pwm.ph[p])
  rw [hset, heq]
  exact mem_flimLatched a _

end

/-! ## What a raw code may change (R203, R212) -/

/-- Acquisition, the phases, the collector and the interrupts may change, and nothing else. -/
def CodeChanges (s t : State) : Prop :=
  t = { s with acq := t.acq, pwm := { s.pwm with ph := t.pwm.ph }, hst := t.hst, two := t.two, out := t.out, flt := t.flt }

theorem CodeChanges.trans {s t u : State} (h1 : CodeChanges s t) (h2 : CodeChanges t u) : CodeChanges s u := by
  unfold CodeChanges at *
  rw [h2, h1]

theorem codeChanges_flimLatch (a : Nat) (s : State) : CodeChanges s (flimLatch a s) := by
  have htrip := tripChanges_latchOn s (flimReach s.img.str a) (flimLatched a)
  have hpwm : (latchOn (flimReach s.img.str a) (flimLatched a) s).pwm =
      { s.pwm with ph := (latchOn (flimReach s.img.str a) (flimLatched a) s).pwm.ph } := by
    rw [latchOn, latchOp_pwm]
  rw [TripChanges, hpwm] at htrip
  exact congrArg (fun u : State => { u with flt := (flimLatch a s).flt }) htrip

/-! ## The fast limit (R212) -/

/-- Whether the channel's last raw sample lies beyond a limit is known. -/
def beyondSet (a : Nat) (b : Bool) (s : State) : State :=
  { s with acq := { s.acq with chans := vmod s.acq.chans a fun x => { x with beyond := b } } }

/-- A reached phase does not hold the latch of input `a`. -/
def someUnlatched (a : Nat) (s : State) : Bool := (flimReach s.img.str a).any fun p => !(vget s.pwm.ph p {}).flim.contains a

theorem mem_flimReach_lt {im : Img} {a p : Nat} (h : p ∈ flimReach im a) : p < 48 := by
  unfold flimReach at h
  dsimp only at h
  split at h
  · exact absurd h List.not_mem_nil
  · split at h
    · exact List.mem_range.1 h
    · exact List.mem_range.1 (List.mem_filter.1 h).1

theorem someUnlatched_iff {a : Nat} {s : State} : someUnlatched a s = true ↔
    ∃ p : Fin 48, p.val ∈ flimReach s.img.str a ∧ a ∉ s.pwm.ph[p].flim := by
  unfold someUnlatched
  rw [List.any_eq_true]
  constructor
  · rintro ⟨p, hp, h⟩
    refine ⟨⟨p, mem_flimReach_lt hp⟩, hp, ?_⟩
    rw [← vget_fin _ {}]
    simpa using h
  · rintro ⟨p, hp, h⟩
    refine ⟨p, hp, ?_⟩
    rw [vget_fin]
    simpa using h

section
variable {a : Nat} {v : Int} {s : State}

theorem judgeCode_noLimit (h : (chanOf s.acq.r a).fast = false) : judgeCode a v s = s := if_pos (by rw [h]; rfl)

theorem judgeCode_within (h : (chanOf s.acq.r a).fast = true) (hhi : v ≤ (chanOf s.acq.r a).flimHi)
    (hlo : (chanOf s.acq.r a).flimLo ≤ v) : judgeCode a v s = beyondSet a false s := by
  have hin : (decide ((chanOf s.acq.r a).flimHi < v) || decide (v < (chanOf s.acq.r a).flimLo)) = false := by simp [hhi, hlo]
  simp only [judgeCode, h, hin, beyondSet]
  rfl

theorem judgeCode_beyond (h : (chanOf s.acq.r a).fast = true)
    (hout : (chanOf s.acq.r a).flimHi < v ∨ v < (chanOf s.acq.r a).flimLo) : judgeCode a v s =
    if someUnlatched a s then flimLatch a (beyondSet a true s) else beyondSet a true s := by
  have hin : (decide ((chanOf s.acq.r a).flimHi < v) || decide (v < (chanOf s.acq.r a).flimLo)) = true := by simpa using hout
  simp only [judgeCode, h, hin, beyondSet]
  rfl

theorem judgeCode_cases (a : Nat) (v : Int) (s : State) : judgeCode a v s = s ∨ ∃ b, judgeCode a v s = beyondSet a b s ∨
    judgeCode a v s = flimLatch a (beyondSet a b s) := by
  unfold judgeCode
  dsimp only
  split
  · exact .inl rfl
  · split
    · exact .inr ⟨_, .inr rfl⟩
    · exact .inr ⟨_, .inl rfl⟩

theorem codeChanges_judgeCode (a : Nat) (v : Int) (s : State) : CodeChanges s (judgeCode a v s) := by
  obtain h | ⟨b, h | h⟩ := judgeCode_cases a v s
  · rw [h]
    rfl
  · rw [h]
    rfl
  · rw [h]
    exact CodeChanges.trans (t := beyondSet a b s) rfl (codeChanges_flimLatch ..)

theorem regs_judgeCode (a : Nat) (v : Int) (s : State) : (judgeCode a v s).acq.r = s.acq.r := by
  obtain h | ⟨b, h | h⟩ := judgeCode_cases a v s
  · rw [h]
  · rw [h]
    rfl
  · rw [h]
    exact regs_latchOp ..

theorem chan_beyondSet (ha : a < 128) (b : Bool) (s : State) :
    vget (beyondSet a b s).acq.chans a {} = { vget s.acq.chans a {} with beyond := b } := vget_vmod_self _ _ _ ha

theorem chans_flimLatch (a : Nat) (s : State) : (flimLatch a s).acq.chans = s.acq.chans := chans_latchOp ..

/-- Whether a channel lies beyond its limits says nothing of its last raw code. -/
theorem lastRaw_judgeCode (ha : a < 128) (v : Int) (s : State) :
    (vget (judgeCode a v s).acq.chans a {}).lastRaw = (vget s.acq.chans a {}).lastRaw := by
  obtain h | ⟨b, h | h⟩ := judgeCode_cases a v s
  · rw [h]
  · rw [h, chan_beyondSet ha]
  · rw [h, chans_flimLatch, chan_beyondSet ha]

end

/-- What a code beyond a limit leaves (R196, R199, R212): the channel counts as beyond, every phase it reaches holds the latch, the
others are as they were, and the fast-limit source has one event where a latch was set. -/
structure LimitLatched (a : Nat) (s t : State) : Prop where
  beyond  : (vget t.acq.chans a {}).beyond = true
  reached : ∀ p : Fin 48, p.val ∈ flimReach s.img.str a → a ∈ t.pwm.ph[p].flim
  other   : ∀ p : Fin 48, p.val ∉ flimReach s.img.str a → t.pwm.ph[p] = s.pwm.ph[p]
  event   : someUnlatched a s = true → t.flt = postEvent 7 a ((flimReach s.img.str a).headD 255) (strideTag s) s.flt
  noEvent : someUnlatched a s = false → t.flt = s.flt

theorem limitLatched_judgeCode {a : Nat} {v : Int} {s : State} (ha : a < 128) (h : (chanOf s.acq.r a).fast = true)
    (hout : (chanOf s.acq.r a).flimHi < v ∨ v < (chanOf s.acq.r a).flimLo) : LimitLatched a s (judgeCode a v s) := by
  rw [judgeCode_beyond h hout]
  split
  next hsome =>
    refine ⟨?_, fun p hp => flimLatch_mem a _ hp, fun p hp => flimLatch_notMem a _ hp, fun _ => flimLatch_flt a _,
      fun hnone => absurd hsome (by rw [hnone]; decide)⟩
    rw [chans_flimLatch, chan_beyondSet ha]
  next hnone =>
    refine ⟨by rw [chan_beyondSet ha], fun p hp => ?_, fun _ _ => rfl, fun hsome => absurd hsome hnone, fun _ => rfl⟩
    by_contra hmem
    exact hnone (someUnlatched_iff.2 ⟨p, hp, hmem⟩)

/-- Acquisition alone decides nothing of what the latch leaves. -/
theorem LimitLatched.of_acq {a : Nat} {s q t : State} (h : LimitLatched a q t) (hq : q = { s with acq := q.acq }) : LimitLatched a s t := by
  rw [hq] at h
  obtain ⟨hbeyond, hreached, hother, hevent, hnone⟩ := h
  exact ⟨hbeyond, hreached, hother, hevent, hnone⟩

/-! ## A raw code leaves its lane (R203) -/

/-- The configuration of a channel stands in the registers from 0x1000 on. -/
theorem chanOf_congr {r q : RegFile} (h : ∀ o, 0x1000 ≤ o → kvGet r o = kvGet q o) (a : Nat) : chanOf r a = chanOf q a := by
  have hfield (f : Fld) (hf : 0x1000 ≤ f.ofs) : getF r f = getF q f := getF_congr (h _ hf)
  have hcfg : 0x1000 ≤ 0x1000 + 32 * a := by omega
  have hfilt : 0x1000 ≤ 0x1004 + 32 * a := by omega
  have hflim : 0x1000 ≤ 0x1008 + 32 * a := by omega
  simp only [chanOf, flag, getFI, hfield (F.ACQ_CHn_FILT_order a) hfilt, hfield (F.ACQ_CHn_FILT_ratio a) hfilt,
    hfield (F.ACQ_CHn_FILT_notch a) hfilt, hfield (F.ACQ_CHn_CFG_pull a) hcfg, hfield (F.ACQ_CHn_CFG_flim_en a) hcfg,
    hfield (F.ACQ_CHn_FLIM_flim_hi a) hflim, hfield (F.ACQ_CHn_FLIM_flim_lo a) hflim]

/-- The conversion has left the lane, its code shown and taken as the channel's last one; the limits have still to judge it. -/
def codeRead (l : Nat) (c : Conv) (rest : List Conv) (code : BitVec 14) (s : State) : State :=
  let t := codeShown c code (poppedLane l rest s)
  { t with acq := { t.acq with chans := vmod t.acq.chans c.ain fun x => { x with lastRaw := some code.toInt } } }

section
variable (l : Fin 16) (c : Conv) (rest : List Conv) (code : BitVec 14) (s : State)

theorem codeRead_frame : codeRead l c rest code s = { s with acq := (codeRead l c rest code s).acq } := by
  unfold codeRead
  rw [codeShown_frame]
  rfl

theorem codeRead_reach : flimReach (codeRead l c rest code s).img.str c.ain = flimReach s.img.str c.ain := by
  rw [codeRead_frame]

theorem kvGet_codeRead (hl : c.ain / 8 = l.val) (o : Nat) (ho : 0x1000 ≤ o) :
    kvGet (codeRead l c rest code s).acq.r o = kvGet s.acq.r o := by
  have hne : o ≠ R.ACQ_FETCH_RESl (c.ain / 8) := by
    unfold R.ACQ_FETCH_RESl
    omega
  exact kvGet_codeShown_ne c code (poppedLane l rest s) hne

theorem codeRead_lastRaw (ha : c.ain < 128) :
    (vget (codeRead l c rest code s).acq.chans c.ain {}).lastRaw = some code.toInt := by
  have hset : vget (codeRead l c rest code s).acq.chans c.ain {} =
      { vget (codeShown c code (poppedLane l rest s)).acq.chans c.ain {} with lastRaw := some code.toInt } :=
    vget_vmod_self _ _ _ ha
  rw [hset]

/-- A code that enters its window changes the window and nothing else. -/
theorem codeAdded_frame : codeAdded c rest code s = { s with acq := (codeAdded c rest code s).acq } := by
  unfold codeAdded
  split <;> rfl

theorem regs_codeAdded : (codeAdded c rest code s).acq.r = s.acq.r := by
  unfold codeAdded
  split <;> rfl

theorem windowAdd_window (v : Int) (x : Chan) : ∃ win at_, windowAdd s c rest v x = { x with win := win, doneAt := at_ } := by
  unfold windowAdd
  dsimp only
  split
  · exact ⟨_, _, rfl⟩
  · exact ⟨_, _, rfl⟩

theorem codeAdded_chan (ha : c.ain < 128) : ∃ win at_, vget (codeAdded c rest code s).acq.chans c.ain {} =
    { vget s.acq.chans c.ain {} with win := win, doneAt := at_ } := by
  unfold codeAdded
  split
  · exact ⟨_, _, rfl⟩
  · obtain ⟨win, at_, heq⟩ := windowAdd_window c rest s code.toInt (vget s.acq.chans c.ain {})
    exact ⟨win, at_, (vget_vmod_self _ _ _ ha).trans heq⟩

variable {l c rest code s}

/-- A code of a channel whose records take none is shown, judged and added to its window. -/
theorem rawCodeOut_judged (hpipe : s.acq.lanes[l].pipe = c :: rest) (hl : c.ain / 8 = l.val) (hf : s.flt.fLane.getLsbD l = false)
    (hch : (vget s.acq.chans c.ain {}).present = true) (hrec : getF s.acq.r (F.ACQ_CHn_CFG_rec c.ain) < 2) :
    rawCodeOut l code s = codeAdded c rest code (judgeCode c.ain code.toInt (codeRead l c rest code s)) := by
  have hregs : (codeAdded c rest code (judgeCode c.ain code.toInt (codeRead l c rest code s))).acq.r =
      (codeRead l c rest code s).acq.r := by
    rw [regs_codeAdded, regs_judgeCode]
  have hnone : getF (codeRead l c rest code s).acq.r (F.ACQ_CHn_CFG_rec c.ain) < 2 := by
    rwa [getF_congr (kvGet_codeRead l c rest code s hl (0x1000 + 32 * c.ain) (by omega))]
  have hpresent : (vget (codeShown c code (poppedLane l rest s)).acq.chans c.ain {}).present = true := by
    rwa [chans_codeShown]
  rw [rawCodeOut_pops hpipe, if_neg (by rw [hf]; decide), takeCode_eq, if_neg (by rw [hpresent]; decide), codeRecorded, if_neg]
  · rfl
  · exact not_le.2 (hregs ▸ hnone)

end

/-- Settles O30: a code is judged by its channel's limits as they stand, and what the judgement leaves is what the command leaves. -/
theorem fastLimitLatches : Obligations.FastLimitLatches := by
  unfold Obligations.FastLimitLatches
  intro l code c rest s hc hpipe hl hf hch hrec
  have ha : c.ain < 128 := by omega
  have hchan : chanOf (codeRead l c rest code s).acq.r c.ain = chanOf s.acq.r c.ain :=
    chanOf_congr (kvGet_codeRead l c rest code s hl) _
  have hframe := codeRead_frame l c rest code s
  generalize hread : codeRead l c rest code s = q at hchan hframe
  obtain ⟨win, at_, hadd⟩ := codeAdded_chan c rest code (judgeCode c.ain code.toInt q) ha
  have hjudged := codeAdded_frame c rest code (judgeCode c.ain code.toInt q)
  refine ⟨codeAdded c rest code (judgeCode c.ain code.toInt q), ?_, ?_, ?_, fun hfast => ?_, fun hfast hhi hlo => ?_,
    fun hfast hout => ?_⟩
  · rw [exec_rawCodeOut hc, rawCodeOut_judged hpipe hl hf hch hrec, hread]
  · exact CodeChanges.trans (t := q) (by rw [hframe]; rfl) ((codeChanges_judgeCode ..).trans (by rw [hjudged]; rfl))
  · rw [hadd, lastRaw_judgeCode ha, ← hread]
    exact codeRead_lastRaw l c rest code s ha
  · rw [hjudged, judgeCode_noLimit (hchan ▸ hfast), hframe]
    exact ⟨rfl, rfl⟩
  · rw [hadd, hjudged, judgeCode_within (hchan ▸ hfast) (hchan ▸ hhi) (hchan ▸ hlo), chan_beyondSet ha, hframe]
    exact ⟨rfl, rfl, rfl⟩
  · have hlatch := limitLatched_judgeCode ha (hchan ▸ hfast) (hchan ▸ hout)
    obtain ⟨hbeyond, hreached, hother, hevent, hnone⟩ := hlatch.of_acq hframe
    have hbeyond' : (vget (codeAdded c rest code (judgeCode c.ain code.toInt q)).acq.chans c.ain {}).beyond = true := by
      rw [hadd]
      exact hbeyond
    refine ⟨hbeyond', ?_⟩
    rw [hjudged]
    refine ⟨fun p hp => ⟨hreached p hp, tripped_of_mem_flim (hreached p hp)⟩, hother, fun hsome => hevent (someUnlatched_iff.2 hsome),
      fun hall => hnone (Bool.eq_false_iff.2 fun hsome => ?_)⟩
    obtain ⟨p, hp, hmem⟩ := someUnlatched_iff.1 hsome
    exact hmem (hall p hp)

end Sys2Proof.Machine
end

section
/-! Carriers and edges (R179 to R194): what a reload, a period start, a period centre, a nominal edge and the end of a dead time change,
and the statement about them. -/
namespace Sys2Proof.Machine

/-! ## Fetches that a carrier triggers (R214, R215) -/

/-- Of acquisition the registers and the lanes may change, and nothing else. -/
def LanesOnly (a b : Acq) : Prop := b = { a with r := b.r, lanes := b.lanes }

theorem LanesOnly.trans {a b c : Acq} (h1 : LanesOnly a b) (h2 : LanesOnly b c) : LanesOnly a c := by
  unfold LanesOnly at *
  rw [h2, h1]

theorem LanesOnly.foldl {f : Acq → Nat → Acq} (h : ∀ a l, LanesOnly a (f a l)) : ∀ (l : List Nat) (a : Acq), LanesOnly a (l.foldl f a)
  | [], _ => rfl
  | x :: t, a => (h a x).trans (LanesOnly.foldl h t (f a x))

theorem lanesOnly_fetchTrigger (l : Nat) (a : Acq) : LanesOnly a (fetchTrigger l a) := by
  unfold fetchTrigger
  dsimp only
  split
  · rfl
  · split
    · rfl
    · split
      · rfl
      · rfl

theorem lanesOnly_carrierFetch (p trig : Nat) (a : Acq) : LanesOnly a (carrierFetch p trig a) := by
  refine LanesOnly.foldl (fun b l => ?_) _ a
  dsimp only
  split
  · exact lanesOnly_fetchTrigger l b
  · rfl

/-! ## Reloads (R185, R188, R190, R192 to R194) -/

/-- The registers and the stride's clipping may change, and no carrier. -/
def RegsOnly (w v : Pwm) : Prop := v = { w with r := v.r, clipped := v.clipped }

theorem RegsOnly.of_eq {w v : Pwm} {r : RegFile} {clipped : Bool} (h : v = { w with r := r, clipped := clipped }) : RegsOnly w v := by
  rw [h]
  rfl

theorem RegsOnly.setRegs {w v : Pwm} (h : RegsOnly w v) (r : RegFile) : RegsOnly w { v with r := r } := by
  rw [h]
  rfl

theorem regsOnly_countSet (clipped : Bool) (kind : Nat) (w : Pwm) : RegsOnly w (countSet clipped kind w) := by
  unfold countSet
  exact .of_eq rfl

/-- A reload takes the eligible set whole: in force with its duty as it is used in RUN, discarded in the other states. -/
structure PhaseReloaded (running : Bool) (q : CmpSet) (w : Pwm) (x : PhaseCh) (y : Pwm × PhaseCh) : Prop where
  regs : RegsOnly w y.1
  set  : ∃ wid, y.2 = { x with c := { x.c with eligible := none, duty := if running then usedDuty q.duty else x.c.duty, w := wid } }

theorem phaseReloaded_reloadPhase (running : Bool) (w : Pwm) (p : Nat) {x : PhaseCh} {q : CmpSet} (h : x.c.eligible = some q) :
    PhaseReloaded running q w x (reloadPhase running w p x) := by
  unfold reloadPhase
  rw [h]
  cases running
  · exact ⟨rfl, _, rfl⟩
  · exact ⟨(regsOnly_countSet ..).setRegs _, _, rfl⟩

/-! ## Period starts and centres of a phase (R180, R181, R190, R194) -/

/-- The angle's move at a period start: none of a phase that is not active (R181). -/
def periodMove (p : Nat) (s : State) : Int :=
  if (vget s.plc.ph p {}).active then
    angleMove (getF s.plc.r F.PLC_ANG_CFG_ang_slew) (vget s.plc.ph p {}).angle (vget s.plc.ph p {}).target
  else 0

/-- Phase `p` in the period that begins, ahead of its reload (R181, R184). -/
def periodBegun (p : Nat) (s : State) : PhaseCh :=
  let x := adoptTiming s.pwm.r p (vget s.pwm.ph p {})
  { x with c := { x.c with pLen := movedPeriod (8 * x.c.perClk) (periodMove p s), past := false } }

/-- What the phase makes of a period start behind its reload `y`: both widths from the set in force, latches in cut mode released,
the outputs settled and switching begun or ended (R186, R199, R201). -/
def periodSettled (p : Nat) (s : State) (w : Pwm) (y : PhaseCh) : PhaseCh :=
  startPhase (opState s == 6) (vget s.plc.ph p {}).unparked (settlePhase w.r (opState s == 6) p (vget s.pwm.ph p {})
    (cutRelease w.r (fun a => (vget s.acq.chans a {}).beyond) p { y with c := { y.c with w1 := y.c.w, w2 := y.c.w } }))

/-- The state after a period start whose reload left `y`. -/
def phaseStarted (p : Nat) (s : State) (y : Pwm × PhaseCh) : State :=
  { s with
    pwm := { y.1 with ph := vset s.pwm.ph p (periodSettled p s y.1 y.2) }
    plc := { s.plc with ph := vset s.plc.ph p { vget s.plc.ph p {} with
      angle := (((vget s.plc.ph p {}).angle + periodMove p s) % 65536).toNat } }
    acq := carrierFetch p 2 s.acq }

/-- The state after a period centre whose reload left `y`. -/
def phaseCentred (p : Nat) (s : State) (y : Pwm × PhaseCh) : State :=
  let x := if flag s.pwm.r F.PWM_CARRIER_carrier then { y.2 with c := { y.2.c with w2 := y.2.c.w } } else y.2
  { s with pwm := { y.1 with ph := vset s.pwm.ph p { x with c := { x.c with past := true } } }, acq := carrierFetch p 3 s.acq }

section
variable {p : Nat} {s : State}

theorem phaseStart_reload (h : getF s.pwm.r F.PWM_CARRIER_reload ≠ 1) : phaseStart p s =
    phaseStarted p s (reloadPhase (opState s == 6) s.pwm p (periodBegun p s)) := by
  unfold phaseStart
  simp only [if_neg h]
  rfl

theorem phaseCentre_reload (h : getF s.pwm.r F.PWM_CARRIER_reload ≠ 0) : phaseCentre p s =
    phaseCentred p s (reloadPhase (opState s == 6) s.pwm p (vget s.pwm.ph p {})) := by
  unfold phaseCentre
  simp only [if_neg h]
  rfl

end

theorem armRise_c (hi : Bool) (dt : Nat) (x : PhaseCh) : (armRise hi dt x).c = x.c := by
  unfold armRise
  split
  · cases hi <;> rfl
  · rfl

theorem startLevels_c (x : PhaseCh) : (startLevels x).c = x.c := by
  unfold startLevels
  split
  · split
    · exact armRise_c ..
    · rfl
  · split
    · exact armRise_c ..
    · rfl

/-- Switching begins and ends without the carrier. -/
theorem startPhase_c (running unparked : Bool) (x : PhaseCh) : (startPhase running unparked x).c = x.c := by
  unfold startPhase
  split
  · split
    · rfl
    · exact startLevels_c _
  · unfold idlePhase
    split <;> rfl

theorem settlePhase_c (r : RegFile) (running : Bool) (p : Nat) (old new : PhaseCh) : (settlePhase r running p old new).c = new.c := by
  obtain ⟨h, l, rise, sw, heq⟩ := settlePhase_latches r running p old new
  rw [heq]

theorem cutRelease_c (r : RegFile) (beyond : Nat → Bool) (p : Nat) (x : PhaseCh) : (cutRelease r beyond p x).c = x.c := by
  unfold cutRelease
  split <;> rfl

theorem periodSettled_c (p : Nat) (s : State) (w : Pwm) (y : PhaseCh) :
    (periodSettled p s w y).c = { y.c with w1 := y.c.w, w2 := y.c.w } := by
  rw [periodSettled, startPhase_c, settlePhase_c, cutRelease_c]

/-- The part of the statement about period starts. -/
theorem phaseStart_shows (p : Fin 48) {q : CmpSet} {s : State} (hq : s.pwm.ph[p].c.eligible = some q)
    (hr : getF s.pwm.r F.PWM_CARRIER_reload ≠ 1) : ∃ u, phaseStart p s = u ∧
      u = { s with pwm := { s.pwm with r := u.pwm.r, ph := u.pwm.ph, clipped := u.pwm.clipped }, plc := { s.plc with ph := u.plc.ph },
                   acq := { s.acq with r := u.acq.r, lanes := u.acq.lanes } } ∧
      u.pwm.ph[p].c.eligible = none ∧ u.pwm.ph[p].c.past = false ∧
      u.pwm.ph[p].c.duty = (if opState s = 6 then usedDuty q.duty else s.pwm.ph[p].c.duty) ∧
      u.pwm.ph[p].c.pLen = movedPeriod (8 * getF s.pwm.r F.PWM_CARRIER_period_clk) (periodMove p s) ∧
      (u.plc.ph[p].angle : Int) = (s.plc.ph[p].angle + periodMove p s) % 65536 ∧
      ∀ k : Fin 48, k ≠ p → u.pwm.ph[k] = s.pwm.ph[k] ∧ u.plc.ph[k] = s.plc.ph[k] := by
  have hel : (periodBegun p s).c.eligible = some q := by
    rw [← hq, ← vget_fin _ {}]
    rfl
  obtain ⟨hregs, wid, hset⟩ := phaseReloaded_reloadPhase (opState s == 6) s.pwm p hel
  generalize hy : reloadPhase (opState s == 6) s.pwm p (periodBegun p s) = y at hregs hset
  refine ⟨phaseStarted p s y, by rw [phaseStart_reload hr, hy], ?_, ?_⟩
  · unfold phaseStarted
    rw [hregs]
    conv_lhs => rw [lanesOnly_carrierFetch p 2 s.acq]
  · have hph : (phaseStarted p s y).pwm.ph[p].c = { y.2.c with w1 := y.2.c.w, w2 := y.2.c.w } := by
      rw [← periodSettled_c p s y.1 y.2]
      exact congrArg PhaseCh.c (getElem_vset_self ..)
    have hang : (phaseStarted p s y).plc.ph[p].angle = ((s.plc.ph[p].angle + periodMove p s) % 65536).toNat := by
      rw [← vget_fin s.plc.ph {} p]
      exact congrArg PhaseSt.angle (getElem_vset_self ..)
    rw [hph, hset, hang]
    refine ⟨rfl, rfl, ?_, rfl, by omega, fun k hk => ⟨getElem_vset_ne _ _ hk, getElem_vset_ne _ _ hk⟩⟩
    rw [← vget_fin s.pwm.ph {} p]
    simp only [beq_iff_eq]
    rfl

/-- The part of the statement about period centres. -/
theorem phaseCentre_shows (p : Fin 48) {q : CmpSet} {s : State} (hq : s.pwm.ph[p].c.eligible = some q)
    (hr : getF s.pwm.r F.PWM_CARRIER_reload ≠ 0) : ∃ u, phaseCentre p s = u ∧
      u = { s with pwm := { s.pwm with r := u.pwm.r, ph := u.pwm.ph, clipped := u.pwm.clipped },
                   acq := { s.acq with r := u.acq.r, lanes := u.acq.lanes } } ∧
      u.pwm.ph[p].c.eligible = none ∧ u.pwm.ph[p].c.past = true ∧
      u.pwm.ph[p].c.duty = (if opState s = 6 then usedDuty q.duty else s.pwm.ph[p].c.duty) ∧
      ∀ k : Fin 48, k ≠ p → u.pwm.ph[k] = s.pwm.ph[k] := by
  obtain ⟨hregs, wid, hset⟩ := phaseReloaded_reloadPhase (opState s == 6) s.pwm p hq
  generalize hy : reloadPhase (opState s == 6) s.pwm p s.pwm.ph[p] = y at hregs hset
  refine ⟨phaseCentred p s y, by rw [phaseCentre_reload hr, vget_fin, hy], ?_, ?_⟩
  · unfold phaseCentred
    rw [hregs]
    conv_lhs => rw [lanesOnly_carrierFetch p 3 s.acq]
  · have hph : ∃ w2, (phaseCentred p s y).pwm.ph[p].c = { y.2.c with w2 := w2, past := true } := by
      unfold phaseCentred
      dsimp only
      rw [getElem_vset_self]
      split
      · exact ⟨_, rfl⟩
      · exact ⟨_, rfl⟩
    obtain ⟨w2, hph⟩ := hph
    rw [hph, hset]
    refine ⟨rfl, rfl, ?_, fun k hk => getElem_vset_ne _ _ hk⟩
    simp only [beq_iff_eq]

/-! ## Edges and dead times (R186, R187) -/

section
variable {x : PhaseCh}

/-- The on-edge of a switching phase: L goes at once, H after `dt_rise`. -/
theorem phaseEdge_on (hsw : x.sw = true) (ht : tripped x = false) (hw : x.c.w1 ≠ 0 ∨ x.c.w2 ≠ 0) (hh : x.h = false) :
    phaseEdge true x = if x.dtRise = 0 then { x with l := false, h := true, rise := none }
      else { x with l := false, rise := some true } := by
  have hon : hasOn x.c = true := by simpa [hasOn] using hw
  simp only [phaseEdge, hsw, ht, hon, hh]
  rfl

theorem phaseEdge_off (hsw : x.sw = true) (ht : tripped x = false) (hw : x.c.w1 < x.c.pLen ∨ x.c.w2 < x.c.pLen) (hl : x.l = false) :
    phaseEdge false x = if x.dtFall = 0 then { x with h := false, l := true, rise := none }
      else { x with h := false, rise := some false } := by
  have hoff : hasOff x.c = true := decide_eq_true hw
  simp only [phaseEdge, hsw, ht, hoff, hl]
  rfl

/-- An edge that the period does not have moves nothing. -/
theorem phaseEdge_none {on : Bool} (h : (if on then hasOn x.c else hasOff x.c) = false) : phaseEdge on x = x := by
  unfold phaseEdge
  split
  · rfl
  · cases on
    · have hoff : hasOff x.c = false := h
      simp [hoff]
    · have hon : hasOn x.c = false := h
      simp [hon]

theorem deadTimeEnd_rise {hi : Bool} (h : x.rise = some hi) :
    deadTimeEnd x = { x with rise := none, h := x.h || hi, l := x.l || !hi } := by
  unfold deadTimeEnd
  rw [h]
  cases hi <;> simp

end

theorem vmod_fin {α : Type} {n : Nat} (v : Vector α n) (i : Fin n) (f : α → α) : vmod v i f = v.set i (f v[i]) := dif_pos i.isLt

theorem vmod_fixed {α : Type} {n : Nat} (v : Vector α n) (i : Fin n) {f : α → α} (h : f v[i] = v[i]) : vmod v i f = v := by
  rw [vmod_fin, h]
  exact Vector.set_getElem_self _

/-! ## Auxiliary outputs (R192, R193) -/

/-- A period event of an auxiliary output that reloads it where `reloads` holds: its place in the period and its active interval stay;
a reload takes the bound context's eligible set with `src` 1 and the host's pending duty with `src` 2. -/
structure AuxReloaded (reloads : Prop) (src : Nat) (w : Pwm) (x : AuxCh) (y : Pwm × AuxCh) : Prop where
  regs  : RegsOnly w y.1
  place : y.2.c.pLen = x.c.pLen ∧ y.2.c.past = x.c.past ∧ y.2.on = x.on
  bound : ∀ q, reloads → src = 1 → x.c.eligible = some q → y.2.c.duty = usedDuty q.duty ∧ y.2.c.eligible = none
  host  : ∀ d, reloads → src = 2 → x.pending = some d → y.2.c.duty = usedDuty d ∧ y.2.pending = none

/-- Where there is nothing to take nothing changes. -/
theorem auxReloaded_same {reloads : Prop} {src : Nat} {w : Pwm} {x : AuxCh} (h1 : reloads → src = 1 → x.c.eligible = none)
    (h2 : reloads → src = 2 → x.pending = none) : AuxReloaded reloads src w x (w, x) :=
  ⟨rfl, ⟨rfl, rfl, rfl⟩, fun _ hr hs hq => absurd (hq.symm.trans (h1 hr hs)) (by simp),
    fun _ hr hs hd => absurd (hd.symm.trans (h2 hr hs)) (by simp)⟩

theorem auxReloaded_reloadAux (reloads : Prop) (w : Pwm) (i : Nat) (x : AuxCh) :
    AuxReloaded reloads (getF w.r (F.PWM_AUX_CFGn_src i)) w x (reloadAux w i x) := by
  unfold reloadAux
  dsimp only
  split
  next h1 =>
    cases hq : x.c.eligible with
    | none => exact auxReloaded_same (fun _ _ => hq) fun _ h2 => by omega
    | some q =>
      refine ⟨regsOnly_countSet .., ⟨rfl, rfl, rfl⟩, fun q' _ _ hq' => ?_, fun d _ h2 => by omega⟩
      rw [hq] at hq'
      rw [Option.some.inj hq']
      exact ⟨rfl, rfl⟩
  next h1 =>
    split
    next h2 =>
      cases hd : x.pending with
      | none => exact auxReloaded_same (fun _ h => absurd h h1) fun _ _ => hd
      | some d =>
        refine ⟨regsOnly_countSet .., ⟨rfl, rfl, rfl⟩, fun q _ h => absurd h h1, fun d' _ _ hd' => ?_⟩
        rw [hd] at hd'
        rw [Option.some.inj hd']
        exact ⟨rfl, rfl⟩
    next h2 => exact auxReloaded_same (fun _ h => absurd h h1) fun _ h => absurd h h2

theorem auxReloaded_unless (c : Prop) [Decidable c] (w : Pwm) (i : Nat) (x : AuxCh) :
    AuxReloaded (¬c) (getF w.r (F.PWM_AUX_CFGn_src i)) w x (if c then (w, x) else reloadAux w i x) := by
  split
  next h => exact auxReloaded_same (fun hr => absurd h hr) fun hr => absurd h hr
  next => exact auxReloaded_reloadAux ..

/-- Output `i` in the period that begins, ahead of its reload. -/
def auxBegun (i : Nat) (w : Pwm) : AuxCh :=
  let x := vget w.aux i {}
  { x with c := { x.c with perClk := getF w.r F.PWM_CARRIER_period_clk, pLen := 8 * getF w.r F.PWM_CARRIER_period_clk, past := false } }

/-- The block after a period start of output `i` whose reload left `y`. -/
def auxStarted (i : Nat) (y : Pwm × AuxCh) : Pwm :=
  { y.1 with aux := vset y.1.aux i { y.2 with c := { y.2.c with w1 := y.2.c.w, w2 := y.2.c.w } } }

/-- The block after a period centre of output `i` whose reload left `y`; with `carrier` the set in force governs w₂. -/
def auxCentred (i : Nat) (y : Pwm × AuxCh) : Pwm :=
  { y.1 with aux := vset y.1.aux i { y.2 with c := { y.2.c with
    w2 := if flag y.1.r F.PWM_CARRIER_carrier then y.2.c.w else y.2.c.w2, past := true } } }

theorem auxStart_eq (i : Nat) (w : Pwm) : auxStart i w =
    auxStarted i (if getF w.r F.PWM_CARRIER_reload = 1 then (w, auxBegun i w) else reloadAux w i (auxBegun i w)) := by
  unfold auxStart auxStarted auxBegun
  rfl

theorem auxCentre_eq (i : Nat) (w : Pwm) : auxCentre i w = auxCentred i
    (if getF w.r F.PWM_CARRIER_reload = 0 then (w, vget w.aux i {}) else reloadAux w i (vget w.aux i {})) := by
  unfold auxCentre auxCentred
  dsimp only
  generalize (if getF w.r F.PWM_CARRIER_reload = 0 then (w, vget w.aux i {}) else reloadAux w i (vget w.aux i {})) = y
  cases flag y.1.r F.PWM_CARRIER_carrier <;> rfl

/-- What a period start of output `x` leaves. -/
theorem auxStart_shows (x : Fin 8) (w : Pwm) : ∃ v, auxStart x w = v ∧ v = { w with r := v.r, aux := v.aux, clipped := v.clipped } ∧
    v.aux[x].c.pLen = 8 * getF w.r F.PWM_CARRIER_period_clk ∧ v.aux[x].on = w.aux[x].on ∧
    (∀ k : Fin 8, k ≠ x → v.aux[k] = w.aux[k]) ∧
    (∀ q, getF w.r F.PWM_CARRIER_reload ≠ 1 → getF w.r (F.PWM_AUX_CFGn_src x) = 1 → w.aux[x].c.eligible = some q →
      v.aux[x].c.duty = usedDuty q.duty ∧ v.aux[x].c.eligible = none) ∧
    (∀ d, getF w.r F.PWM_CARRIER_reload ≠ 1 → getF w.r (F.PWM_AUX_CFGn_src x) = 2 → w.aux[x].pending = some d →
      v.aux[x].c.duty = usedDuty d ∧ v.aux[x].pending = none) := by
  obtain ⟨hregs, ⟨hlen, -, hon⟩, hbound, hhost⟩ :=
    auxReloaded_unless (getF w.r F.PWM_CARRIER_reload = 1) w x (auxBegun x w)
  refine ⟨_, auxStart_eq x w, ?_⟩
  generalize (if getF w.r F.PWM_CARRIER_reload = 1 then (w, auxBegun x w) else reloadAux w x (auxBegun x w)) = y
    at hregs hlen hon hbound hhost
  have haux : y.1.aux = w.aux := by rw [hregs]
  have hold : vget w.aux x {} = w.aux[x] := vget_fin ..
  unfold auxStarted
  dsimp only
  rw [getElem_vset_self, ← hold]
  refine ⟨?_, hlen, hon, fun k hk => ?_, hbound, hhost⟩
  · rw [hregs]
  · rw [getElem_vset_ne _ _ hk, haux]

/-- What a period centre of output `x` leaves. -/
theorem auxCentre_shows (x : Fin 8) (w : Pwm) : ∃ v, auxCentre x w = v ∧ v = { w with r := v.r, aux := v.aux, clipped := v.clipped } ∧
    v.aux[x].c.past = true ∧ (∀ k : Fin 8, k ≠ x → v.aux[k] = w.aux[k]) ∧
    (∀ q, getF w.r F.PWM_CARRIER_reload ≠ 0 → getF w.r (F.PWM_AUX_CFGn_src x) = 1 → w.aux[x].c.eligible = some q →
      v.aux[x].c.duty = usedDuty q.duty ∧ v.aux[x].c.eligible = none) ∧
    (∀ d, getF w.r F.PWM_CARRIER_reload ≠ 0 → getF w.r (F.PWM_AUX_CFGn_src x) = 2 → w.aux[x].pending = some d →
      v.aux[x].c.duty = usedDuty d ∧ v.aux[x].pending = none) := by
  obtain ⟨hregs, -, hbound, hhost⟩ := auxReloaded_unless (getF w.r F.PWM_CARRIER_reload = 0) w x (vget w.aux x {})
  refine ⟨_, auxCentre_eq x w, ?_⟩
  generalize (if getF w.r F.PWM_CARRIER_reload = 0 then (w, vget w.aux x {}) else reloadAux w x (vget w.aux x {})) = y
    at hregs hbound hhost
  have haux : y.1.aux = w.aux := by rw [hregs]
  have hold : vget w.aux x {} = w.aux[x] := vget_fin ..
  unfold auxCentred
  dsimp only
  rw [getElem_vset_self, ← hold]
  refine ⟨?_, rfl, fun k hk => ?_, hbound, hhost⟩
  · rw [hregs]
  · rw [getElem_vset_ne _ _ hk, haux]

theorem auxEdge_has {on : Bool} {x : AuxCh} (h : (if on then hasOn x.c else hasOff x.c) = true) : auxEdge on x = { x with on := on } :=
  if_pos h

/-! ## The statement -/

section
variable {s : State} (hc : coreReady s = true) (hs : strides s = true)
include hc

theorem exec_deadTimeExpiry (p : Fin 48) : exec (.deadTimeExpiry p) s =
    .next { s with pwm := { s.pwm with ph := vmod s.pwm.ph p deadTimeEnd } } :=
  whenCore_ready hc fun s => { s with pwm := { s.pwm with ph := vmod s.pwm.ph p deadTimeEnd } }

include hs

theorem exec_refStart : exec (.carrierPeriodStart .ref) s = .next { s with pwm := refStart s.pwm } :=
  (whenCore_ready hc _).trans (congrArg _ (if_neg (by rw [hs]; decide)))

theorem exec_phaseStart (p : Fin 48) : exec (.carrierPeriodStart (.phase p)) s = .next (phaseStart p s) :=
  (whenCore_ready hc _).trans (congrArg _ (if_neg (by rw [hs]; decide)))

theorem exec_phaseCentre (p : Fin 48) : exec (.carrierPeriodCentre (.phase p)) s = .next (phaseCentre p s) :=
  (whenCore_ready hc _).trans (congrArg _ (if_neg (by rw [hs]; decide)))

theorem exec_auxStart (x : Fin 8) : exec (.carrierPeriodStart (.aux x)) s = .next { s with pwm := auxStart x s.pwm } :=
  (whenCore_ready hc _).trans (congrArg _ (if_neg (by rw [hs]; decide)))

theorem exec_auxCentre (x : Fin 8) : exec (.carrierPeriodCentre (.aux x)) s = .next { s with pwm := auxCentre x s.pwm } :=
  (whenCore_ready hc _).trans (congrArg _ (if_neg (by rw [hs]; decide)))

theorem exec_phaseEdge (p : Fin 48) (on : Bool) : exec (.pwmCompareEdge (.phase p) on) s =
    .next { s with pwm := { s.pwm with ph := vmod s.pwm.ph p (phaseEdge on) } } :=
  (whenCore_ready hc _).trans (congrArg _ (if_pos hs))

theorem exec_auxEdge (x : Fin 8) (on : Bool) : exec (.pwmCompareEdge (.aux x) on) s =
    .next { s with pwm := { s.pwm with aux := vmod s.pwm.aux x (auxEdge on) } } :=
  (whenCore_ready hc _).trans (congrArg _ (if_pos hs))

/-- An edge that the period of phase `p` does not have changes nothing. -/
theorem exec_phaseEdge_none {p : Fin 48} {on : Bool} (h : (if on then hasOn s.pwm.ph[p].c else hasOff s.pwm.ph[p].c) = false) :
    exec (.pwmCompareEdge (.phase p) on) s = .next s := by
  rw [exec_phaseEdge hc hs, vmod_fixed _ _ (phaseEdge_none h)]

end

/-- Settles O28: each carrier event by what its reload takes, each edge by whether the period has it. -/
theorem carriersAndEdges : Obligations.CarriersAndEdges := by
  unfold Obligations.CarriersAndEdges
  refine ⟨fun p q d s hc hs hq hd => ⟨fun hr => ?_, fun hr => ?_⟩, fun p s hc => ⟨fun hs hsw ht => ⟨fun hw hh => ?_, fun hw hl => ?_,
    fun h1 h2 => exec_phaseEdge_none hc hs ?_, fun h1 h2 => exec_phaseEdge_none hc hs ?_⟩, fun hi hrise => ?_⟩, fun x s hc hs =>
    ⟨exec_refStart hc hs, ?_, ?_, fun hw => ?_, fun hw => ?_⟩⟩
  · have hmove : d = periodMove p s := by
      rw [hd, periodMove, vget_fin]
    obtain ⟨u, hu, hrest⟩ := phaseStart_shows p hq hr
    rw [hmove]
    exact ⟨u, (exec_phaseStart hc hs p).trans (congrArg _ hu), hrest⟩
  · obtain ⟨u, hu, hrest⟩ := phaseCentre_shows p hq hr
    exact ⟨u, (exec_phaseCentre hc hs p).trans (congrArg _ hu), hrest⟩
  · rw [exec_phaseEdge hc hs, vmod_fin, phaseEdge_on hsw ht hw hh]
  · rw [exec_phaseEdge hc hs, vmod_fin, phaseEdge_off hsw ht hw hl]
  · exact Bool.or_eq_false_iff.2 ⟨bne_eq_false_iff_eq.2 h1, bne_eq_false_iff_eq.2 h2⟩
  · exact decide_eq_false (by rintro (h | h) <;> omega)
  · refine ⟨_, exec_deadTimeExpiry hc p, rfl, fun k hk => ?_, ?_⟩
    · exact (getElem_vmod_fin ..).trans (if_neg (Ne.symm hk))
    · exact (getElem_vmod_fin ..).trans ((if_pos rfl).trans (deadTimeEnd_rise hrise))
  · obtain ⟨v, hv, hframe, hrest⟩ := auxStart_shows x s.pwm
    exact ⟨{ s with pwm := v }, by rw [exec_auxStart hc hs, hv],
      congrArg (fun v => { s with pwm := v }) hframe, hrest⟩
  · obtain ⟨v, hv, hframe, hrest⟩ := auxCentre_shows x s.pwm
    exact ⟨{ s with pwm := v }, by rw [exec_auxCentre hc hs, hv],
      congrArg (fun v => { s with pwm := v }) hframe, hrest⟩
  · have hon : hasOn s.pwm.aux[x].c = true := by simpa [hasOn] using hw
    rw [exec_auxEdge hc hs, vmod_fin, auxEdge_has (on := true) hon]
  · have hoff : hasOff s.pwm.aux[x].c = true := decide_eq_true hw
    rw [exec_auxEdge hc hs, vmod_fin, auxEdge_has (on := false) hoff]

end Sys2Proof.Machine
end

section
/-! Batons that come in (R196, R248, R249): what a port, an end, its evidence, its alarm and its grants make of one. -/
namespace Sys2Proof.Machine

/-! ## What a port makes of a ring's frame (R227, R230) -/

/-- The link ports and what the device sent are replaced. -/
def heard (ports : Vector LnkPort 50) (out : List Out) (s : State) : State :=
  { s with lnk := { s.lnk with port := ports }, out := out }

theorem portLosesLock_heard (p : Nat) (s : State) : ∃ ports out, portLosesLock p s = heard ports out s := by
  unfold portLosesLock
  split
  · exact ⟨_, _, rfl⟩
  · exact ⟨_, _, rfl⟩

/-- A receiver may count errors, and lose its lock and send to train again. -/
theorem takeRingErrors_heard (r : Nat) (port : PortEnd) (f : RxFrame) (len : Nat) (s : State) :
    ∃ ports out, takeRingErrors r port f len s = heard ports out s := by
  unfold takeRingErrors takeErrors
  dsimp only
  generalize errWindow _ _ = w
  split
  · obtain ⟨ports, out, heq⟩ := portLosesLock_heard (ringPort r port) (countErrors (ringPort r port)
      ((rxScan f).code + (rxMisplaced f len).toNat) (rxScan f).disp
      (modPort (ringPort r port) (fun x => { x with rd := (rxScan f).rd, errs := w.1 }) s))
    exact ⟨ports, out, heq⟩
  · exact ⟨_, _, rfl⟩

/-- A frame with no word in error, of the length its format gives it, leaves every port in its state. -/
theorem takeRingErrors_clean (r : Nat) (port : PortEnd) {f : RxFrame} {len : Nat} (s : State) (hclean : rxClean f len = true)
    (herr : (rxScan f).errAt = []) : ∃ ports, takeRingErrors r port f len s = heard ports s.out s ∧
      ∀ p, portUp (heard ports s.out s) p = portUp s p := by
  have hlen : (rxScan f).words.length = len := by
    simp only [rxClean, Bool.and_eq_true, beq_iff_eq] at hclean
    exact hclean.2
  have hplace : rxMisplaced f len = false := by simp [rxMisplaced, hlen]
  have htook : takeRingErrors r port f len s = portTook (ringPort r port) f s := by
    unfold takeRingErrors takeErrors
    rw [hplace, herr]
    rfl
  refine ⟨_, htook, fun p => ?_⟩
  have hst := (sent_portTook (ringPort r port) f s).st p
  exact congrArg (· == 4) hst

/-! ## What a change of spectroscopy or of an end leaves -/

/-- Spectroscopy may change, and nothing else. -/
def SpxOnly (s t : State) : Prop := t = { s with spx := t.spx }

theorem SpxOnly.trans {s t u : State} (h1 : SpxOnly s t) (h2 : SpxOnly t u) : SpxOnly s u := by
  unfold SpxOnly at *
  rw [h2, h1]

theorem SpxOnly.foldl {α : Type} {f : State → α → State} (h : ∀ s x, SpxOnly s (f s x)) :
    ∀ (l : List α) (s : State), SpxOnly s (l.foldl f s)
  | [], _ => rfl
  | x :: t, s => (h s x).trans (SpxOnly.foldl h t (f s x))

theorem spxOnly_modSpx (r a : Nat) (f : SpxNode → SpxNode) (s : State) : SpxOnly s (modSpx r a f s) := by
  unfold modSpx
  split <;> rfl

theorem modSpx_noCampaign {r a : Nat} {f : SpxNode → SpxNode} {s : State} (h : s.spx.camp = none) : modSpx r a f s = s := by
  unfold modSpx
  rw [h]

theorem endOf_modEnd_ne {d e : PortEnd} (h : d ≠ e) (f : RingEnd → RingEnd) (x : RingSt) : endOf (modEnd e f x) d = endOf x d := by
  cases e with
  | a =>
    cases d with
    | a => exact absurd rfl h
    | b => rfl
  | b =>
    cases d with
    | a => rfl
    | b => exact absurd rfl h

/-- What a change of an end keeps of that end it keeps of both. -/
theorem endOf_modEnd_keeps {α : Type} (g : RingEnd → α) {f : RingEnd → RingEnd} (hf : ∀ y, g (f y) = g y) (e d : PortEnd) (x : RingSt) :
    g (endOf (modEnd e f x) d) = g (endOf x d) := by
  obtain rfl | h := eq_or_ne d e
  · rw [endOf_modEnd, hf]
  · rw [endOf_modEnd_ne h]

/-! ## What leaves the batons on their way (R249, R264, R271, R272) -/

/-- Ring `r`, spectroscopy and the collector may change, and nothing else; the batons on their way, whether the ring is split and its
counters of failed and lost batons stay. -/
structure FlyKept (r : Nat) (s t : State) : Prop where
  frame : t = { s with rng := t.rng, spx := t.spx, flt := t.flt }
  other : ∀ q, q ≠ r → ringOf t q = ringOf s q
  fly   : ∀ d, (endOf (ringOf t r) d).fly = (endOf (ringOf s r) d).fly
  split : (ringOf t r).split = (ringOf s r).split
  hdr   : getF t.rng.r (F.RNG_RINGr_CNT_hdr_err_cnt r) = getF s.rng.r (F.RNG_RINGr_CNT_hdr_err_cnt r)
  lost  : getF t.rng.r (F.RNG_RINGr_CNT_lost_cnt r) = getF s.rng.r (F.RNG_RINGr_CNT_lost_cnt r)

section
variable {r : Nat} {s t u : State}

theorem FlyKept.refl (r : Nat) (s : State) : FlyKept r s s := ⟨rfl, fun _ _ => rfl, fun _ => rfl, rfl, rfl, rfl⟩

theorem FlyKept.trans (h1 : FlyKept r s t) (h2 : FlyKept r t u) : FlyKept r s u :=
  ⟨by rw [h2.frame, h1.frame], fun q hq => (h2.other q hq).trans (h1.other q hq), fun d => (h2.fly d).trans (h1.fly d),
    h2.split.trans h1.split, h2.hdr.trans h1.hdr, h2.lost.trans h1.lost⟩

theorem FlyKept.foldl {α : Type} {f : State → α → State} (h : ∀ s x, FlyKept r s (f s x)) :
    ∀ (l : List α) (s : State), FlyKept r s (l.foldl f s)
  | [], s => .refl r s
  | x :: t, s => (h s x).trans (FlyKept.foldl h t (f s x))

theorem flyKept_modRing (hr : r < 24) {f : RingSt → RingSt} {s : State}
    (hfly : ∀ d, (endOf (f (ringOf s r)) d).fly = (endOf (ringOf s r) d).fly) (hsplit : (f (ringOf s r)).split = (ringOf s r).split) :
    FlyKept r s (modRing r f s) := by
  have hself := ringOf_modRing_self s f hr
  exact ⟨rfl, fun _ hq => ringOf_modRing_ne _ _ hq, fun d => by rw [hself, hfly], by rw [hself, hsplit], rfl, rfl⟩

theorem flyKept_modEnd (hr : r < 24) {e : PortEnd} {f : RingEnd → RingEnd} (hfly : ∀ y, (f y).fly = y.fly) (s : State) :
    FlyKept r s (modRing r (modEnd e f) s) :=
  flyKept_modRing hr (fun d => endOf_modEnd_keeps RingEnd.fly hfly e d _) (by cases e <;> rfl)

theorem flyKept_raise (src unit sub : Nat) (s : State) : FlyKept r s (raise src unit sub s) :=
  ⟨rfl, fun _ _ => rfl, fun _ => rfl, rfl, rfl, rfl⟩

/-- A register change away from the ring's counters. -/
theorem flyKept_rngRegs {f : RegFile → RegFile} (hf : ∀ q, kvGet (f q) (R.RNG_RINGr_CNT r) = kvGet q (R.RNG_RINGr_CNT r)) (s : State) :
    FlyKept r s (rngRegs_ f s) :=
  ⟨rfl, fun _ _ => rfl, fun _ => rfl, rfl, getF_congr (hf _), getF_congr (hf _)⟩

theorem flyKept_dropUplink (hr : r < 24) (e : PortEnd) (s : State) : FlyKept r s (dropUplink r e s) := by
  have hend := flyKept_modEnd hr (e := e) (f := fun y => { y with rx := none, wait := 0 }) (fun _ => rfl) s
  have hcount (s : State) : FlyKept r s (ringCount (F.RNG_RINGr_CNT_wag_err_cnt r) s) :=
    ⟨rfl, fun _ _ => rfl, fun _ => rfl, rfl,
      getF_setF_bits _ _ (Nat.le_of_ble_eq_true rfl) (.inr (Nat.le_of_ble_eq_true rfl)),
      getF_setF_bits _ _ (Nat.le_of_ble_eq_true rfl) (.inl (Nat.le_of_ble_eq_true rfl))⟩
  exact (hend.trans (hcount _)).trans (flyKept_raise ..)

/-! ## Evidence (R271, R272) -/

theorem setBrk_regs (r : Nat) (e : PortEnd) (turn : Option Nat) (s : State) : ∃ g, setBrk r e turn s = rngRegs_ g s ∧
    ∀ q o, o ≠ R.RNG_RINGr_STAT r → kvGet (g q) o = kvGet q o := by
  unfold setBrk
  cases turn with
  | none => exact ⟨_, rfl, fun q o ho => by cases e <;> exact kvGet_setF_ne _ _ ho⟩
  | some t =>
    refine ⟨_, rfl, fun q o ho => ?_⟩
    cases e
    · exact (kvGet_setF_ne _ _ ho).trans (kvGet_setF_ne _ _ ho)
    · exact (kvGet_setF_ne _ _ ho).trans (kvGet_setF_ne _ _ ho)

theorem cnt_ne_stat (r : Nat) : R.RNG_RINGr_CNT r ≠ R.RNG_RINGr_STAT r := by
  unfold R.RNG_RINGr_CNT R.RNG_RINGr_STAT
  omega

theorem flyKept_setBrk (e : PortEnd) (turn : Option Nat) (s : State) : FlyKept r s (setBrk r e turn s) := by
  obtain ⟨g, heq, hg⟩ := setBrk_regs r e turn s
  rw [heq]
  exact flyKept_rngRegs (fun q => hg q _ (cnt_ne_stat r)) s

theorem flyKept_updateReach (hr : r < 24) (s : State) : FlyKept r s (updateReach r s) := by
  unfold updateReach
  dsimp only
  refine FlyKept.trans ?_ (FlyKept.foldl (fun s a => flyKept_raise 13 r a s) _ _)
  exact flyKept_modRing hr (fun d => by cases d <;> rfl) rfl

theorem flyKept_moveCarried (hr : r < 24) (s : State) : FlyKept r s (modRing r moveCarried s) :=
  flyKept_modRing hr (fun d => by cases d <;> rfl) rfl

/-- An end in a stride without evidence; `lost`: its baton never came back. -/
def unheard (lost : Bool) (y : RingEnd) : RingEnd :=
  { y with splitRun := 0, wholeRun := 0, lossRun := if lost then y.lossRun + 1 else y.lossRun }

/-- The end's runs are noted; after too many lost batons its break is not valid. -/
def unheardNoted (r : Nat) (e : PortEnd) (lost : Bool) (s : State) : State :=
  let t := modRing r (modEnd e (unheard lost)) s
  if lost && getF s.rng.r F.RNG_CFG_brk_confirm ≤ (endOf (ringOf t r) e).lossRun then setBrk r e none t else t

theorem noEvidence_eq (r : Nat) (e : PortEnd) (lost : Bool) (s : State) : noEvidence r e lost s =
    if (ringOf (unheardNoted r e lost s) r).split && brkOf s r e != brkOf (unheardNoted r e lost s) r e then
      modRing r moveCarried (updateReach r (unheardNoted r e lost s)) else unheardNoted r e lost s := rfl

theorem flyKept_unheardNoted (hr : r < 24) (e : PortEnd) (lost : Bool) (s : State) : FlyKept r s (unheardNoted r e lost s) := by
  have hend : FlyKept r s (modRing r (modEnd e (unheard lost)) s) := flyKept_modEnd (f := unheard lost) hr (fun _ => rfl) s
  unfold unheardNoted
  dsimp only
  split
  · exact hend.trans (flyKept_setBrk ..)
  · exact hend

theorem unheardNoted_flt (e : PortEnd) (lost : Bool) (s : State) : (unheardNoted r e lost s).flt = s.flt := by
  unfold unheardNoted
  dsimp only
  split
  · obtain ⟨g, heq, -⟩ := setBrk_regs r e none (modRing r (modEnd e (unheard lost)) s)
    rw [heq]
    rfl
  · rfl

theorem flyKept_noEvidence (hr : r < 24) (e : PortEnd) (lost : Bool) (s : State) : FlyKept r s (noEvidence r e lost s) := by
  have hnoted := flyKept_unheardNoted hr e lost s
  rw [noEvidence_eq]
  split
  · exact (hnoted.trans (flyKept_updateReach hr _)).trans (flyKept_moveCarried hr _)
  · exact hnoted

/-- Of a ring that is not split, and after a baton that came back, no node changes its end: no event is sent. -/
theorem noEvidence_flt (hr : r < 24) (e : PortEnd) {lost : Bool} {s : State} (h : (ringOf s r).split = false ∨ lost = false) :
    (noEvidence r e lost s).flt = s.flt := by
  have hsame : ((ringOf (unheardNoted r e lost s) r).split && brkOf s r e != brkOf (unheardNoted r e lost s) r e) = false := by
    obtain h | rfl := h
    · rw [(flyKept_unheardNoted hr e lost s).split, h, Bool.false_and]
    · have hbrk : brkOf (unheardNoted r e false s) r e = brkOf s r e := rfl
      rw [hbrk, bne_self_eq_false, Bool.and_false]
  rw [noEvidence_eq, if_neg (by rw [hsame]; decide), unheardNoted_flt]

/-! ## A launch given up (R249, R264) -/

/-- The grants of a launch given up are gone. -/
def grantsGone (r : Nat) (l : Launch) (s : State) : State := l.grants.foldl (grantGone r) s

/-- The oldest launch of an end leaves the list, its grants are gone. -/
def oldestGone (r : Nat) (e : PortEnd) (l : Launch) (rest : List Launch) (s : State) : State :=
  grantsGone r l (modRing r (modEnd e fun y => { y with fly := rest }) s)

theorem dropOldest_none {e : PortEnd} (h : (endOf (ringOf s r) e).fly = []) : dropOldest r e s = s := by
  unfold dropOldest
  rw [h]

theorem dropOldest_some {e : PortEnd} {l : Launch} {rest : List Launch} (h : (endOf (ringOf s r) e).fly = l :: rest) : dropOldest r e s =
    if spoilsUplink (oldestGone r e l rest s) (endOf (ringOf (oldestGone r e l rest s) r) e) l then
      dropUplink r e (oldestGone r e l rest s) else oldestGone r e l rest s := by
  unfold dropOldest
  rw [h]
  rfl

theorem spxOnly_grantGone (s : State) (g : Grant) : SpxOnly s (grantGone r s g) := by
  unfold grantGone
  split
  · exact spxOnly_modSpx ..
  · rfl

theorem spxOnly_grantsGone (l : Launch) (s : State) : SpxOnly s (grantsGone r l s) := .foldl spxOnly_grantGone _ s

theorem oldestGone_frame (e : PortEnd) (l : Launch) (rest : List Launch) (s : State) : oldestGone r e l rest s =
    { modRing r (modEnd e fun y => { y with fly := rest }) s with spx := (oldestGone r e l rest s).spx } := spxOnly_grantsGone ..

/-- The oldest launch of end `e` is off the way; what else may change is what `FlyKept` allows. -/
structure OldestDropped (r : Nat) (e : PortEnd) (s t : State) : Prop where
  frame : t = { s with rng := t.rng, spx := t.spx, flt := t.flt }
  other : ∀ q, q ≠ r → ringOf t q = ringOf s q
  fly   : (endOf (ringOf t r) e).fly = (endOf (ringOf s r) e).fly.tail
  split : (ringOf t r).split = (ringOf s r).split
  hdr   : getF t.rng.r (F.RNG_RINGr_CNT_hdr_err_cnt r) = getF s.rng.r (F.RNG_RINGr_CNT_hdr_err_cnt r)
  lost  : getF t.rng.r (F.RNG_RINGr_CNT_lost_cnt r) = getF s.rng.r (F.RNG_RINGr_CNT_lost_cnt r)

theorem OldestDropped.trans_kept {e : PortEnd} (h1 : OldestDropped r e s t) (h2 : FlyKept r t u) : OldestDropped r e s u :=
  ⟨by rw [h2.frame, h1.frame], fun q hq => (h2.other q hq).trans (h1.other q hq), (h2.fly e).trans h1.fly, h2.split.trans h1.split,
    h2.hdr.trans h1.hdr, h2.lost.trans h1.lost⟩

theorem ringOf_oldestGone (hr : r < 24) (e : PortEnd) (l : Launch) (rest : List Launch) (s : State) :
    ringOf (oldestGone r e l rest s) r = modEnd e (fun y => { y with fly := rest }) (ringOf s r) := by
  rw [oldestGone_frame]
  exact ringOf_modRing_self _ _ hr

theorem oldestDropped_oldestGone (hr : r < 24) {e : PortEnd} {l : Launch} {rest : List Launch}
    (hfly : (endOf (ringOf s r) e).fly = l :: rest) : OldestDropped r e s (oldestGone r e l rest s) := by
  have hself := ringOf_oldestGone hr e l rest s
  have hframe := oldestGone_frame (r := r) e l rest s
  refine ⟨?_, fun q hq => ?_, by rw [hself, endOf_modEnd, hfly]; rfl, by rw [hself]; cases e <;> rfl, ?_, ?_⟩
  · rw [hframe]
    rfl
  · rw [hframe]
    exact ringOf_modRing_ne _ _ hq
  · rw [hframe]
    rfl
  · rw [hframe]
    rfl

theorem oldestDropped_dropOldest (hr : r < 24) (e : PortEnd) (s : State) : OldestDropped r e s (dropOldest r e s) := by
  cases hfly : (endOf (ringOf s r) e).fly with
  | nil =>
    rw [dropOldest_none hfly]
    exact ⟨rfl, fun _ _ => rfl, by rw [hfly]; rfl, rfl, rfl, rfl⟩
  | cons l rest =>
    have hgone := oldestDropped_oldestGone hr hfly
    rw [dropOldest_some hfly]
    split
    · exact hgone.trans_kept (flyKept_dropUplink hr e _)
    · exact hgone

/-- Without uplink bits in progress nothing is reported. -/
theorem dropOldest_flt (hr : r < 24) {e : PortEnd} (hrx : (endOf (ringOf s r) e).rx = none) : (dropOldest r e s).flt = s.flt := by
  cases hfly : (endOf (ringOf s r) e).fly with
  | nil => rw [dropOldest_none hfly]
  | cons l rest =>
    have hnone : (endOf (ringOf (oldestGone r e l rest s) r) e).rx = none := by
      rw [ringOf_oldestGone hr, endOf_modEnd, hrx]
    have hspoils : spoilsUplink (oldestGone r e l rest s) (endOf (ringOf (oldestGone r e l rest s) r) e) l = false := by
      simp [spoilsUplink, hnone]
    rw [dropOldest_some hfly, if_neg (by rw [hspoils]; decide), oldestGone_frame]
    rfl

end

/-! ## Spectroscopy and the order of a command's events -/

theorem spxOnly_endIncomplete (r a : Nat) (s : State) : SpxOnly s (endIncomplete r a s) := by
  unfold endIncomplete
  split
  · rfl
  · split
    · rfl
    · exact SpxOnly.trans (t := spxCount _ (putStat _ _ _ s)) rfl (spxOnly_modSpx ..)

theorem spxOnly_endOpen (r a : Nat) (s : State) : SpxOnly s (endOpen r a s) := by
  unfold endOpen
  split
  · rfl
  · exact .foldl (fun s _ => spxOnly_endIncomplete r a s) _ s

theorem spxOnly_spxResync (r : Nat) (s : State) : SpxOnly s (spxResync r s) := by
  unfold spxResync
  split
  · rfl
  · dsimp only
    split
    · refine .foldl (fun s a => ?_) _ s
      split
      · rfl
      · exact ((spxOnly_endOpen r a s).trans (spxOnly_modSpx ..)).trans rfl
    · rfl

theorem spxResync_noCampaign {r : Nat} {s : State} (h : s.spx.camp = none) : spxResync r s = s := by
  unfold spxResync
  rw [h]

/-- One event has no order to be put in. -/
theorem sortEvents_single {n : Nat} {s : State} (h : s.flt.q9.length ≤ n + 1) : sortEvents n s = s := by
  have hsort : s.flt.q9.take n ++ (s.flt.q9.drop n).foldr insertEvent [] = s.flt.q9 := by
    have hlen : (s.flt.q9.drop n).length ≤ 1 := by
      rw [List.length_drop]
      omega
    conv_rhs => rw [← List.take_append_drop n s.flt.q9]
    match s.flt.q9.drop n, hlen with
    | [], _ => rfl
    | [e], _ => rfl
  unfold sortEvents
  rw [hsort]

theorem length_postEvent (src unit sub tag : Nat) (f : Flt) : (postEvent src unit sub tag f).q9.length ≤ f.q9.length + 1 := by
  unfold postEvent
  split
  · exact Nat.le_succ _
  · split
    · exact (List.length_append ..).le
    · exact Nat.le_succ _

/-! ## A baton that fails its check, or is lost (R248, R249) -/

/-- What a baton that comes in may change beside its alarm. -/
def BatonChanges (s t : State) : Prop :=
  t = { s with lnk := { s.lnk with port := t.lnk.port }, rng := t.rng, spx := t.spx, flt := t.flt, out := t.out }

theorem BatonChanges.trans {s t u : State} (h1 : BatonChanges s t) (h2 : BatonChanges t u) : BatonChanges s u := by
  unfold BatonChanges at *
  rw [h2, h1]

theorem SpxOnly.batonChanges {s t : State} (h : SpxOnly s t) : BatonChanges s t := by
  rw [SpxOnly] at h
  rw [h]
  rfl

section
variable {r : Nat} {s : State}

/-- The baton counts and is reported. -/
def failNoted (r : Nat) (port : PortEnd) (s : State) : State :=
  raise 9 r (endBit port) (ringCount (F.RNG_RINGr_CNT_hdr_err_cnt r) s)

/-- The baton's launch is given up, and its end has a stride without evidence. -/
def givenUp (r : Nat) (e : PortEnd) (lost : Bool) (s : State) : State := noEvidence r e lost (dropOldest r e s)

theorem oldestDropped_givenUp (hr : r < 24) (e : PortEnd) (lost : Bool) (s : State) : OldestDropped r e s (givenUp r e lost s) :=
  (oldestDropped_dropOldest hr e s).trans_kept (flyKept_noEvidence hr e lost _)

theorem givenUp_flt (hr : r < 24) {e : PortEnd} {lost : Bool} (h : (ringOf s r).split = false ∨ lost = false)
    (hrx : (endOf (ringOf s r) e).rx = none) : (givenUp r e lost s).flt = s.flt := by
  rw [givenUp, noEvidence_flt hr e (by rwa [(oldestDropped_dropOldest hr e s).split]), dropOldest_flt hr hrx]

/-- A data baton may come in at the port. -/
structure Expects (s : State) (r : Nat) (port : PortEnd) : Prop where
  runs : strides s = true
  up   : endUp s r port = true
  data : sendsData s r = true

theorem Expects.guard {port : PortEnd} (h : Expects s r port) :
    ¬(!strides s || !endUp s r port || !(sendsData s r || !((ringOf s r).a.fly ++ (ringOf s r).b.fly).isEmpty) : Bool) := by
  obtain ⟨hs, hu, hd⟩ := h
  simp [hs, hu, hd]

theorem exec_batonArrival (r : Fin 24) (port : PortEnd) (f : RxFrame) (s : State) :
    exec (.batonArrival r port f) s = .next (sortEvents s.flt.q9.length (spxResync r (batonArrival r port f s))) := rfl

theorem exec_batonLost (r : Fin 24) (port : PortEnd) (s : State) : exec (.batonLost r port) s = .next (batonLost r port s) := rfl

theorem batonArrival_failed {port : PortEnd} {f : RxFrame} (h : Expects s r port) (hok : batonOk f = false) : ∃ ports out,
    batonArrival r port f s = givenUp r (expectedEnd (ringOf s r) port) false (failNoted r port (heard ports out s)) := by
  obtain ⟨ports, out, hheard⟩ := takeRingErrors_heard r port f (batonLen f) s
  refine ⟨ports, out, ?_⟩
  unfold batonArrival
  rw [if_neg h.guard]
  dsimp only
  rw [hheard, if_pos (by rw [hok]; rfl)]
  rfl

theorem batonLost_waits {e : PortEnd} (h4 : ringState s r ≠ 4) (h : ∀ l ∈ (endOf (ringOf s r) e).fly.head?, strideAge s l.stride < 4) :
    batonLost r e s = s := by
  unfold batonLost
  rw [if_neg h4]
  cases hfly : (endOf (ringOf s r) e).fly with
  | nil => rfl
  | cons l rest =>
    rw [hfly] at h
    exact if_pos (h l rfl)

theorem batonLost_oldest {e : PortEnd} {l : Launch} {rest : List Launch} (h4 : ringState s r ≠ 4)
    (hfly : (endOf (ringOf s r) e).fly = l :: rest) (hage : 4 ≤ strideAge s l.stride) :
    batonLost r e s = givenUp r e true (ringCount (F.RNG_RINGr_CNT_lost_cnt r) s) := by
  unfold batonLost
  rw [if_neg h4, hfly]
  exact if_neg (not_lt.2 hage)

end

/-- The part of the statement about a baton that fails its check. -/
theorem batonArrival_failed_shows {r : Fin 24} {port : PortEnd} {f : RxFrame} {s : State} (h : Expects s r port) (hok : batonOk f = false) :
    ∃ t, exec (.batonArrival r port f) s = .next t ∧ BatonChanges s t ∧
      (endOf (ringOf t r) (expectedEnd (ringOf s r) port)).fly = (endOf (ringOf s r) (expectedEnd (ringOf s r) port)).fly.tail ∧
      getF t.rng.r (F.RNG_RINGr_CNT_hdr_err_cnt r) =
        min (getF s.rng.r (F.RNG_RINGr_CNT_hdr_err_cnt r) + 1) (2 ^ (F.RNG_RINGr_CNT_hdr_err_cnt r).width - 1) ∧
      ((endOf (ringOf s r) (expectedEnd (ringOf s r) port)).rx = none → t.flt = postEvent 9 r (endBit port) (strideTag s) s.flt) ∧
      ∀ q : Fin 24, q ≠ r → ringOf t q = ringOf s q := by
  obtain ⟨ports, out, heq⟩ := batonArrival_failed h hok
  have hdrop := oldestDropped_givenUp r.isLt (expectedEnd (ringOf s r) port) false (failNoted r port (heard ports out s))
  have hspx := spxOnly_spxResync r (givenUp r (expectedEnd (ringOf s r) port) false (failNoted r port (heard ports out s)))
  have hflt (hrx : (endOf (ringOf s r) (expectedEnd (ringOf s r) port)).rx = none) :
      (givenUp r (expectedEnd (ringOf s r) port) false (failNoted r port (heard ports out s))).flt =
        postEvent 9 r (endBit port) (strideTag s) s.flt := givenUp_flt r.isLt (.inr rfl) hrx
  generalize givenUp r (expectedEnd (ringOf s r) port) false (failNoted r port (heard ports out s)) = g at heq hdrop hspx hflt
  refine ⟨_, exec_batonArrival r port f s, ?_⟩
  rw [heq, hspx]
  refine ⟨?_, hdrop.fly, ?_, fun hrx => ?_, fun q hq => hdrop.other q (Fin.val_ne_of_ne hq)⟩
  · have hchanges : BatonChanges s g := by
      unfold BatonChanges
      rw [hdrop.frame]
      rfl
    exact (hchanges.trans (hspx ▸ hspx.batonChanges)).trans rfl
  · exact hdrop.hdr.trans (getF_incF _ _ _ (Nat.le_of_ble_eq_true rfl))
  · have hone : g.flt.q9.length ≤ s.flt.q9.length + 1 := by
      rw [hflt hrx]
      exact length_postEvent ..
    rw [sortEvents_single (by exact hone)]
    exact hflt hrx

end Sys2Proof.Machine
end

section
/-! Batons that are accepted: the evidence, the alarm and the runs they bring (R196, R248, R249, R269, R271). -/
namespace Sys2Proof.Machine

/-! ## A launch comes back with its evidence (R248, R271) -/

/-- The end's runs after evidence from a baton that came round (`looped`) or through. -/
def evidenceRuns (looped : Bool) (y : RingEnd) : RingEnd :=
  { y with splitRun := if looped then y.splitRun + 1 else 0, wholeRun := if looped then 0 else y.wholeRun + 1, lossRun := 0 }

/-- The travel time of a baton that went through from end `e`. -/
def travNoted (e : PortEnd) (time : Nat) (x : RingSt) : RingSt :=
  match e with
  | .a => { x with travA := time }
  | .b => { x with travB := time }

section
variable {r : Nat} {e : PortEnd} {s t u : State}

/-- The turn of a baton that came round; a node without an address leaves it not valid. -/
def turnNoted (r : Nat) (e : PortEnd) (anon : Bool) (turn : Nat) (s : State) : State :=
  let t := setBrk r e (some turn) s
  if anon then setBrk r e none t else t

theorem turnNoted_regs (r : Nat) (e : PortEnd) (anon : Bool) (turn : Nat) (s : State) : ∃ g, turnNoted r e anon turn s = rngRegs_ g s ∧
    ∀ q o, o ≠ R.RNG_RINGr_STAT r → kvGet (g q) o = kvGet q o := by
  obtain ⟨g, hg, hkeep⟩ := setBrk_regs r e (some turn) s
  unfold turnNoted
  dsimp only
  split
  · obtain ⟨g', hg', hkeep'⟩ := setBrk_regs r e none (setBrk r e (some turn) s)
    exact ⟨fun q => g' (g q), by rw [hg', hg]; rfl, fun q o ho => (hkeep' _ _ ho).trans (hkeep _ _ ho)⟩
  · exact ⟨g, hg, hkeep⟩

theorem evidence_looped (anon : Bool) (turn : Nat) (s : State) : evidence r e true anon turn s =
    let t := modRing r (modEnd e (evidenceRuns true)) s
    if (ringOf (turnNoted r e anon turn t) r).split && brkOf t r e != brkOf (turnNoted r e anon turn t) r e then
      modRing r moveCarried (updateReach r (turnNoted r e anon turn t)) else turnNoted r e anon turn t := rfl

/-- On a ring that is not split evidence notes the end's runs, and its turn in the ring's state register. -/
theorem evidence_whole (hr : r < 24) (looped anon : Bool) (turn : Nat) (h : (ringOf s r).split = false) :
    ∃ g, evidence r e looped anon turn s = rngRegs_ g (modRing r (modEnd e (evidenceRuns looped)) s) ∧
      ∀ q o, o ≠ R.RNG_RINGr_STAT r → kvGet (g q) o = kvGet q o := by
  cases looped with
  | false => exact ⟨id, rfl, fun _ _ _ => rfl⟩
  | true =>
    obtain ⟨g, hg, hkeep⟩ := turnNoted_regs r e anon turn (modRing r (modEnd e (evidenceRuns true)) s)
    have hsplit : (ringOf (rngRegs_ g (modRing r (modEnd e (evidenceRuns true)) s)) r).split = false := by
      have hself : ringOf (modRing r (modEnd e (evidenceRuns true)) s) r = _ := ringOf_modRing_self _ _ hr
      have hsame : (modEnd e (evidenceRuns true) (ringOf s r)).split = (ringOf s r).split := by cases e <;> rfl
      exact (congrArg RingSt.split hself).trans (hsame.trans h)
    refine ⟨g, ?_, hkeep⟩
    rw [evidence_looped]
    dsimp only
    rw [hg, hsplit, Bool.false_and]
    rfl

/-- What an accepted baton notes first of the ring it came back on: its queues, its nodes, the batons on their way, whether it is split and
the shown `hard` alarm stay. -/
structure RingNoted (r : Nat) (s t : State) : Prop where
  frame : t = { s with rng := t.rng }
  other : ∀ q, q ≠ r → ringOf t q = ringOf s q
  q4    : (ringOf t r).q4 = (ringOf s r).q4
  q5    : (ringOf t r).q5 = (ringOf s r).q5
  nodes : (ringOf t r).nodes = (ringOf s r).nodes
  split : (ringOf t r).split = (ringOf s r).split
  fly   : ∀ d, (endOf (ringOf t r) d).fly = (endOf (ringOf s r) d).fly
  hard  : flag t.rng.r (F.RNG_RINGr_ALM_hard r) = flag s.rng.r (F.RNG_RINGr_ALM_hard r)

theorem RingNoted.trans (h1 : RingNoted r s t) (h2 : RingNoted r t u) : RingNoted r s u :=
  ⟨by rw [h2.frame, h1.frame], fun q hq => (h2.other q hq).trans (h1.other q hq), h2.q4.trans h1.q4, h2.q5.trans h1.q5,
    h2.nodes.trans h1.nodes, h2.split.trans h1.split, fun d => (h2.fly d).trans (h1.fly d), h2.hard.trans h1.hard⟩

theorem ringNoted_rngRegs {g : RegFile → RegFile} (hg : ∀ q, flag (g q) (F.RNG_RINGr_ALM_hard r) = flag q (F.RNG_RINGr_ALM_hard r))
    (s : State) : RingNoted r s (rngRegs_ g s) := ⟨rfl, fun _ _ => rfl, rfl, rfl, rfl, rfl, fun _ => rfl, hg _⟩

theorem ringNoted_modRing (hr : r < 24) {g : RingSt → RingSt}
    (hx : ∀ x, (g x).q4 = x.q4 ∧ (g x).q5 = x.q5 ∧ (g x).nodes = x.nodes ∧ (g x).split = x.split)
    (hfly : ∀ x d, (endOf (g x) d).fly = (endOf x d).fly) (s : State) :
    RingNoted r s (modRing r g s) := by
  have hself := ringOf_modRing_self s g hr
  obtain ⟨hq4, hq5, hnodes, hsplit⟩ := hx (ringOf s r)
  exact ⟨rfl, fun _ hq => ringOf_modRing_ne _ _ hq, by rw [hself, hq4], by rw [hself, hq5], by rw [hself, hnodes],
    by rw [hself, hsplit], fun d => by rw [hself, hfly], rfl⟩

theorem ringNoted_evidence (hr : r < 24) (e : PortEnd) (looped anon : Bool) (turn : Nat) (h : (ringOf s r).split = false) :
    RingNoted r s (evidence r e looped anon turn s) := by
  obtain ⟨g, heq, hg⟩ := evidence_whole (e := e) hr looped anon turn h
  have hruns : RingNoted r s (modRing r (modEnd e (evidenceRuns looped)) s) :=
    ringNoted_modRing hr (fun _ => by cases e <;> exact ⟨rfl, rfl, rfl, rfl⟩)
      (fun x d => endOf_modEnd_keeps (f := evidenceRuns looped) RingEnd.fly (fun _ => rfl) e d x) s
  have halm : R.RNG_RINGr_ALM r ≠ R.RNG_RINGr_STAT r := by
    unfold R.RNG_RINGr_ALM R.RNG_RINGr_STAT
    omega
  rw [heq]
  exact hruns.trans (ringNoted_rngRegs (fun q => congrArg (· != 0) (getF_congr (hg q _ halm))) _)

theorem ringNoted_travNoted (hr : r < 24) (e : PortEnd) (time : Nat) (s : State) : RingNoted r s (modRing r (travNoted e time) s) :=
  ringNoted_modRing hr (fun _ => by cases e <;> exact ⟨rfl, rfl, rfl, rfl⟩) (fun _ d => by cases e <;> cases d <;> rfl) s

/-- The evidence of an accepted baton and, of one that went through, its travel time. -/
def evidenceTaken (r : Nat) (e port : PortEnd) (f : RxFrame) (s : State) : State :=
  let t := evidence r e (port == e) (((rxWords f).getD 2 0).getLsbD 12) (((rxWords f).getD 2 0).toNat % 256) s
  if port == e || (ringOf t r).split then t else modRing r (travNoted e f.time) t

theorem ringNoted_evidenceTaken (hr : r < 24) (port : PortEnd) (f : RxFrame) (h : (ringOf s r).split = false) :
    RingNoted r s (evidenceTaken r e port f s) := by
  have hev := ringNoted_evidence hr e (port == e) (((rxWords f).getD 2 0).getLsbD 12) (((rxWords f).getD 2 0).toNat % 256) h
  unfold evidenceTaken
  dsimp only
  split
  · exact hev
  · exact hev.trans (ringNoted_travNoted hr ..)

/-- The launches of an end without those of the baton's stride. -/
def offTheWay (f : RxFrame) (y : RingEnd) : RingEnd :=
  { y with fly := y.fly.filter fun l => l.stride % 256 != ((rxWords f).getD 0 0).toNat % 256 }

/-- The grants of a launch with their `ack` bits, and their words. -/
def runsTaken (r : Nat) (e : PortEnd) (l : Launch) (f : RxFrame) (s : State) : State :=
  takeRuns r (((rxWords f).getD 0 0).toNat % 256) e (l.grants.zip (acksOf (rxWords f))) ((rxWords f).drop (6 + l.grants.length)) s

/-- The baton passes its check, with no word in error, is of end `e` and came back where it belongs; `l`, the only launch of the end,
is its own and asked for no uplink bit, and the ring is not split. -/
structure Accepted (s : State) (r : Nat) (e port : PortEnd) (f : RxFrame) (l : Launch) : Prop where
  ok     : batonOk f = true
  clean  : (rxScan f).errAt = []
  sender : ((rxWords f).getD 0 0).toNat / 8192 = endBit e
  route  : ((rxWords f).getD 2 0).getLsbD 15 = (port == e)
  whole  : (ringOf s r).split = false
  fly    : (endOf (ringOf s r) e).fly = [l]
  own    : l.stride % 256 = ((rxWords f).getD 0 0).toNat % 256
  noWag  : l.wagEn = false

theorem rxClean_of_batonOk {f : RxFrame} (h : batonOk f = true) : rxClean f (batonLen f) = true := by
  unfold batonOk at h
  simp only [Bool.and_eq_true] at h
  exact h.1.1

theorem batonArrival_accepted {port : PortEnd} {f : RxFrame} {l : Launch} (h : Expects s r port) (ha : Accepted s r e port f l) :
    ∃ ports, batonArrival r port f s = runsTaken r e l f
      (evidenceTaken r e port f (takeAlarm r port ((rxWords f).getD 3 0) (modRing r (modEnd e (offTheWay f)) (heard ports s.out s)))) := by
  obtain ⟨hok, hclean, hsender, hroute, hwhole, hfly, hown, hwag⟩ := ha
  obtain ⟨ports, hheard, -⟩ := takeRingErrors_clean r port s (rxClean_of_batonOk hok) hclean
  refine ⟨ports, ?_⟩
  have hkind : ¬((rxWords f).getD 0 0).toNat / 16384 ≠ 0 := by
    cases e <;> simp only [endBit] at hsender <;> omega
  have hend : (if ((rxWords f).getD 0 0).toNat / 8192 % 2 = 1 then PortEnd.b else PortEnd.a) = e := by
    rw [hsender]
    cases e <;> rfl
  have hfly' : (endOf (ringOf (heard ports s.out s) r) e).fly = [l] := hfly
  unfold batonArrival
  rw [if_neg h.guard]
  dsimp only
  rw [hheard, if_neg (by rw [hok]; decide), if_neg hkind, hend, hroute, hfly']
  have hfind : [l].find? (fun l => l.stride % 256 == ((rxWords f).getD 0 0).toNat % 256) = some l := by
    simp [hown]
  rw [hfind]
  dsimp only
  rw [if_neg (by simp), hwag]
  rfl

end

/-! ## The alarm field (R36, R196, R251) -/

section
variable {r : Nat} {e : PortEnd} {s : State}

/-- Without an alarm the kinds stay as they are. -/
theorem ringNoted_noAlarm (port : PortEnd) (s : State) : RingNoted r s (takeAlarm r port 0 s) :=
  ringNoted_rngRegs (g := fun q => setF q (F.RNG_RINGr_ALM_kinds r) (getF q (F.RNG_RINGr_ALM_kinds r) ||| 0))
    (fun _ => flag_setF_bits _ _ (Nat.le_of_ble_eq_true rfl) (.inl (Nat.le_of_ble_eq_true rfl))) s

/-- The field that shows a `hard` alarm's node. -/
def alarmNode (r : Nat) : PortEnd → Fld
  | .a => F.RNG_RINGr_ALM_node_a r
  | .b => F.RNG_RINGr_ALM_node_b r

/-- The alarm's kinds, and the `hard` alarm with its node. -/
def alarmRegs (r : Nat) (port : PortEnd) (al : Half) (q : RegFile) : RegFile :=
  let q := setF q (F.RNG_RINGr_ALM_kinds r) (getF q (F.RNG_RINGr_ALM_kinds r) ||| al.toNat / 256 % 64)
  let q := setF (setFlag q (F.RNG_RINGr_ALM_hard r)) (alarmNode r port) (al.toNat % 256)
  if al.getLsbD 14 then setFlag q (F.RNG_RINGr_ALM_multi r) else q

theorem hard_alarmRegs (r : Nat) (port : PortEnd) (al : Half) (q : RegFile) :
    flag (alarmRegs r port al q) (F.RNG_RINGr_ALM_hard r) = true := by
  have hset (q : RegFile) : flag (setFlag q (F.RNG_RINGr_ALM_hard r)) (F.RNG_RINGr_ALM_hard r) = true :=
    flag_setFlag_self _ _ (Nat.le_of_ble_eq_true rfl) (Nat.le_of_ble_eq_true rfl)
  have hnode (q : RegFile) (v : Nat) : flag (setF q (alarmNode r port) v) (F.RNG_RINGr_ALM_hard r) =
      flag q (F.RNG_RINGr_ALM_hard r) := by
    cases port with
    | a => exact flag_setF_bits _ _ (Nat.le_of_ble_eq_true rfl) (.inl (Nat.le_of_ble_eq_true rfl))
    | b => exact flag_setF_bits _ _ (Nat.le_of_ble_eq_true rfl) (.inl (Nat.le_of_ble_eq_true rfl))
  unfold alarmRegs
  dsimp only
  split
  · rw [flag_setFlag_bits _ (Nat.le_of_ble_eq_true rfl) (.inl (Nat.le_of_ble_eq_true rfl)), hnode, hset]
  · rw [hnode, hset]

/-- The node's lap is held for a `hard` alarm. -/
def hardLapped (node : Nat) (x : RingSt) : RingSt := modNode node (fun n => { n with hardLap := true }) x

/-- The ring shows the alarm, and reports those of its kinds that are errors of the node or of the baton. -/
def alarmShown (r : Nat) (port : PortEnd) (al : Half) (s : State) : State :=
  let s := if al.getLsbD 9 then raise 10 r 255 s else s
  let s := if al.getLsbD 8 then raise 10 r 255 s else s
  modRing r (hardLapped (al.toNat % 256)) (rngRegs_ (alarmRegs r port al) s)

theorem alarmShown_eq (port : PortEnd) (al : Half) (s : State) : ∃ flt, alarmShown r port al s =
    modRing r (hardLapped (al.toNat % 256)) (rngRegs_ (alarmRegs r port al) { s with flt := flt }) := by
  unfold alarmShown
  dsimp only
  split
  · split
    · exact ⟨_, rfl⟩
    · exact ⟨_, rfl⟩
  · split
    · exact ⟨_, rfl⟩
    · exact ⟨_, rfl⟩

/-- The ring latch of every phase of the ring's bank. -/
def ringLatched (r : Nat) (s : State) : State :=
  match ringBank s.img.str r with
  | some b => latchOn (bankPhases s.img.str b) (fun x => { x with ring := true }) s
  | none => s

/-- A `hard` alarm is kept for the collector and reported. -/
def hardReported (r node : Nat) (s : State) : State :=
  raise (64 + r) r node { s with flt := { s.flt with hardNow := s.flt.hardNow ||| (1 <<< r) } }

theorem hard_takeAlarm {al : Half} (port : PortEnd) (s : State) (h : al.getLsbD 15 = true) :
    takeAlarm r port al s = hardReported r (al.toNat % 256) (ringLatched r (alarmShown r port al s)) := by
  unfold takeAlarm
  dsimp only
  rw [h]
  rfl

/-- What a `hard` alarm of ring `r` does: it is shown, and the ring latch is set in the phases of the ring's bank. -/
structure AlarmTaken (r : Nat) (s t : State) : Prop where
  frame  : t = { s with
    rng := t.rng, pwm := { s.pwm with ph := t.pwm.ph }, flt := t.flt
    acq := { s.acq with strs := t.acq.strs }, hst := t.hst, two := t.two, out := t.out }
  other  : ∀ q, q ≠ r → ringOf t q = ringOf s q
  split  : (ringOf t r).split = (ringOf s r).split
  fly    : ∀ d, (endOf (ringOf t r) d).fly = (endOf (ringOf s r) d).fly
  hard   : flag t.rng.r (F.RNG_RINGr_ALM_hard r) = true
  latch  : ∀ b, ringBank s.img.str r = some b → ∀ x : Fin 48, x.val ∈ bankPhases s.img.str b →
    t.pwm.ph[x].ring = true ∧ tripped t.pwm.ph[x] = true
  others : ∀ x : Fin 48, (∀ b, ringBank s.img.str r = some b → x.val ∉ bankPhases s.img.str b) → t.pwm.ph[x] = s.pwm.ph[x]

theorem latchOn_ring {l : List Nat} {x : Fin 48} (h : x.val ∈ l) (s : State) :
    (latchOn l (fun x => { x with ring := true }) s).pwm.ph[x].ring = true ∧
      tripped (latchOn l (fun x => { x with ring := true }) s).pwm.ph[x] = true := by
  rw [latchOn_mem _ _ _ _ h]
  refine ⟨?_, ?_⟩
  · obtain ⟨_, _, _, _, heq⟩ := settlePhase_latches s.pwm.r (opState s == 6) x s.pwm.ph[x] { s.pwm.ph[x] with ring := true }
    rw [heq]
  · rw [tripped_settlePhase]
    simp [tripped]

/-- The frame of a change of latches. -/
theorem latchOn_frame (l : List Nat) (g : PhaseCh → PhaseCh) (s : State) : latchOn l g s = { s with
    pwm := { s.pwm with ph := (latchOn l g s).pwm.ph }, acq := { s.acq with strs := (latchOn l g s).acq.strs },
    hst := (latchOn l g s).hst, two := (latchOn l g s).two, out := (latchOn l g s).out } := by
  have htrip : TripChanges s (latchOn l g s) := tripChanges_latchOn ..
  have hpwm : (latchOn l g s).pwm = { s.pwm with ph := (latchOn l g s).pwm.ph } := by
    unfold latchOn
    rw [latchOp_pwm]
  have hacq : (latchOn l g s).acq = { s.acq with strs := (latchOn l g s).acq.strs } := by
    unfold latchOn
    obtain h | h := latchOp_acq (fun p x => if l.contains p then g x else x) s
    · rw [h]
    · rw [h]
      rfl
  generalize latchOn l g s = t at htrip hpwm hacq
  rw [htrip]
  dsimp only
  rw [← hpwm, ← hacq]

theorem ringLatched_frame (r : Nat) (s : State) : ringLatched r s = { s with
    pwm := { s.pwm with ph := (ringLatched r s).pwm.ph }, acq := { s.acq with strs := (ringLatched r s).acq.strs },
    hst := (ringLatched r s).hst, two := (ringLatched r s).two, out := (ringLatched r s).out } := by
  unfold ringLatched
  split
  · exact latchOn_frame ..
  · rfl

theorem ringLatched_latch {b : Nat} {x : Fin 48} (hb : ringBank s.img.str r = some b) (hx : x.val ∈ bankPhases s.img.str b) :
    (ringLatched r s).pwm.ph[x].ring = true ∧ tripped (ringLatched r s).pwm.ph[x] = true := by
  unfold ringLatched
  rw [hb]
  exact latchOn_ring hx s

theorem ringLatched_others {x : Fin 48} (h : ∀ b, ringBank s.img.str r = some b → x.val ∉ bankPhases s.img.str b) :
    (ringLatched r s).pwm.ph[x] = s.pwm.ph[x] := by
  unfold ringLatched
  split
  next b hb => exact latchOn_notMem _ _ _ _ (h b hb)
  next => rfl

/-- The ring shows a `hard` alarm. -/
structure AlarmNoted (r : Nat) (s t : State) : Prop where
  frame : t = { s with rng := t.rng, flt := t.flt }
  other : ∀ q, q ≠ r → ringOf t q = ringOf s q
  split : (ringOf t r).split = (ringOf s r).split
  fly   : ∀ d, (endOf (ringOf t r) d).fly = (endOf (ringOf s r) d).fly
  hard  : flag t.rng.r (F.RNG_RINGr_ALM_hard r) = true

theorem alarmNoted_alarmShown (hr : r < 24) (port : PortEnd) (al : Half) (s : State) : AlarmNoted r s (alarmShown r port al s) := by
  obtain ⟨flt, heq⟩ := alarmShown_eq (r := r) port al s
  have hself : ringOf (alarmShown r port al s) r = hardLapped (al.toNat % 256) (ringOf s r) := by
    rw [heq]
    exact ringOf_modRing_self _ _ hr
  refine ⟨by rw [heq]; rfl, fun q hq => ?_, by rw [hself]; rfl, fun d => by rw [hself]; cases d <;> rfl, ?_⟩
  · rw [heq]
    exact ringOf_modRing_ne _ _ hq
  · rw [heq]
    exact hard_alarmRegs ..

theorem alarmTaken_takeAlarm (hr : r < 24) {al : Half} (port : PortEnd) (s : State) (h : al.getLsbD 15 = true) :
    AlarmTaken r s (takeAlarm r port al s) := by
  obtain ⟨hframe, hother, hsplit, hfly, hhard⟩ := alarmNoted_alarmShown hr port al s
  rw [hard_takeAlarm port s h]
  generalize alarmShown r port al s = u at hframe hother hsplit hfly hhard
  obtain ⟨rng, flt, rfl⟩ : ∃ rng flt, u = { s with rng := rng, flt := flt } := ⟨_, _, hframe⟩
  have hlatch := ringLatched_frame r { s with rng := rng, flt := flt }
  have hmem (b : Nat) (hb : ringBank s.img.str r = some b) (x : Fin 48) (hx : x.val ∈ bankPhases s.img.str b) :=
    ringLatched_latch (s := { s with rng := rng, flt := flt }) hb hx
  have hothers (x : Fin 48) (hx : ∀ b, ringBank s.img.str r = some b → x.val ∉ bankPhases s.img.str b) :=
    ringLatched_others (s := { s with rng := rng, flt := flt }) hx
  generalize ringLatched r { s with rng := rng, flt := flt } = v at hlatch hmem hothers
  have hrng : v.rng = rng := by rw [hlatch]
  have hring (q : Nat) : ringOf (hardReported r (al.toNat % 256) v) q = ringOf { s with rng := rng, flt := flt } q :=
    congrArg (fun g : Rng => vget g.ring q {}) hrng
  refine ⟨?_, fun q hq => (hring q).trans (hother q hq), (congrArg RingSt.split (hring r)).trans hsplit, fun d => ?_, ?_, hmem, hothers⟩
  · rw [hlatch]
    rfl
  · rw [hring]
    exact hfly d
  · rw [← hhard, ← hrng]
    rfl

end

/-! ## Runs of filled grants, and grants that come back empty (R248, R269, R284, R313) -/

section
variable {r : Nat} {s t u : State}

/-- The ring words of a filled grant. -/
def runWords (r tag : Nat) (g : Grant) (ws : List Half) (s : State) : List RingWord :=
  let N := (nodeAt (ringOf s r) g.node).cells
  let st := ws.getD 0 0
  let stream : Bool := decide (g.kind = 1 ∧ g.len = 2 * N)
  let sets := match spxNodeOf s r g.node with
    | some x => x.sets
    | none => []
  let flags := fun (i : Nat) =>
    if g.kind = 0 then (st.getLsbD 15).toNat + 2 * (st.getLsbD 14).toNat
    else if g.kind = 2 then 4 else if stream && N ≤ i then 1 else 0
  ws.mapIdx fun i w => { val := w, node := g.node, idx := pointOf g.kind g.len N i st (toneBin s), tag := tag, flags := flags i,
                         smp := sets.getD (if stream && N ≤ i then 1 else 0) 0 }

theorem runWords_val (r tag : Nat) (g : Grant) (ws : List Half) (s : State) : (runWords r tag g ws s).map (·.val) = ws := by
  unfold runWords
  dsimp only
  rw [List.mapIdx_eq_zipIdx_map, List.map_map]
  exact List.zipIdx_map_fst 0 ws

theorem runWords_of (r tag : Nat) (g : Grant) (ws : List Half) (s : State) : ∀ x ∈ runWords r tag g ws s, x.node = g.node ∧ x.tag = tag := by
  intro x hx
  obtain ⟨i, hi, rfl⟩ := List.mem_mapIdx.1 hx
  exact ⟨rfl, rfl⟩

/-- The words enter the queue of their kind. -/
def queueRun (g : Grant) (words : List RingWord) (x : RingSt) : RingSt :=
  if g.kind = 1 then { x with q5 := x.q5 ++ words } else { x with q4 := x.q4 ++ words }

/-- A diagnostic request whose run came is done. -/
def requestDone (g : Grant) (x : RingSt) : RingSt := if g.kind = 2 then { x with reqs := x.reqs.filter fun q => q.g != g } else x

/-- The node answered its grant. -/
def nodeAnswered (g : Grant) (x : RingSt) : RingSt :=
  modNode g.node (fun n => { n with silent := false, acked := n.acked || g.kind == 0, noAck := if g.kind = 0 then 0 else n.noAck })
    (requestDone g x)

theorem takeRun_eq (r tag : Nat) (g : Grant) (ws : List Half) (s : State) : takeRun r tag g ws s =
    let t := modRing r (nodeAnswered g) (modRing r (queueRun g (runWords r tag g ws s)) s)
    if decide (g.kind = 1 ∧ g.len = 2 * (nodeAt (ringOf s r) g.node).cells) then
      modSpx r g.node (fun x => if 2 ≤ x.sets.length then popSets x else x) t else t := rfl

/-- A single grant of an accepted baton of end `e`, with its words `ws`. -/
structure GrantTaken (r tag : Nat) (e : PortEnd) (g : Grant) (ack : Bool) (ws : List Half) (s t : State) : Prop where
  frame : t = { s with rng := t.rng, spx := t.spx }
  other : ∀ q, q ≠ r → ringOf t q = ringOf s q
  spx   : s.spx.camp = none → t.spx = s.spx
  fly   : ∀ d, (endOf (ringOf t r) d).fly = (endOf (ringOf s r) d).fly
  q4    : ack = false ∨ g.kind = 1 → (ringOf t r).q4 = (ringOf s r).q4
  q5    : ack = false ∨ g.kind ≠ 1 → (ringOf t r).q5 = (ringOf s r).q5
  run   : ack = true → ∃ l : List RingWord, l.map (·.val) = ws ∧ (∀ x ∈ l, x.node = g.node ∧ x.tag = tag) ∧
    (g.kind = 1 → (ringOf t r).q5 = (ringOf s r).q5 ++ l) ∧ (g.kind ≠ 1 → (ringOf t r).q4 = (ringOf s r).q4 ++ l)
  waits : ack = false → g.kind = 0 → g ∈ (endOf (ringOf t r) ((nodeAt (ringOf s r) g.node).serve.getD e)).carried

/-- What spectroscopy notes of a campaign node concerns no ring. -/
theorem GrantTaken.modSpx {tag : Nat} {e : PortEnd} {g : Grant} {ack : Bool} {ws : List Half} (h : GrantTaken r tag e g ack ws s t)
    (a : Nat) (f : SpxNode → SpxNode) : GrantTaken r tag e g ack ws s (modSpx r a f t) := by
  obtain ⟨hframe, hother, hspx, hfly, hq4, hq5, hrun, hwaits⟩ := h
  have hf : SpxOnly t (Machine.modSpx r a f t) := spxOnly_modSpx ..
  have hnone (hc : s.spx.camp = none) : (Machine.modSpx r a f t).spx = s.spx := by
    rw [modSpx_noCampaign (by rw [hspx hc, hc]), hspx hc]
  generalize Machine.modSpx r a f t = v at hf hnone
  obtain ⟨spx, rfl⟩ : ∃ spx, v = { t with spx := spx } := ⟨_, hf⟩
  exact ⟨by rw [hframe], hother, hnone, hfly, hq4, hq5, hrun, hwaits⟩

theorem grantTaken_takeRun (hr : r < 24) (tag : Nat) (e : PortEnd) (g : Grant) (ws : List Half) (s : State) :
    GrantTaken r tag e g true ws s (takeRun r tag g ws s) := by
  have hself : ringOf (modRing r (nodeAnswered g) (modRing r (queueRun g (runWords r tag g ws s)) s)) r =
      nodeAnswered g (queueRun g (runWords r tag g ws s) (ringOf s r)) := by
    rw [ringOf_modRing_self _ _ hr, ringOf_modRing_self _ _ hr]
  have hanswered (x : RingSt) : (nodeAnswered g x).q4 = x.q4 ∧ (nodeAnswered g x).q5 = x.q5 ∧
      ∀ d, (endOf (nodeAnswered g x) d).fly = (endOf x d).fly := by
    have hdone : (requestDone g x).q4 = x.q4 ∧ (requestDone g x).q5 = x.q5 ∧ (requestDone g x).a = x.a ∧ (requestDone g x).b = x.b := by
      unfold requestDone
      split
      · exact ⟨rfl, rfl, rfl, rfl⟩
      · exact ⟨rfl, rfl, rfl, rfl⟩
    obtain ⟨hq4, hq5, ha, hb⟩ := hdone
    exact ⟨hq4, hq5, fun d => by cases d <;> [exact congrArg RingEnd.fly ha; exact congrArg RingEnd.fly hb]⟩
  obtain ⟨hq4, hq5, hfly⟩ := hanswered (queueRun g (runWords r tag g ws s) (ringOf s r))
  have hring : GrantTaken r tag e g true ws s (modRing r (nodeAnswered g) (modRing r (queueRun g (runWords r tag g ws s)) s)) := by
    refine ⟨rfl, fun q hq => ?_, fun _ => rfl, fun d => ?_, fun h => ?_, fun h => ?_,
      fun _ => ⟨_, runWords_val r tag g ws s, runWords_of r tag g ws s, fun h => ?_, fun h => ?_⟩, nofun⟩
    · rw [ringOf_modRing_ne _ _ hq, ringOf_modRing_ne _ _ hq]
    · rw [hself, hfly]
      unfold queueRun
      split
      · cases d <;> rfl
      · cases d <;> rfl
    · obtain h | h := h
      · cases h
      · rw [hself, hq4, queueRun, if_pos h]
    · obtain h | h := h
      · cases h
      · rw [hself, hq5, queueRun, if_neg h]
    · rw [hself, hq5, queueRun, if_pos h]
    · rw [hself, hq4, queueRun, if_neg h]
  rw [takeRun_eq]
  dsimp only
  split
  · exact hring.modSpx ..
  · exact hring

theorem grantTaken_grantBack (hr : r < 24) (tag : Nat) (e : PortEnd) {g : Grant} (ws : List Half) (s : State) :
    GrantTaken r tag e g false ws s (grantBack r e s g) := by
  have hkept {f : RingSt → RingSt} (hf : ∀ x, (f x).q4 = x.q4 ∧ (f x).q5 = x.q5 ∧ ∀ d, (endOf (f x) d).fly = (endOf x d).fly)
      (hw : g.kind = 0 → g ∈ (endOf (f (ringOf s r)) ((nodeAt (ringOf s r) g.node).serve.getD e)).carried) :
      GrantTaken r tag e g false ws s (modRing r f s) := by
    obtain ⟨hq4, hq5, hfly⟩ := hf (ringOf s r)
    have hself := ringOf_modRing_self s f hr
    exact ⟨rfl, fun _ hq => ringOf_modRing_ne _ _ hq, fun _ => rfl, fun d => by rw [hself, hfly], fun _ => by rw [hself, hq4],
      fun _ => by rw [hself, hq5], nofun, fun _ h => by rw [hself]; exact hw h⟩
  unfold grantBack
  dsimp only
  split
  next h0 =>
    refine hkept (fun x => ?_) (fun _ => ?_)
    · refine ⟨?_, ?_, fun d => endOf_modEnd_keeps (f := fun y => { y with carried := y.carried ++ [g] }) RingEnd.fly (fun _ => rfl) _ d x⟩
      · cases (nodeAt x g.node).serve.getD e <;> rfl
      · cases (nodeAt x g.node).serve.getD e <;> rfl
    · rw [endOf_modEnd]
      exact List.mem_append_right _ (List.mem_singleton_self g)
  next h0 =>
    split
    · refine GrantTaken.modSpx ?_ g.node _
      refine hkept (fun x => ⟨rfl, rfl, fun d => ?_⟩) (fun h => absurd h h0)
      cases d <;> rfl
    · split
      · refine hkept (fun x => ⟨rfl, rfl, fun d => ?_⟩) (fun h => absurd h h0)
        cases d <;> rfl
      · exact ⟨rfl, fun _ _ => rfl, fun _ => rfl, fun _ => rfl, fun _ => rfl, fun _ => rfl, nofun, fun _ h => absurd h h0⟩

theorem grantTaken_runsTaken (hr : r < 24) (e : PortEnd) {l : Launch} {f : RxFrame} {g : Grant} {ack : Bool} (hl : l.grants = [g])
    (hack : acksOf (rxWords f) = [ack]) (hk : g.kind ≤ 2) (s : State) :
    GrantTaken r (((rxWords f).getD 0 0).toNat % 256) e g ack (((rxWords f).drop 7).take g.len) s (runsTaken r e l f s) := by
  have hone : runsTaken r e l f s = if ack && g.kind != 3 then
      takeRun r (((rxWords f).getD 0 0).toNat % 256) g (((rxWords f).drop 7).take g.len) s else grantBack r e s g := by
    unfold runsTaken
    rw [hl, hack]
    rfl
  have hdata : (g.kind != 3) = true := by
    rw [bne_iff_ne]
    omega
  rw [hone, hdata]
  cases ack with
  | true => exact grantTaken_takeRun hr ..
  | false => exact grantTaken_grantBack hr ..

end

/-! ## What an accepted baton shows -/

section
variable {r : Fin 24} {e port : PortEnd} {f : RxFrame} {l : Launch} {s : State}

theorem fly_offTheWay {y : RingEnd} (hfly : y.fly = [l]) (hown : l.stride % 256 = ((rxWords f).getD 0 0).toNat % 256) :
    (offTheWay f y).fly = [] := by
  simp [offTheWay, hfly, hown]

/-- The launch of end `e` is off the way, and its port took the words; the ring's queues and nodes are as they were. -/
structure LaunchBack (r : Nat) (e : PortEnd) (s t : State) : Prop where
  frame : t = { s with lnk := { s.lnk with port := t.lnk.port }, rng := t.rng }
  other : ∀ q, q ≠ r → ringOf t q = ringOf s q
  q4    : (ringOf t r).q4 = (ringOf s r).q4
  q5    : (ringOf t r).q5 = (ringOf s r).q5
  nodes : (ringOf t r).nodes = (ringOf s r).nodes
  split : (ringOf t r).split = (ringOf s r).split
  fly   : (endOf (ringOf t r) e).fly = []

theorem launchBack_offTheWay (ports : Vector LnkPort 50) (hfly : (endOf (ringOf s r) e).fly = [l])
    (hown : l.stride % 256 = ((rxWords f).getD 0 0).toNat % 256) :
    LaunchBack r e s (modRing r (modEnd e (offTheWay f)) (heard ports s.out s)) := by
  have hself : ringOf (modRing r (modEnd e (offTheWay f)) (heard ports s.out s)) r = modEnd e (offTheWay f) (ringOf s r) :=
    ringOf_modRing_self _ _ r.isLt
  have hkeep (x : RingSt) : (modEnd e (offTheWay f) x).q4 = x.q4 ∧ (modEnd e (offTheWay f) x).q5 = x.q5 ∧
      (modEnd e (offTheWay f) x).nodes = x.nodes ∧ (modEnd e (offTheWay f) x).split = x.split := by
    cases e <;> exact ⟨rfl, rfl, rfl, rfl⟩
  obtain ⟨hq4, hq5, hnodes, hsplit⟩ := hkeep (ringOf s r)
  exact ⟨rfl, fun _ hq => ringOf_modRing_ne _ _ hq, by rw [hself, hq4], by rw [hself, hq5], by rw [hself, hnodes],
    by rw [hself, hsplit], by rw [hself, endOf_modEnd, fly_offTheWay hfly hown]⟩

theorem LaunchBack.noted {r : Nat} {t u : State} (h1 : LaunchBack r e s t) (h2 : RingNoted r t u) : LaunchBack r e s u :=
  ⟨by rw [h2.frame, h1.frame], fun q hq => (h2.other q hq).trans (h1.other q hq), h2.q4.trans h1.q4, h2.q5.trans h1.q5,
    h2.nodes.trans h1.nodes, h2.split.trans h1.split, (h2.fly e).trans h1.fly⟩

/-- The part of the statement about a grant that comes back, filled or empty. -/
theorem batonArrival_grant_shows (h : Expects s r port) (ha : Accepted s r e port f l) {g : Grant} {ack : Bool}
    (hal : (rxWords f).getD 3 0 = 0) (hl : l.grants = [g]) (hack : acksOf (rxWords f) = [ack]) (hk : g.kind ≤ 2) :
    ∃ t, exec (.batonArrival r port f) s = .next t ∧
      t = { s with lnk := { s.lnk with port := t.lnk.port }, rng := t.rng, spx := t.spx } ∧
      (endOf (ringOf t r) e).fly = [] ∧ (∀ q : Fin 24, q ≠ r → ringOf t q = ringOf s q) ∧ (s.spx.camp = none → t.spx = s.spx) ∧
      (ack = false ∨ g.kind = 1 → (ringOf t r).q4 = (ringOf s r).q4) ∧ (ack = false ∨ g.kind ≠ 1 → (ringOf t r).q5 = (ringOf s r).q5) ∧
      (ack = true → ∃ ws : List RingWord, ws.map (·.val) = ((rxWords f).drop 7).take g.len ∧
        (∀ x ∈ ws, x.node = g.node ∧ x.tag = ((rxWords f).getD 0 0).toNat % 256) ∧
        (g.kind = 1 → (ringOf t r).q5 = (ringOf s r).q5 ++ ws) ∧ (g.kind ≠ 1 → (ringOf t r).q4 = (ringOf s r).q4 ++ ws)) ∧
      (ack = false → g.kind = 0 → g ∈ (endOf (ringOf t r) ((nodeAt (ringOf s r) g.node).serve.getD e)).carried) := by
  obtain ⟨ports, heq⟩ := batonArrival_accepted h ha
  rw [hal] at heq
  have hback : LaunchBack r e s (evidenceTaken r e port f (takeAlarm r port 0 (modRing r (modEnd e (offTheWay f)) (heard ports s.out s)))) := by
    have hquiet := (launchBack_offTheWay ports ha.fly ha.own).noted (ringNoted_noAlarm port _)
    exact hquiet.noted (ringNoted_evidenceTaken r.isLt port f (hquiet.split.trans ha.whole))
  have htaken := grantTaken_runsTaken (s := evidenceTaken r e port f
    (takeAlarm r port 0 (modRing r (modEnd e (offTheWay f)) (heard ports s.out s)))) r.isLt e hl hack hk
  generalize evidenceTaken r e port f (takeAlarm r port 0 (modRing r (modEnd e (offTheWay f)) (heard ports s.out s))) = u at heq hback htaken
  have hspx := spxOnly_spxResync r (runsTaken r e l f u)
  have hnocamp (hc : (runsTaken r e l f u).spx.camp = none) := spxResync_noCampaign (r := r) hc
  have hexec := exec_batonArrival r port f s
  rw [heq] at hexec
  generalize runsTaken r e l f u = t at htaken hspx hnocamp hexec
  obtain ⟨hbframe, hbother, hbq4, hbq5, hbnodes, hbsplit, hbfly⟩ := hback
  obtain ⟨hframe, hother, hcamp, hfly, hq4, hq5, hrun, hwaits⟩ := htaken
  have huspx : u.spx = s.spx := by rw [hbframe]
  have hnodeAt : nodeAt (ringOf u r) g.node = nodeAt (ringOf s r) g.node := congrArg (fun n : List RNode => n.getD g.node {}) hbnodes
  have hflt : (spxResync r t).flt = s.flt := by rw [hspx, hframe, hbframe]
  rw [sortEvents_single (by rw [hflt]; omega)] at hexec
  have hcamp' (hc : s.spx.camp = none) : (spxResync r t).spx = s.spx := by
    have htspx := (hcamp (by rw [huspx, hc])).trans huspx
    rw [hnocamp (by rw [htspx, hc]), htspx]
  generalize spxResync r t = v at hspx hexec hcamp'
  obtain ⟨spx, rfl⟩ : ∃ spx, v = { t with spx := spx } := ⟨_, hspx⟩
  refine ⟨_, hexec, by rw [hframe, hbframe], (hfly e).trans hbfly,
    fun q hq => (hother q (Fin.val_ne_of_ne hq)).trans (hbother q (Fin.val_ne_of_ne hq)), hcamp',
    fun h => (hq4 h).trans hbq4, fun h => (hq5 h).trans hbq5, fun h => ?_, fun h hk => by rw [← hnodeAt]; exact hwaits h hk⟩
  obtain ⟨ws, hval, hof, h5, h4⟩ := hrun h
  exact ⟨ws, hval, hof, fun hk => by rw [← hbq5]; exact h5 hk, fun hk => by rw [← hbq4]; exact h4 hk⟩

/-- The part of the statement about a `hard` alarm. -/
theorem batonArrival_hard_shows (h : Expects s r port) (ha : Accepted s r e port f l) (hal : ((rxWords f).getD 3 0).getLsbD 15 = true)
    (hl : l.grants = []) : ∃ t, exec (.batonArrival r port f) s = .next t ∧
      t = { s with
        lnk := { s.lnk with port := t.lnk.port }, rng := t.rng, pwm := { s.pwm with ph := t.pwm.ph }, flt := t.flt, spx := t.spx
        acq := { s.acq with strs := t.acq.strs }, hst := t.hst, two := t.two, out := t.out } ∧
      (endOf (ringOf t r) e).fly = [] ∧ flag t.rng.r (F.RNG_RINGr_ALM_hard r) = true ∧
      (∀ b, ringBank s.img.str r = some b → ∀ x : Fin 48, x.val ∈ bankPhases s.img.str b →
        t.pwm.ph[x].ring = true ∧ tripped t.pwm.ph[x] = true) ∧
      (∀ x : Fin 48, (∀ b, ringBank s.img.str r = some b → x.val ∉ bankPhases s.img.str b) → t.pwm.ph[x] = s.pwm.ph[x]) ∧
      ∀ q : Fin 24, q ≠ r → ringOf t q = ringOf s q := by
  obtain ⟨ports, heq⟩ := batonArrival_accepted h ha
  have hnone (u : State) : runsTaken r e l f u = u := by
    unfold runsTaken
    rw [hl]
    rfl
  rw [hnone] at heq
  obtain ⟨hbframe, hbother, -, -, -, hbsplit, hbfly⟩ := launchBack_offTheWay (r := r) ports ha.fly ha.own
  have hhard := alarmTaken_takeAlarm r.isLt port (modRing r (modEnd e (offTheWay f)) (heard ports s.out s)) hal
  have hev := ringNoted_evidenceTaken (e := e) r.isLt port f (hhard.split.trans (hbsplit.trans ha.whole))
  obtain ⟨hframe, hother, hsplit, hfly, hshown, hlatch, hothers⟩ := hhard
  generalize takeAlarm r port ((rxWords f).getD 3 0) (modRing r (modEnd e (offTheWay f)) (heard ports s.out s)) = u
    at heq hev hframe hother hsplit hfly hshown hlatch hothers
  generalize evidenceTaken r e port f u = t at heq hev
  have hexec := exec_batonArrival r port f s
  rw [heq] at hexec
  have hspx := spxOnly_spxResync r t
  generalize spxResync r t = v at hspx hexec
  obtain ⟨spx, rfl⟩ : ∃ spx, v = { t with spx := spx } := ⟨_, hspx⟩
  have hsort : sortEvents s.flt.q9.length { t with spx := spx } =
      { t with spx := spx, flt := (sortEvents s.flt.q9.length { t with spx := spx }).flt } := rfl
  generalize (sortEvents s.flt.q9.length { t with spx := spx }).flt = flt at hsort
  rw [hsort] at hexec
  have hph : t.pwm.ph = u.pwm.ph := by rw [hev.frame]
  refine ⟨_, hexec, by rw [hev.frame, hframe, hbframe], (hev.fly e).trans ((hfly e).trans hbfly), hev.hard.trans hshown,
    fun b hb x hx => ?_, fun x hx => ?_,
    fun q hq => (hev.other q (Fin.val_ne_of_ne hq)).trans ((hother q (Fin.val_ne_of_ne hq)).trans (hbother q (Fin.val_ne_of_ne hq)))⟩
  · rw [hph]
    exact hlatch b hb x hx
  · rw [hph]
    exact hothers x hx

end

end Sys2Proof.Machine
end

section
/-! Enumeration batons that come back, or fail (R257 to R260). -/
namespace Sys2Proof.Machine

/-! ## Claim words (R257) -/

theorem nodeAt_modNode {a b : Nat} (f : RNode → RNode) {x : RingSt} (h : a < x.nodes.length) :
    nodeAt (modNode a f x) b = if b = a then f (nodeAt x b) else nodeAt x b := by
  simp only [nodeAt, modNode, List.getD_eq_getElem?_getD, List.getElem?_modify]
  obtain rfl | hb := eq_or_ne b a
  · simp [h]
  · simp [hb, hb.symm]

/-- A node that the pass from end `e` claimed with word `w`. -/
def claimedBy (e : PortEnd) (w : Half) (n : RNode) : RNode :=
  { claimed := true, cls := w.toNat / 8192 % 4, cells := w.toNat / 256 % 16 + 1, version := w.toNat % 256,
    reachA := n.reachA || e == .a, reachB := n.reachB || e == .b, claim := e }

section
variable {N : Nat} {x : RingSt} {i : Nat} {w : Half}

theorem takeClaim_none {e : PortEnd} (h : w.getLsbD 15 = false ∨ 256 ≤ i) : takeClaim e N x (i, w) = x := by
  unfold takeClaim
  dsimp only
  rw [if_pos (by simpa using h)]

theorem takeClaim_claim (hi : i < 256) (h : w.getLsbD 15 = true) : ∃ twice, takeClaim .a N x (i, w) =
    modNode i (fun _ => claimedBy .a w (nodeAt x i)) { x with twice := twice } := by
  unfold takeClaim
  dsimp only
  rw [if_neg (by simp [h, hi]), if_neg (by simp)]
  split
  · exact ⟨true, rfl⟩
  · exact ⟨x.twice, rfl⟩

theorem takeClaim_a (hx : x.nodes.length = 256) : (takeClaim .a N x (i, w)).nodes.length = 256 ∧ ∀ b < 256,
    nodeAt (takeClaim .a N x (i, w)) b = if b = i ∧ w.getLsbD 15 = true then claimedBy .a w (nodeAt x b) else nodeAt x b := by
  by_cases h : w.getLsbD 15 = false ∨ 256 ≤ i
  · rw [takeClaim_none h]
    refine ⟨hx, fun b hb => (if_neg ?_).symm⟩
    rintro ⟨rfl, hw⟩
    obtain h | h := h
    · exact absurd hw (by rw [h]; decide)
    · omega
  · simp only [not_or, Bool.not_eq_false, not_le] at h
    obtain ⟨hw, hi⟩ := h
    obtain ⟨twice, heq⟩ := takeClaim_claim (N := N) (x := x) hi hw
    rw [heq]
    refine ⟨(List.length_modify ..).trans hx, fun b _ => ?_⟩
    rw [nodeAt_modNode _ (by exact hi.trans_eq hx.symm)]
    obtain rfl | hb := eq_or_ne b i
    · rw [if_pos rfl, if_pos ⟨rfl, hw⟩]
    · rw [if_neg hb, if_neg (by simp [hb])]
      rfl

end

/-- The claim words of a pass from end `e`, in order. -/
def takeClaims (e : PortEnd) (N : Nat) (roll : List Half) (x : RingSt) : RingSt := (roll.mapIdx fun i w => (i, w)).foldl (takeClaim e N) x

theorem takeClaims_append (e : PortEnd) (N : Nat) (l : List Half) (w : Half) (x : RingSt) :
    takeClaims e N (l ++ [w]) x = takeClaim e N (takeClaims e N l x) (l.length, w) := by
  simp [takeClaims]

/-- After `roll` claim words of the pass from port A each node whose word claims it is claimed so, and every other as it was. -/
theorem takeClaims_a (N : Nat) {x : RingSt} (hx : x.nodes.length = 256) (roll : List Half) :
    (takeClaims .a N roll x).nodes.length = 256 ∧ ∀ i < 256, nodeAt (takeClaims .a N roll x) i =
      if (roll.getD i 0).getLsbD 15 = true then claimedBy .a (roll.getD i 0) (nodeAt x i) else nodeAt x i := by
  induction roll using List.reverseRecOn with
  | nil => exact ⟨hx, fun i _ => by simp [takeClaims]⟩
  | append_singleton l w ih =>
    obtain ⟨hlen, hnodes⟩ := ih
    rw [takeClaims_append]
    obtain ⟨hlen', hnodes'⟩ := takeClaim_a (N := N) (i := l.length) (w := w) hlen
    refine ⟨hlen', fun i hi => ?_⟩
    rw [hnodes' i hi, hnodes i hi]
    obtain rfl | hne := eq_or_ne i l.length
    · simp
    · have hget : (l ++ [w]).getD i 0 = l.getD i 0 := by
        obtain hlt | hgt := hne.lt_or_gt
        · rw [List.getD_append _ _ _ _ hlt]
        · rw [List.getD_eq_default _ _ (by simp; omega), List.getD_eq_default _ _ (by omega)]
      rw [hget, if_neg (by simp [hne])]

/-! ## The pass that came round (R257, R258) -/

/-- The claim words of a frame. -/
def rollOf (f : RxFrame) : List Half := ((rxWords f).drop 6).take 257

/-- The ring takes a pass's claim words, and the pass is no longer out. -/
def passTaken (e : PortEnd) (N : Nat) (f : RxFrame) (x : RingSt) : RingSt := { takeClaims e N (rollOf f) x with passOut := none }

/-- A pass of end `port` of ring `r` is out and may come back. -/
structure PassOut (s : State) (r : Nat) (port : PortEnd) (f : RxFrame) : Prop where
  enum  : ringState s r = 2
  up    : endUp s r port = true
  out   : (ringOf s r).passOut = some port
  clean : (rxScan f).errAt = []

/-- The frame is that pass: it passes its check, came round, has the attempt's epoch and names no node beyond the last address. -/
structure PassBack (s : State) (r : Nat) (port : PortEnd) (f : RxFrame) : Prop where
  ok     : batonOk f = true
  sender : ((rxWords f).getD 0 0).toNat / 8192 = 2 + endBit port
  looped : ((rxWords f).getD 2 0).getLsbD 15 = true
  epoch  : ((rxWords f).getD 1 0).toNat / 256 = (ringOf s r).epoch
  last   : ((rxWords f).getD 262 0).getLsbD 15 = false

theorem getD_rollOf (f : RxFrame) {i : Nat} (h : i < 257) : (rollOf f).getD i 0 = (rxWords f).getD (6 + i) 0 := by
  simp only [rollOf, List.getD_eq_getElem?_getD, List.getElem?_take_of_lt h, List.getElem?_drop]

section
variable {r : Nat} {port : PortEnd} {f : RxFrame} {s : State}

theorem exec_enumerationReturn (r : Fin 24) (port : PortEnd) (f : RxFrame) (s : State) :
    exec (.enumerationReturn r port f) s = .next (enumReturn r port f s) := rfl

/-- Nodes claimed by a pass that went through are reached from both ends. -/
def reachedBoth (looped : Bool) (n : RNode) : RNode := if n.claimed && !looped then { n with reachA := true, reachB := true } else n

/-- What follows a pass of end `e` (R257, R260): the pass from port B, or DESC; `beyond`: a node beyond the last address was named. -/
def passSettled (r : Nat) (e : PortEnd) (looped beyond : Bool) (s : State) : State :=
  let s := if beyond then raise 11 r 255 (rngRegs_ (fun q => putBit q R.RNG_OVERFLOW_NODE r true) s) else s
  if e = .a ∧ looped ∧ endUp s r .b then modRing r (fun x => { x with passNext := some .b }) s
  else enterDesc r (modRing r (fun x => { x with nodes := x.nodes.map (reachedBoth looped) }) s)

theorem modRing_same {f : RingSt → RingSt} (hf : ∀ x, f x = x) (s : State) : modRing r f s = s := by
  have hring : vmod s.rng.ring r f = s.rng.ring := by
    unfold vmod
    split
    · rw [hf, Vector.set_getElem_self]
    · rfl
  unfold modRing
  rw [hring]

theorem passSettled_looped (e : PortEnd) (s : State) : passSettled r e true false s =
    if e = .a ∧ endUp s r .b = true then modRing r (fun x => { x with passNext := some .b }) s else enterDesc r s := by
  have hboth (x : RingSt) : { x with nodes := x.nodes.map (reachedBoth true) } = x := by
    have hid : reachedBoth true = id := by
      funext n
      simp [reachedBoth]
    rw [hid, List.map_id]
  unfold passSettled
  dsimp only
  rw [if_neg Bool.false_ne_true, modRing_same hboth]
  simp only [true_and]

theorem enumReturn_back (h : PassOut s r port f) (hb : PassBack s r port f) : ∃ ports, enumReturn r port f s =
    let t := modRing r (passTaken port (ringRec s r).nodes f) (heard ports s.out s)
    if port = .a ∧ endUp s r .b = true then modRing r (fun x => { x with passNext := some .b }) t else enterDesc r t := by
  obtain ⟨henum, hup, hout, hclean⟩ := h
  obtain ⟨hok, hsender, hlooped, hepoch, hlast⟩ := hb
  obtain ⟨ports, hheard, hports⟩ := takeRingErrors_clean r port s (rxClean_of_batonOk hok) hclean
  refine ⟨ports, ?_⟩
  have hkind : ¬(((rxWords f).getD 0 0).toNat / 16384 ≠ 1 ∨ ((rxWords f).getD 0 0).toNat / 8192 % 2 ≠ endBit port ∨
      ((rxWords f).getD 1 0).toNat / 256 ≠ (ringOf s r).epoch) := by
    cases port <;> simp only [endBit] at hsender ⊢ <;> omega
  have hover : ((rollOf f).getD 256 0).getLsbD 15 = false := by rw [getD_rollOf f (by decide), hlast]
  have hsettled : enumReturn r port f s = passSettled r port (((rxWords f).getD 2 0).getLsbD 15) (((rollOf f).getD 256 0).getLsbD 15)
      (modRing r (passTaken port (ringRec s r).nodes f) (heard ports s.out s)) := by
    unfold enumReturn
    dsimp only
    rw [if_neg (by simp [henum, hup]), hout]
    dsimp only
    rw [hheard, if_neg (by rw [hok]; decide), if_neg hkind, if_neg (by rw [hlooped]; simp)]
    rfl
  have hup : endUp (modRing r (passTaken port (ringRec s r).nodes f) (heard ports s.out s)) r .b = endUp s r .b := hports _
  rw [hsettled, hlooped, hover, passSettled_looped, hup]

end

/-- The part of the statement about the pass from port A. -/
theorem enumReturn_a_shows {r : Fin 24} {f : RxFrame} {s : State} (h : PassOut s r .a f) (hb : PassBack s r .a f)
    (hlen : (ringOf s r).nodes.length = 256) (hup : endUp s r .b = true) : ∃ t, exec (.enumerationReturn r .a f) s = .next t ∧
      t = { s with lnk := { s.lnk with port := t.lnk.port }, rng := { s.rng with ring := t.rng.ring } } ∧
      (ringOf t r).passOut = none ∧ (ringOf t r).passNext = some .b ∧ (∀ q : Fin 24, q ≠ r → ringOf t q = ringOf s q) ∧
      (∀ i < 256, ((rxWords f).getD (6 + i) 0).getLsbD 15 = true → (nodeAt (ringOf t r) i).claimed = true ∧
        (nodeAt (ringOf t r) i).cells = ((rxWords f).getD (6 + i) 0).toNat / 256 % 16 + 1 ∧ (nodeAt (ringOf t r) i).reachA = true ∧
        (nodeAt (ringOf t r) i).claim = .a) ∧
      ∀ i < 256, ((rxWords f).getD (6 + i) 0).getLsbD 15 = false → nodeAt (ringOf t r) i = nodeAt (ringOf s r) i := by
  obtain ⟨ports, heq⟩ := enumReturn_back h hb
  dsimp only at heq
  rw [if_pos ⟨rfl, hup⟩] at heq
  have hexec := exec_enumerationReturn r .a f s
  rw [heq] at hexec
  refine ⟨_, hexec, rfl, ?_⟩
  have hself : ringOf (modRing r (fun x => { x with passNext := some .b })
      (modRing r (passTaken .a (ringRec s r).nodes f) (heard ports s.out s))) r =
      { passTaken .a (ringRec s r).nodes f (ringOf s r) with passNext := some .b } := by
    rw [ringOf_modRing_self _ _ r.isLt, ringOf_modRing_self _ _ r.isLt]
    rfl
  have hother (q : Fin 24) (hq : q ≠ r) : ringOf (modRing r (fun x => { x with passNext := some .b })
      (modRing r (passTaken .a (ringRec s r).nodes f) (heard ports s.out s))) q = ringOf s q := by
    rw [ringOf_modRing_ne _ _ (Fin.val_ne_of_ne hq), ringOf_modRing_ne _ _ (Fin.val_ne_of_ne hq)]
    rfl
  obtain ⟨-, hnodes⟩ := takeClaims_a (ringRec s r).nodes hlen (rollOf f)
  have hnode (i : Nat) (hi : i < 256) : nodeAt { passTaken .a (ringRec s r).nodes f (ringOf s r) with passNext := some .b } i =
      if ((rxWords f).getD (6 + i) 0).getLsbD 15 = true then claimedBy .a ((rxWords f).getD (6 + i) 0) (nodeAt (ringOf s r) i)
      else nodeAt (ringOf s r) i := by
    rw [← getD_rollOf f (by omega)]
    exact hnodes i hi
  rw [hself]
  refine ⟨rfl, rfl, hother, fun i hi hw => ?_, fun i hi hw => ?_⟩
  · rw [hnode i hi, if_pos hw]
    exact ⟨rfl, rfl, Bool.or_true _, rfl⟩
  · rw [hnode i hi, if_neg (ne_true_of_eq_false hw)]

/-! ## DESC (R260) -/

section
variable {r : Nat} {s t u : State}

/-- Only messages of ring `r` are queued: its nodes stay. -/
structure NodesKept (r : Nat) (s t : State) : Prop where
  rings : RingsOnly s t
  other : ∀ q, q ≠ r → ringOf t q = ringOf s q
  nodes : (ringOf t r).nodes = (ringOf s r).nodes

theorem NodesKept.trans (h1 : NodesKept r s t) (h2 : NodesKept r t u) : NodesKept r s u :=
  ⟨h1.rings.trans h2.rings, fun q hq => (h2.other q hq).trans (h1.other q hq), h2.nodes.trans h1.nodes⟩

theorem NodesKept.foldl {α : Type} {f : State → α → State} (h : ∀ s x, NodesKept r s (f s x)) :
    ∀ (l : List α) (s : State), NodesKept r s (l.foldl f s)
  | [], s => ⟨.refl s, fun _ _ => rfl, rfl⟩
  | x :: t, s => (h s x).trans (NodesKept.foldl h t (f s x))

theorem nodesKept_wagVia (hr : r < 24) (front : Bool) (e : PortEnd) (type a : Nat) (pl : List Half) (use : WagUse) (s : State) :
    NodesKept r s (wagVia front e type a pl use r s) := by
  unfold wagVia
  dsimp only
  refine ⟨ringsOnly_modRing .., fun q hq => ringOf_modRing_ne _ _ hq, ?_⟩
  rw [ringOf_modRing_self _ _ hr]
  cases e <;> rfl

theorem claimedNodes_serveNodes (N : Nat) (x : RingSt) : claimedNodes (serveNodes N x) = claimedNodes x := by
  have hnode (a : Nat) : (nodeAt (serveNodes N x) a).claimed = (nodeAt x a).claimed := by
    simp only [nodeAt, serveNodes, List.getD_eq_getElem?_getD, List.getElem?_mapIdx]
    cases x.nodes[a]? <;> rfl
  have hlen : (serveNodes N x).nodes.length = x.nodes.length := List.length_mapIdx
  simp only [claimedNodes, hnode, hlen]

theorem claimedNodes_congr {x y : RingSt} (h : x.nodes = y.nodes) : claimedNodes x = claimedNodes y := by
  simp only [claimedNodes, nodeAt, h]

/-- The ring's state register in DESC with `n` nodes. -/
def descRegs (r n : Nat) (q : RegFile) : RegFile := setF (setF q (F.RNG_RINGr_STAT_state r) 3) (F.RNG_RINGr_STAT_count r) n

theorem descRegs_state (r n : Nat) (q : RegFile) : getF (descRegs r n q) (F.RNG_RINGr_STAT_state r) = 3 := by
  unfold descRegs
  rw [getF_setF_bits _ _ (Nat.le_of_ble_eq_true rfl) (.inl (Nat.le_of_ble_eq_true rfl)),
    getF_setF_small _ _ (Nat.le_of_ble_eq_true rfl) (Nat.le_of_ble_eq_true rfl)]

theorem descRegs_count (r n : Nat) (q : RegFile) :
    getF (descRegs r n q) (F.RNG_RINGr_STAT_count r) = n % 2 ^ (F.RNG_RINGr_STAT_count r).width :=
  getF_setF_self _ _ _ (Nat.le_of_ble_eq_true rfl)

theorem descRegs_other {r k : Nat} (h : k ≠ r) (n : Nat) (q : RegFile) :
    getF (descRegs r n q) (F.RNG_RINGr_STAT_state k) = getF q (F.RNG_RINGr_STAT_state k) := by
  have hofs : 0x0400 + 32 * k ≠ 0x0400 + 32 * r := by omega
  exact (getF_setF_ofs _ _ hofs).trans (getF_setF_ofs _ _ hofs)

/-- A ring that was not READY enters DESC. -/
theorem setRing_desc (h : ringState s r ≠ 6) : setRing r 3 s = irq 5 (rngRegs_ (fun q => setF q (F.RNG_RINGr_STAT_state r) 3) s) := by
  unfold setRing
  rw [if_neg (by simp [h])]

/-- The ring is in DESC and shows its nodes, each with the end that serves it. -/
def descShown (r : Nat) (s : State) : State :=
  let t := irq 5 (rngRegs_ (fun q => setF q (F.RNG_RINGr_STAT_state r) 3) s)
  modRing r (serveNodes (ringRec t r).nodes) (rngRegs_ (fun q => setF q (F.RNG_RINGr_STAT_count r) (claimedNodes (ringOf s r)).length) t)

theorem nodesKept_enterDesc (hr : r < 24) (h : ringState s r ≠ 6) : NodesKept r (descShown r s) (enterDesc r s) := by
  unfold enterDesc
  rw [setRing_desc h]
  exact .foldl (f := fun s a => wagVia false (nodeAt (ringOf s r) a).claim 0x02 a [] .ring r s) (fun s a => nodesKept_wagVia hr ..) _ _

/-- What entry to DESC shows. -/
structure DescEntered (r : Nat) (s t : State) : Prop where
  frame : t = { s with rng := t.rng, hst := t.hst, two := t.two, out := t.out }
  state : ringState t r = 3
  count : getF t.rng.r (F.RNG_RINGr_STAT_count r) = (claimedNodes (ringOf t r)).length % 2 ^ (F.RNG_RINGr_STAT_count r).width
  cause : getBit t.hst.r R.HST_IRQ_STAT 5 = true
  other : ∀ q, q ≠ r → ringOf t q = ringOf s q ∧ ringState t q = ringState s q

theorem descEntered_descShown (hr : r < 24) : DescEntered r s (descShown r s) := by
  have hirq := irq_frame 5 (rngRegs_ (fun q => setF q (F.RNG_RINGr_STAT_state r) 3) s)
  have hcause := irq_stat 5 (rngRegs_ (fun q => setF q (F.RNG_RINGr_STAT_state r) 3) s) (by decide)
  unfold descShown
  generalize irq 5 (rngRegs_ (fun q => setF q (F.RNG_RINGr_STAT_state r) 3) s) = v at hirq hcause
  dsimp only
  obtain ⟨hst, two, out, rfl⟩ : ∃ hst two out, v =
      { rngRegs_ (fun q => setF q (F.RNG_RINGr_STAT_state r) 3) s with hst := hst, two := two, out := out } :=
    ⟨_, _, _, hirq⟩
  refine ⟨rfl, descRegs_state .., ?_, hcause, fun q hq => ⟨ringOf_modRing_ne _ _ hq, descRegs_other hq ..⟩⟩
  have hring : ringOf (rngRegs_ (fun q => setF q (F.RNG_RINGr_STAT_count r) (claimedNodes (ringOf s r)).length)
      { rngRegs_ (fun q => setF q (F.RNG_RINGr_STAT_state r) 3) s with hst := hst, two := two, out := out }) r = ringOf s r := rfl
  rw [ringOf_modRing_self _ _ hr, claimedNodes_serveNodes]
  refine (descRegs_count r (claimedNodes (ringOf s r)).length s.rng.r).trans ?_
  exact congrArg (fun x => (claimedNodes x).length % 2 ^ (F.RNG_RINGr_STAT_count r).width) hring.symm

theorem DescEntered.nodesKept (h1 : DescEntered r s t) (h2 : NodesKept r t u) : DescEntered r s u := by
  obtain ⟨hframe, hstate, hcount, hcause, hother⟩ := h1
  obtain ⟨hrings, hkeep, hnodes⟩ := h2
  have hregs : u.rng.r = t.rng.r := by rw [hrings]
  refine ⟨by rw [hrings, hframe], ?_, ?_, ?_, fun q hq => ?_⟩
  · rw [ringState, hregs]
    exact hstate
  · rw [hregs, claimedNodes_congr hnodes]
    exact hcount
  · rw [hrings]
    exact hcause
  · rw [hkeep q hq, ringState, hregs]
    exact hother q hq

theorem descEntered_enterDesc (hr : r < 24) (h : ringState s r ≠ 6) : DescEntered r s (enterDesc r s) :=
  (descEntered_descShown hr).nodesKept (nodesKept_enterDesc hr h)

end

/-- The part of the statement about the pass from port B. -/
theorem enumReturn_b_shows {r : Fin 24} {f : RxFrame} {s : State} (h : PassOut s r .b f) (hb : PassBack s r .b f) :
    ∃ t, exec (.enumerationReturn r .b f) s = .next t ∧
      t = { s with lnk := { s.lnk with port := t.lnk.port }, rng := t.rng, hst := t.hst, two := t.two, out := t.out } ∧
      ringState t r = 3 ∧ getF t.rng.r (F.RNG_RINGr_STAT_count r) = (claimedNodes (ringOf t r)).length % 2 ^ (F.RNG_RINGr_STAT_count r).width ∧
      getBit t.hst.r R.HST_IRQ_STAT 5 = true ∧ ∀ q : Fin 24, q ≠ r → ringOf t q = ringOf s q ∧ ringState t q = ringState s q := by
  obtain ⟨ports, heq⟩ := enumReturn_back h hb
  dsimp only at heq
  rw [if_neg (by simp)] at heq
  have hexec := exec_enumerationReturn r .b f s
  rw [heq] at hexec
  have h6 : ringState (modRing r (passTaken .b (ringRec s r).nodes f) (heard ports s.out s)) r ≠ 6 := by
    have hstate : ringState (modRing r (passTaken .b (ringRec s r).nodes f) (heard ports s.out s)) r = ringState s r := rfl
    rw [hstate, h.enum]
    decide
  obtain ⟨hframe, hstate, hcount, hcause, hother⟩ := descEntered_enterDesc r.isLt h6
  refine ⟨_, hexec, by rw [hframe]; rfl, hstate, hcount, hcause, fun q hq => ?_⟩
  obtain ⟨hring, hst⟩ := hother q (Fin.val_ne_of_ne hq)
  exact ⟨hring.trans (ringOf_modRing_ne _ _ (Fin.val_ne_of_ne hq)), hst⟩

/-! ## An attempt that fails (R259) -/

/-- The ring after a failed attempt. -/
def attemptFailed (x : RingSt) : RingSt := { x with fails := x.fails + 1, passOut := none, passNext := none, nodes := List.replicate 256 {} }

theorem enumFails_again {r : Nat} {s : State} (hr : r < 24) (h : (ringOf s r).fails < 3) : enumFails r s = modRing r attemptFailed s := by
  have hself : ringOf (modRing r attemptFailed s) r = attemptFailed (ringOf s r) := ringOf_modRing_self _ _ hr
  have hless : (ringOf (modRing r attemptFailed s) r).fails < 4 := by
    rw [hself]
    exact Nat.succ_lt_succ h
  exact if_pos hless

/-- The part of the statement about a pass that fails its check. -/
theorem enumReturn_failed_shows {r : Fin 24} {port : PortEnd} {f : RxFrame} {s : State} (h : PassOut s r port f) (hok : batonOk f = false)
    (hfails : (ringOf s r).fails < 3) : ∃ t, exec (.enumerationReturn r port f) s = .next t ∧
      t = { s with
        lnk := { s.lnk with port := t.lnk.port }, rng := t.rng, flt := postEvent 9 r (endBit port) (strideTag s) s.flt, out := t.out } ∧
      ringOf t r = { ringOf s r with fails := (ringOf s r).fails + 1, passOut := none, passNext := none, nodes := List.replicate 256 {} } ∧
      getF t.rng.r (F.RNG_RINGr_CNT_hdr_err_cnt r) =
        min (getF s.rng.r (F.RNG_RINGr_CNT_hdr_err_cnt r) + 1) (2 ^ (F.RNG_RINGr_CNT_hdr_err_cnt r).width - 1) ∧
      ∀ q : Fin 24, q ≠ r → ringOf t q = ringOf s q := by
  obtain ⟨ports, out, hheard⟩ := takeRingErrors_heard r port f (batonLen f) s
  have hfailed : enumReturn r port f s = enumFails r (failNoted r port (heard ports out s)) := by
    obtain ⟨henum, hup, hout, -⟩ := h
    unfold enumReturn
    dsimp only
    rw [if_neg (by simp [henum, hup]), hout]
    dsimp only
    rw [hheard, if_pos (by rw [hok]; rfl)]
    rfl
  have hexec := exec_enumerationReturn r port f s
  rw [hfailed, enumFails_again r.isLt (by exact hfails)] at hexec
  exact ⟨_, hexec, rfl, ringOf_modRing_self _ _ r.isLt, getF_incF _ _ _ (Nat.le_of_ble_eq_true rfl),
    fun q hq => ringOf_modRing_ne _ _ (Fin.val_ne_of_ne hq)⟩

end Sys2Proof.Machine
end

section
/-! Probes that come back, fail or are lost (R249, R261), and the statement about batons. -/
namespace Sys2Proof.Machine

/-! ## Probes (R261) -/

section
variable {r : Nat} {port : PortEnd} {f : RxFrame} {a : Nat} {s : State}

/-- The probe is to be sent again, first of all. -/
def probeAgain (port : PortEnd) (a : Nat) (x : RingSt) : RingSt := { x with probes := (port, a) :: x.probes, probeOut := none }

/-- A probe from `port` that is out is lost. -/
def probeLost (port : PortEnd) (x : RingSt) : RingSt :=
  match x.probeOut with
  | some p => if p.1 = port then { x with probes := p :: x.probes, probeOut := none } else x
  | none => x

theorem probeLost_out {x : RingSt} (h : x.probeOut = some (port, a)) : probeLost port x = probeAgain port a x := by
  unfold probeLost
  rw [h]
  exact if_pos rfl

/-- The node's delay from an end. -/
def withDelay (port : PortEnd) (d : Nat) (n : RNode) : RNode :=
  match port with
  | .a => { n with dA := d }
  | .b => { n with dB := d }

/-- The probe of node `a` came back to `port` with its delay. -/
def probeTaken (port : PortEnd) (a d : Nat) (x : RingSt) : RingSt := modNode a (withDelay port d) { x with probeOut := none }

/-- The probe of node `a` from `port` is out and may come back. -/
structure ProbeOut (s : State) (r : Nat) (port : PortEnd) (a : Nat) : Prop where
  probe : ringState s r = 4
  up    : endUp s r port = true
  out   : (ringOf s r).probeOut = some (port, a)

/-- The frame is that probe: it passes its check and came round. -/
structure ProbeBack (port : PortEnd) (a : Nat) (f : RxFrame) : Prop where
  clean  : rxClean f 5 = true
  crc    : crc16 0xFFFF ((rxWords f).take 4) = (rxWords f).getD 4 0
  sender : ((rxWords f).getD 0 0).toNat / 8192 = 4 + endBit port
  looped : ((rxWords f).getD 2 0).getLsbD 15 = true
  node   : ((rxWords f).getD 1 0).toNat / 256 = a

theorem exec_probeReturn (r : Fin 24) (port : PortEnd) (f : RxFrame) (s : State) :
    exec (.probeReturn r port f) s = .next (probeReturn r port f s) := rfl

theorem probeReturn_bad (h : ProbeOut s r port a) (hbad : rxClean f 5 = false ∨ crc16 0xFFFF ((rxWords f).take 4) ≠ (rxWords f).getD 4 0) :
    probeReturn r port f s = modRing r (probeAgain port a) (takeRingErrors r port f 5 s) := by
  obtain ⟨hprobe, hup, hout⟩ := h
  unfold probeReturn
  dsimp only
  rw [if_neg (by simp [hprobe, hup]), hout]
  refine if_pos ?_
  obtain hc | hc := hbad
  · rw [hc]
    rfl
  · rw [bne_iff_ne.2 hc, Bool.or_true]

/-- While probes are to be sent the ring stays in PROBE. -/
theorem ringAdvance_probing (h4 : ringState s r = 4) (h : (ringOf s r).probes ≠ []) : ringAdvance r s = s := by
  unfold ringAdvance
  dsimp only
  rw [h4]
  exact if_neg (by simp [h])

theorem probeReturn_back (hr : r < 24) (h : ProbeOut s r port a) (hb : ProbeBack port a f) (hnext : (ringOf s r).probes ≠ []) :
    probeReturn r port f s = modRing r
      (probeTaken port a (probeDelay (ringOf s r) (ringRec s r).nodes port a f.time ((rxWords f).getD 3 0).toNat))
      (takeRingErrors r port f 5 s) := by
  obtain ⟨hprobe, hup, hout⟩ := h
  obtain ⟨hclean, hcrc, hsender, hlooped, hnode⟩ := hb
  obtain ⟨ports, out, hheard⟩ := takeRingErrors_heard r port f 5 s
  have hgood : ¬(!rxClean f 5 || crc16 0xFFFF ((rxWords f).take 4) != (rxWords f).getD 4 0) = true := by
    rw [hclean, hcrc]
    simp
  have hfits : ¬(((rxWords f).getD 0 0).toNat / 16384 ≠ 2 || ((rxWords f).getD 0 0).toNat / 8192 % 2 != endBit port || port != port ||
      !((rxWords f).getD 2 0).getLsbD 15 || ((rxWords f).getD 1 0).toNat / 256 != a : Bool) = true := by
    have h1 : ((rxWords f).getD 0 0).toNat / 16384 = 2 := by
      cases port <;> simp only [endBit] at hsender <;> omega
    have h2 : ((rxWords f).getD 0 0).toNat / 8192 % 2 = endBit port := by
      cases port <;> simp only [endBit] at hsender ⊢ <;> omega
    rw [h1, h2, hlooped, hnode]
    simp
  have hself : (ringOf (modRing r (probeTaken port a (probeDelay (ringOf s r) (ringRec s r).nodes port a f.time
      ((rxWords f).getD 3 0).toNat)) (heard ports out s)) r).probes = (ringOf s r).probes := by
    rw [ringOf_modRing_self _ _ hr]
    rfl
  unfold probeReturn
  dsimp only
  rw [if_neg (by simp [hprobe, hup]), hout]
  dsimp only
  rw [if_neg hgood, if_neg hfits, hheard]
  exact ringAdvance_probing hprobe (fun hnone => hnext (hself.symm.trans hnone))

end

/-- The part of the statement about a probe that comes back. -/
theorem probeReturn_back_shows {r : Fin 24} {port : PortEnd} {f : RxFrame} {a : Nat} {s : State} (h : ProbeOut s r port a)
    (hb : ProbeBack port a f) (herr : (rxScan f).errAt = []) (ha : a < (ringOf s r).nodes.length) (hnext : (ringOf s r).probes ≠ []) :
    ∃ t, exec (.probeReturn r port f) s = .next t ∧
      t = { s with lnk := { s.lnk with port := t.lnk.port }, rng := { s.rng with ring := t.rng.ring } } ∧
      (ringOf t r).probeOut = none ∧ (ringOf t r).probes = (ringOf s r).probes ∧
      nodeAt (ringOf t r) a = withDelay port (probeDelay (ringOf s r) (ringRec s r).nodes port a f.time ((rxWords f).getD 3 0).toNat)
        (nodeAt (ringOf s r) a) ∧
      (∀ b, b ≠ a → nodeAt (ringOf t r) b = nodeAt (ringOf s r) b) ∧ ∀ q : Fin 24, q ≠ r → ringOf t q = ringOf s q := by
  obtain ⟨ports, hheard, -⟩ := takeRingErrors_clean r port s hb.clean herr
  have hexec := exec_probeReturn r port f s
  rw [probeReturn_back r.isLt h hb hnext, hheard] at hexec
  generalize probeDelay (ringOf s r) (ringRec s r).nodes port a f.time ((rxWords f).getD 3 0).toNat = d at hexec ⊢
  have hself : ringOf (modRing r (probeTaken port a d) (heard ports s.out s)) r = probeTaken port a d (ringOf s r) :=
    ringOf_modRing_self _ _ r.isLt
  have hnode (b : Nat) : nodeAt (probeTaken port a d (ringOf s r)) b =
      if b = a then withDelay port d (nodeAt (ringOf s r) b) else nodeAt (ringOf s r) b := nodeAt_modNode _ ha
  refine ⟨_, hexec, rfl, ?_⟩
  rw [hself]
  exact ⟨rfl, rfl, (hnode a).trans (if_pos rfl), fun b hb => (hnode b).trans (if_neg hb),
    fun q hq => ringOf_modRing_ne _ _ (Fin.val_ne_of_ne hq)⟩

/-- The part of the statement about a probe that fails its check. -/
theorem probeReturn_bad_shows {r : Fin 24} {port : PortEnd} {f : RxFrame} {a : Nat} {s : State} (h : ProbeOut s r port a)
    (hbad : rxClean f 5 = false ∨ crc16 0xFFFF ((rxWords f).take 4) ≠ (rxWords f).getD 4 0) :
    ∃ t, exec (.probeReturn r port f) s = .next t ∧
      t = { s with lnk := { s.lnk with port := t.lnk.port }, rng := { s.rng with ring := t.rng.ring }, out := t.out } ∧
      ringOf t r = { ringOf s r with probes := (port, a) :: (ringOf s r).probes, probeOut := none } ∧
      ∀ q : Fin 24, q ≠ r → ringOf t q = ringOf s q := by
  obtain ⟨ports, out, hheard⟩ := takeRingErrors_heard r port f 5 s
  have hexec := exec_probeReturn r port f s
  rw [probeReturn_bad h hbad, hheard] at hexec
  exact ⟨_, hexec, rfl, ringOf_modRing_self _ _ r.isLt, fun q hq => ringOf_modRing_ne _ _ (Fin.val_ne_of_ne hq)⟩

/-- The part of the statement about a lost probe. -/
theorem batonLost_probe_shows {r : Fin 24} {port : PortEnd} {a : Nat} {s : State} (h4 : ringState s r = 4)
    (hout : (ringOf s r).probeOut = some (port, a)) : ∃ t, exec (.batonLost r port) s = .next t ∧
      t = { s with rng := { s.rng with ring := t.rng.ring } } ∧
      ringOf t r = { ringOf s r with probes := (port, a) :: (ringOf s r).probes, probeOut := none } ∧
      ∀ q : Fin 24, q ≠ r → ringOf t q = ringOf s q := by
  have hlost : batonLost r port s = modRing r (probeLost port) s := if_pos h4
  have hexec := exec_batonLost r port s
  rw [hlost] at hexec
  exact ⟨_, hexec, rfl, (ringOf_modRing_self _ _ r.isLt).trans (probeLost_out hout),
    fun q hq => ringOf_modRing_ne _ _ (Fin.val_ne_of_ne hq)⟩

/-- The part of the statement about a lost data baton. -/
theorem batonLost_data_shows {r : Fin 24} {port : PortEnd} {l : Launch} {rest : List Launch} {s : State} (h4 : ringState s r ≠ 4)
    (hfly : (endOf (ringOf s r) port).fly = l :: rest) (hage : 4 ≤ strideAge s l.stride) :
    ∃ t, exec (.batonLost r port) s = .next t ∧ t = { s with rng := t.rng, spx := t.spx, flt := t.flt } ∧
      (endOf (ringOf t r) port).fly = rest ∧
      getF t.rng.r (F.RNG_RINGr_CNT_lost_cnt r) = min (getF s.rng.r (F.RNG_RINGr_CNT_lost_cnt r) + 1) (2 ^ (F.RNG_RINGr_CNT_lost_cnt r).width - 1) ∧
      ((ringOf s r).split = false → (endOf (ringOf s r) port).rx = none → t.flt = s.flt) ∧
      ∀ q : Fin 24, q ≠ r → ringOf t q = ringOf s q := by
  have hexec := exec_batonLost r port s
  rw [batonLost_oldest h4 hfly hage] at hexec
  obtain ⟨hframe, hother, htail, -, -, hlost⟩ :=
    oldestDropped_givenUp r.isLt port true (ringCount (F.RNG_RINGr_CNT_lost_cnt r) s)
  refine ⟨_, hexec, by rw [hframe]; rfl, htail.trans (congrArg List.tail hfly), hlost.trans (getF_incF _ _ _ (Nat.le_of_ble_eq_true rfl)),
    fun hs hrx => givenUp_flt (s := ringCount (F.RNG_RINGr_CNT_lost_cnt r) s) r.isLt (.inl hs) hrx,
    fun q hq => hother q (Fin.val_ne_of_ne hq)⟩

/-- Settles O38: what a baton may leave is followed through the launch it takes off the way, the evidence of its end, its alarm and its
grants, a pass through its claim words. -/
theorem batonsReturn : Obligations.BatonsReturn := by
  unfold Obligations.BatonsReturn
  refine ⟨fun r port f s w hw => ?_, fun r port f s w hw => ?_⟩
  · subst hw
    refine ⟨fun hs hup hd => ⟨fun e l hok hclean hsender hroute hwhole hfly hown hwag => ?_, batonArrival_failed_shows ⟨hs, hup, hd⟩⟩,
      fun h4 hl => ?_, fun l rest => batonLost_data_shows⟩
    · have ha : Accepted s r e port f l := ⟨hok, hclean, hsender, hroute, hwhole, hfly, hown, hwag⟩
      exact ⟨fun g ack hal hl hack hk _ => batonArrival_grant_shows ⟨hs, hup, hd⟩ ha hal hl hack hk,
        batonArrival_hard_shows ⟨hs, hup, hd⟩ ha⟩
    · rw [exec_batonLost, batonLost_waits h4 hl]
  · subst hw
    refine ⟨fun henum hup hout hclean => ⟨fun hok hsender hlooped hepoch hlast hlen => ?_,
      enumReturn_failed_shows ⟨henum, hup, hout, hclean⟩⟩, fun a h4 hup hout hclean => ⟨fun ha hnext hclean5 hcrc hsender hlooped hnode => ?_,
      probeReturn_bad_shows ⟨h4, hup, hout⟩⟩, fun a => batonLost_probe_shows⟩
    · have hb : PassBack s r port f := ⟨hok, hsender, hlooped, hepoch, hlast⟩
      refine ⟨?_, ?_⟩
      · rintro rfl hupb
        exact enumReturn_a_shows ⟨henum, hup, hout, hclean⟩ hb hlen hupb
      · rintro rfl
        exact enumReturn_b_shows ⟨henum, hup, hout, hclean⟩ hb
    · have hback := probeReturn_back_shows ⟨h4, hup, hout⟩ ⟨hclean5, hcrc, hsender, hlooped, hnode⟩ hclean ha hnext
      cases port with
      | a => exact hback
      | b => exact hback

end Sys2Proof.Machine
end

section
/-! Results and records (R16, R205 to R207, R210, R217, R218, R221): what a record written to its region leaves, what a published
result changes, and the statement about them. -/
namespace Sys2Proof.Machine

/-! ## A record in its region (R221) -/

section
variable (i : Nat) (v : BitVec 64) (q : Acq)

/-- The address of the place at a stream's `wptr`. -/
def recordAt (i : Nat) (r : RegFile) : Nat := 4096 * getF r (F.ACQ_STRs_BUF_base i) + 8 * getF r (F.ACQ_STRs_WPTR_wptr i)

/-- The bytes of a record, low byte first. -/
def recordBytes (v : BitVec 64) : List Byte := (List.range 8).map fun k => v.extractLsb' (8 * k) 8

theorem buf_bufWrite : (bufWrite i v q).buf = q.buf.writeBytes (recordAt i q.r) (recordBytes v) := rfl

theorem read_bufWrite_in {k : Nat} (hk : k < 8) : (bufWrite i v q).buf.read (recordAt i q.r + k) = v.extractLsb' (8 * k) 8 := by
  rw [buf_bufWrite, Memory.read_writeBytes_in _ _ _ _ hk, List.getD_eq_getElem _ _ hk]
  simp [recordBytes]

theorem read_bufWrite_out {x : Nat} (h : x < recordAt i q.r ∨ recordAt i q.r + 8 ≤ x) :
    (bufWrite i v q).buf.read x = q.buf.read x := Memory.read_writeBytes_out x (recordBytes v) q.buf (recordAt i q.r) h

theorem wptr_bufWrite (h0 : 0 < regionCap q.r i) (hcap : regionCap q.r i ≤ 131072) :
    getF (bufWrite i v q).r (F.ACQ_STRs_WPTR_wptr i) = (getF q.r (F.ACQ_STRs_WPTR_wptr i) + 1) % regionCap q.r i := by
  have hmax : max 1 (regionCap q.r i) = regionCap q.r i := max_eq_right h0
  have hlt : (getF q.r (F.ACQ_STRs_WPTR_wptr i) + 1) % regionCap q.r i < 2 ^ 17 := lt_of_lt_of_le (Nat.mod_lt _ h0) hcap
  unfold bufWrite
  dsimp only
  rw [hmax]
  exact getF_setF_small _ _ (Nat.le_of_ble_eq_true rfl) hlt

theorem kvGet_bufWrite_ne {o : Nat} (h : o ≠ R.ACQ_STRs_WPTR i) : kvGet (bufWrite i v q).r o = kvGet q.r o := kvGet_setF_ne _ _ h

end

/-! ## What takes a result (R16, R217, R218) -/

section
variable (a : Nat) (f : Int) (q : Acq)

theorem calTake_frame : calTake a f q = { q with cal := (calTake a f q).cal, r := (calTake a f q).r } := by
  unfold calTake
  split
  · rfl
  · split <;> rfl

theorem kvGet_calTake_ne {o : Nat} (h : o ≠ R.ACQ_CAL_STAT) : kvGet (calTake a f q).r o = kvGet q.r o := by
  unfold calTake
  split
  · rfl
  · split
    · rfl
    · exact kvGet_setF_ne _ _ h

theorem owTake_frame : owTake a f q = { q with ow := (owTake a f q).ow } := by
  unfold owTake
  split <;> rfl

/-- A result goes to the capture and to the open-wire test: they and the capture's register change, and nothing else. -/
theorem takes_frame : owTake a f (calTake a f q) =
    { q with cal := (calTake a f q).cal, ow := (owTake a f (calTake a f q)).ow, r := (calTake a f q).r } := by
  rw [owTake_frame, calTake_frame]

end

section
variable (e : Q0Entry) (s : State)

theorem q0Put_frame : q0Put e s =
    { s with acq := { s.acq with q0 := (q0Put e s).acq.q0 }, sys := { s.sys with qcnt := (q0Put e s).sys.qcnt } } := by
  unfold q0Put
  dsimp only
  split
  · rfl
  · split <;> rfl

theorem q0Put_room (h : s.acq.q0.length < 512) : q0Put e s = { s with acq := { s.acq with q0 := s.acq.q0 ++ [e] } } := if_pos h

end

/-! ## A result becomes readable (R206, R210) -/

section
variable (a : Nat) (f : Int) (res : Res) (s : State)

/-- The result with the `ow` flag of the open-wire test's phases 2 to 4 (R218). -/
def owFlagged : Res := { res with flags := if owPhase s a 2 4 then res.flags ||| 2 else res.flags }

/-- The registers of the channel show the result. -/
def resultRegs (r : RegFile) : RegFile := setF (kvSet r (R.ACQ_CHn_RES a) res.val) (F.ACQ_CHn_STAT_flags a) res.flags.toNat

/-- The result is shown, taken by the capture and the open-wire test, and readable in this stride. -/
def resultShown : State :=
  let q := owTake a f (calTake a f { s.acq with r := resultRegs a res s.acq.r })
  { s with acq := { q with chans := vmod q.chans a fun x => { x with resAt := some (strideCnt s) } } }

/-- The result enters queue 0 where a placed binding reads the channel. -/
def resultQueued : State := if q0Wanted s a then q0Put ⟨a, res, strideTag s⟩ s else s

theorem publish_eq : publish a f res s =
    (let r := owFlagged a res s
     let t := resultQueued a r (resultShown a f r s)
     if getF t.acq.r (F.ACQ_CHn_CFG_rec a) = 1 ∨ getF t.acq.r (F.ACQ_CHn_CFG_rec a) = 3 then
       record a 1 r.val (r.flags.getLsbD 0) (r.flags.getLsbD 1) (r.flags.getLsbD 2) 0 (strideCnt t) t
     else t) := rfl

theorem resultShown_frame : resultShown a f res s = { s with acq := { s.acq with
    r := (resultShown a f res s).acq.r, cal := (resultShown a f res s).acq.cal, ow := (resultShown a f res s).acq.ow,
    chans := vmod s.acq.chans a fun x => { x with resAt := some (strideCnt s) } } } := by
  unfold resultShown
  rw [takes_frame]

/-- Behind the shown result, registers beside that of the capture hold what the channel's registers show. -/
theorem kvGet_resultShown {o : Nat} (h : o ≠ R.ACQ_CAL_STAT) :
    kvGet (resultShown a f res s).acq.r o = kvGet (resultRegs a res s.acq.r) o := by
  unfold resultShown
  rw [takes_frame]
  exact kvGet_calTake_ne _ _ _ h

theorem resultShown_res : kvGet (resultShown a f res s).acq.r (R.ACQ_CHn_RES a) = res.val := by
  have hcal : R.ACQ_CHn_RES a ≠ R.ACQ_CAL_STAT := by unfold R.ACQ_CHn_RES R.ACQ_CAL_STAT; omega
  have hstat : R.ACQ_CHn_RES a ≠ (F.ACQ_CHn_STAT_flags a).ofs := by unfold R.ACQ_CHn_RES F.ACQ_CHn_STAT_flags; dsimp only; omega
  rw [kvGet_resultShown _ _ _ _ hcal, resultRegs, kvGet_setF_ne _ _ hstat, kvGet_kvSet_self]

theorem resultShown_flags : getF (resultShown a f res s).acq.r (F.ACQ_CHn_STAT_flags a) = res.flags.toNat := by
  have hcal : (F.ACQ_CHn_STAT_flags a).ofs ≠ R.ACQ_CAL_STAT := by unfold F.ACQ_CHn_STAT_flags R.ACQ_CAL_STAT; dsimp only; omega
  rw [getF_congr (kvGet_resultShown _ _ _ _ hcal)]
  exact getF_setF_small _ _ (Nat.le_of_ble_eq_true rfl) res.flags.isLt

theorem resultShown_rec : getF (resultShown a f res s).acq.r (F.ACQ_CHn_CFG_rec a) = getF s.acq.r (F.ACQ_CHn_CFG_rec a) := by
  apply getF_congr
  have hcal : (F.ACQ_CHn_CFG_rec a).ofs ≠ R.ACQ_CAL_STAT := by unfold F.ACQ_CHn_CFG_rec R.ACQ_CAL_STAT; dsimp only; omega
  have hstat : (F.ACQ_CHn_CFG_rec a).ofs ≠ (F.ACQ_CHn_STAT_flags a).ofs := by
    unfold F.ACQ_CHn_CFG_rec F.ACQ_CHn_STAT_flags; dsimp only; omega
  have hres : (F.ACQ_CHn_CFG_rec a).ofs ≠ R.ACQ_CHn_RES a := by unfold F.ACQ_CHn_CFG_rec R.ACQ_CHn_RES; dsimp only; omega
  rw [kvGet_resultShown _ _ _ _ hcal, resultRegs, kvGet_setF_ne _ _ hstat, kvGet_kvSet_ne _ _ hres]

theorem resultQueued_frame : resultQueued a res s = { s with
    acq := { s.acq with q0 := (resultQueued a res s).acq.q0 }, sys := { s.sys with qcnt := (resultQueued a res s).sys.qcnt } } := by
  unfold resultQueued
  split
  · exact q0Put_frame _ _
  · rfl

theorem resultQueued_unread (h : q0Wanted s a = false) : resultQueued a res s = s := if_neg (by simp [h])

theorem resultQueued_room (h : q0Wanted s a = true) (hq : s.acq.q0.length < 512) : resultQueued a res s =
    { s with acq := { s.acq with q0 := s.acq.q0 ++ [{ ain := a, res := res, tag := strideTag s }] } } :=
  (if_pos h).trans (q0Put_room _ _ hq)

theorem chans_resultShown : (resultShown a f res s).acq.chans = vmod s.acq.chans a fun x => { x with resAt := some (strideCnt s) } := by
  rw [resultShown_frame]

theorem q0_resultShown : (resultShown a f res s).acq.q0 = s.acq.q0 := by
  rw [resultShown_frame]

theorem chans_resultQueued : (resultQueued a res s).acq.chans = s.acq.chans := by
  rw [resultQueued_frame]

theorem regs_resultQueued : (resultQueued a res s).acq.r = s.acq.r := by
  rw [resultQueued_frame]

/-- A channel that writes no result records: its result is shown and queued, and that is all. -/
theorem publish_unrecorded (h : getF s.acq.r (F.ACQ_CHn_CFG_rec a) = 0) :
    publish a f res s = resultQueued a (owFlagged a res s) (resultShown a f (owFlagged a res s) s) := by
  rw [publish_eq]
  refine if_neg ?_
  rw [resultQueued_frame, resultShown_rec, h]
  decide

end

/-! ## CHANNEL_RESULT (R205 to R207) -/

/-- The channel's window is full, its last code's round complete, and its lane not fenced, while strides run. -/
structure ResultDue (a : Nat) (s : State) : Prop where
  strides : strides s = true
  window  : windowFull s a = true
  round   : roundFull s a = true
  lane    : s.flt.fLane.getLsbD (a / 8) = false

section
variable {a : Nat} {s : State}

theorem channelResult_idle (h : windowFull s a = false) : channelResult a s = s := if_pos (by simp [h])

theorem win_chanResult (s : State) (a : Nat) : (chanResult s a).2.2.win = [] := rfl

/-- A slow channel's result waits for its boundary in the channel behind its window. -/
def slowHeld (a : Nat) (s : State) : State :=
  { s with acq := { s.acq with chans := vset s.acq.chans a { (chanResult s a).2.2 with
      ready := some ((chanResult s a).2.1, (chanResult s a).1) } } }

/-- The channel behind its complete window: emptied, its notch advanced. -/
def windowTaken (a : Nat) (s : State) : State := { s with acq := { s.acq with chans := vset s.acq.chans a (chanResult s a).2.2 } }

/-- A stride channel's result as its registers show it, with the window taken. -/
def strideShown (a : Nat) (s : State) : State :=
  resultShown a (chanResult s a).1 (owFlagged a (chanResult s a).2.1 s) (windowTaken a s)

theorem channelResult_due (h : ResultDue a s) : channelResult a s = if (vget s.acq.chans a {}).slow then slowHeld a s
    else publish a (chanResult s a).1 (chanResult s a).2.1 (windowTaken a s) :=
  if_neg (by simp [h.strides, h.window, h.round, h.lane])

theorem channelResult_slow (h : ResultDue a s) (hslow : (vget s.acq.chans a {}).slow = true) : channelResult a s = slowHeld a s :=
  (channelResult_due h).trans (if_pos hslow)

/-- A stride channel that writes no result records. -/
theorem channelResult_stride (h : ResultDue a s) (hslow : (vget s.acq.chans a {}).slow = false)
    (hrec : getF s.acq.r (F.ACQ_CHn_CFG_rec a) = 0) :
    channelResult a s = resultQueued a (owFlagged a (chanResult s a).2.1 s) (strideShown a s) := by
  rw [channelResult_due h, if_neg (by simp [hslow]), publish_unrecorded a _ _ (windowTaken a s) hrec]
  rfl

theorem q0Wanted_strideShown : q0Wanted (strideShown a s) a = q0Wanted s a := rfl

theorem q0_strideShown : (strideShown a s).acq.q0 = s.acq.q0 := q0_resultShown ..

end

theorem exec_channelResult {s : State} (hc : coreReady s = true) (a : Fin 128) :
    exec (.channelResult a) s = .next (channelResult a s) := whenCore_ready hc _

/-! ## The statement -/

/-- What a result leaves beside the registers, the capture, the test, queue 0 and its count: the channel takes `x`. -/
structure ResultLeft (a : Fin 128) (x : Chan) (s t : State) : Prop where
  frame : t = { s with acq := t.acq, sys := { s.sys with qcnt := t.sys.qcnt } }
  buf   : t.acq.buf = s.acq.buf
  lanes : t.acq.lanes = s.acq.lanes
  chans : t.acq.chans = vset s.acq.chans a x

theorem ResultLeft.other {a k : Fin 128} {x : Chan} {s t : State} (h : ResultLeft a x s t) (hk : k ≠ a) :
    t.acq.chans[k] = s.acq.chans[k] := by
  rw [h.chans, getElem_vset_ne _ _ hk]

theorem ResultLeft.self {a : Fin 128} {x : Chan} {s t : State} (h : ResultLeft a x s t) : t.acq.chans[a] = x := by
  rw [h.chans, getElem_vset_self]

/-- A change of an entry just replaced replaces it by the changed one. -/
theorem vmod_vset {α : Type} {n : Nat} (v : Vector α n) (i : Fin n) (x : α) (f : α → α) : vmod (vset v i x) i f = vset v i (f x) := by
  rw [vmod_fin, vset_fin, vset_fin]
  simp

theorem resultLeft_slow (a : Fin 128) (s : State) :
    ResultLeft a { (chanResult s a).2.2 with ready := some ((chanResult s a).2.1, (chanResult s a).1) } s (slowHeld a s) :=
  ⟨rfl, rfl, rfl, rfl⟩

theorem resultLeft_stride (a : Fin 128) (res : Res) (s : State) :
    ResultLeft a { (chanResult s a).2.2 with resAt := some (strideCnt s) } s (resultQueued a res (strideShown a s)) := by
  refine ⟨?_, ?_, ?_, (chans_resultQueued ..).trans ((chans_resultShown ..).trans (vmod_vset _ _ _ _))⟩
  · rw [resultQueued_frame]
    rfl
  · rw [resultQueued_frame, strideShown, resultShown_frame]
    rfl
  · rw [resultQueued_frame, strideShown, resultShown_frame]
    rfl

/-- Settles O31: a result by whether its channel is slow, shown and queued in turn; a record by its eight bytes and its pointer. -/
theorem channelResultPublishes : Obligations.ChannelResultPublishes := by
  unfold Obligations.ChannelResultPublishes
  refine ⟨fun a s hc => ⟨fun h => ?_, fun hs hw hr hl hrec => ⟨_, exec_channelResult hc a, ?_⟩⟩, fun i v q at_ hat h0 hcap => ?_⟩
  · rw [exec_channelResult hc, channelResult_idle h]
  · have hdue : ResultDue a s := ⟨hs, hw, hr, hl⟩
    rw [← vget_fin s.acq.chans {} a]
    cases hslow : (vget s.acq.chans a {}).slow with
    | true =>
      rw [channelResult_slow hdue hslow]
      have hleft := resultLeft_slow a s
      refine ⟨hleft.frame, hleft.buf, hleft.lanes, fun k => hleft.other, ?_, fun _ => ⟨rfl, ?_⟩, fun h => absurd h (by decide)⟩
      · rw [hleft.self, win_chanResult]
      · rw [hleft.self]
    | false =>
      rw [channelResult_stride hdue hslow hrec]
      have hleft := resultLeft_stride a (owFlagged a (chanResult s a).2.1 s) s
      refine ⟨hleft.frame, hleft.buf, hleft.lanes, fun k => hleft.other, ?_, fun h => absurd h (by decide), fun _ =>
        ⟨?_, ?_, ?_, fun hq => ?_, fun hq hroom => ?_⟩⟩
      · rw [hleft.self, win_chanResult]
      · rw [regs_resultQueued]
        exact resultShown_res ..
      · rw [hleft.self]
      · rw [regs_resultQueued]
        exact resultShown_flags ..
      · rw [resultQueued_unread _ _ _ (q0Wanted_strideShown.trans hq)]
        exact ⟨q0_strideShown, rfl⟩
      · have hlen : (strideShown a s).acq.q0.length < 512 := by rw [q0_strideShown]; exact hroom
        rw [resultQueued_room _ _ _ (q0Wanted_strideShown.trans hq) hlen, q0_strideShown]
        exact ⟨rfl, _, rfl, rfl⟩
  · subst hat
    exact ⟨fun k => read_bufWrite_in i v q, fun x => read_bufWrite_out i v q, fun h => Memory.wf_writeBytes _ _ _ h,
      wptr_bufWrite i v q h0 hcap, fun o => kvGet_bufWrite_ne i v q, rfl⟩

end Sys2Proof.Machine
end

section
/-! Calibration captures, the open-wire test and the stop of a stream (R217, R218, R222): what each of their commands leaves, and the
statement about them. -/
namespace Sys2Proof.Machine

/-! ## A capture that is refused (R217, R364) -/

/-- A calibration is refused with `err`: `ACQ_CAL_STAT` and what an interrupt cause changes, and nothing else. -/
structure CalRefused (err : Nat) (s t : State) : Prop where
  frame   : t = { s with acq := { s.acq with r := t.acq.r }, hst := t.hst, two := t.two, out := t.out }
  refused : flag t.acq.r F.ACQ_CAL_STAT_refused = true
  err     : getF t.acq.r F.ACQ_CAL_STAT_err = err
  busy    : flag t.acq.r F.ACQ_CAL_STAT_busy = flag s.acq.r F.ACQ_CAL_STAT_busy
  regs    : ∀ o, o ≠ R.ACQ_CAL_STAT → kvGet t.acq.r o = kvGet s.acq.r o
  cause   : getBit t.hst.r R.HST_IRQ_STAT 7 = true

theorem calRefused_calRefuse {err : Nat} (he : err < 256) (s : State) : CalRefused err s (calRefuse err s) := by
  have hacq : (calRefuse err s).acq = { s.acq with r := setF (setFlag s.acq.r F.ACQ_CAL_STAT_refused) F.ACQ_CAL_STAT_err err } := irq_acq _ _
  refine ⟨?_, ?_, ?_, ?_, fun o ho => ?_, irq_stat 7 _ (by decide)⟩
  all_goals rw [hacq]
  · exact irq_frame 7 _
  · rw [flag_setF_bits _ _ (by decide) (by decide)]
    exact flag_setFlag_self _ _ (by decide) (by decide)
  · exact getF_setF_small _ _ (by decide) he
  · rw [flag_setF_bits _ _ (by decide) (by decide), flag_setFlag_bits _ (by decide) (by decide)]
  · exact (kvGet_setF_ne _ _ ho).trans (kvGet_setFlag_ne _ ho)

/-! ## The start of a capture (R217) -/

/-- The registers behind the start of a capture of `n` results. -/
def calBegunRegs (n : Nat) (r : RegFile) : RegFile :=
  setF (setF (setFlag r F.ACQ_CAL_STAT_busy) F.ACQ_CAL_STAT_left n) F.ACQ_CAL_STAT_err 0

section
variable (n : Nat) (r : RegFile)

theorem calBegunRegs_busy : flag (calBegunRegs n r) F.ACQ_CAL_STAT_busy = true := by
  unfold calBegunRegs
  rw [flag_setF_bits _ _ (by decide) (by decide), flag_setF_bits _ _ (by decide) (by decide)]
  exact flag_setFlag_self _ _ (by decide) (by decide)

theorem calBegunRegs_left (h : n < 65536) : getF (calBegunRegs n r) F.ACQ_CAL_STAT_left = n := by
  unfold calBegunRegs
  rw [getF_setF_bits _ _ (by decide) (by decide)]
  exact getF_setF_small _ _ (by decide) h

theorem calBegunRegs_err : getF (calBegunRegs n r) F.ACQ_CAL_STAT_err = 0 := getF_setF_small _ _ (by decide) (by decide)

theorem kvGet_calBegunRegs_ne {o : Nat} (h : o ≠ R.ACQ_CAL_STAT) : kvGet (calBegunRegs n r) o = kvGet r o :=
  (kvGet_setF_ne _ _ h).trans ((kvGet_setF_ne _ _ h).trans (kvGet_setFlag_ne _ h))

end

/-- The reason for which a start of a capture is refused: the first that holds. -/
def calReason (a : Nat) (s : State) : Nat :=
  if opState s ≠ 4 then 1 else if flag s.acq.r F.ACQ_STAT_ref_ready = false then 2
  else if (vget s.acq.chans a {}).present = false then 3 else 4

theorem calReason_lt (a : Nat) (s : State) : calReason a s < 256 := by
  unfold calReason
  split_ifs <;> decide

section
variable {full : Bool} {a n : Nat} {s : State}

theorem calStart_begins (hn : n ≠ 0) (hst : opState s = 4) (href : flag s.acq.r F.ACQ_STAT_ref_ready = true)
    (hch : (vget s.acq.chans a {}).present = true) (hcal : s.acq.cal = none) : calStart full a n s =
      { s with acq := { s.acq with cal := some { ain := a, full := full, count := n, left := n }, r := calBegunRegs n s.acq.r } } := by
  unfold calStart
  rw [if_neg hn, if_neg (not_not_intro hst), if_neg (by simp [href]), if_neg (by simp [hch]), if_neg (by simp [hcal])]
  rfl

theorem calStart_refused (hn : n ≠ 0) (h : opState s ≠ 4 ∨ flag s.acq.r F.ACQ_STAT_ref_ready = false ∨
    (vget s.acq.chans a {}).present = false ∨ s.acq.cal ≠ none) : calStart full a n s = calRefuse (calReason a s) s := by
  unfold calStart calReason
  rw [if_neg hn]
  by_cases hst : opState s = 4
  · rw [if_neg (not_not_intro hst), if_neg (not_not_intro hst)]
    cases href : flag s.acq.r F.ACQ_STAT_ref_ready with
    | false => simp
    | true =>
      cases hch : (vget s.acq.chans a {}).present with
      | false => simp
      | true =>
        have hcal : s.acq.cal ≠ none := by simpa [hst, href, hch] using h
        simp [Option.isSome_iff_ne_none.2 hcal]
  · rw [if_pos hst, if_pos hst]

end

/-! ## The end of a capture (R217) -/

/-- The state behind an abort of the capture in progress, before it is reported. -/
def calStopped (s : State) : State :=
  { s with acq := { s.acq with cal := none, r := setF (setF s.acq.r F.ACQ_CAL_STAT_busy 0) F.ACQ_CAL_STAT_left 0 } }

theorem calStopped_busy (s : State) : flag (calStopped s).acq.r F.ACQ_CAL_STAT_busy = false :=
  (flag_setF_bits _ _ (by decide) (by decide)).trans (flag_clear_self _ (by decide))

theorem kvGet_calStopped_ne (s : State) {o : Nat} (h : o ≠ R.ACQ_CAL_STAT) : kvGet (calStopped s).acq.r o = kvGet s.acq.r o :=
  (kvGet_setF_ne _ _ h).trans (kvGet_setF_ne _ _ h)

theorem calAbort_idle {s : State} (h : s.acq.cal = none) : calAbort s = s := if_pos (by rw [h]; rfl)

theorem calAbort_running {s : State} (h : s.acq.cal ≠ none) : calAbort s = calRefuse 7 (calStopped s) := if_neg (by simpa using h)

/-- The mean of a capture's results, rounded half up. -/
def calMean (c : Cal) : Int := (2 * c.sum + c.count) / (2 * c.count)

/-- The mean of a full-scale capture less the channel's offset. -/
def calSpan (c : Cal) (r : RegFile) : Int := calMean c - (kvGet r (R.ACQ_CHn_CAL_OFS c.ain)).toInt

/-- The gain of a full-scale capture. -/
def calGain (c : Cal) (r : RegFile) : Int := rround (((kvGet r R.ACQ_CAL_FS).toInt * 1048576 : Int) / (calSpan c r : Rat))

/-- The capture has ended, its result not yet judged. -/
def calEnded (s : State) : State := { s with acq := { s.acq with cal := none, r := setF s.acq.r F.ACQ_CAL_STAT_busy 0 } }

/-- A capture that writes its value into the registers `r`, with the channels `ch`. -/
def calWritten (r : RegFile) (ch : Vector Chan 128) (s : State) : State :=
  irq 7 { s with acq := { s.acq with r := setF (setFlag r F.ACQ_CAL_STAT_done) F.ACQ_CAL_STAT_err 0, chans := ch } }

section
variable (s : State)

theorem calEnded_busy : flag (calEnded s).acq.r F.ACQ_CAL_STAT_busy = false := flag_clear_self _ (by decide)

theorem kvGet_calEnded_ne {o : Nat} (h : o ≠ R.ACQ_CAL_STAT) : kvGet (calEnded s).acq.r o = kvGet s.acq.r o := kvGet_setF_ne _ _ h

theorem ofs_ne_calStat (a : Nat) : R.ACQ_CHn_CAL_OFS a ≠ R.ACQ_CAL_STAT := by unfold R.ACQ_CHn_CAL_OFS R.ACQ_CAL_STAT; omega

theorem gain_ne_calStat (a : Nat) : R.ACQ_CHn_CAL_GAIN a ≠ R.ACQ_CAL_STAT := by unfold R.ACQ_CHn_CAL_GAIN R.ACQ_CAL_STAT; omega

theorem gain_ne_ofs (a : Nat) : R.ACQ_CHn_CAL_GAIN a ≠ R.ACQ_CHn_CAL_OFS a := by unfold R.ACQ_CHn_CAL_GAIN R.ACQ_CHn_CAL_OFS; omega

theorem calSpan_calEnded (c : Cal) : calSpan c (calEnded s).acq.r = calSpan c s.acq.r := by
  unfold calSpan
  rw [kvGet_calEnded_ne _ (ofs_ne_calStat _)]

theorem calGain_calEnded (c : Cal) : calGain c (calEnded s).acq.r = calGain c s.acq.r := by
  unfold calGain
  rw [calSpan_calEnded, kvGet_calEnded_ne _ (by decide)]

end

/-! ### The gain keeps its range -/

/-- A quotient of at most `N` in size rounds to at most `N`. -/
theorem natAbs_rround_le {x d : Int} {N D : Nat} (hD : 0 < D) (hx : x.natAbs ≤ N * D) (hd : D ≤ d.natAbs) :
    (rround ((x : Rat) / (d : Rat))).natAbs ≤ N := by
  have habs : |(x : Rat) / (d : Rat)| ≤ N := by
    have hpos : (0 : Rat) < |(d : Rat)| := by
      rw [← Int.cast_abs, Int.abs_eq_natAbs]
      exact_mod_cast lt_of_lt_of_le hD hd
    have hle : |x| ≤ (N : Int) * |d| := by
      rw [Int.abs_eq_natAbs, Int.abs_eq_natAbs]
      exact_mod_cast hx.trans (Nat.mul_le_mul_left N hd)
    rw [abs_div, div_le_iff₀ hpos]
    exact_mod_cast hle
  obtain ⟨hlo, hhi⟩ := abs_le.1 habs
  have h1 : -(N : Int) ≤ rround ((x : Rat) / (d : Rat)) := Rat.le_floor_iff.2 (by push_cast; linarith)
  have h2 : rround ((x : Rat) / (d : Rat)) < (N : Int) + 1 := Rat.floor_lt_iff.2 (by push_cast; linarith)
  omega

theorem natAbs_toInt_le (w : Word) : w.toInt.natAbs ≤ 2 ^ 31 := by
  have hlo := BitVec.le_toInt w
  have hhi := BitVec.toInt_lt (x := w)
  omega

theorem satInt_small {x : Int} (h : x.natAbs ≤ 2 ^ 27) : satInt 32 x = x := by
  unfold satInt
  omega

theorem calGain_inRange {c : Cal} {r : RegFile} (h : 256 * 65536 ≤ (calSpan c r).natAbs) : calGain c r = satInt 32 (calGain c r) := by
  have hfs := natAbs_toInt_le (kvGet r R.ACQ_CAL_FS)
  have hnum : ((kvGet r R.ACQ_CAL_FS).toInt * 1048576).natAbs ≤ 2 ^ 27 * (256 * 65536) := by
    rw [Int.natAbs_mul]
    exact (Nat.mul_le_mul_right _ hfs).trans (by decide)
  exact (satInt_small (natAbs_rround_le (by decide) hnum h)).symm

/-! ### CAL_CAPTURE_COMPLETE -/

section
variable {c : Cal} {s : State}

theorem calComplete_idle (h : s.acq.cal = none) : calComplete s = s := by
  unfold calComplete
  rw [h]

theorem calComplete_lacks (h : s.acq.cal = some c) (hl : c.left ≠ 0) : calComplete s = s := by
  unfold calComplete
  rw [h]
  exact if_pos hl

theorem calComplete_zero (h : s.acq.cal = some c) (hl : c.left = 0) (hz : c.full = false) : calComplete s =
    calWritten (kvSet (calEnded s).acq.r (R.ACQ_CHn_CAL_OFS c.ain) (wordOf (calMean c))) s.acq.chans (calEnded s) := by
  unfold calComplete
  rw [h]
  exact (if_neg (not_not_intro hl)).trans (if_pos (by rw [hz]; rfl))

theorem calComplete_narrow (h : s.acq.cal = some c) (hl : c.left = 0) (hf : c.full = true)
    (hs : (calSpan c s.acq.r).natAbs < 256 * 65536) : calComplete s = calRefuse 5 (calEnded s) := by
  rw [← calSpan_calEnded] at hs
  unfold calComplete
  rw [h]
  exact (if_neg (not_not_intro hl)).trans ((if_neg (by rw [hf]; decide)).trans (if_pos hs))

theorem calComplete_full (h : s.acq.cal = some c) (hl : c.left = 0) (hf : c.full = true)
    (hs : 256 * 65536 ≤ (calSpan c s.acq.r).natAbs) : calComplete s =
      calWritten (kvSet (calEnded s).acq.r (R.ACQ_CHn_CAL_GAIN c.ain) (wordOf (calGain c s.acq.r)))
        (vmod s.acq.chans c.ain fun x => { x with calDef := false }) (calEnded s) := by
  rw [← calGain_calEnded]
  rw [← calSpan_calEnded] at hs
  unfold calComplete
  rw [h]
  exact (if_neg (not_not_intro hl)).trans ((if_neg (by rw [hf]; decide)).trans ((if_neg (not_lt.2 hs)).trans
    (if_neg (not_not_intro (calGain_inRange hs)))))

end

/-- The capture of channel `a` has ended: the capture's status, the channel and its two calibration registers may change, and what an
interrupt cause changes. -/
structure CalClosed (a : Nat) (s t : State) : Prop where
  frame : t = { s with acq := { s.acq with cal := none, r := t.acq.r, chans := t.acq.chans }, hst := t.hst, two := t.two, out := t.out }
  busy  : flag t.acq.r F.ACQ_CAL_STAT_busy = false
  cause : getBit t.hst.r R.HST_IRQ_STAT 7 = true
  regs  : ∀ o, o ≠ R.ACQ_CAL_STAT → o ≠ R.ACQ_CHn_CAL_OFS a → o ≠ R.ACQ_CHn_CAL_GAIN a → kvGet t.acq.r o = kvGet s.acq.r o

section
variable {a k : Nat} {s : State} (r : RegFile) (ch : Vector Chan 128)

theorem CalRefused.closed {err : Nat} {t : State} (h : CalRefused err (calEnded s) t) (a : Nat) : CalClosed a s t := by
  refine ⟨?_, h.busy.trans (calEnded_busy s), h.cause, fun o ho _ _ => (h.regs o ho).trans (kvGet_calEnded_ne s ho)⟩
  have hchans : t.acq.chans = s.acq.chans := by rw [h.frame]; rfl
  rw [hchans]
  exact h.frame

/-- A word written in the registers of a capture that ends, where it is no word of its status. -/
theorem kvGet_calWritten (s : State) {o : Nat} (h : o ≠ R.ACQ_CAL_STAT) :
    kvGet (calWritten r ch s).acq.r o = kvGet r o := by
  rw [calWritten, irq_acq]
  exact (kvGet_setF_ne _ _ h).trans (kvGet_setFlag_ne _ h)

theorem chans_calWritten (s : State) : (calWritten r ch s).acq.chans = ch := by
  rw [calWritten, irq_acq]

theorem calWritten_done (s : State) : flag (calWritten r ch s).acq.r F.ACQ_CAL_STAT_done = true := by
  rw [calWritten, irq_acq]
  exact (flag_setF_bits _ _ (by decide) (by decide)).trans (flag_setFlag_self _ _ (by decide) (by decide))

theorem calWritten_busy (s : State) :
    flag (calWritten r ch s).acq.r F.ACQ_CAL_STAT_busy = flag r F.ACQ_CAL_STAT_busy := by
  rw [calWritten, irq_acq]
  exact (flag_setF_bits _ _ (by decide) (by decide)).trans (flag_setFlag_bits _ (by decide) (by decide))

/-- A capture that writes one calibration register ends. -/
theorem calClosed_calWritten (hk : k = R.ACQ_CHn_CAL_OFS a ∨ k = R.ACQ_CHn_CAL_GAIN a) (v : Word) (s : State) :
    CalClosed a s (calWritten (kvSet (calEnded s).acq.r k v) ch (calEnded s)) := by
  have hstat : k ≠ R.ACQ_CAL_STAT := by
    obtain rfl | rfl := hk
    · exact ofs_ne_calStat a
    · exact gain_ne_calStat a
  refine ⟨?_, ?_, irq_stat 7 _ (by decide), fun o ho hofs hgain => ?_⟩
  · rw [calWritten, irq_acq]
    exact irq_frame 7 _
  · rw [calWritten_busy, ← calEnded_busy s]
    exact congrArg (· != 0) (getF_congr (kvGet_kvSet_ne _ _ hstat.symm))
  · have hne : o ≠ k := by
      obtain rfl | rfl := hk
      · exact hofs
      · exact hgain
    rw [kvGet_calWritten _ _ _ ho, kvGet_kvSet_ne _ _ hne, kvGet_calEnded_ne s ho]

end

/-! ### What CAL_CAPTURE_COMPLETE shows of a capture that has its results -/

section
variable {c : Cal} {s : State} (hcal : s.acq.cal = some c) (hl : c.left = 0)
include hcal hl

theorem calClosed_calComplete : CalClosed c.ain s (calComplete s) := by
  cases hf : c.full with
  | false =>
    rw [calComplete_zero hcal hl hf]
    exact calClosed_calWritten _ (.inl rfl) _ s
  | true =>
    obtain hs | hs := lt_or_ge (calSpan c s.acq.r).natAbs (256 * 65536)
    · rw [calComplete_narrow hcal hl hf hs]
      exact (calRefused_calRefuse (by decide) _).closed c.ain
    · rw [calComplete_full hcal hl hf hs]
      exact calClosed_calWritten _ (.inr rfl) _ s

/-- A zero capture stores its mean as the offset and leaves the gain. -/
theorem calComplete_writesOffset (hf : c.full = false) :
    kvGet (calComplete s).acq.r (R.ACQ_CHn_CAL_OFS c.ain) = wordOf (calMean c) ∧ flag (calComplete s).acq.r F.ACQ_CAL_STAT_done = true ∧
    (calComplete s).acq.chans = s.acq.chans ∧
    kvGet (calComplete s).acq.r (R.ACQ_CHn_CAL_GAIN c.ain) = kvGet s.acq.r (R.ACQ_CHn_CAL_GAIN c.ain) := by
  rw [calComplete_zero hcal hl hf]
  refine ⟨?_, calWritten_done .., chans_calWritten .., ?_⟩
  · rw [kvGet_calWritten _ _ _ (ofs_ne_calStat _), kvGet_kvSet_self]
  · rw [kvGet_calWritten _ _ _ (gain_ne_calStat _), kvGet_kvSet_ne _ _ (gain_ne_ofs _), kvGet_calEnded_ne _ (gain_ne_calStat _)]

/-- A full-scale capture leaves the offset. -/
theorem calComplete_keepsOffset (hf : c.full = true) :
    kvGet (calComplete s).acq.r (R.ACQ_CHn_CAL_OFS c.ain) = kvGet s.acq.r (R.ACQ_CHn_CAL_OFS c.ain) := by
  obtain hs | hs := lt_or_ge (calSpan c s.acq.r).natAbs (256 * 65536)
  · rw [calComplete_narrow hcal hl hf hs, (calRefused_calRefuse (by decide) _).regs _ (ofs_ne_calStat _),
      kvGet_calEnded_ne _ (ofs_ne_calStat _)]
  · rw [calComplete_full hcal hl hf hs, kvGet_calWritten _ _ _ (ofs_ne_calStat _), kvGet_kvSet_ne _ _ (gain_ne_ofs _).symm,
      kvGet_calEnded_ne _ (ofs_ne_calStat _)]

/-- A full-scale capture whose span is too narrow is refused and leaves the gain. -/
theorem calComplete_refuses (hf : c.full = true) (hs : (calSpan c s.acq.r).natAbs < 256 * 65536) :
    flag (calComplete s).acq.r F.ACQ_CAL_STAT_refused = true ∧ getF (calComplete s).acq.r F.ACQ_CAL_STAT_err = 5 ∧
    (calComplete s).acq.chans = s.acq.chans ∧
    kvGet (calComplete s).acq.r (R.ACQ_CHn_CAL_GAIN c.ain) = kvGet s.acq.r (R.ACQ_CHn_CAL_GAIN c.ain) := by
  have hshow := calRefused_calRefuse (err := 5) (by decide) (calEnded s)
  rw [calComplete_narrow hcal hl hf hs]
  refine ⟨hshow.refused, hshow.err, ?_, (hshow.regs _ (gain_ne_calStat _)).trans (kvGet_calEnded_ne _ (gain_ne_calStat _))⟩
  rw [hshow.frame]
  rfl

theorem calComplete_writesGain (ha : c.ain < 128) (hf : c.full = true) (hs : 256 * 65536 ≤ (calSpan c s.acq.r).natAbs) :
    flag (calComplete s).acq.r F.ACQ_CAL_STAT_done = true ∧
    kvGet (calComplete s).acq.r (R.ACQ_CHn_CAL_GAIN c.ain) = wordOf (calGain c s.acq.r) ∧
    (vget (calComplete s).acq.chans c.ain {}).calDef = false := by
  rw [calComplete_full hcal hl hf hs]
  refine ⟨calWritten_done .., ?_, ?_⟩
  · rw [kvGet_calWritten _ _ _ (gain_ne_calStat _), kvGet_kvSet_self]
  · rw [chans_calWritten, vget_vmod_self _ _ _ ha]

end

/-! ## The open-wire test (R218) -/

/-- A reason to refuse a start of the open-wire test. -/
def owBarred (s : State) : Bool :=
  s.acq.ow.isSome || ((owMasked s.acq.r).any fun a => getF s.acq.r (F.ACQ_CHn_CFG_pull a) == 0) ||
    getF s.acq.r F.ACQ_OW_CFG_ow_thr = 0 || getF s.acq.r F.ACQ_OW_CFG_settle = 0 || getF s.acq.r F.ACQ_OW_CFG_m = 0 ||
    (computing s && (owMasked s.acq.r).any (boundCritical s.img.str))

theorem owBarred_iff (s : State) : owBarred s = true ↔ s.acq.ow ≠ none ∨
    (∃ a ∈ owMasked s.acq.r, getF s.acq.r (F.ACQ_CHn_CFG_pull a) = 0) ∨ getF s.acq.r F.ACQ_OW_CFG_ow_thr = 0 ∨
    getF s.acq.r F.ACQ_OW_CFG_settle = 0 ∨ getF s.acq.r F.ACQ_OW_CFG_m = 0 ∨
    (computing s = true ∧ ∃ a ∈ owMasked s.acq.r, boundCritical s.img.str a = true) := by
  simp [owBarred, Option.isSome_iff_ne_none, or_assoc]

theorem not_owBarred {s : State} (h0 : s.acq.ow = none) (hpull : ∀ a ∈ owMasked s.acq.r, getF s.acq.r (F.ACQ_CHn_CFG_pull a) ≠ 0)
    (hthr : getF s.acq.r F.ACQ_OW_CFG_ow_thr ≠ 0) (hset : getF s.acq.r F.ACQ_OW_CFG_settle ≠ 0) (hm : getF s.acq.r F.ACQ_OW_CFG_m ≠ 0)
    (hcrit : computing s = true → ∀ a ∈ owMasked s.acq.r, boundCritical s.img.str a = false) : ¬ owBarred s = true := by
  rw [owBarred_iff]
  rintro (h | ⟨a, ha, h⟩ | h | h | h | ⟨hcomp, a, ha, h⟩)
  · exact h h0
  · exact hpull a ha h
  · exact hthr h
  · exact hset h
  · exact hm h
  · exact Bool.false_ne_true ((hcrit hcomp a ha).symm.trans h)

/-- The test as it begins. -/
def owBegun (r : RegFile) : OwTest :=
  { phase := 1, m := getF r F.ACQ_OW_CFG_m, settle := getF r F.ACQ_OW_CFG_settle, thr := getF r F.ACQ_OW_CFG_ow_thr,
    chans := (owMasked r).map fun a => { ain := a } }

theorem owStart_eq (s : State) : owStart s = if owBarred s then { s with acq := { s.acq with r := setFlag s.acq.r F.ACQ_OW_STAT_refused } }
    else { s with acq := { s.acq with ow := some (owBegun s.acq.r), r := setF s.acq.r F.ACQ_OW_STAT_phase 1 } } := rfl

theorem map_ain_owBegun (r : RegFile) : (owBegun r).chans.map (·.ain) = owMasked r := by
  simp [owBegun, Function.comp_def]

section
variable {s : State} {x : OwTest}

theorem owAbort_idle (h : s.acq.ow = none) : owAbort s = s := if_pos (by rw [h]; rfl)

theorem owAbort_running (h : s.acq.ow ≠ none) :
    owAbort s = { s with acq := { s.acq with ow := none, r := setF s.acq.r F.ACQ_OW_STAT_phase 0 } } := if_neg (by simpa using h)

/-- The phase of the test is done: by its results in 1 and 3, by its settling in 2 and 4. -/
def owDone (x : OwTest) : Bool :=
  if x.phase = 1 then x.chans.all fun c => x.m ≤ c.n1
  else if x.phase = 3 then x.chans.all fun c => x.m ≤ c.n2
  else x.settle ≤ x.waited

theorem owPhaseComplete_idle (h : s.acq.ow = none) : owPhaseComplete s = s := by
  unfold owPhaseComplete
  rw [h]

theorem owPhaseComplete_eq (h : s.acq.ow = some x) : owPhaseComplete s =
    if !owDone x then s
    else if x.phase = 4 then owJudge x s
    else { s with acq := { s.acq with ow := some { x with phase := x.phase + 1, waited := 0 },
                                       r := setF s.acq.r F.ACQ_OW_STAT_phase (x.phase + 1) } } := by
  unfold owPhaseComplete
  rw [h]
  rfl

theorem owDone_false (h : (x.phase = 1 ∧ ∃ c ∈ x.chans, c.n1 < x.m) ∨ (x.phase = 3 ∧ ∃ c ∈ x.chans, c.n2 < x.m) ∨
    ((x.phase = 2 ∨ x.phase = 4) ∧ x.waited < x.settle)) : owDone x = false := by
  unfold owDone
  obtain ⟨hp, hc⟩ | ⟨hp, hc⟩ | ⟨hp | hp, hw⟩ := h
  · simpa [hp] using hc
  · simpa [hp] using hc
  · simpa [hp] using hw
  · simpa [hp] using hw

theorem owDone_true (h : (x.phase = 1 ∧ ∀ c ∈ x.chans, x.m ≤ c.n1) ∨ (x.phase = 2 ∧ x.settle ≤ x.waited) ∨
    (x.phase = 3 ∧ ∀ c ∈ x.chans, x.m ≤ c.n2) ∨ (x.phase = 4 ∧ x.settle ≤ x.waited)) : owDone x = true := by
  unfold owDone
  obtain ⟨hp, hc⟩ | ⟨hp, hc⟩ | ⟨hp, hc⟩ | ⟨hp, hc⟩ := h
  all_goals simpa [hp] using hc

end

/-! ### The judgement of the channels -/

theorem getMap_putMap (r : RegFile) (ofs i j : Nat) (b : Bool) : getMap (putMap r ofs i b) ofs j = if j = i then b else getMap r ofs j := by
  unfold getMap putMap
  split
  next h =>
    subst h
    exact getBit_putBit_self _ _ _ _ (Nat.mod_lt _ (by decide))
  next h => exact getBit_putBit_ne _ _ _ _ _ _ (by omega) (Nat.mod_lt _ (by decide))

/-- The map at `ofs` with the bits of `l` set. -/
def mapSet (ofs : Nat) (l : List Nat) (r : RegFile) : RegFile := l.foldl (fun r a => putMap r ofs a true) r

theorem getMap_mapSet (ofs j : Nat) : ∀ (l : List Nat) (r : RegFile), getMap (mapSet ofs l r) ofs j = (getMap r ofs j || l.any (· == j))
  | [], r => by simp [mapSet]
  | a :: t, r => by
    have ih := getMap_mapSet ofs j t (putMap r ofs a true)
    rw [getMap_putMap] at ih
    refine ih.trans ?_
    by_cases h : j = a
    · simp [h]
    · simp [h, beq_false_of_ne (Ne.symm h)]

/-- A register below the map keeps its value. -/
theorem kvGet_mapSet_below {ofs o : Nat} (h : o < ofs) : ∀ (l : List Nat) (r : RegFile), kvGet (mapSet ofs l r) o = kvGet r o
  | [], _ => rfl
  | a :: t, r => (kvGet_mapSet_below h t (putMap r ofs a true)).trans (kvGet_putBit_ne _ _ _ _ _ (by omega))

/-- Events change the fault collector alone. -/
theorem raises_frame (src sub : Nat) : ∀ (l : List Nat) (s : State),
    l.foldl (fun s a => raise src a sub s) s = { s with flt := (l.foldl (fun s a => raise src a sub s) s).flt }
  | [], _ => rfl
  | a :: t, s => by
    rw [List.foldl_cons, raises_frame src sub t]
    rfl

/-- The channels that the test finds open. -/
def owFound (x : OwTest) : List Nat := (x.chans.filter (owOpen x.thr)).map (·.ain)

/-- The registers behind the end of a test that found `l` open. -/
def owJudgedRegs (l : List Nat) (r : RegFile) : RegFile :=
  let q := mapSet (R.ACQ_OW_OPENn 0) l (setF r F.ACQ_OW_STAT_phase 0)
  setFlag (if l.isEmpty then q else setFlag q F.ACQ_OW_STAT_open_found) F.ACQ_OW_STAT_done

section
variable (l : List Nat) (r : RegFile)

theorem owJudgedRegs_done : flag (owJudgedRegs l r) F.ACQ_OW_STAT_done = true := flag_setFlag_self _ _ (by decide) (by decide)

theorem owJudgedRegs_phase : getF (owJudgedRegs l r) F.ACQ_OW_STAT_phase = 0 := by
  have hmap : getF (mapSet (R.ACQ_OW_OPENn 0) l (setF r F.ACQ_OW_STAT_phase 0)) F.ACQ_OW_STAT_phase = 0 :=
    (getF_congr (kvGet_mapSet_below (by decide) l _)).trans (getF_setF_small _ _ (by decide) (by decide))
  unfold owJudgedRegs
  dsimp only
  rw [getF_setFlag_bits _ (by decide) (by decide)]
  split
  · exact hmap
  · rw [getF_setFlag_bits _ (by decide) (by decide), hmap]

theorem owJudgedRegs_open (a : Nat) :
    getMap (owJudgedRegs l r) (R.ACQ_OW_OPENn 0) a = (getMap r (R.ACQ_OW_OPENn 0) a || l.any (· == a)) := by
  have hstat : R.ACQ_OW_OPENn 0 + 4 * (a / 32) ≠ R.ACQ_OW_STAT := by unfold R.ACQ_OW_OPENn R.ACQ_OW_STAT; omega
  have hkeep {r q : RegFile} (h : ∀ o, o ≠ R.ACQ_OW_STAT → kvGet q o = kvGet r o) :
      getMap q (R.ACQ_OW_OPENn 0) a = getMap r (R.ACQ_OW_OPENn 0) a := congrArg (fun w : Word => w.getLsbD (a % 32)) (h _ hstat)
  have hflags : getMap (owJudgedRegs l r) (R.ACQ_OW_OPENn 0) a =
      getMap (mapSet (R.ACQ_OW_OPENn 0) l (setF r F.ACQ_OW_STAT_phase 0)) (R.ACQ_OW_OPENn 0) a := by
    refine hkeep fun o ho => (kvGet_setFlag_ne _ ho).trans ?_
    split
    · rfl
    · exact kvGet_setFlag_ne _ ho
  rw [hflags, getMap_mapSet, hkeep fun o ho => kvGet_setF_ne _ _ ho]

end

theorem owJudge_eq (x : OwTest) (s : State) : owJudge x s = irq 7 ((owFound x).foldl (fun s a => raise 21 a 255 s)
    { s with acq := { s.acq with ow := none, r := owJudgedRegs (owFound x) s.acq.r } }) := rfl

theorem owJudge_frame (x : OwTest) (s : State) : owJudge x s = { s with
    acq := { s.acq with ow := none, r := owJudgedRegs (owFound x) s.acq.r }, hst := (owJudge x s).hst, two := (owJudge x s).two,
    out := (owJudge x s).out, flt := (owJudge x s).flt } := by
  rw [owJudge_eq, irq_frame, raises_frame]

/-! ## The stop of a stream (R222) -/

/-- The registers of a stream that a trip has stopped. -/
def stoppedRegs (i : Nat) (r : RegFile) : RegFile := setFlag (setF r (F.ACQ_STRs_CFG_en i) 0) (F.ACQ_STRs_CFG_trip_stop i)

section
variable (i : Nat) (r : RegFile)

theorem stoppedRegs_en : flag (stoppedRegs i r) (F.ACQ_STRs_CFG_en i) = false :=
  (flag_setFlag_bits _ (Nat.le_of_ble_eq_true rfl) (.inl (Nat.le_of_ble_eq_true rfl))).trans
    (flag_clear_self _ (Nat.le_of_ble_eq_true rfl))

theorem stoppedRegs_tripStop : flag (stoppedRegs i r) (F.ACQ_STRs_CFG_trip_stop i) = true :=
  flag_setFlag_self _ _ (Nat.le_of_ble_eq_true rfl) (Nat.le_of_ble_eq_true rfl)

theorem kvGet_stoppedRegs_ne {o : Nat} (h : o ≠ R.ACQ_STRs_CFG i) : kvGet (stoppedRegs i r) o = kvGet r o :=
  (kvGet_setFlag_ne _ h).trans (kvGet_setF_ne _ _ h)

end

section
variable {i : Fin 4} {s : State}

theorem streamTripStop_records (h : s.acq.strs[i].left ≠ some 0) : streamTripStop i s = s := if_neg (by rwa [vget_fin])

theorem streamTripStop_stops (h : s.acq.strs[i].left = some 0) : streamTripStop i s = irq 7 { s with acq := { s.acq with
    r := stoppedRegs i s.acq.r, strs := s.acq.strs.set i { s.acq.strs[i] with left := none } } } := by
  rw [streamTripStop, vget_fin, if_pos h, stopStream, vmod_fin]
  rfl

end

/-! ## The statement -/

section
variable {s : State} (hc : coreReady s = true)
include hc

theorem exec_calStart (p : Path) (a : Fin 128) (n : BitVec 16) (full : Bool) :
    exec (if full then .calFullScale p a n else .calZero p a n) s = .next (calStart full a n.toNat s) := by
  cases full
  · exact whenCore_ready hc _
  · exact whenCore_ready hc _

theorem exec_calAbort (p : Path) : exec (.calAbort p) s = .next (calAbort s) := whenCore_ready hc _
theorem exec_calCaptureComplete : exec .calCaptureComplete s = .next (calComplete s) := whenCore_ready hc _
theorem exec_owStart (p : Path) : exec (.owStart p) s = .next (owStart s) := whenCore_ready hc _
theorem exec_owAbort (p : Path) : exec (.owAbort p) s = .next (owAbort s) := whenCore_ready hc _
theorem exec_owPhaseComplete : exec .owPhaseComplete s = .next (owPhaseComplete s) := whenCore_ready hc _
theorem exec_streamTripStop (i : Fin 4) : exec (.streamTripStop i) s = .next (streamTripStop i s) := whenCore_ready hc _

end

/-- Settles O32: a capture by its start's reason and its end's case, the open-wire test by its phase, a stream by its records left. -/
theorem captureAndWireTests : Obligations.CaptureAndWireTests := by
  unfold Obligations.CaptureAndWireTests
  refine ⟨fun p a n s hc => ⟨fun hn full => ⟨fun hst href hch hcal => ?_, fun h => ?_⟩, fun hcal => ?_, fun hcal => ?_,
    fun c hcal hl => ?_, fun c mean hcal hl ha hmean => ⟨_, exec_calCaptureComplete hc, ?_⟩⟩,
    fun p s hc => ⟨fun h => ?_, fun h0 hpull hthr hset hm hcrit => ?_, fun h => ?_, fun h => ?_, fun x hx => ⟨fun h => ?_, fun h => ?_,
      fun hp hw ha => ?_⟩, fun i => ⟨fun h => ?_, fun h => ?_⟩⟩⟩
  · have hn0 : n.toNat ≠ 0 := fun h0 => hn (BitVec.eq_of_toNat_eq h0)
    rw [exec_calStart hc, calStart_begins hn0 hst href (by rwa [vget_fin]) hcal]
    exact ⟨_, rfl, rfl, rfl, calBegunRegs_busy .., calBegunRegs_left _ _ n.isLt, calBegunRegs_err .., fun o ho => kvGet_calBegunRegs_ne _ _ ho⟩
  · have hn0 : n.toNat ≠ 0 := fun h0 => hn (BitVec.eq_of_toNat_eq h0)
    have hshow := calRefused_calRefuse (calReason_lt a s) s
    rw [exec_calStart hc, calStart_refused hn0 (by rwa [vget_fin])]
    refine ⟨_, rfl, hshow.frame, hshow.refused, hshow.err.trans ?_, hshow.regs, hshow.cause⟩
    rw [calReason, vget_fin]
  · rw [exec_calAbort hc, exec_calCaptureComplete hc, calAbort_idle hcal, calComplete_idle hcal]
    exact ⟨rfl, rfl⟩
  · have hshow := calRefused_calRefuse (err := 7) (by decide) (calStopped s)
    rw [exec_calAbort hc, calAbort_running hcal]
    exact ⟨_, rfl, hshow.frame, hshow.busy.trans (calStopped_busy s), hshow.refused, hshow.err,
      fun o ho => (hshow.regs o ho).trans (kvGet_calStopped_ne s ho), hshow.cause⟩
  · rw [exec_calCaptureComplete hc, calComplete_lacks hcal hl]
  · have hclosed := calClosed_calComplete hcal hl
    subst hmean
    refine ⟨hclosed.frame, hclosed.busy, hclosed.cause, hclosed.regs, calComplete_writesOffset hcal hl,
      fun hf => ⟨calComplete_keepsOffset hcal hl hf, ?_⟩⟩
    rintro span gain rfl rfl
    exact ⟨calComplete_refuses hcal hl hf, calComplete_writesGain hcal hl ha hf⟩
  · rw [exec_owStart hc, owStart_eq, if_pos ((owBarred_iff s).2 h)]
  · rw [exec_owStart hc, owStart_eq, if_neg (not_owBarred h0 hpull hthr hset hm hcrit)]
    exact ⟨_, owBegun s.acq.r, rfl, rfl, rfl, rfl, rfl, rfl, map_ain_owBegun _, getF_setF_small _ _ (by decide) (by decide),
      fun o ho => kvGet_setF_ne _ _ ho⟩
  · rw [exec_owAbort hc, exec_owPhaseComplete hc, owAbort_idle h, owPhaseComplete_idle h]
    exact ⟨rfl, rfl⟩
  · rw [exec_owAbort hc, owAbort_running h]
    exact ⟨_, rfl, rfl, getF_setF_small _ _ (by decide) (by decide), fun o ho => kvGet_setF_ne _ _ ho⟩
  · rw [exec_owPhaseComplete hc, owPhaseComplete_eq hx, owDone_false h]
    rfl
  · have hdone : owDone x = true := owDone_true (by tauto)
    have hphase : x.phase < 4 := by omega
    rw [exec_owPhaseComplete hc, owPhaseComplete_eq hx, hdone, if_neg (by decide), if_neg hphase.ne]
    exact ⟨_, rfl, rfl, getF_setF_small _ _ (by decide) (Nat.succ_lt_succ (hphase.trans (by decide))), fun o ho => kvGet_setF_ne _ _ ho⟩
  · have hdone : owDone x = true := owDone_true (by tauto)
    have hacq : (owJudge x s).acq.r = owJudgedRegs (owFound x) s.acq.r := by rw [owJudge_frame]
    rw [exec_owPhaseComplete hc, owPhaseComplete_eq hx, hdone, if_neg (by decide), if_pos hp]
    refine ⟨_, rfl, ?_, ?_, ?_, fun a => ?_, irq_stat 7 _ (by decide)⟩
    all_goals rw [hacq]
    · exact owJudge_frame x s
    · exact owJudgedRegs_done ..
    · exact owJudgedRegs_phase ..
    · rw [owJudgedRegs_open, owFound, List.any_map]
      rfl
  · rw [exec_streamTripStop hc, streamTripStop_records h]
  · rw [exec_streamTripStop hc, streamTripStop_stops h]
    refine ⟨_, rfl, ?_, ?_, ?_, fun o ho => ?_, irq_stat 7 _ (by decide)⟩
    all_goals rw [irq_acq]
    · exact irq_frame 7 _
    · exact stoppedRegs_en ..
    · exact stoppedRegs_tripStop ..
    · exact kvGet_stoppedRegs_ne _ _ ho

end Sys2Proof.Machine
end

section
/-! Link ports and the bypass switch (R225, R227 to R231, R235, R236, R238, R256): what a word sent in training, a loss of lock, a port
that comes UP and the switch change, and the statement about them. -/
namespace Sys2Proof.Machine

section
variable {p : Fin 50} {s : State}

theorem portUp_fin : portUp s p = true ↔ s.lnk.port[p].st = 4 := by
  rw [portUp, portOf, vget_fin, beq_iff_eq]

theorem portUp_eq_false_fin : portUp s p = false ↔ s.lnk.port[p].st ≠ 4 := by
  rw [← Bool.not_eq_true, portUp_fin]

theorem modPort_fin (f : LnkPort → LnkPort) : modPort p f s = heard (s.lnk.port.set p (f s.lnk.port[p])) s.out s := by
  unfold modPort
  rw [vmod_fin]
  rfl

theorem modPort_modPort (f g : LnkPort → LnkPort) : modPort p g (modPort p f s) = modPort p (fun x => g (f x)) s := by
  rw [modPort_fin, modPort_fin, modPort_fin]
  simp [heard]

end

/-! ## Words sent in training (R225, R229, R231) -/

/-- Port `p`, which is now `x`, has sent a control word in training, and the data words behind it, at running disparity `rd`. -/
def trained (p : Fin 50) (x : LnkPort) (rd : Int) (ctl : Half) (ws : List Half) (s : State) : State :=
  { s with
    lnk := { s.lnk with port := s.lnk.port.set p { x with txRd := (codeFrom rd ctl ws).2 } }
    out := s.out ++ [.link p (ctl :: ws) (codeFrom rd ctl ws).1]
    free := s.free + 1 }

section
variable (p : Fin 50) (ctl : Half) (ws : List Half) (s : State)

theorem trainRd_bounds : -16 ≤ (trainRd s).1 ∧ (trainRd s).1 ≤ 16 := by
  have hdraw : (trainRd s).1 = 2 * (((drawFree s).1.toNat % 17 : Nat) : Int) - 16 := rfl
  have hlt : (drawFree s).1.toNat % 17 < 17 := Nat.mod_lt _ (by decide)
  omega

theorem sendTrain_eq : sendTrain p ctl ws s = trained p s.lnk.port[p] (trainRd s).1 ctl ws s :=
  congrArg (emit (.link p (ctl :: ws) (codeFrom (trainRd s).1 ctl ws).1))
    (modPort_fin (s := (drawFree s).2) fun x => { x with txRd := (codeFrom (trainRd s).1 ctl ws).2 })

theorem sendTrain_modPort (f : LnkPort → LnkPort) :
    sendTrain p ctl ws (modPort p f s) = trained p (f s.lnk.port[p]) (trainRd s).1 ctl ws s := by
  rw [sendTrain_eq, modPort_fin]
  simp only [trained, heard, Vector.set_set, Fin.getElem_fin, Vector.getElem_set_self]
  rfl

theorem trained_txRd (x : LnkPort) (rd : Int) : (trained p x rd ctl ws s).lnk.port[p].txRd = (codeFrom rd ctl ws).2 :=
  congrArg LnkPort.txRd (Vector.getElem_set_self _)

end

section
variable {p : Fin 50} {s : State}

theorem linkAligned_down (h : s.lnk.port[p].st = 1) :
    linkAligned p s = trained p { s.lnk.port[p] with st := 2 } (trainRd s).1 ctlTS2 [] s := by
  unfold linkAligned
  rw [portOf, vget_fin, if_pos h, sendTrain_modPort]

theorem linkAligned_idle (h : s.lnk.port[p].st ≠ 1) : linkAligned p s = s := by
  unfold linkAligned
  rw [portOf, vget_fin, if_neg h]

theorem linkEcho_align (h : s.lnk.port[p].st = 2) : linkEcho p s =
    trained p { s.lnk.port[p] with st := 3, echoN := 0, echoSum := 0, segValid := false } (trainRd s).1 ctlECH [] s := by
  unfold linkEcho
  rw [portOf, vget_fin, if_pos h, sendTrain_modPort]

theorem linkEcho_idle (h : s.lnk.port[p].st ≠ 2) : linkEcho p s = s := by
  unfold linkEcho
  rw [portOf, vget_fin, if_neg h]

theorem echoRequest_echo {wait : BitVec 7} (h : s.lnk.port[p].st = 3) :
    echoRequest p wait s = trained p s.lnk.port[p] (trainRd s).1 ctlECR [turnaround wait] s := by
  unfold echoRequest
  rw [portOf, vget_fin, if_pos h, sendTrain_eq]

theorem echoRequest_idle {wait : BitVec 7} (h : s.lnk.port[p].st ≠ 3) : echoRequest p wait s = s := by
  unfold echoRequest
  rw [portOf, vget_fin, if_neg h]

section
variable {trip : Nat} {turn : Half}

theorem echoReply_first (h : s.lnk.port[p].st = 3) (hn : s.lnk.port[p].echoN < 7) : echoReply p trip turn s =
    trained p { s.lnk.port[p] with
      echoN := s.lnk.port[p].echoN + 1, echoSum := s.lnk.port[p].echoSum + (trip - turn.toNat) } (trainRd s).1 ctlECH [] s := by
  unfold echoReply
  rw [portOf, vget_fin]
  dsimp only
  rw [if_neg (by omega), if_neg (by omega), sendTrain_modPort]

theorem echoReply_last (h : s.lnk.port[p].st = 3) (hn : s.lnk.port[p].echoN = 7) : echoReply p trip turn s =
    trained p { s.lnk.port[p] with
      echoN := 8, echoSum := s.lnk.port[p].echoSum + (trip - turn.toNat), segValid := true,
      seg := min 65535 ((s.lnk.port[p].echoSum + (trip - turn.toNat) + 8) / 16) } (trainRd s).1 ctlIDL [] s := by
  unfold echoReply
  rw [portOf, vget_fin]
  dsimp only
  rw [if_neg (by omega), if_pos hn, sendTrain_modPort]

theorem echoReply_idle (h : s.lnk.port[p].st ≠ 3 ∨ 8 ≤ s.lnk.port[p].echoN) : echoReply p trip turn s = s := by
  unfold echoReply
  rw [portOf, vget_fin]
  exact if_pos h

end
end

/-! ## Training starts again (R229, R230) -/

/-- Port `p`, which was `x`, is DOWN and has sent `TS1` from running disparity 0. -/
def trainsAgain (p : Fin 50) (x : LnkPort) (s : State) : State :=
  heard (s.lnk.port.set p { x with st := 1, errs := [], txRd := 2 }) (s.out ++ [.link p [ctlTS1] [(3 : BitVec 2) ++ ctlTS1]]) s

/-- A loss of lock is counted. -/
def lossCounted (x : LnkPort) : LnkPort := { x with lockLoss := min 255 (x.lockLoss + 1) }

section
variable {p : Fin 50} {s : State}

theorem trainsAgain_port_ne {q : Fin 50} (h : q ≠ p) (x : LnkPort) : (trainsAgain p x s).lnk.port[q] = s.lnk.port[q] :=
  Vector.getElem_set_ne p.isLt q.isLt (Fin.val_ne_of_ne h.symm)

theorem portDown_modPort (f : LnkPort → LnkPort) : portDown p (modPort p f s) = trainsAgain p (f s.lnk.port[p]) s := by
  have hcode : codeFrom 0 ctlTS1 [] = ([(3 : BitVec 2) ++ ctlTS1], 2) := rfl
  unfold portDown sendLink
  rw [hcode]
  dsimp only
  rw [modPort_modPort, modPort_modPort, modPort_fin]
  rfl

theorem trainTimeout_training (h : 1 ≤ s.lnk.port[p].st ∧ s.lnk.port[p].st ≤ 3) : trainTimeout p s =
    trainsAgain p { s.lnk.port[p] with trainTo := min 65535 (s.lnk.port[p].trainTo + 1) } s := by
  unfold trainTimeout
  rw [portOf, vget_fin]
  dsimp only
  rw [if_pos h, portDown_modPort]

theorem trainTimeout_idle (h : ¬(1 ≤ s.lnk.port[p].st ∧ s.lnk.port[p].st ≤ 3)) : trainTimeout p s = s := by
  unfold trainTimeout
  rw [portOf, vget_fin]
  exact if_neg h

theorem portLosesLock_up (h : s.lnk.port[p].st = 4) : portLosesLock p s = trainsAgain p (lossCounted s.lnk.port[p]) s := by
  unfold portLosesLock
  rw [if_pos (portUp_fin.2 h)]
  exact portDown_modPort lossCounted

theorem portLosesLock_idle (h : s.lnk.port[p].st ≠ 4) : portLosesLock p s = s := by
  unfold portLosesLock
  rw [portUp_eq_false_fin.2 h, if_neg (by decide)]

end

/-- Port `p` has lost its lock where it had one, and no other port has changed. -/
structure LostLock (p : Fin 50) (s t : State) : Prop where
  frame : t = heard t.lnk.port t.out s
  down  : t.lnk.port[p].st ≠ 4
  count : t.lnk.port[p].lockLoss =
    if s.lnk.port[p].st = 4 then min 255 (s.lnk.port[p].lockLoss + 1) else s.lnk.port[p].lockLoss
  other : ∀ q : Fin 50, q ≠ p → t.lnk.port[q] = s.lnk.port[q]

theorem lostLock_portLosesLock (p : Fin 50) (s : State) : LostLock p s (portLosesLock p s) := by
  by_cases h : s.lnk.port[p].st = 4
  · rw [portLosesLock_up h]
    refine ⟨rfl, ?_, ?_, fun q hq => trainsAgain_port_ne hq _⟩
    · simp [trainsAgain, heard]
    · rw [if_pos h]
      exact congrArg LnkPort.lockLoss (Vector.getElem_set_self _)
  · rw [portLosesLock_idle h]
    exact ⟨rfl, h, (if_neg h).symm, fun _ _ => rfl⟩

/-! ## A loss of lock (R227, R228, R230, R238) -/

/-- A port's errors are counted. -/
def errsCounted (code disp : Nat) (x : LnkPort) : LnkPort :=
  { x with codeErr := min 65535 (x.codeErr + code), dispErr := min 255 (x.dispErr + disp) }

theorem countErrors_fin (p : Fin 50) (code disp : Nat) (s : State) :
    countErrors p code disp s = heard (s.lnk.port.set p (errsCounted code disp s.lnk.port[p])) s.out s := modPort_fin _

/-- What leaves port `p` of the frame it was sending, `n` words of which had left. -/
def frameCut (p : Nat) (x : LnkPort) : Option Nat → List Out
  | some n => [.abort p (x.last.take n) (codeFrame x.lastRd (x.last.take n) ctlABT).1]
  | none => []

/-- Where port `p` was receiving a hive frame, the copy under way ends with `ABT`. -/
def copyCut (p : Nat) (rx : List Half) (t : Nat) (s : State) : State :=
  if 48 ≤ p ∧ rx ≠ [] then hiveForward p false t (rx.take 7) s else s

section
variable {p : Fin 50} {s : State} (sent : Option Nat) (rx : List Half) (t : Nat)

theorem lockLoss_down (h : s.lnk.port[p].st ≠ 4) : lockLoss p sent rx t s = s := by
  unfold lockLoss
  rw [portUp_eq_false_fin.2 h]
  rfl

theorem lockLoss_up (h : s.lnk.port[p].st = 4) : lockLoss p sent rx t s =
    portLosesLock p (copyCut p rx t (heard s.lnk.port (s.out ++ frameCut p s.lnk.port[p] sent) s)) := by
  unfold lockLoss
  rw [portUp_fin.2 h, if_neg (by decide)]
  cases sent with
  | none =>
    rw [frameCut, List.append_nil]
    rfl
  | some n =>
    dsimp only
    rw [portOf, vget_fin]
    rfl

end

/-- What a frame sent leaves of a port: its state and its counts. -/
def portCounts (x : LnkPort) : Nat × Nat × Nat × Nat := (x.st, x.codeErr, x.dispErr, x.lockLoss)

/-- Only port 97 − p has sent a frame. -/
structure CopySent (p : Fin 50) (s t : State) : Prop where
  frame  : t = heard t.lnk.port t.out s
  self   : t.lnk.port[p] = s.lnk.port[p]
  counts : ∀ q : Fin 50, portCounts t.lnk.port[q] = portCounts s.lnk.port[q]

theorem copySent_transmit {p : Fin 50} {o : Nat} (ho : p.val ≠ o) (t : Int) (ws : List Half) (fin : Half) (s : State) :
    CopySent p s (transmit o t ws fin s) := by
  refine ⟨rfl, ?_, fun q => ?_⟩
  · rw [← vget_fin _ {} p, ← vget_fin _ {} p]
    exact vget_vmod_ne _ _ _ ho
  · rw [← vget_fin _ {} q, ← vget_fin _ {} q]
    exact portOf_modPort portCounts (fun _ => by rfl) o q s

theorem copySent_copyCut (p : Fin 50) (rx : List Half) (t : Nat) (s : State) : CopySent p s (copyCut p rx t s) := by
  have hsame : CopySent p s s := ⟨rfl, rfl, fun _ => rfl⟩
  unfold copyCut
  split
  · unfold hiveForward
    dsimp only
    split
    · exact hsame
    · rw [if_neg (by decide)]
      exact copySent_transmit (by omega) ..
  · exact hsame

theorem copyCut_none {p : Nat} {rx : List Half} (h : p < 48 ∨ rx = []) (t : Nat) (s : State) : copyCut p rx t s = s := by
  refine if_neg ?_
  rintro ⟨hp, hrx⟩
  exact h.elim (not_lt.2 hp) hrx

/-- A copy that is due ends with `ABT` after as many words as came in, seven at most. -/
theorem copyCut_abort {p : Nat} {rx : List Half} {s : State} (hp : 48 ≤ p) (hrx : rx ≠ []) (hhops : 1 < (rx.getD 0 0).toNat / 16 % 16)
    (hup : portUp s (97 - p) = true) (hopen : bypassed s = false) (t : Nat) :
    ∃ ws cs, Out.abort (97 - p) ws cs ∈ (copyCut p rx t s).out ∧ ws.length = min 7 rx.length := by
  have hfirst : (rx.take 7).getD 0 0 = rx.getD 0 0 := by simp [List.getD_eq_getElem?_getD]
  unfold copyCut hiveForward
  dsimp only
  rw [if_pos ⟨hp, hrx⟩, hfirst, if_neg (by simpa [hup, hopen] using hhops), if_neg (by decide)]
  refine ⟨_, _, List.mem_append_right _ (List.mem_singleton_self _), ?_⟩
  simp only [List.length_take, List.length_cons, List.length_drop]
  omega

section
variable {p : Fin 50} {s : State} (ce de : Nat) (sent : Option Nat) (rx : List Half) (time : Nat)

/-- The state in which a port that was UP loses its lock: its errors are counted, the frames under way have ended. -/
def framesEnded (p : Fin 50) (ce de : Nat) (sent : Option Nat) (rx : List Half) (time : Nat) (s : State) : State :=
  copyCut p rx time
    (heard (s.lnk.port.set p (errsCounted ce de s.lnk.port[p])) (s.out ++ frameCut p s.lnk.port[p] sent) s)

theorem execLockLoss_down (h : s.lnk.port[p].st ≠ 4) : exec (.lockLoss p ⟨ce, de⟩ ⟨sent, rx, time⟩) s =
    .next (heard (s.lnk.port.set p (errsCounted ce de s.lnk.port[p])) s.out s) := by
  have hst : (countErrors p ce de s).lnk.port[p].st ≠ 4 := by
    rw [countErrors_fin]
    simpa [heard, errsCounted] using h
  exact congrArg Host.Outcome.next ((lockLoss_down sent rx time hst).trans (countErrors_fin ..))

theorem execLockLoss_up (h : s.lnk.port[p].st = 4) : exec (.lockLoss p ⟨ce, de⟩ ⟨sent, rx, time⟩) s =
    .next (trainsAgain p (lossCounted (errsCounted ce de s.lnk.port[p])) (framesEnded p ce de sent rx time s)) := by
  have hself : (countErrors p ce de s).lnk.port[p] = errsCounted ce de s.lnk.port[p] := by
    rw [countErrors_fin]
    exact Vector.getElem_set_self _
  have hst : (countErrors p ce de s).lnk.port[p].st = 4 := by
    rw [hself]
    exact h
  have hended : copyCut p rx time (heard (countErrors p ce de s).lnk.port
      ((countErrors p ce de s).out ++ frameCut p (countErrors p ce de s).lnk.port[p] sent) (countErrors p ce de s)) =
      framesEnded p ce de sent rx time s := by
    rw [hself, countErrors_fin, framesEnded]
    cases sent <;> rfl
  have hport : (framesEnded p ce de sent rx time s).lnk.port[p] = errsCounted ce de s.lnk.port[p] :=
    (copySent_copyCut p rx time _).self.trans (Vector.getElem_set_self _)
  refine congrArg Host.Outcome.next ((lockLoss_up sent rx time hst).trans ?_)
  rw [hended, portLosesLock_up, hport]
  rw [hport]
  exact h

end

section
variable {p : Fin 50} {s : State} {ce de : Nat} {sent : Option Nat} {rx : List Half} {time : Nat}

theorem framesEnded_frame : framesEnded p ce de sent rx time s =
    heard (framesEnded p ce de sent rx time s).lnk.port (framesEnded p ce de sent rx time s).out s :=
  (copySent_copyCut p rx time
    (heard (s.lnk.port.set p (errsCounted ce de s.lnk.port[p])) (s.out ++ frameCut p s.lnk.port[p] sent) s)).frame

theorem framesEnded_counts {q : Fin 50} (hq : q ≠ p) :
    portCounts (framesEnded p ce de sent rx time s).lnk.port[q] = portCounts s.lnk.port[q] :=
  ((copySent_copyCut p rx time _).counts q).trans
    (congrArg portCounts (Vector.getElem_set_ne p.isLt q.isLt (Fin.val_ne_of_ne hq.symm)))

theorem framesEnded_noCopy (h : p.val < 48 ∨ rx = []) : framesEnded p ce de sent rx time s =
    heard (s.lnk.port.set p (errsCounted ce de s.lnk.port[p])) (s.out ++ frameCut p s.lnk.port[p] sent) s :=
  copyCut_none h _ _

theorem framesEnded_abort (hp : 48 ≤ p.val) (hrx : rx ≠ []) (hhops : 1 < (rx.getD 0 0).toNat / 16 % 16)
    (hup : portUp s (97 - p) = true) (hopen : bypassed s = false) :
    ∃ ws cs, Out.abort (97 - p) ws cs ∈ (framesEnded p ce de sent rx time s).out ∧ ws.length = min 7 rx.length := by
  have hne : 97 - p.val ≠ p.val := by omega
  have hup' : portUp (heard (s.lnk.port.set p (errsCounted ce de s.lnk.port[p])) (s.out ++ frameCut p s.lnk.port[p] sent) s)
      (97 - p) = true := by
    rw [← hup]
    refine congrArg (fun x : LnkPort => x.st == 4) ?_
    rw [← vmod_fin s.lnk.port p (errsCounted ce de)]
    exact vget_vmod_ne _ _ _ hne
  exact copyCut_abort hp hrx hhops hup' hopen time

/-- The part of the statement about a port that was UP. -/
theorem lockLoss_up_shows (h : s.lnk.port[p].st = 4) : ∃ t, exec (.lockLoss p ⟨ce, de⟩ ⟨sent, rx, time⟩) s = .next t ∧
    t = { s with lnk := { s.lnk with port := t.lnk.port }, out := t.out } ∧
    t.lnk.port[p] = { s.lnk.port[p] with
      st := 1, lockLoss := min 255 (s.lnk.port[p].lockLoss + 1), errs := [], txRd := 2,
      codeErr := min 65535 (s.lnk.port[p].codeErr + ce), dispErr := min 255 (s.lnk.port[p].dispErr + de) } ∧
    (∀ q : Fin 50, q ≠ p → t.lnk.port[q].st = s.lnk.port[q].st ∧ t.lnk.port[q].codeErr = s.lnk.port[q].codeErr ∧
      t.lnk.port[q].dispErr = s.lnk.port[q].dispErr ∧ t.lnk.port[q].lockLoss = s.lnk.port[q].lockLoss) ∧
    (p.val < 48 ∨ rx = [] → (∀ q : Fin 50, q ≠ p → t.lnk.port[q] = s.lnk.port[q]) ∧
      t.out = s.out ++ frameCut p s.lnk.port[p] sent ++ [.link p [ctlTS1] [(3 : BitVec 2) ++ ctlTS1]]) ∧
    (48 ≤ p.val → rx ≠ [] → 1 < (rx.getD 0 0).toNat / 16 % 16 → portUp s (97 - p) = true → bypassed s = false →
      ∃ ws cs, Out.abort (97 - p) ws cs ∈ t.out ∧ ws.length = min 7 rx.length) := by
  refine ⟨_, execLockLoss_up ce de sent rx time h, ?_, Vector.getElem_set_self _, fun q hq => ?_, fun hnone => ?_,
    fun hp hrx hhops hup hopen => ?_⟩
  · rw [framesEnded_frame]
    rfl
  · rw [trainsAgain_port_ne hq]
    simpa only [portCounts, Prod.mk.injEq] using framesEnded_counts hq
  · rw [framesEnded_noCopy hnone]
    exact ⟨fun q hq => (trainsAgain_port_ne hq _).trans (Vector.getElem_set_ne p.isLt q.isLt (Fin.val_ne_of_ne hq.symm)), rfl⟩
  · obtain ⟨ws, cs, hmem, hlen⟩ := framesEnded_abort hp hrx hhops hup hopen
    exact ⟨ws, cs, List.mem_append_left _ hmem, hlen⟩

end

/-! ## A port comes UP (R229) -/

/-- Port `p` is UP and sends `IDL`, from a running disparity the manual leaves open. -/
def cameUp (p : Fin 50) (s : State) : State :=
  { s with
    lnk := { s.lnk with port := s.lnk.port.set p { s.lnk.port[p] with
      st := 4, txRd := (trainRd s).1, txEnd := 5 * s.tbs.clock, errs := [] } }
    free := s.free + 1 }

section
variable {p : Fin 50} {s : State}

theorem portComesUp_ready (hst : s.lnk.port[p].st = 3) (hn : s.lnk.port[p].echoN = 8) : portComesUp p s = cameUp p s := by
  unfold portComesUp
  rw [portOf, vget_fin, if_pos ⟨hst, hn⟩]
  exact modPort_fin (s := (drawFree s).2) _

theorem portUp_cameUp : portUp (cameUp p s) p = true :=
  portUp_fin.2 (congrArg LnkPort.st (Vector.getElem_set_self p.isLt))

theorem portUp_cameUp_ne {q : Nat} (h : q ≠ p.val) : portUp (cameUp p s) q = portUp s q := by
  refine congrArg (fun x : LnkPort => x.st == 4) ?_
  have hset := vmod_fin s.lnk.port p fun x => { x with st := 4, txRd := (trainRd s).1, txEnd := 5 * s.tbs.clock, errs := [] }
  refine (congrArg (fun v => vget v q {}) hset.symm).trans ?_
  exact vget_vmod_ne _ _ _ h

theorem cameUp_port_ne {q : Fin 50} (h : q ≠ p) : (cameUp p s).lnk.port[q] = s.lnk.port[q] :=
  Vector.getElem_set_ne p.isLt q.isLt (Fin.val_ne_of_ne h.symm)

end

/-! ## A ring enters ENUM (R256, R304) -/

theorem setRing_notReady {r st : Nat} {s : State} (h : ringState s r ≠ 6) :
    setRing r st s = irq 5 (rngRegs_ (fun q => setF q (F.RNG_RINGr_STAT_state r) st) s) := by
  unfold setRing
  rw [if_neg (by simp [h])]

theorem ringState_setF_ne {r q : Nat} (h : q ≠ r) (st : Nat) (regs : RegFile) :
    getF (setF regs (F.RNG_RINGr_STAT_state r) st) (F.RNG_RINGr_STAT_state q) = getF regs (F.RNG_RINGr_STAT_state q) := by
  have hofs : 0x0400 + 32 * q ≠ 0x0400 + 32 * r := by omega
  exact getF_setF_ofs _ _ hofs

/-- A ring's state is not among the bits of `RNG_MISMATCH`. -/
theorem ringState_putBit (r i : Nat) (b : Bool) (regs : RegFile) :
    getF (putBit regs R.RNG_MISMATCH i b) (F.RNG_RINGr_STAT_state r) = getF regs (F.RNG_RINGr_STAT_state r) := by
  have hofs : (F.RNG_RINGr_STAT_state r).ofs ≠ R.RNG_MISMATCH := by
    show 0x0400 + 32 * r ≠ 0x0018
    omega
  unfold getF
  rw [kvGet_putBit_ne _ _ _ _ _ hofs]

/-- What entry to ENUM shows. -/
structure EnumEntered (r : Nat) (s t : State) : Prop where
  frame : t = { s with rng := t.rng, csv := t.csv, hst := t.hst, two := t.two, out := t.out }
  state : ringState t r = 2
  nodes : (ringOf t r).nodes = List.replicate 256 {}
  comb  : t.csv.comb = clearComb r s.csv.comb
  cause : getBit t.hst.r R.HST_IRQ_STAT 5 = true
  other : ∀ q, q ≠ r → ringState t q = ringState s q ∧ ringOf t q = ringOf s q

theorem enumEntered_enterEnum {r : Nat} {s : State} (hr : r < 24) (h : ringState s r ≠ 6) : EnumEntered r s (enterEnum r s) := by
  unfold enterEnum
  rw [setRing_notReady h]
  have hirq := irq_frame 5 (rngRegs_ (fun q => setF q (F.RNG_RINGr_STAT_state r) 2) s)
  have hcause := irq_stat 5 (rngRegs_ (fun q => setF q (F.RNG_RINGr_STAT_state r) 2) s) (by decide)
  generalize irq 5 (rngRegs_ (fun q => setF q (F.RNG_RINGr_STAT_state r) 2) s) = v at hirq hcause
  obtain ⟨hst, two, out, rfl⟩ : ∃ hst two out, v =
      { rngRegs_ (fun q => setF q (F.RNG_RINGr_STAT_state r) 2) s with hst := hst, two := two, out := out } :=
    ⟨_, _, _, hirq⟩
  refine ⟨rfl, (ringState_putBit ..).trans ?_, ?_, rfl, hcause, fun q hq =>
    ⟨(ringState_putBit ..).trans (ringState_setF_ne hq ..), ringOf_modRing_ne _ _ hq⟩⟩
  · exact getF_setF_small _ _ (Nat.le_of_ble_eq_true rfl) (Nat.le_of_ble_eq_true rfl)
  · exact congrArg RingSt.nodes (ringOf_modRing_self _ _ hr)

theorem mem_clearComb {r : Nat} {c : List (Nat × Half)} {x : Nat × Half} : x ∈ clearComb r c ↔ x ∈ c ∧ x.1 / 262144 ≠ r := by
  simp [clearComb]

section
variable {r : Nat} {s : State}

theorem trainDone_enters {e : PortEnd} (hst : ringState s r = 1) (he : endUp s r e = true)
    (hother : endUp s r (otherEnd e) = true ∨ (ringOf s r).late = true) : trainDone r s = enterEnum r s := by
  refine if_pos ⟨hst, ?_⟩
  cases e with
  | a =>
    rw [he]
    simpa [otherEnd] using hother
  | b =>
    rw [he]
    simpa [otherEnd] using hother

theorem trainDone_waits (h : ringState s r ≠ 1 ∨ ((ringOf s r).late = false ∧ ∃ e, endUp s r e = false)) : trainDone r s = s := by
  refine if_neg fun ⟨hst, hup⟩ => ?_
  obtain h | ⟨hlate, e, he⟩ := h
  · exact h hst
  · cases e <;> simp [hlate, he] at hup

end

theorem ringPort_div (r : Nat) (e : PortEnd) : ringPort r e / 2 = r := by
  cases e <;> simp only [ringPort, endBit] <;> omega

theorem ringPort_otherEnd_ne (r : Nat) (e : PortEnd) : ringPort r (otherEnd e) ≠ ringPort r e := by
  cases e <;> simp [ringPort, otherEnd, endBit]

/-- Of the two ports of a ring one is not port `p`. -/
theorem exists_ringPort_ne (p : Nat) : ∃ e, p ≠ ringPort (p / 2) e := by
  by_cases hbit : p = ringPort (p / 2) .a
  · exact ⟨.b, fun h => ringPort_otherEnd_ne (p / 2) .a (h.symm.trans hbit)⟩
  · exact ⟨.a, hbit⟩

/-! ## LINK_UP (R229, R256) -/

section
variable {p : Fin 50} {s : State}

theorem exec_linkUp (hst : s.lnk.port[p].st = 3) (hn : s.lnk.port[p].echoN = 8) :
    exec (.linkUp p) s = .next (if p.val < 48 then trainDone (p / 2) (cameUp p s) else cameUp p s) := by
  rw [← portComesUp_ready hst hn]
  rfl

theorem exec_linkUp_enters {r : Fin 24} {e : PortEnd} (hp : p.val = ringPort r e) (hring : ringState s r = 1)
    (hst : s.lnk.port[p].st = 3) (hn : s.lnk.port[p].echoN = 8) (hother : endUp s r (otherEnd e) = true ∨ (ringOf s r).late = true) :
    exec (.linkUp p) s = .next (enterEnum r (cameUp p s)) := by
  have hr : p.val / 2 = r.val := by rw [hp, ringPort_div]
  have hself : endUp (cameUp p s) r e = true := by
    rw [endUp, ← hp]
    exact portUp_cameUp
  have hboth : endUp (cameUp p s) r (otherEnd e) = true ∨ (ringOf (cameUp p s) r).late = true := by
    refine hother.imp (fun h => ?_) id
    rw [endUp, portUp_cameUp_ne]
    · exact h
    · rw [hp]
      exact ringPort_otherEnd_ne r e
  rw [exec_linkUp hst hn, if_pos (by omega), hr]
  exact congrArg Host.Outcome.next (trainDone_enters (s := cameUp p s) hring hself hboth)

theorem exec_linkUp_alone (hst : s.lnk.port[p].st = 3) (hn : s.lnk.port[p].echoN = 8)
    (hwait : 48 ≤ p.val ∨ ringState s (p / 2) ≠ 1 ∨
      ((ringOf s (p / 2)).late = false ∧ ∀ e, p.val ≠ ringPort (p / 2) e → endUp s (p / 2) e = false)) :
    exec (.linkUp p) s = .next (cameUp p s) := by
  rw [exec_linkUp hst hn]
  obtain h48 | hring | ⟨hlate, hdown⟩ := hwait
  · rw [if_neg (not_lt.2 h48)]
  · rw [trainDone_waits (s := cameUp p s) (.inl hring), ite_self]
  · obtain ⟨e, he⟩ := exists_ringPort_ne p
    have hend : endUp (cameUp p s) (p / 2) e = false := (portUp_cameUp_ne he.symm).trans (hdown e he)
    rw [trainDone_waits (s := cameUp p s) (.inr ⟨hlate, e, hend⟩), ite_self]

/-- The part of the statement about a port that takes its ring to ENUM. -/
theorem linkUp_enters_shows {r : Fin 24} {e : PortEnd} (hp : p.val = ringPort r e) (hring : ringState s r = 1)
    (hst : s.lnk.port[p].st = 3) (hn : s.lnk.port[p].echoN = 8) (hother : endUp s r (otherEnd e) = true ∨ (ringOf s r).late = true) :
    ∃ t, exec (.linkUp p) s = .next t ∧
      t = { s with
        lnk := { s.lnk with port := t.lnk.port }, rng := t.rng, csv := t.csv, hst := t.hst, two := t.two, out := t.out
        free := s.free + 1 } ∧
      ringState t r = 2 ∧ portUp t p = true ∧ (∀ q : Fin 50, q ≠ p → t.lnk.port[q] = s.lnk.port[q]) ∧
      (ringOf t r).nodes = List.replicate 256 {} ∧ (∀ x ∈ t.csv.comb, x.1 / 262144 ≠ r.val) ∧
      (∀ x ∈ s.csv.comb, x.1 / 262144 ≠ r.val → x ∈ t.csv.comb) ∧
      getBit t.hst.r R.HST_IRQ_STAT 5 = true ∧ ∀ q : Fin 24, q ≠ r → ringState t q = ringState s q ∧ ringOf t q = ringOf s q := by
  have htrain : ringState (cameUp p s) r = 1 := hring
  obtain ⟨hframe, hstate, hnodes, hcomb, hcause, hrest⟩ := enumEntered_enterEnum r.isLt (by rw [htrain]; decide)
  have hlnk : (enterEnum r (cameUp p s)).lnk = (cameUp p s).lnk := by rw [hframe]
  refine ⟨_, exec_linkUp_enters hp hring hst hn hother, by rw [hframe]; rfl, hstate, ?_, fun q hq => ?_, hnodes, fun x hx => ?_,
    fun x hx hne => ?_, hcause, fun q hq => hrest q (Fin.val_ne_of_ne hq)⟩
  · rw [portUp_fin, hlnk, ← portUp_fin]
    exact portUp_cameUp
  · rw [hlnk]
    exact cameUp_port_ne hq
  · rw [hcomb] at hx
    exact (mem_clearComb.1 hx).2
  · rw [hcomb]
    exact mem_clearComb.2 ⟨hx, hne⟩

end

/-! ## The bypass switch (R235, R236) -/

/-- The switch is closed, the ports as they were. -/
def switchClosed (s : State) : State := { s with lnk := { s.lnk with r := setF s.lnk.r F.LNK_STAT_bypass 1 } }

section
variable {s : State}

theorem bypassClose_open (h : bypassed s = false) (hmay : bypassMayOpen s = false) : bypassClose s = closeBypass s := by
  unfold bypassClose
  rw [h, hmay, if_neg (by decide)]

theorem bypassClose_idle (h : bypassed s = true ∨ bypassMayOpen s = true) : bypassClose s = s := if_pos (by simpa using h)

theorem bypassOpen_closed (h : bypassed s = true) (hmay : bypassMayOpen s = true) : bypassOpen s =
    { s with lnk := { s.lnk with r := setF s.lnk.r F.LNK_STAT_bypass 0 } } := by
  unfold bypassOpen
  rw [h, hmay, if_pos (by decide)]

theorem bypassOpen_idle (h : bypassed s = false ∨ bypassMayOpen s = false) : bypassOpen s = s := by
  refine if_neg ?_
  obtain h | h := h <;> simp [h]

/-- What a switch that closes leaves of the ports. -/
structure HiveDown (s t : State) : Prop where
  frame : t = heard t.lnk.port t.out s
  hive  : ∀ q : Fin 50, 48 ≤ q.val → t.lnk.port[q].st ≠ 4 ∧ t.lnk.port[q].lockLoss =
    if s.lnk.port[q].st = 4 then min 255 (s.lnk.port[q].lockLoss + 1) else s.lnk.port[q].lockLoss
  other : ∀ q : Fin 50, q.val < 48 → t.lnk.port[q] = s.lnk.port[q]

theorem LostLock.hiveDown {t u : State} (ha : LostLock 48 s t) (hb : LostLock 49 t u) : HiveDown s u := by
  refine ⟨by rw [hb.frame, ha.frame]; rfl, fun q hq => ?_, fun q hq => ?_⟩
  · obtain rfl | rfl : q = 48 ∨ q = 49 := by omega
    · rw [hb.other 48 (by decide)]
      exact ⟨ha.down, ha.count⟩
    · refine ⟨hb.down, ?_⟩
      rw [← ha.other 49 (by decide)]
      exact hb.count
  · rw [hb.other q (by omega), ha.other q (by omega)]

theorem hiveDown_closeBypass (s : State) : HiveDown (switchClosed s) (closeBypass s) :=
  (lostLock_portLosesLock 48 (switchClosed s)).hiveDown (lostLock_portLosesLock 49 (portLosesLock 48 (switchClosed s)))

end

/-! ## The statement -/

/-- Settles O33: each command of a port is the change its state allows, or none; a port that loses its lock trains again once the frames
under way have ended; a port that comes UP may take its ring to ENUM; the switch follows its conditions. (Running disparities that the
manual leaves open: log entry 59.) -/
theorem linksAndBypass : Obligations.LinksAndBypass := by
  unfold Obligations.LinksAndBypass
  refine ⟨fun p turn trip wait s => ?_, fun p ce de time sent rx s => ⟨fun h => ?_, fun h => ?_⟩, fun s => ?_⟩
  · obtain ⟨hlo, hhi⟩ := trainRd_bounds s
    refine ⟨fun h => ?_, fun h => ?_, fun h => ?_, fun h => ?_, fun h => ?_, fun h => ?_, fun h hn => ?_, fun h hn => ?_, fun h => ?_,
      fun h1 h3 => ?_, fun h => ?_⟩
    · exact ⟨_, _, congrArg Host.Outcome.next (linkAligned_down h), rfl, hlo, hhi, rfl⟩
    · exact congrArg Host.Outcome.next (linkAligned_idle h)
    · exact ⟨_, _, congrArg Host.Outcome.next (linkEcho_align h), rfl, hlo, hhi, rfl⟩
    · exact congrArg Host.Outcome.next (linkEcho_idle h)
    · refine ⟨_, _, congrArg Host.Outcome.next (echoRequest_echo h), hlo, hhi, ?_⟩
      rw [trained_txRd]
      rfl
    · exact congrArg Host.Outcome.next (echoRequest_idle h)
    · refine ⟨_, _, congrArg Host.Outcome.next (echoReply_first h hn), hlo, hhi, ?_⟩
      rw [trained_txRd]
      rfl
    · refine ⟨_, _, congrArg Host.Outcome.next (echoReply_last h hn), hlo, hhi, ?_⟩
      rw [trained_txRd]
      rfl
    · exact congrArg Host.Outcome.next (echoReply_idle h)
    · exact congrArg Host.Outcome.next (trainTimeout_training ⟨h1, h3⟩)
    · exact congrArg Host.Outcome.next (trainTimeout_idle (by omega))
  · exact execLockLoss_down ce de sent rx time h
  · cases sent <;> exact lockLoss_up_shows h
  · refine ⟨fun r e p hp hst h3 h8 hother => ?_, fun p h3 h8 hwait => ?_, fun h hmay => ?_, fun h => ?_, fun h hmay => ?_, fun h => ?_⟩
    · exact linkUp_enters_shows hp hst h3 h8 hother
    · refine ⟨_, exec_linkUp_alone h3 h8 hwait, rfl, portUp_cameUp, ?_⟩
      have htx : (cameUp p s).lnk.port[p].txRd = (trainRd s).1 := congrArg LnkPort.txRd (Vector.getElem_set_self _)
      rw [htx]
      rfl
    · have hdown := hiveDown_closeBypass s
      have hregs : (closeBypass s).lnk.r = setF s.lnk.r F.LNK_STAT_bypass 1 := by
        rw [hdown.frame]
        rfl
      refine ⟨_, congrArg Host.Outcome.next (bypassClose_open h hmay), ?_, ?_, portUp_eq_false_fin.2 (hdown.hive 48 (by decide)).1,
        portUp_eq_false_fin.2 (hdown.hive 49 (by decide)).1, fun q hq => (hdown.hive q hq).2, hdown.other, fun o ho => ?_⟩
      · rw [hdown.frame]
        rfl
      · rw [bypassed, hregs]
        exact flag_setFlag_self _ _ (by decide) (by decide)
      · rw [hregs]
        exact kvGet_setF_ne _ _ ho
    · exact congrArg Host.Outcome.next (bypassClose_idle h)
    · refine ⟨_, congrArg Host.Outcome.next (bypassOpen_closed h hmay), rfl, flag_clear_self _ (by decide),
        fun o ho => kvGet_setF_ne _ _ ho⟩
    · exact congrArg Host.Outcome.next (bypassOpen_idle h)

end Sys2Proof.Machine
end

section
/-! Ring controllers (R256, R261, R265, R275, R304): what a ring that leaves READY, a change of state, a message and the mailbox
leave, and the statement about the host's ring commands. -/
namespace Sys2Proof.Machine

/-! ## What cell supervision's records and points leave -/

/-- Cell supervision, the host interface, the alert line and what was sent may change, and nothing else. -/
def CellsOnly (s t : State) : Prop := t = { s with csv := t.csv, hst := t.hst, two := t.two, out := t.out }

section
variable {s t u : State}

theorem CellsOnly.refl (s : State) : CellsOnly s s := rfl

theorem CellsOnly.trans (h1 : CellsOnly s t) (h2 : CellsOnly t u) : CellsOnly s u := by
  unfold CellsOnly at *
  rw [h2, h1]

theorem CellsOnly.foldl {α : Type} {f : State → α → State} (h : ∀ s x, CellsOnly s (f s x)) :
    ∀ (l : List α) (s : State), CellsOnly s (l.foldl f s)
  | [], s => .refl s
  | x :: t, s => (h s x).trans (CellsOnly.foldl h t (f s x))

theorem CellsOnly.ite {p : Prop} [Decidable p] (h1 : CellsOnly s t) (h2 : CellsOnly s u) : CellsOnly s (if p then t else u) := by
  split
  · exact h1
  · exact h2

theorem CellsOnly.rng (h : CellsOnly s t) : t.rng = s.rng := by
  rw [h]

theorem CellsOnly.ringOf (h : CellsOnly s t) (q : Nat) : ringOf t q = ringOf s q :=
  congrArg (fun x : Rng => vget x.ring q {}) h.rng

theorem CellsOnly.ringState (h : CellsOnly s t) (q : Nat) : ringState t q = ringState s q :=
  congrArg (fun x : Rng => getF x.r (F.RNG_RINGr_STAT_state q)) h.rng

theorem cellsOnly_csv (c : Csv) (s : State) : CellsOnly s { s with csv := c } := rfl

theorem cellsOnly_irq (v : Nat) (s : State) : CellsOnly s (irq v s) := by
  unfold CellsOnly
  rw [irq_frame]

theorem cellsOnly_combPutN (r a i v : Nat) (s : State) : CellsOnly s (combPutN r a i v s) := .ite (cellsOnly_csv _ s) (.refl s)

theorem cellsOnly_put4 (r a c on off : Nat) (s : State) : CellsOnly s (put4 r a c on off s) := .ite (.refl s) (cellsOnly_combPutN ..)

theorem cellsOnly_wireMark (r a : Nat) (res : Option Bool) (k : Nat) (s : State) : CellsOnly s (wireMark r a res k s) := by
  have hput (p : Prop) [Decidable p] (c on off on' off' : Nat) (s : State) :
      CellsOnly s (if p then put4 r a c on off s else put4 r a c on' off' s) := .ite (cellsOnly_put4 ..) (cellsOnly_put4 ..)
  have hnoted (f : CsvNode → CsvNode) : CellsOnly s (modCsv r a f s) := rfl
  cases res with
  | none => exact ((hnoted _).trans (.ite (hput ..) (.refl _))).trans (hput ..)
  | some b =>
    exact ((((hnoted _).trans (.ite (hput ..) (.refl _))).trans (hput ..)).trans (cellsOnly_combPutN ..)).trans (cellsOnly_combPutN ..)

theorem cellsOnly_wiresIndet (r a : Nat) (mask : BitVec 13) (s : State) : CellsOnly s (wiresIndet r a mask s) :=
  .foldl (fun s k => cellsOnly_wireMark r a none k s) _ s

theorem cellsOnly_balRefuse (k : Nat) (s : State) : CellsOnly s (balRefuse k s) := (cellsOnly_csv _ s).trans (cellsOnly_irq ..)

end

/-! ## What changes one ring -/

/-- Ring `r`, its state and registers of no ring may change, and what cell supervision and a cause change, and nothing else. -/
structure RingChanges (r : Nat) (s t : State) : Prop where
  frame : t = { s with rng := t.rng, csv := t.csv, hst := t.hst, two := t.two, out := t.out }
  other : ∀ q, q ≠ r → ringState t q = ringState s q ∧ ringOf t q = ringOf s q

section
variable {r : Nat} {s t u : State}

theorem RingChanges.refl (r : Nat) (s : State) : RingChanges r s s := ⟨rfl, fun _ _ => ⟨rfl, rfl⟩⟩

theorem RingChanges.trans (h1 : RingChanges r s t) (h2 : RingChanges r t u) : RingChanges r s u := by
  refine ⟨by rw [h2.frame, h1.frame], fun q hq => ?_⟩
  obtain ⟨hs1, hr1⟩ := h1.other q hq
  obtain ⟨hs2, hr2⟩ := h2.other q hq
  exact ⟨hs2.trans hs1, hr2.trans hr1⟩

theorem CellsOnly.ringChanges (r : Nat) (h : CellsOnly s t) : RingChanges r s t :=
  ⟨by rw [h], fun q _ => ⟨h.ringState q, h.ringOf q⟩⟩

theorem ringChanges_modRing (f : RingSt → RingSt) (s : State) : RingChanges r s (modRing r f s) :=
  ⟨rfl, fun _ hq => ⟨rfl, ringOf_modRing_ne _ _ hq⟩⟩

/-- A change of registers that are not another ring's. -/
theorem ringChanges_rngRegs {f : RegFile → RegFile}
    (hf : ∀ q, q ≠ r → kvGet (f s.rng.r) (R.RNG_RINGr_STAT q) = kvGet s.rng.r (R.RNG_RINGr_STAT q)) : RingChanges r s (rngRegs_ f s) :=
  ⟨rfl, fun q hq => ⟨getF_congr (hf q hq), rfl⟩⟩

theorem RingChanges.other_fin {r : Fin 24} (h : RingChanges r s t) (q : Fin 24) (hq : q ≠ r) :
    ringState t q = ringState s q ∧ ringOf t q = ringOf s q :=
  h.other q (Fin.val_ne_of_ne hq)

end

/-! ## The mailbox (R265) -/

/-- The registers behind the end of the mailbox's message. -/
def mailEnded (err : Nat) (q : RegFile) : RegFile :=
  let q := setF q F.RNG_WAG_CTL_busy 0
  if err = 0 then setFlag q F.RNG_WAG_CTL_done else setF (setFlag q F.RNG_WAG_CTL_failed) F.RNG_WAG_CTL_err err

theorem mailboxEnd_eq (err : Nat) (s : State) : mailboxEnd err s = irq 5 (rngRegs_ (mailEnded err) s) := rfl

section
variable (err : Nat) (q : RegFile)

theorem kvGet_mailEnded_ne {o : Nat} (h : o ≠ R.RNG_WAG_CTL) : kvGet (mailEnded err q) o = kvGet q o := by
  unfold mailEnded
  dsimp only
  split
  · exact (kvGet_setFlag_ne _ h).trans (kvGet_setF_ne _ _ h)
  · exact (kvGet_setF_ne _ _ h).trans ((kvGet_setFlag_ne _ h).trans (kvGet_setF_ne _ _ h))

theorem mailEnded_busy : flag (mailEnded err q) F.RNG_WAG_CTL_busy = false := by
  unfold mailEnded
  dsimp only
  split
  · rw [flag_setFlag_bits _ (by decide) (by decide)]
    exact flag_clear_self _ (by decide)
  · rw [flag_setF_bits _ _ (by decide) (by decide), flag_setFlag_bits _ (by decide) (by decide)]
    exact flag_clear_self _ (by decide)

theorem mailEnded_done : flag (mailEnded 0 q) F.RNG_WAG_CTL_done = true := flag_setFlag_self _ _ (by decide) (by decide)

theorem mailEnded_reply : flag (mailEnded 0 q) F.RNG_WAG_CTL_reply = flag q F.RNG_WAG_CTL_reply :=
  (flag_setFlag_bits _ (by decide) (by decide)).trans (flag_setF_bits _ _ (by decide) (by decide))

/-- A message that fails shows it, with its reason. -/
theorem mailEnded_failed {err : Nat} (h0 : err ≠ 0) (h : err < 256) : flag (mailEnded err q) F.RNG_WAG_CTL_failed = true ∧
    getF (mailEnded err q) F.RNG_WAG_CTL_err = err := by
  unfold mailEnded
  dsimp only
  rw [if_neg h0]
  refine ⟨?_, getF_setF_small _ _ (by decide) h⟩
  rw [flag_setF_bits _ _ (by decide) (by decide)]
  exact flag_setFlag_self _ _ (by decide) (by decide)

end

theorem stat_ne_wagCtl (r : Nat) : R.RNG_RINGr_STAT r ≠ R.RNG_WAG_CTL := by
  unfold R.RNG_RINGr_STAT R.RNG_WAG_CTL
  omega

section
variable (err : Nat) (s : State)

theorem mailboxEnd_rng : (mailboxEnd err s).rng = { s.rng with r := mailEnded err s.rng.r } := by
  rw [mailboxEnd_eq, irq_rng]
  rfl

theorem mailboxEnd_regs : (mailboxEnd err s).rng.r = mailEnded err s.rng.r := congrArg Rng.r (mailboxEnd_rng err s)

theorem mailboxEnd_frame : mailboxEnd err s = { s with
    rng := { s.rng with r := (mailboxEnd err s).rng.r }, hst := (mailboxEnd err s).hst, two := (mailboxEnd err s).two,
    out := (mailboxEnd err s).out } := by
  rw [mailboxEnd_eq, irq_frame]
  rfl

theorem mailboxEnd_cause : getBit (mailboxEnd err s).hst.r R.HST_IRQ_STAT 5 = true := irq_stat 5 _ (by decide)

theorem ringOf_mailboxEnd (q : Nat) : ringOf (mailboxEnd err s) q = ringOf s q := by
  unfold ringOf
  rw [mailboxEnd_rng]

theorem ringState_mailboxEnd (q : Nat) : ringState (mailboxEnd err s) q = ringState s q :=
  (congrArg (fun x : Rng => getF x.r (F.RNG_RINGr_STAT_state q)) (mailboxEnd_rng err s)).trans
    (getF_congr (kvGet_mailEnded_ne _ _ (stat_ne_wagCtl q)))

theorem ringChanges_mailboxEnd (r : Nat) : RingChanges r s (mailboxEnd err s) := by
  refine ⟨?_, fun q _ => ⟨ringState_mailboxEnd err s q, ringOf_mailboxEnd err s q⟩⟩
  rw [mailboxEnd_frame]

end

/-! ## A ring leaves READY (R265, R287, R293) -/

/-- The mailbox's message waits nowhere on the ring. -/
def boxesDropped (x : RingSt) : RingSt := { x with a := { x.a with box := none }, b := { x.b with box := none } }

/-- A message of the mailbox on its way on ring `r` fails. -/
def boxFailed (r : Nat) (s : State) : State :=
  if boxOnEnd (ringOf s r).a || boxOnEnd (ringOf s r).b then mailboxEnd 3 s else s

/-- A balancing command on its way to ring `r` is refused. -/
def balDropped (r : Nat) (s : State) : State :=
  match s.csv.bal with
  | some b =>
    if b.ring = r then
      let q := setFlag (setF (setFlag s.csv.r F.CSV_BAL_STAT_refused) F.CSV_BAL_STAT_reason 4) F.CSV_STAT_cmd_refused
      irq 6 { s with csv := { s.csv with r := q, bal := none } }
    else s
  | none => s

/-- A wire test of ring `r` ends indeterminate. -/
def testDropped (r : Nat) (s : State) : State :=
  match (vget s.csv.ring r {}).test with
  | some t =>
    let s := wiresIndet r t.node t.mask s
    let q := setF (setFlag (setF s.csv.r F.CSV_WIRE_STAT_result 3) F.CSV_WIRE_STAT_done) F.CSV_WIRE_STAT_ring r
    let ring := vmod s.csv.ring r fun x => { x with test := none }
    irq 6 { s with csv := { s.csv with r := setF q F.CSV_WIRE_STAT_node t.node, ring := ring } }
  | none => s

section
variable {r : Nat} {s : State}

theorem ringDown_eq (r : Nat) (s : State) : ringDown r s = testDropped r (balDropped r (modRing r boxesDropped (boxFailed r s))) := rfl

theorem cellsOnly_balDropped (r : Nat) (s : State) : CellsOnly s (balDropped r s) := by
  unfold balDropped
  split
  · exact .ite ((cellsOnly_csv _ s).trans (cellsOnly_irq ..)) (.refl s)
  · exact .refl s

theorem cellsOnly_testDropped (r : Nat) (s : State) : CellsOnly s (testDropped r s) := by
  unfold testDropped
  split
  · exact ((cellsOnly_wiresIndet ..).trans (cellsOnly_csv _ _)).trans (cellsOnly_irq ..)
  · exact .refl s

theorem ringChanges_boxFailed (r : Nat) (s : State) : RingChanges r s (boxFailed r s) := by
  unfold boxFailed
  split
  · exact ringChanges_mailboxEnd ..
  · exact .refl r s

theorem ringOf_boxFailed (r q : Nat) (s : State) : ringOf (boxFailed r s) q = ringOf s q := by
  unfold boxFailed
  split
  · exact ringOf_mailboxEnd ..
  · rfl

theorem ringChanges_ringDown (r : Nat) (s : State) : RingChanges r s (ringDown r s) := by
  rw [ringDown_eq]
  refine ((ringChanges_boxFailed r s).trans (ringChanges_modRing boxesDropped _)).trans ?_
  exact ((cellsOnly_balDropped r _).trans (cellsOnly_testDropped r _)).ringChanges r

theorem ringOf_ringDown (hr : r < 24) : ringOf (ringDown r s) r = boxesDropped (ringOf s r) := by
  rw [ringDown_eq, ((cellsOnly_balDropped r _).trans (cellsOnly_testDropped r _)).ringOf, ringOf_modRing_self _ _ hr, ringOf_boxFailed]

/-! ## A ring changes state (R256) -/

/-- What a change to state `st` shows. -/
structure StateEntered (r st : Nat) (s t : State) : Prop where
  changes : RingChanges r s t
  state   : ringState t r = st
  cause   : getBit t.hst.r R.HST_IRQ_STAT 5 = true

theorem stateEntered_setRing {st : Nat} (hst : st < 8) : StateEntered r st s (setRing r st s) := by
  have hdown : RingChanges r s (if ringState s r = 6 ∧ st ≠ 6 then ringDown r s else s) := by
    split
    · exact ringChanges_ringDown r s
    · exact .refl r s
  unfold setRing
  generalize (if ringState s r = 6 ∧ st ≠ 6 then ringDown r s else s) = u at hdown ⊢
  have hregs : RingChanges r u (rngRegs_ (fun q => setF q (F.RNG_RINGr_STAT_state r) st) u) :=
    ringChanges_rngRegs fun q hq => kvGet_setF_ne _ _ fun heq => hq (by simp only [R.RNG_RINGr_STAT, F.RNG_RINGr_STAT_state] at heq; omega)
  have hirq := cellsOnly_irq 5 (rngRegs_ (fun q => setF q (F.RNG_RINGr_STAT_state r) st) u)
  refine ⟨(hdown.trans hregs).trans (hirq.ringChanges r), ?_, irq_stat 5 _ (by decide)⟩
  rw [hirq.ringState]
  exact getF_setF_small _ _ (Nat.le_of_ble_eq_true rfl) hst

/-- A ring that changes state loses at most the mailbox's messages that wait on it. -/
theorem ringOf_setRing_keeps {α : Type} (g : RingSt → α) (hg : ∀ x, g (boxesDropped x) = g x) (hr : r < 24) (st : Nat) (s : State) :
    g (ringOf (setRing r st s) r) = g (ringOf s r) := by
  unfold setRing
  dsimp only
  rw [ringOf_irq]
  show g (ringOf (if _ then ringDown r s else s) r) = _
  split
  · rw [ringOf_ringDown hr, hg]
  · rfl

/-- What entry to ENUM shows. -/
structure Enumerates (r : Nat) (s t : State) : Prop extends StateEntered r 2 s t where
  nodes    : (ringOf t r).nodes = List.replicate 256 {}
  mismatch : getBit t.rng.r R.RNG_MISMATCH r = false
  comb     : ∀ x ∈ t.csv.comb, x.1 / 262144 ≠ r

theorem stat_ne_mismatch (r : Nat) : R.RNG_RINGr_STAT r ≠ R.RNG_MISMATCH := by
  unfold R.RNG_RINGr_STAT R.RNG_MISMATCH
  omega

theorem enumerates_enterEnum (hr : r < 24) : Enumerates r s (enterEnum r s) := by
  obtain ⟨hchanges, hstate, hcause⟩ := stateEntered_setRing (r := r) (s := s) (st := 2) (by decide)
  unfold enterEnum
  generalize setRing r 2 s = u at hchanges hstate hcause ⊢
  have hregs : RingChanges r u (rngRegs_ (fun q => putBit q R.RNG_MISMATCH r false) u) :=
    ringChanges_rngRegs fun q _ => kvGet_putBit_ne _ _ _ _ _ (stat_ne_mismatch q)
  refine ⟨⟨((hchanges.trans hregs).trans (ringChanges_modRing _ _)).trans ((cellsOnly_csv _ _).ringChanges r),
    (ringState_putBit ..).trans hstate, hcause⟩, ?_, getBit_putBit_self _ _ _ _ (by omega), fun x hx => (mem_clearComb.1 hx).2⟩
  exact congrArg RingSt.nodes (ringOf_modRing_self _ _ hr)

/-- What entry to PROBE shows. -/
structure Probes (r : Nat) (s t : State) : Prop extends StateEntered r 4 s t where
  nodes    : (ringOf t r).nodes = (ringOf s r).nodes
  probes   : (ringOf t r).probes = probeList (ringOf s r)
  probeOut : (ringOf t r).probeOut = none

theorem probes_enterProbe (hr : r < 24) : Probes r s (enterProbe r s) := by
  unfold enterProbe
  generalize hu : modRing r _ s = u
  have hself : ringOf u r = _ := (congrArg (ringOf · r) hu.symm).trans (ringOf_modRing_self s _ hr)
  have hring : RingChanges r s u := hu ▸ ringChanges_modRing ..
  obtain ⟨hchanges, hstate, hcause⟩ := stateEntered_setRing (r := r) (s := u) (st := 4) (by decide)
  refine ⟨⟨hring.trans hchanges, hstate, hcause⟩, ?_, ?_, ?_⟩
  · rw [ringOf_setRing_keeps RingSt.nodes (fun _ => rfl) hr, hself]
  · rw [ringOf_setRing_keeps RingSt.probes (fun _ => rfl) hr, hself]
  · rw [ringOf_setRing_keeps RingSt.probeOut (fun _ => rfl) hr, hself]

end

/-! ## Broadcasts (R265, R275) -/

theorem wagBcast_wagWords (type seq : Nat) {pl : List Half} (h : pl.length < 256) : wagBcast (wagWords type 0 seq true pl) = true := by
  have hbit : (BitVec.ofNat 16 (true.toNat * 32768 + seq % 128 * 256 + pl.length)).toNat / 32768 = 1 := by
    simp only [Bool.toNat_true, BitVec.toNat_ofNat]
    omega
  simp only [wagBcast, wagWords, List.getD_cons_succ, List.getD_cons_zero, BitVec.getLsbD, Nat.testBit_eq_decide_div_mod_eq]
  exact decide_eq_true (by rw [show 2 ^ 15 = 32768 from rfl, hbit])

/-- The message `m` waits last at an end. -/
def queuedLast (m : WagMsg) (y : RingEnd) : RingEnd := { y with todo := y.todo ++ [m] }

/-- A change of each end of a ring whose port is UP. -/
def atEndsUp (up : PortEnd → Bool) (f : RingEnd → RingEnd) (x : RingSt) : RingSt :=
  let put := fun (e : PortEnd) (x : RingSt) => if up e then modEnd e f x else x
  put .b (put .a x)

theorem endOf_ite_modEnd (p : Bool) (d e : PortEnd) (f : RingEnd → RingEnd) (x : RingSt) :
    endOf (if p then modEnd d f x else x) e = if e = d ∧ p = true then f (endOf x e) else endOf x e := by
  cases p with
  | false => simp
  | true =>
    obtain rfl | h := eq_or_ne e d
    · simp [endOf_modEnd]
    · simp [endOf_modEnd_ne h, h]

theorem endOf_atEndsUp (up : PortEnd → Bool) (f : RingEnd → RingEnd) (x : RingSt) (e : PortEnd) :
    endOf (atEndsUp up f x) e = if up e then f (endOf x e) else endOf x e := by
  unfold atEndsUp
  dsimp only
  rw [endOf_ite_modEnd, endOf_ite_modEnd]
  cases e <;> simp

section
variable {r : Nat} {s : State}

/-- The broadcast that a ring's sequence number makes. -/
def bcastMsg (type : Nat) (pl : List Half) (use : WagUse) (x : RingSt) : WagMsg := { words := wagWords type 0 x.seq true pl, use := use }

theorem ringsOnly_wagBcastMsg (type : Nat) (pl : List Half) (use : WagUse) (r : Nat) (s : State) :
    RingsOnly s (wagBcastMsg type pl use r s) := ringsOnly_modRing ..

theorem ringOf_wagBcastMsg_ne (type : Nat) (pl : List Half) (use : WagUse) {q : Nat} (h : q ≠ r) :
    ringOf (wagBcastMsg type pl use r s) q = ringOf s q := ringOf_modRing_ne _ _ h

/-- A broadcast waits last at each end whose port is UP. -/
theorem endOf_wagBcastMsg (hr : r < 24) (type : Nat) (pl : List Half) (use : WagUse) (e : PortEnd) :
    endOf (ringOf (wagBcastMsg type pl use r s) r) e =
      if endUp s r e then queuedLast (bcastMsg type pl use (ringOf s r)) (endOf (ringOf s r) e) else endOf (ringOf s r) e := by
  unfold wagBcastMsg
  dsimp only
  rw [ringOf_modRing_self _ _ hr]
  refine (endOf_atEndsUp (endUp s r) (queuedLast (bcastMsg type pl use (ringOf s r))) { ringOf s r with seq := _ } e).trans ?_
  cases e <;> rfl

end

/-! ## Commands of `RNG_CMD` (R256, R261, R275) -/

section
variable {s : State}

theorem rngRefuse_frame (s : State) : rngRefuse s =
    { s with rng := { s.rng with r := (rngRefuse s).rng.r }, hst := (rngRefuse s).hst, two := (rngRefuse s).two, out := (rngRefuse s).out } := by
  unfold rngRefuse
  rw [irq_frame]
  rfl

theorem rngRefuse_regs (s : State) : (rngRefuse s).rng.r = setFlag s.rng.r F.RNG_STAT_cmd_refused := by
  unfold rngRefuse
  rw [irq_rng]
  rfl

/-- The part of the statement about a refused command. -/
theorem rngRefuse_shows {c : Instr} (h : exec c s = .next (rngRefuse s)) : ∃ t, exec c s = .next t ∧
    t = { s with rng := { s.rng with r := t.rng.r }, hst := t.hst, two := t.two, out := t.out } ∧
    flag t.rng.r F.RNG_STAT_cmd_refused = true ∧ getBit t.hst.r R.HST_IRQ_STAT 5 = true ∧
    ∀ o, o ≠ R.RNG_STAT → kvGet t.rng.r o = kvGet s.rng.r o := by
  refine ⟨_, h, rngRefuse_frame s, ?_, irq_stat 5 _ (by decide), fun o ho => ?_⟩
  · rw [rngRefuse_regs]
    exact flag_setFlag_self _ _ (by decide) (by decide)
  · rw [rngRefuse_regs]
    exact kvGet_setFlag_ne _ ho

theorem exec_enumerate (hc : coreReady s = true) (p : Path) (r : Fin 24) : exec (.enumerate p r) s = .next (enumerateCmd r s) :=
  whenCore_ready hc _
theorem exec_probeAgain (hc : coreReady s = true) (p : Path) (r : Fin 24) : exec (.probeAgain p r) s = .next (probeCmd r s) :=
  whenCore_ready hc _
theorem exec_sleepBroadcast (hc : coreReady s = true) (p : Path) (r : Fin 24) : exec (.sleepBroadcast p r) s = .next (sleepCmd 0x03 r s) :=
  whenCore_ready hc _
theorem exec_wakeBroadcast (hc : coreReady s = true) (p : Path) (r : Fin 24) : exec (.wakeBroadcast p r) s = .next (sleepCmd 0x04 r s) :=
  whenCore_ready hc _
theorem exec_mailboxSend (hc : coreReady s = true) (p : Path) : exec (.mailboxSend p) s = .next (mailboxSend s) :=
  whenCore_ready hc _

/-- The part of the statement about SLEEP_BROADCAST and WAKE_BROADCAST. -/
theorem sleepCmd_shows {r : Fin 24} {type : Nat} {c : Instr} (ht : type < 256) (hc : exec c s = .next (sleepCmd type r s))
    (h : sendsData s r = true) : ∃ t, exec c s = .next t ∧ t = { s with rng := { s.rng with ring := t.rng.ring } } ∧
      (∀ e, endUp s r e = true → ∃ m, endOf (ringOf t r) e = { endOf (ringOf s r) e with todo := (endOf (ringOf s r) e).todo ++ [m] } ∧
        wagType m.words = type ∧ wagBcast m.words = true ∧ m.reply = false) ∧
      (∀ e, endUp s r e = false → endOf (ringOf t r) e = endOf (ringOf s r) e) ∧
      ∀ q : Fin 24, q ≠ r → ringOf t q = ringOf s q := by
  have hend := endOf_wagBcastMsg (s := s) r.isLt type [] .ring
  rw [sleepCmd, if_pos h] at hc
  refine ⟨_, hc, ringsOnly_wagBcastMsg .., fun e he => ?_, fun e he => ?_, fun q hq => ringOf_wagBcastMsg_ne _ _ _ (Fin.val_ne_of_ne hq)⟩
  · exact ⟨_, (hend e).trans (if_pos he), wagType_wagWords ht .., wagBcast_wagWords _ _ (by decide), rfl⟩
  · exact (hend e).trans (if_neg (ne_true_of_eq_false he))

end

/-! ## MAILBOX_SEND (R265) -/

/-- The word `i` of `RNG_WAG_TXn`, the length its words give, and the message they make. -/
def mailWord (s : State) (i : Nat) : Half := (kvGet s.rng.r (R.RNG_WAG_TXn (i / 2))).extractLsb' (16 * (i % 2)) 16
def mailLen (s : State) : Nat := (mailWord s 1).toNat % 64
def mailMsg (s : State) : WagMsg :=
  let ws := (List.range (mailLen s + 2)).map (mailWord s)
  { words := ws, reply := wagReplies (wagType ws) (wagBcast ws), use := .mailbox }

/-- The message of the mailbox waits at an end. -/
def boxed (m : WagMsg) (y : RingEnd) : RingEnd := { y with box := some m }

/-- `err` is 0 once a message is to be sent, and it is busy. -/
def mailCleared (s : State) : State := rngRegs_ (fun q => setF q F.RNG_WAG_CTL_err 0) s
def mailBusy (s : State) : State := rngRegs_ (fun q => setFlag q F.RNG_WAG_CTL_busy) (mailCleared s)

section
variable {s : State}

theorem getD_mailWords {i : Nat} (h : i < 2) : (mailMsg s).words.getD i 0 = mailWord s i := by
  have hlt : i < mailLen s + 2 := by omega
  simp [mailMsg, List.getD_eq_getElem?_getD, hlt]

theorem wagType_mailMsg : wagType (mailMsg s).words = (mailWord s 0).toNat / 256 :=
  congrArg (fun w : Half => w.toNat / 256) (getD_mailWords (by decide))

theorem wagNode_mailMsg : wagNode (mailMsg s).words = (mailWord s 0).toNat % 256 :=
  congrArg (fun w : Half => w.toNat % 256) (getD_mailWords (by decide))

theorem wagBcast_mailMsg : wagBcast (mailMsg s).words = (mailWord s 1).getLsbD 15 :=
  congrArg (fun w : Half => w.getLsbD 15) (getD_mailWords (by decide))

theorem ringState_mailCleared (q : Nat) : ringState (mailCleared s) q = ringState s q :=
  getF_congr (kvGet_setF_ne _ _ (stat_ne_wagCtl q))

theorem mailboxSend_busy (h : flag s.rng.r F.RNG_WAG_CTL_busy = true) : mailboxSend s = s := if_pos h

section
variable {r : Nat} (hb : flag s.rng.r F.RNG_WAG_CTL_busy = false) (hr : r = getF s.rng.r F.RNG_WAG_CTL_ring)
include hb hr

theorem mailboxSend_notReady (h : 24 ≤ r ∨ ringState s r ≠ 6) : mailboxSend s = mailboxEnd 3 (mailCleared s) := by
  subst hr
  unfold mailboxSend
  rw [if_neg (ne_true_of_eq_false hb)]
  refine if_pos (h.imp_right fun h => ?_)
  exact fun h6 => h ((ringState_mailCleared _).symm.trans h6)

variable (h24 : r < 24) (h6 : ringState s r = 6)
include h24 h6

theorem mailboxSend_barred (h : (1 ≤ (mailWord s 0).toNat / 256 ∧ (mailWord s 0).toNat / 256 ≤ 5) ∨ 32 < mailLen s) :
    mailboxSend s = mailboxEnd 4 (mailCleared s) := by
  subst hr
  rw [← wagType_mailMsg] at h
  unfold mailboxSend
  rw [if_neg (ne_true_of_eq_false hb)]
  dsimp only
  rw [if_neg (fun h => h.elim (not_le.2 h24) (· ((ringState_mailCleared _).trans h6)))]
  exact if_pos h

variable (ht : (mailWord s 0).toNat / 256 = 0 ∨ 5 < (mailWord s 0).toNat / 256) (hn : mailLen s ≤ 32)
include ht hn

/-- A message that may be sent goes to both ends or to the node's. -/
theorem mailboxSend_sends : mailboxSend s =
    if wagBcast (mailMsg s).words then modRing r (atEndsUp (endUp s r) (boxed (mailMsg s))) (mailBusy s)
    else match (nodeAt (ringOf s r) (wagNode (mailMsg s).words)).serve with
      | some e => modRing r (modEnd e (boxed (mailMsg s))) (mailBusy s)
      | none => mailboxEnd 2 (mailBusy s) := by
  subst hr
  rw [← wagType_mailMsg] at ht
  have hok : ¬((1 ≤ wagType (mailMsg s).words ∧ wagType (mailMsg s).words ≤ 5) ∨ 32 < mailLen s) := by omega
  unfold mailboxSend
  rw [if_neg (ne_true_of_eq_false hb)]
  dsimp only
  rw [if_neg (fun h => h.elim (not_le.2 h24) (· ((ringState_mailCleared _).trans h6)))]
  exact if_neg hok

theorem mailboxSend_broadcasts (h : (mailWord s 1).getLsbD 15 = true) :
    mailboxSend s = modRing r (atEndsUp (endUp s r) (boxed (mailMsg s))) (mailBusy s) := by
  rw [mailboxSend_sends hb hr h24 h6 ht hn, if_pos (wagBcast_mailMsg.trans h)]

theorem mailboxSend_unicasts (h : (mailWord s 1).getLsbD 15 = false) {e : PortEnd}
    (he : (nodeAt (ringOf s r) ((mailWord s 0).toNat % 256)).serve = some e) :
    mailboxSend s = modRing r (modEnd e (boxed (mailMsg s))) (mailBusy s) := by
  rw [mailboxSend_sends hb hr h24 h6 ht hn, if_neg (ne_true_of_eq_false (wagBcast_mailMsg.trans h)), wagNode_mailMsg, he]

theorem mailboxSend_unserved (h : (mailWord s 1).getLsbD 15 = false)
    (he : (nodeAt (ringOf s r) ((mailWord s 0).toNat % 256)).serve = none) : mailboxSend s = mailboxEnd 2 (mailBusy s) := by
  rw [mailboxSend_sends hb hr h24 h6 ht hn, if_neg (ne_true_of_eq_false (wagBcast_mailMsg.trans h)), wagNode_mailMsg, he]

end

theorem kvGet_mailCleared_ne {o : Nat} (h : o ≠ R.RNG_WAG_CTL) : kvGet (mailCleared s).rng.r o = kvGet s.rng.r o := kvGet_setF_ne _ _ h

theorem kvGet_mailBusy_ne {o : Nat} (h : o ≠ R.RNG_WAG_CTL) : kvGet (mailBusy s).rng.r o = kvGet s.rng.r o :=
  (kvGet_setFlag_ne _ h).trans (kvGet_mailCleared_ne h)

/-- The part of the statement about a message that fails at once. -/
theorem mailboxSend_fails {p : Path} {err : Nat} {f : RegFile → RegFile} (hc : coreReady s = true) (h0 : err ≠ 0) (h : err < 256)
    (hsend : mailboxSend s = mailboxEnd err (rngRegs_ f s))
    (hf : ∀ o, o ≠ R.RNG_WAG_CTL → kvGet (f s.rng.r) o = kvGet s.rng.r o) : ∃ t, exec (.mailboxSend p) s = .next t ∧
      t = { s with rng := { s.rng with r := t.rng.r }, hst := t.hst, two := t.two, out := t.out } ∧
      flag t.rng.r F.RNG_WAG_CTL_failed = true ∧ getF t.rng.r F.RNG_WAG_CTL_err = err ∧ flag t.rng.r F.RNG_WAG_CTL_busy = false ∧
      (∀ o, o ≠ R.RNG_WAG_CTL → kvGet t.rng.r o = kvGet s.rng.r o) ∧ getBit t.hst.r R.HST_IRQ_STAT 5 = true := by
  have hregs : (mailboxEnd err (rngRegs_ f s)).rng.r = mailEnded err (f s.rng.r) := mailboxEnd_regs ..
  obtain ⟨hfailed, herr⟩ := mailEnded_failed (f s.rng.r) h0 h
  refine ⟨_, (exec_mailboxSend hc p).trans (congrArg _ hsend), ?_, ?_, ?_, ?_, fun o ho => ?_, mailboxEnd_cause ..⟩
  · rw [mailboxEnd_frame]
    rfl
  · rwa [hregs]
  · rwa [hregs]
  · rw [hregs]
    exact mailEnded_busy ..
  · rw [hregs, kvGet_mailEnded_ne _ _ ho, hf o ho]

/-- The part of the statement about a message that is busy: it waits at the ends that `at_` names. -/
theorem mailboxSend_posts {p : Path} {r : Fin 24} {g : RingSt → RingSt} (at_ : PortEnd → Prop) [∀ e, Decidable (at_ e)] (hc : coreReady s = true)
    (hsend : mailboxSend s = modRing r g (mailBusy s))
    (hg : ∀ x e, endOf (g x) e = if at_ e then boxed (mailMsg s) (endOf x e) else endOf x e) :
    ∃ t m, exec (.mailboxSend p) s = .next t ∧ t = { s with rng := t.rng } ∧ flag t.rng.r F.RNG_WAG_CTL_busy = true ∧
      (∀ o, o ≠ R.RNG_WAG_CTL → kvGet t.rng.r o = kvGet s.rng.r o) ∧
      m.words = (List.range (mailLen s + 2)).map (mailWord s) ∧ m.use = .mailbox ∧ (∀ q : Fin 24, q ≠ r → ringOf t q = ringOf s q) ∧
      ∀ e, endOf (ringOf t r) e = if at_ e then { endOf (ringOf s r) e with box := some m } else endOf (ringOf s r) e := by
  refine ⟨_, mailMsg s, (exec_mailboxSend hc p).trans (congrArg _ hsend), rfl, flag_setFlag_self _ _ (by decide) (by decide),
    fun o ho => kvGet_mailBusy_ne ho, rfl, rfl, fun q hq => ringOf_modRing_ne _ _ (Fin.val_ne_of_ne hq), fun e => ?_⟩
  rw [ringOf_modRing_self _ _ r.isLt]
  exact hg _ e

end

/-! ## The statement -/

/-- Settles O35: each command of a ring is a change of its state, a broadcast or a refusal; the mailbox's message fails by the first
rule it breaks, or waits at the ends through which it is to leave. (The mailbox's points that the manual leaves open: log entry 66.) -/
theorem ringCommands : Obligations.RingCommands := by
  unfold Obligations.RingCommands
  refine ⟨fun p r s hc => ⟨fun h4 hst => ?_, fun h4 hst => ?_, fun tc htc hd => ?_, fun c h => ?_⟩,
    fun p s w n hc hw hn => ⟨fun hbusy => ?_, fun hfree => ⟨fun err h => ?_, fun r hr h6 hlen htype hserve => ?_⟩⟩⟩
  · obtain ⟨⟨⟨hframe, hother⟩, hstate, hcause⟩, hnodes, hmatch, hcomb⟩ := enumerates_enterEnum (s := s) r.isLt
    refine ⟨_, (exec_enumerate hc p r).trans (congrArg _ (if_pos ⟨h4, hst⟩)), hframe, hstate, hnodes, hmatch, hcomb, hcause,
      fun q hq => hother q (Fin.val_ne_of_ne hq)⟩
  · obtain ⟨⟨⟨hframe, hother⟩, hstate, hcause⟩, hnodes, hprobes, hout⟩ := probes_enterProbe (s := s) r.isLt
    refine ⟨_, (exec_probeAgain hc p r).trans (congrArg _ (if_pos ⟨h4, hst⟩)), hframe, hstate, hnodes, hprobes, hout, hcause,
      fun q hq => hother q (Fin.val_ne_of_ne hq)⟩
  · simp only [List.mem_cons, List.not_mem_nil, or_false] at htc
    obtain rfl | rfl := htc
    · exact sleepCmd_shows (Nat.le_of_ble_eq_true rfl) (exec_sleepBroadcast hc p r) hd
    · exact sleepCmd_shows (Nat.le_of_ble_eq_true rfl) (exec_wakeBroadcast hc p r) hd
  · refine rngRefuse_shows ?_
    obtain ⟨rfl, h⟩ | ⟨rfl, h⟩ | ⟨rfl | rfl, h⟩ := h
    · exact (exec_enumerate hc p r).trans (congrArg _ (if_neg h))
    · exact (exec_probeAgain hc p r).trans (congrArg _ (if_neg h))
    · exact (exec_sleepBroadcast hc p r).trans (congrArg _ (if_neg (ne_true_of_eq_false h)))
    · exact (exec_wakeBroadcast hc p r).trans (congrArg _ (if_neg (ne_true_of_eq_false h)))
  · rw [exec_mailboxSend hc, mailboxSend_busy hbusy]
  · obtain rfl : w = mailWord s := funext hw
    obtain rfl : n = mailLen s := hn
    obtain ⟨rfl, hnot⟩ | ⟨rfl, ⟨r, hr, h6⟩, hbad⟩ | ⟨rfl, ⟨r, hr, h6, hnone⟩, htype, hlen, huni⟩ := h
    · refine mailboxSend_fails hc (by decide) (by decide) (mailboxSend_notReady hfree rfl ?_) fun o ho => kvGet_mailCleared_ne ho
      by_cases hlt : getF s.rng.r F.RNG_WAG_CTL_ring < 24
      · exact .inr (hnot ⟨_, hlt⟩ rfl)
      · exact .inl (not_lt.1 hlt)
    · exact mailboxSend_fails hc (by decide) (by decide) (mailboxSend_barred hfree hr r.isLt h6 hbad) fun o ho => kvGet_mailCleared_ne ho
    · exact mailboxSend_fails (f := fun q => setFlag (setF q F.RNG_WAG_CTL_err 0) F.RNG_WAG_CTL_busy) hc (by decide) (by decide)
        (mailboxSend_unserved hfree hr r.isLt h6 htype hlen huni hnone) fun o ho => kvGet_mailBusy_ne ho
  · obtain rfl : w = mailWord s := funext hw
    obtain rfl : n = mailLen s := hn
    cases hbit : (mailWord s 1).getLsbD 15 with
    | true =>
      refine mailboxSend_posts (fun _ => _) hc (mailboxSend_broadcasts hfree hr r.isLt h6 htype hlen hbit) fun x e => ?_
      simp [endOf_atEndsUp, boxed]
    | false =>
      obtain ⟨d, hd⟩ := Option.ne_none_iff_exists'.1 (hserve hbit)
      refine mailboxSend_posts (fun _ => _) hc (mailboxSend_unicasts hfree hr r.isLt h6 htype hlen hbit hd) fun x e => ?_
      obtain rfl | hne := eq_or_ne e d
      · simp [endOf_modEnd, hd]
      · simp [endOf_modEnd_ne hne, hd, hne.symm]

end Sys2Proof.Machine
end

section
/-! Time-outs and evidence of a ring (R256, R259, R271, R273, R281): what TRAIN, an enumeration, a break, a silent node and the
repeated LIMITS leave, and the statement about them. -/
namespace Sys2Proof.Machine

section
variable {r : Nat} {s t u : State}

/-! ## TRAIN (R256) -/

/-- 10 ms have passed in TRAIN. -/
def lateNoted (x : RingSt) : RingSt := { x with late := true }

theorem exec_ringTrainTimeout (r : Fin 24) (s : State) : exec (.ringTrainTimeout r) s = .next (ringTrainTimeout r s) := rfl

theorem ringTrainTimeout_idle (h : ringState s r ≠ 1) : ringTrainTimeout r s = s := if_neg h

theorem ringTrainTimeout_waits (h : ringState s r = 1) (ha : endUp s r .a = false) (hb : endUp s r .b = false) :
    ringTrainTimeout r s = modRing r lateNoted s := by
  have hnone : ¬(ringState s r = 1 ∧ ((endUp s r .a && endUp s r .b) ||
      ((ringOf (modRing r lateNoted s) r).late && (endUp s r .a || endUp s r .b))) = true) := by
    simp [ha, hb]
  exact (if_pos h).trans (if_neg hnone)

theorem ringTrainTimeout_enters (hr : r < 24) (h : ringState s r = 1) (hup : endUp s r .a = true ∨ endUp s r .b = true) :
    ringTrainTimeout r s = enterEnum r (modRing r lateNoted s) := by
  have hlate : (ringOf (modRing r lateNoted s) r).late = true := congrArg RingSt.late (ringOf_modRing_self s lateNoted hr)
  refine (if_pos h).trans ?_
  obtain ha | hb := hup
  · exact trainDone_enters (s := modRing r lateNoted s) (e := .a) h ha (.inr hlate)
  · exact trainDone_enters (s := modRing r lateNoted s) (e := .b) h hb (.inr hlate)

/-! ## An enumeration that is not back (R259) -/

theorem exec_enumerationTimeout (r : Fin 24) (s : State) : exec (.enumerationTimeout r) s = .next (enumTimeout r s) := rfl

theorem enumTimeout_idle (h : ringState s r ≠ 2 ∨ (ringOf s r).passOut = none ∨ strideAge s (ringOf s r).passAt < (ringOf s r).passLen + 4) :
    enumTimeout r s = s := by
  refine if_neg fun ⟨henum, hout, hage⟩ => ?_
  obtain h | h | h := h
  · exact h henum
  · rw [h] at hout
    cases hout
  · exact absurd hage (not_le.2 h)

theorem enumTimeout_fails (h : ringState s r = 2) (hout : (ringOf s r).passOut ≠ none)
    (hage : (ringOf s r).passLen + 4 ≤ strideAge s (ringOf s r).passAt) : enumTimeout r s = enumFails r s :=
  if_pos ⟨h, Option.isSome_iff_ne_none.2 hout, hage⟩

theorem enumFails_last (hr : r < 24) (h : (ringOf s r).fails = 3) :
    enumFails r s = raise 11 r 255 (setRing r 7 (modRing r attemptFailed s)) := by
  have hself : (ringOf (modRing r attemptFailed s) r).fails = 4 := by
    rw [ringOf_modRing_self _ _ hr]
    exact congrArg (· + 1) h
  exact if_neg (by exact fun hlt => absurd (hself ▸ hlt) (by decide))

/-- A ring that was not READY changes its state and nothing of cell supervision. -/
theorem setRing_notReady_frame {st : Nat} (h : ringState s r ≠ 6) : setRing r st s =
    { s with rng := (setRing r st s).rng, hst := (setRing r st s).hst, two := (setRing r st s).two, out := (setRing r st s).out } := by
  rw [setRing_notReady h, irq_frame]
  rfl

/-! ## Breaks (R271, R272) -/

/-- Which ends reach a claimed node, by whether the ring is split and where its breaks are. -/
def nodeReach (split : Bool) (ba bb : Nat × Bool) (a : Nat) (n : RNode) : RNode :=
  if !n.claimed then n
  else if split then { n with reachA := ba.2 && a ≤ ba.1, reachB := bb.2 && bb.1 ≤ a }
  else { n with reachA := true, reachB := true }

/-- The ring with the ends that reach and serve its nodes. -/
def reachTaken (r : Nat) (s : State) : RingSt :=
  serveNodes (ringRec s r).nodes
    { ringOf s r with nodes := (ringOf s r).nodes.mapIdx (nodeReach (ringOf s r).split (brkOf s r .a) (brkOf s r .b)) }

/-- The nodes that become unreachable. -/
def reachLost (r : Nat) (s : State) : List Nat :=
  (claimedNodes (ringOf s r)).filter fun a => ((nodeAt (ringOf s r) a).reachA || (nodeAt (ringOf s r) a).reachB) &&
    !((nodeAt (reachTaken r s) a).reachA || (nodeAt (reachTaken r s) a).reachB)

theorem updateReach_eq (r : Nat) (s : State) : updateReach r s =
    (reachLost r s).foldl (fun s a => raise 13 r a s) (modRing r (fun _ => reachTaken r s) s) := rfl

theorem raises_sub_frame (src unit : Nat) : ∀ (l : List Nat) (s : State),
    l.foldl (fun s a => raise src unit a s) s = { s with flt := (l.foldl (fun s a => raise src unit a s) s).flt }
  | [], _ => rfl
  | a :: t, s => by
    rw [List.foldl_cons, raises_sub_frame src unit t]
    rfl

theorem updateReach_frame (r : Nat) (s : State) :
    updateReach r s = { modRing r (fun _ => reachTaken r s) s with flt := (updateReach r s).flt } :=
  raises_sub_frame 13 r _ _

theorem ringOf_updateReach (hr : r < 24) (s : State) : ringOf (updateReach r s) r = reachTaken r s := by
  rw [updateReach_frame]
  exact ringOf_modRing_self s _ hr

/-- On a whole ring both ends reach every claimed node. -/
theorem nodeAt_reachTaken_whole {a : Nat} (h : (ringOf s r).split = false) (hc : (nodeAt (ringOf s r) a).claimed = true) :
    (nodeAt (reachTaken r s) a).reachA = true ∧ (nodeAt (reachTaken r s) a).reachB = true := by
  simp only [nodeAt, List.getD_eq_getElem?_getD] at hc
  simp only [nodeAt, reachTaken, serveNodes, List.getD_eq_getElem?_getD, List.getElem?_mapIdx]
  cases hn : (ringOf s r).nodes[a]? with
  | none =>
    rw [hn] at hc
    cases hc
  | some n =>
    rw [hn] at hc
    have hc : n.claimed = true := hc
    simp [nodeReach, h, hc]

theorem claimed_of_mem {x : RingSt} {a : Nat} (h : a ∈ claimedNodes x) : (nodeAt x a).claimed = true := (List.mem_filter.1 h).2

/-- On a whole ring no node becomes unreachable: no event is sent. -/
theorem updateReach_whole (h : (ringOf s r).split = false) : updateReach r s = modRing r (fun _ => reachTaken r s) s := by
  have hlost : reachLost r s = [] := by
    refine List.filter_eq_nil_iff.2 fun a ha => ?_
    simp [(nodeAt_reachTaken_whole h (claimed_of_mem ha)).1]
  rw [updateReach_eq, hlost]
  rfl

/-- The ring is split, or whole again, and shows it. -/
def splitNoted (x : RingSt) : RingSt := { x with split := true, travA := 0, travB := 0 }
def wholeNoted (x : RingSt) : RingSt := { x with split := false }
def splitShown (r : Nat) (b : Bool) (s : State) : State := rngRegs_ (fun q => putBit q R.RNG_SPLIT r b) s

theorem exec_ringSplit (r : Fin 24) (s : State) : exec (.ringSplit r) s = .next (ringSplit r s) := rfl
theorem exec_ringWhole (r : Fin 24) (s : State) : exec (.ringWhole r) s = .next (ringWhole r s) := rfl

theorem ringSplit_idle (h : sendsData s r = false ∨ (ringOf s r).split = true ∨
    ((ringOf s r).a.splitRun < getF s.rng.r F.RNG_CFG_brk_confirm ∧ (ringOf s r).b.splitRun < getF s.rng.r F.RNG_CFG_brk_confirm)) :
    ringSplit r s = s := by
  refine if_pos ?_
  obtain h | h | ⟨ha, hb⟩ := h
  · simp [h]
  · simp [h]
  · simp [not_le.2 ha, not_le.2 hb]

theorem ringSplit_splits (hd : sendsData s r = true) (hs : (ringOf s r).split = false)
    (h : getF s.rng.r F.RNG_CFG_brk_confirm ≤ (ringOf s r).a.splitRun ∨ getF s.rng.r F.RNG_CFG_brk_confirm ≤ (ringOf s r).b.splitRun) :
    ringSplit r s = modRing r moveCarried (updateReach r (modRing r splitNoted (splitShown r true s))) := by
  refine if_neg ?_
  obtain h | h := h
  · simp [hd, hs, h]
  · simp [hd, hs, h]

theorem ringWhole_idle (h : sendsData s r = false ∨ (ringOf s r).split = false ∨
    (ringOf s r).a.wholeRun < getF s.rng.r F.RNG_CFG_brk_confirm ∨ (ringOf s r).b.wholeRun < getF s.rng.r F.RNG_CFG_brk_confirm) :
    ringWhole r s = s := by
  refine if_pos ?_
  obtain h | h | h | h := h
  · simp [h]
  · simp [h]
  · simp [not_le.2 h]
  · simp [not_le.2 h]

theorem ringWhole_joins (hd : sendsData s r = true) (hs : (ringOf s r).split = true)
    (ha : getF s.rng.r F.RNG_CFG_brk_confirm ≤ (ringOf s r).a.wholeRun) (hb : getF s.rng.r F.RNG_CFG_brk_confirm ≤ (ringOf s r).b.wholeRun) :
    ringWhole r s = modRing r moveCarried (updateReach r (modRing r wholeNoted (splitShown r false s))) :=
  if_neg (by simp [hd, hs, ha, hb])

/-- The part of the statement about a ring that splits. -/
theorem ringSplit_shows {r : Fin 24} (hd : sendsData s r = true) (hs : (ringOf s r).split = false)
    (h : getF s.rng.r F.RNG_CFG_brk_confirm ≤ (ringOf s r).a.splitRun ∨ getF s.rng.r F.RNG_CFG_brk_confirm ≤ (ringOf s r).b.splitRun) :
    ∃ t, exec (.ringSplit r) s = .next t ∧ t = { s with rng := t.rng, flt := t.flt } ∧ (ringOf t r).split = true ∧
      getBit t.rng.r R.RNG_SPLIT r = true ∧ (∀ o, o ≠ R.RNG_SPLIT → kvGet t.rng.r o = kvGet s.rng.r o) ∧
      ∀ q : Fin 24, q ≠ r → ringOf t q = ringOf s q := by
  have hreach := updateReach_frame r (modRing r splitNoted (splitShown r true s))
  have hself := ringOf_updateReach r.isLt (modRing r splitNoted (splitShown r true s))
  have hsplit : (ringOf (modRing r splitNoted (splitShown r true s)) r).split = true :=
    congrArg RingSt.split (ringOf_modRing_self _ _ r.isLt)
  refine ⟨_, (exec_ringSplit r s).trans (congrArg _ (ringSplit_splits hd hs h)), by rw [hreach]; rfl, ?_, ?_, fun o ho => ?_, fun q hq => ?_⟩
  · rw [ringOf_modRing_self _ _ r.isLt, hself]
    exact hsplit
  · rw [hreach]
    exact getBit_putBit_self _ _ _ _ (by omega)
  · rw [hreach]
    exact kvGet_putBit_ne _ _ _ _ _ ho
  · rw [ringOf_modRing_ne _ _ (Fin.val_ne_of_ne hq), hreach]
    exact (ringOf_modRing_ne _ _ (Fin.val_ne_of_ne hq)).trans (ringOf_modRing_ne _ _ (Fin.val_ne_of_ne hq))

/-- The part of the statement about a ring that is whole again. -/
theorem ringWhole_shows {r : Fin 24} (hd : sendsData s r = true) (hs : (ringOf s r).split = true)
    (ha : getF s.rng.r F.RNG_CFG_brk_confirm ≤ (ringOf s r).a.wholeRun) (hb : getF s.rng.r F.RNG_CFG_brk_confirm ≤ (ringOf s r).b.wholeRun) :
    ∃ t, exec (.ringWhole r) s = .next t ∧ t = { s with rng := t.rng } ∧ (ringOf t r).split = false ∧
      getBit t.rng.r R.RNG_SPLIT r = false ∧ (∀ o, o ≠ R.RNG_SPLIT → kvGet t.rng.r o = kvGet s.rng.r o) ∧
      (∀ a < (ringOf s r).nodes.length, (nodeAt (ringOf s r) a).claimed = true →
        (nodeAt (ringOf t r) a).reachA = true ∧ (nodeAt (ringOf t r) a).reachB = true) ∧
      ∀ q : Fin 24, q ≠ r → ringOf t q = ringOf s q := by
  have hnoted : ringOf (modRing r wholeNoted (splitShown r false s)) r = wholeNoted (ringOf s r) := ringOf_modRing_self _ _ r.isLt
  have hsplit : (ringOf (modRing r wholeNoted (splitShown r false s)) r).split = false := congrArg RingSt.split hnoted
  have hself := ringOf_updateReach r.isLt (modRing r wholeNoted (splitShown r false s))
  refine ⟨_, (exec_ringWhole r s).trans (congrArg _ (ringWhole_joins hd hs ha hb)), by rw [updateReach_whole hsplit]; rfl, ?_, ?_,
    fun o ho => ?_, fun a _ hc => ?_, fun q hq => ?_⟩
  · rw [ringOf_modRing_self _ _ r.isLt, hself]
    exact hsplit
  · rw [updateReach_whole hsplit]
    exact getBit_putBit_self _ _ _ _ (by omega)
  · rw [updateReach_whole hsplit]
    exact kvGet_putBit_ne _ _ _ _ _ ho
  · rw [ringOf_modRing_self _ _ r.isLt, hself]
    exact nodeAt_reachTaken_whole hsplit (by rw [hnoted]; exact hc)
  · rw [ringOf_modRing_ne _ _ (Fin.val_ne_of_ne hq), updateReach_whole hsplit]
    exact (ringOf_modRing_ne _ _ (Fin.val_ne_of_ne hq)).trans (ringOf_modRing_ne _ _ (Fin.val_ne_of_ne hq))

end

/-! ## A silent node (R273) -/

section
variable {r : Nat} {s t : State}

theorem exec_nodeSilent (r : Fin 24) (a : Fin 256) (s : State) : exec (.nodeSilent r a) s = .next (nodeSilent r a s) := rfl

theorem nodeSilent_idle {a : Nat} (h : ringState s r ≠ 6 ∨ (nodeAt (ringOf s r) a).claimed = false ∨ (nodeAt (ringOf s r) a).serve = none ∨
    (nodeAt (ringOf s r) a).silent = true ∨ (nodeAt (ringOf s r) a).noAck < getF s.rng.r F.RNG_CFG_sil_laps) : nodeSilent r a s = s := by
  refine if_pos ?_
  obtain h | h | h | h | h := h <;> simp [h]

theorem nodeSilent_marks {a : Nat} (h6 : ringState s r = 6) (hc : (nodeAt (ringOf s r) a).claimed = true)
    (hserve : (nodeAt (ringOf s r) a).serve ≠ none) (hs : (nodeAt (ringOf s r) a).silent = false)
    (hlaps : getF s.rng.r F.RNG_CFG_sil_laps ≤ (nodeAt (ringOf s r) a).noAck) :
    nodeSilent r a s = raise 14 r a (modRing r (modNode a fun n => { n with silent := true }) s) :=
  if_neg (by simp [h6, hc, hserve, hs, hlaps])

/-- A claimed node is one of the ring's node records. -/
theorem lt_length_of_claimed {x : RingSt} {a : Nat} (h : (nodeAt x a).claimed = true) : a < x.nodes.length := by
  by_contra hlt
  rw [nodeAt, List.getD_eq_default _ _ (not_lt.1 hlt)] at h
  cases h

/-- The part of the statement about a node that goes silent. -/
theorem nodeSilent_shows {r : Fin 24} {a : Fin 256} (h6 : ringState s r = 6) (hc : (nodeAt (ringOf s r) a).claimed = true)
    (hserve : (nodeAt (ringOf s r) a).serve ≠ none) (hs : (nodeAt (ringOf s r) a).silent = false)
    (hlaps : getF s.rng.r F.RNG_CFG_sil_laps ≤ (nodeAt (ringOf s r) a).noAck) : ∃ t, exec (.nodeSilent r a) s = .next t ∧
      t = { s with rng := { s.rng with ring := t.rng.ring }, flt := postEvent 14 r a (strideTag s) s.flt } ∧
      nodeAt (ringOf t r) a = { nodeAt (ringOf s r) a with silent := true } ∧
      (∀ b, b ≠ a.val → nodeAt (ringOf t r) b = nodeAt (ringOf s r) b) ∧ ∀ q : Fin 24, q ≠ r → ringOf t q = ringOf s q := by
  have hself : ringOf (raise 14 r a (modRing r (modNode a fun n => { n with silent := true }) s)) r =
      modNode a (fun n => { n with silent := true }) (ringOf s r) := ringOf_modRing_self s _ r.isLt
  have hnode (b : Nat) := nodeAt_modNode (b := b) (fun n => { n with silent := true }) (lt_length_of_claimed hc)
  refine ⟨_, (exec_nodeSilent r a s).trans (congrArg _ (nodeSilent_marks h6 hc hserve hs hlaps)), rfl, ?_, fun b hb => ?_,
    fun q hq => ringOf_modRing_ne s _ (Fin.val_ne_of_ne hq)⟩
  · rw [hself]
    exact (hnode a).trans (if_pos rfl)
  · rw [hself]
    exact (hnode b).trans (if_neg hb)

/-! ## LIMITS again (R281) -/

theorem exec_limitsRebroadcast (r : Fin 24) (s : State) : exec (.limitsRebroadcast r) s = .next (limitsRebroadcast r s) := rfl

/-- LIMITS of the sets `l` wait last at each end of ring `r` that is UP. -/
structure LimitsQueued (r : Nat) (l : List Nat) (s t : State) : Prop where
  rings  : RingsOnly s t
  other  : ∀ q, q ≠ r → ringOf t q = ringOf s q
  laps   : (ringOf t r).limLaps = (ringOf s r).limLaps
  queued : ∀ e, endUp s r e = true → ∃ ms, endOf (ringOf t r) e = { endOf (ringOf s r) e with todo := (endOf (ringOf s r) e).todo ++ ms } ∧
    ms.map (fun m => (wagType m.words, (m.words.getD 2 0).toNat)) = l.map fun i => (0x11, i % 65536)

theorem limLaps_atEndsUp (up : PortEnd → Bool) (f : RingEnd → RingEnd) (x : RingSt) : (atEndsUp up f x).limLaps = x.limLaps := by
  have hite (p : Bool) (e : PortEnd) (x : RingSt) : (if p then modEnd e f x else x).limLaps = x.limLaps := by
    cases p <;> cases e <;> rfl
  exact (hite ..).trans (hite ..)

theorem limitsQueued_sendLimits (hr : r < 24) (i : Nat) (s : State) : LimitsQueued r [i] s (sendLimits r i s) := by
  unfold sendLimits
  dsimp only
  generalize hpl : BitVec.ofNat 16 i :: _ = pl
  have hset : (pl.getD 0 0).toNat = i % 65536 := by
    rw [← hpl]
    rfl
  refine ⟨ringsOnly_wagBcastMsg .., fun q hq => ringOf_wagBcastMsg_ne _ _ _ hq, ?_, fun e he => ?_⟩
  · exact (congrArg RingSt.limLaps (ringOf_modRing_self s _ hr)).trans (limLaps_atEndsUp ..)
  · refine ⟨[bcastMsg 0x11 pl .ring (ringOf s r)], (endOf_wagBcastMsg hr ..).trans (if_pos he), ?_⟩
    exact congrArg (fun x => [x]) (Prod.ext (wagType_wagWords (by decide) ..) hset)

theorem LimitsQueued.cons {i : Nat} {l : List Nat} {u : State} (h1 : LimitsQueued r [i] s t) (h2 : LimitsQueued r l t u) :
    LimitsQueued r (i :: l) s u := by
  refine ⟨h1.rings.trans h2.rings, fun q hq => (h2.other q hq).trans (h1.other q hq), h2.laps.trans h1.laps, fun e he => ?_⟩
  have hup : endUp t r e = true := by
    rw [h1.rings]
    exact he
  obtain ⟨ms, hend, hms⟩ := h1.queued e he
  obtain ⟨ms', hend', hms'⟩ := h2.queued e hup
  refine ⟨ms ++ ms', ?_, ?_⟩
  · rw [hend', hend, List.append_assoc]
  · rw [List.map_append, hms, hms']
    rfl

theorem limitsQueued_foldl (hr : r < 24) : ∀ (l : List Nat) (s : State), LimitsQueued r l s (l.foldl (fun s i => sendLimits r i s) s)
  | [], s => ⟨.refl s, fun _ _ => rfl, rfl, fun _ _ => ⟨[], by rw [List.append_nil]; rfl, rfl⟩⟩
  | i :: l, s => (limitsQueued_sendLimits hr i s).cons (limitsQueued_foldl hr l _)

/-- No lap has passed since LIMITS, which is no longer due. -/
def limitsFresh (x : RingSt) : RingSt := { x with limLaps := 0, limDue := false }

theorem limitsQueued_sendAllLimits (hr : r < 24) (s : State) :
    LimitsQueued r (ringSets s r) (modRing r limitsFresh s) (sendAllLimits r s) := limitsQueued_foldl hr _ _

/-- The part of the statement about LIMITS that are due again. -/
theorem limitsRebroadcast_shows {r : Fin 24} (h6 : ringState s r = 6) (hlaps : 64 ≤ (ringOf s r).limLaps) :
    ∃ t, exec (.limitsRebroadcast r) s = .next t ∧ t = { s with rng := { s.rng with ring := t.rng.ring } } ∧ (ringOf t r).limLaps = 0 ∧
      (∀ e, endUp s r e = true → ∃ ms, endOf (ringOf t r) e = { endOf (ringOf s r) e with todo := (endOf (ringOf s r) e).todo ++ ms } ∧
        ms.map (fun m => (wagType m.words, (m.words.getD 2 0).toNat)) = (ringSets s r).map (fun i => (0x11, i % 65536))) ∧
      ∀ q : Fin 24, q ≠ r → ringOf t q = ringOf s q := by
  obtain ⟨hrings, hother, hzero, hqueued⟩ := limitsQueued_sendAllLimits r.isLt s
  have hself : ringOf (modRing r limitsFresh s) r = limitsFresh (ringOf s r) := ringOf_modRing_self _ _ r.isLt
  refine ⟨_, (exec_limitsRebroadcast r s).trans (congrArg _ (if_pos ⟨h6, hlaps⟩)), (ringsOnly_modRing ..).trans hrings, ?_,
    fun e he => ?_, fun q hq => (hother q (Fin.val_ne_of_ne hq)).trans (ringOf_modRing_ne _ _ (Fin.val_ne_of_ne hq))⟩
  · rw [hzero, hself]
    rfl
  · obtain ⟨ms, hend, hms⟩ := hqueued e he
    refine ⟨ms, ?_, hms⟩
    rw [hend, hself]
    cases e <;> rfl

theorem limitsRebroadcast_idle (h : ringState s r ≠ 6 ∨ (ringOf s r).limLaps < 64) : limitsRebroadcast r s = s := by
  refine if_neg fun ⟨h6, hlaps⟩ => ?_
  obtain h | h := h
  · exact h h6
  · omega

end

/-! ## The statement -/

/-- The part of the statement about a ring that TRAIN leaves with a port UP. -/
theorem ringTrainTimeout_enters_shows {r : Fin 24} {s : State} (h : ringState s r = 1) (hup : endUp s r .a = true ∨ endUp s r .b = true) :
    ∃ t, exec (.ringTrainTimeout r) s = .next t ∧
      t = { s with rng := t.rng, csv := t.csv, hst := t.hst, two := t.two, out := t.out } ∧ ringState t r = 2 ∧
      ∀ q : Fin 24, q ≠ r → ringOf t q = ringOf s q ∧ ringState t q = ringState s q := by
  obtain ⟨⟨hchanges, hstate, -⟩, -, -, -⟩ := enumerates_enterEnum (s := modRing r lateNoted s) r.isLt
  have hall := (ringChanges_modRing lateNoted s).trans hchanges
  exact ⟨_, (exec_ringTrainTimeout r s).trans (congrArg _ (ringTrainTimeout_enters r.isLt h hup)), hall.frame, hstate,
    fun q hq => (hall.other_fin q hq).symm⟩

/-- The part of the statement about the fourth attempt that fails. -/
theorem enumTimeout_last_shows {r : Fin 24} {s : State} (h : ringState s r = 2) (hout : (ringOf s r).passOut ≠ none)
    (hage : (ringOf s r).passLen + 4 ≤ strideAge s (ringOf s r).passAt) (hfails : (ringOf s r).fails = 3) :
    ∃ t, exec (.enumerationTimeout r) s = .next t ∧
      t = { s with rng := t.rng, hst := t.hst, two := t.two, out := t.out, flt := postEvent 11 r 255 (strideTag s) s.flt } ∧
      ringState t r = 7 ∧ (ringOf t r).nodes = List.replicate 256 {} ∧ getBit t.hst.r R.HST_IRQ_STAT 5 = true ∧
      ∀ q : Fin 24, q ≠ r → ringOf t q = ringOf s q ∧ ringState t q = ringState s q := by
  have h6 : ringState (modRing r attemptFailed s) r ≠ 6 := fun h6 => absurd (h.symm.trans h6) (by decide)
  have hframe := setRing_notReady_frame (st := 7) h6
  obtain ⟨hchanges, hstate, hcause⟩ := stateEntered_setRing (r := r) (s := modRing r attemptFailed s) (st := 7) (by decide)
  have hall := (ringChanges_modRing attemptFailed s).trans hchanges
  refine ⟨_, (exec_enumerationTimeout r s).trans (congrArg _ ((enumTimeout_fails h hout hage).trans (enumFails_last r.isLt hfails))),
    ?_, hstate, ?_, hcause, fun q hq => (hall.other_fin q hq).symm⟩
  · unfold raise strideTag strideCnt
    rw [hframe]
    rfl
  · refine (ringOf_setRing_keeps RingSt.nodes (fun _ => rfl) r.isLt _ _).trans ?_
    rw [ringOf_modRing_self _ _ r.isLt]
    rfl

/-- Settles O36: each time-out and each piece of evidence changes its ring where the ring's state and its records call for it. -/
theorem ringEvents : Obligations.RingEvents := by
  unfold Obligations.RingEvents
  intro r s
  refine ⟨fun h ha hb => ?_, ringTrainTimeout_enters_shows, fun h => ?_, fun h hout hage => ⟨fun hfails => ?_,
    enumTimeout_last_shows h hout hage⟩, fun h => ?_, ringSplit_shows, fun h => ?_, ringWhole_shows, fun h => ?_,
    fun a => ⟨nodeSilent_shows, fun h => ?_⟩, limitsRebroadcast_shows, fun h => ?_⟩
  · exact ⟨_, (exec_ringTrainTimeout r s).trans (congrArg _ (ringTrainTimeout_waits h ha hb)), rfl, ringOf_modRing_self _ _ r.isLt,
      fun q hq => ringOf_modRing_ne _ _ (Fin.val_ne_of_ne hq)⟩
  · exact congrArg Host.Outcome.next (ringTrainTimeout_idle h)
  · exact ⟨_, (exec_enumerationTimeout r s).trans (congrArg _ ((enumTimeout_fails h hout hage).trans (enumFails_again r.isLt hfails))),
      rfl, ringOf_modRing_self _ _ r.isLt, fun q hq => ringOf_modRing_ne _ _ (Fin.val_ne_of_ne hq)⟩
  · exact congrArg Host.Outcome.next (enumTimeout_idle h)
  · exact congrArg Host.Outcome.next (ringSplit_idle h)
  · exact congrArg Host.Outcome.next (ringWhole_idle h)
  · exact congrArg Host.Outcome.next (nodeSilent_idle h)
  · exact congrArg Host.Outcome.next (limitsRebroadcast_idle h)

end Sys2Proof.Machine
end

section
/-! Waggle messages (R264 to R267, R287): what the last bit of a message, a reply that does not come and a reply that does leave, and
the statement about them. -/
namespace Sys2Proof.Machine

/-! ## Steps that change nothing (R256, R321) -/

theorem ringAdvance_ready {r : Nat} {u : State} (h6 : ringState u r = 6) (hdue : (ringOf u r).limDue = false) : ringAdvance r u = u := by
  unfold ringAdvance
  dsimp only
  rw [h6]
  exact if_neg (by simp [hdue])

theorem stopDone_idle {u : State} (h : ∀ c, u.spx.camp = some c → c.phase ≠ .stopping) : stopDone u = u := by
  unfold stopDone
  split
  · rfl
  next c hc => exact if_neg fun hstop => h c hc hstop.1

/-! ## The last bit of a message (R264, R266, R270) -/

/-- The message `m` has left an end, which then waits for its reply where it calls for one. -/
def sentOff (m : WagMsg) (y : RingEnd) : RingEnd :=
  { y with cur := none, bit := 0, await := if m.reply then some m else y.await, wait := if m.reply then 0 else y.wait }

/-- A STREAM_DIV that has left counts its lap boundaries. -/
def divCounted (m : WagMsg) (y : RingEnd) : RingEnd := { y with divs := divSent ((m.words.getD 3 0).toNat % 256) y.divs }

/-- End `e` of ring `r` behind the last bit of `m`. -/
def endSent (r : Nat) (e : PortEnd) (m : WagMsg) (s : State) : State :=
  let s := modRing r (modEnd e (sentOff m)) s
  if m.use = .div then modRing r (modEnd e (divCounted m)) s else s

/-- A message of the mailbox that calls for no reply and is left nowhere ends. -/
def boxSent (r : Nat) (m : WagMsg) (s : State) : State :=
  if m.use = .mailbox && !m.reply && !useLeft .mailbox (ringOf s r) then mailboxEnd 0 s else s

/-- A wire test begins with the next lap. -/
def testSent (r : Nat) (m : WagMsg) (s : State) : State :=
  let mark := fun (x : CsvRing) => { x with test := x.test.map fun t => { t with lap := s.tbs.lap + 1 } }
  if m.use = .wire then { s with csv := { s.csv with ring := vmod s.csv.ring r mark } } else s

/-- The state behind the last bit of `m`, ahead of what it moves on. -/
def messageSent (r : Nat) (e : PortEnd) (m : WagMsg) (s : State) : State := testSent r m (boxSent r m (endSent r e m s))

section
variable {r : Nat} {e : PortEnd} {m : WagMsg} {ws : List Half} {s : State}

theorem exec_waggleSendComplete (r : Fin 24) (e : PortEnd) (s : State) :
    exec (.waggleSendComplete r e) s = .next (stopDone (sendComplete r e s)) := rfl

theorem sendComplete_early (hcur : (endOf (ringOf s r) e).cur = some (m, ws)) (hbit : (endOf (ringOf s r) e).bit < 16 * ws.length) :
    sendComplete r e s = s := by
  unfold sendComplete
  dsimp only
  rw [hcur]
  exact if_pos hbit

theorem sendComplete_sent (hcur : (endOf (ringOf s r) e).cur = some (m, ws)) (hbit : 16 * ws.length ≤ (endOf (ringOf s r) e).bit) :
    sendComplete r e s = ringAdvance r (messageSent r e m s) := by
  unfold sendComplete
  dsimp only
  rw [hcur]
  exact if_neg (not_lt.2 hbit)

theorem endSent_rings (r : Nat) (e : PortEnd) (m : WagMsg) (s : State) : RingsOnly s (endSent r e m s) := by
  unfold endSent
  dsimp only
  split
  · rfl
  · rfl

theorem ringOf_endSent_ne {q : Nat} (h : q ≠ r) : ringOf (endSent r e m s) q = ringOf s q := by
  unfold endSent
  dsimp only
  split
  · rw [ringOf_modRing_ne _ _ h, ringOf_modRing_ne _ _ h]
  · exact ringOf_modRing_ne _ _ h

/-- Only the end that sent changes. -/
theorem ringOf_endSent (hr : r < 24) (e : PortEnd) (m : WagMsg) (s : State) : ringOf (endSent r e m s) r =
    modEnd e (fun y => if m.use = .div then divCounted m (sentOff m y) else sentOff m y) (ringOf s r) := by
  unfold endSent
  dsimp only
  split
  · rw [ringOf_modRing_self _ _ hr, ringOf_modRing_self _ _ hr]
    cases e <;> rfl
  · rw [ringOf_modRing_self _ _ hr]

theorem ringChanges_endSent : RingChanges r s (endSent r e m s) := by
  refine ⟨by rw [endSent_rings], fun q hq => ⟨?_, ringOf_endSent_ne hq⟩⟩
  rw [endSent_rings]
  rfl

theorem ringChanges_boxSent : RingChanges r s (boxSent r m s) := by
  unfold boxSent
  split
  · exact ringChanges_mailboxEnd ..
  · exact .refl r s

theorem ringOf_boxSent (q : Nat) : ringOf (boxSent r m s) q = ringOf s q := by
  unfold boxSent
  split
  · exact ringOf_mailboxEnd ..
  · rfl

theorem ringState_boxSent (q : Nat) : ringState (boxSent r m s) q = ringState s q := by
  unfold boxSent
  split
  · exact ringState_mailboxEnd ..
  · rfl

theorem cellsOnly_testSent (r : Nat) (m : WagMsg) (s : State) : CellsOnly s (testSent r m s) := .ite (cellsOnly_csv _ s) (.refl s)

theorem ringChanges_messageSent : RingChanges r s (messageSent r e m s) :=
  (ringChanges_endSent.trans ringChanges_boxSent).trans ((cellsOnly_testSent ..).ringChanges r)

theorem ringState_messageSent (q : Nat) : ringState (messageSent r e m s) q = ringState s q := by
  rw [messageSent, (cellsOnly_testSent ..).ringState, ringState_boxSent, endSent_rings]
  rfl

theorem ringOf_messageSent (hr : r < 24) (e : PortEnd) (m : WagMsg) (s : State) : ringOf (messageSent r e m s) r =
    modEnd e (fun y => if m.use = .div then divCounted m (sentOff m y) else sentOff m y) (ringOf s r) := by
  rw [messageSent, (cellsOnly_testSent ..).ringOf, ringOf_boxSent, ringOf_endSent hr]

/-- A message of the ring controller itself changes its ring alone. -/
theorem messageSent_ring (h : m.use = .ring) : RingsOnly s (messageSent r e m s) := by
  have hbox (s : State) : boxSent r m s = s := if_neg (by simp [h])
  have htest (s : State) : testSent r m s = s := if_neg (by simp [h])
  rw [messageSent, htest, hbox]
  exact endSent_rings ..

/-- No message of the mailbox is queued or on a downlink of the ring. -/
theorem useLeft_mailbox (x : RingSt) (h : ∀ d, (endOf x d).box = none ∧ (endOf x d).cur = none ∧ ∀ y ∈ (endOf x d).todo, y.use ≠ .mailbox) :
    useLeft .mailbox x = false := by
  obtain ⟨haBox, haCur, haTodo⟩ := h .a
  obtain ⟨hbBox, hbCur, hbTodo⟩ := h .b
  have ha : x.a.todo.any (·.use == .mailbox) = false := List.any_eq_false.2 fun y hy => by simpa using haTodo y hy
  have hb : x.b.todo.any (·.use == .mailbox) = false := List.any_eq_false.2 fun y hy => by simpa using hbTodo y hy
  simp only [endOf] at haBox haCur hbBox hbCur
  simp [useLeft, ha, hb, haBox, haCur, hbBox, hbCur]

theorem endOf_messageSent (hr : r < 24) (e : PortEnd) (m : WagMsg) (s : State) : endOf (ringOf (messageSent r e m s) r) e =
    if m.use = .div then divCounted m (sentOff m (endOf (ringOf s r) e)) else sentOff m (endOf (ringOf s r) e) := by
  rw [ringOf_messageSent hr, endOf_modEnd]

theorem otherEnd_ne (e : PortEnd) : otherEnd e ≠ e := by cases e <;> decide

theorem eq_otherEnd_of_ne {d e : PortEnd} (h : d ≠ e) : d = otherEnd e := by
  cases e with
  | a =>
    cases d with
    | a => exact absurd rfl h
    | b => rfl
  | b =>
    cases d with
    | a => rfl
    | b => exact absurd rfl h

/-- A message of the mailbox that calls for no reply and is left nowhere else ends it. -/
theorem messageSent_mailbox (hr : r < 24) (huse : m.use = .mailbox) (hreply : m.reply = false)
    (hobox : (endOf (ringOf s r) (otherEnd e)).box = none) (hocur : (endOf (ringOf s r) (otherEnd e)).cur = none)
    (hbox : (endOf (ringOf s r) e).box = none) (htodo : ∀ x ∈ (ringOf s r).a.todo ++ (ringOf s r).b.todo, x.use ≠ .mailbox) :
    messageSent r e m s = mailboxEnd 0 (endSent r e m s) := by
  have hall (d : PortEnd) : ∀ y ∈ (endOf (ringOf s r) d).todo, y.use ≠ .mailbox := fun y hy => htodo y (by
    cases d
    · exact List.mem_append_left _ hy
    · exact List.mem_append_right _ hy)
  have hleft : useLeft .mailbox (ringOf (endSent r e m s) r) = false := by
    refine useLeft_mailbox _ fun d => ?_
    rw [ringOf_endSent hr]
    obtain rfl | hd := eq_or_ne d e
    · rw [endOf_modEnd, if_neg (by rw [huse]; decide)]
      exact ⟨hbox, rfl, hall _⟩
    · rw [endOf_modEnd_ne hd, eq_otherEnd_of_ne hd]
      exact ⟨hobox, hocur, hall _⟩
  have htest (s : State) : testSent r m s = s := if_neg (by simp [huse])
  rw [messageSent, htest, boxSent, if_pos (by simp [huse, hreply, hleft])]

end

/-- The part of the statement about a message whose last bit has left. -/
theorem sendComplete_shows {r : Fin 24} {e : PortEnd} {m : WagMsg} {ws : List Half} {s : State}
    (hcur : (endOf (ringOf s r) e).cur = some (m, ws)) (hbit : 16 * ws.length ≤ (endOf (ringOf s r) e).bit) :
    ∃ u, exec (.waggleSendComplete r e) s = .next (stopDone (ringAdvance r u)) ∧
      u = { s with rng := u.rng, csv := u.csv, hst := u.hst, two := u.two, out := u.out } ∧
      (m.use = .ring → u = { s with rng := { s.rng with ring := u.rng.ring } }) ∧ ringState u r = ringState s r ∧
      endOf (ringOf u r) e = { endOf (ringOf s r) e with
        cur := none, bit := 0, await := if m.reply then some m else (endOf (ringOf s r) e).await
        wait := if m.reply then 0 else (endOf (ringOf s r) e).wait, divs := (endOf (ringOf u r) e).divs } ∧
      (m.use = .mailbox → m.reply = false → (endOf (ringOf s r) (otherEnd e)).box = none →
        (endOf (ringOf s r) (otherEnd e)).cur = none → (endOf (ringOf s r) e).box = none →
        (∀ x ∈ (ringOf s r).a.todo ++ (ringOf s r).b.todo, x.use ≠ .mailbox) →
        flag u.rng.r F.RNG_WAG_CTL_done = true ∧ flag u.rng.r F.RNG_WAG_CTL_busy = false ∧ getBit u.hst.r R.HST_IRQ_STAT 5 = true) ∧
      endOf (ringOf u r) (otherEnd e) = endOf (ringOf s r) (otherEnd e) ∧ ∀ q : Fin 24, q ≠ r → ringOf u q = ringOf s q := by
  have hexec := exec_waggleSendComplete r e s
  rw [sendComplete_sent hcur hbit] at hexec
  have hchanges : RingChanges r s (messageSent r e m s) := ringChanges_messageSent
  refine ⟨_, hexec, hchanges.frame, messageSent_ring, ringState_messageSent _, ?_, fun huse hreply hobox hocur hbox htodo => ?_, ?_,
    fun q hq => (hchanges.other_fin q hq).2⟩
  · rw [endOf_messageSent r.isLt]
    split
    · rfl
    · rfl
  · rw [messageSent_mailbox r.isLt huse hreply hobox hocur hbox htodo, mailboxEnd_regs]
    exact ⟨mailEnded_done _, mailEnded_busy .., mailboxEnd_cause ..⟩
  · rw [ringOf_messageSent r.isLt, endOf_modEnd_ne (otherEnd_ne e)]

/-! ## A reply that does not come (R266) -/

/-- The end waits for no reply. -/
def awaitOver (y : RingEnd) : RingEnd := { y with await := none, rx := none, wait := 0 }

/-- The request `m` waits again, in front, at the end through which it is to leave. -/
def waitsAgain (e : PortEnd) (m : WagMsg) (x : RingSt) : RingSt :=
  if m.use = .mailbox then modEnd (msgEnd x e m) (boxed m) x else wagPut true (msgEnd x e m) m x

section
variable {r : Nat} {e : PortEnd} {m : WagMsg} {s : State}

theorem exec_waggleReplyTimeout (r : Fin 24) (e : PortEnd) (s : State) :
    exec (.waggleReplyTimeout r e) s = .next (replyTimeout r e s) := rfl

theorem replyTimeout_early (h : (endOf (ringOf s r) e).inbox ≠ none ∨ (endOf (ringOf s r) e).rx ≠ none ∨ (endOf (ringOf s r) e).wait < 64) :
    replyTimeout r e s = s := by
  refine if_neg ?_
  obtain h | h | h := h
  · simp [h]
  · simp [h]
  · simp [not_le.2 h]

theorem replyTimeout_due (ha : (endOf (ringOf s r) e).await = some m) (hin : (endOf (ringOf s r) e).inbox = none)
    (hrx : (endOf (ringOf s r) e).rx = none) (hwait : 64 ≤ (endOf (ringOf s r) e).wait) : replyTimeout r e s = retryOrEnd r e false s :=
  if_pos (by simp [ha, hin, hrx, hwait])

theorem retryOrEnd_again (ha : (endOf (ringOf s r) e).await = some m) (ht : m.tries < 3) : retryOrEnd r e false s =
    ringAdvance r (modRing r (fun _ => waitsAgain e m (modEnd e awaitOver (ringOf s r))) s) := by
  have hretry : retry e false (ringOf s r) = (false, waitsAgain e m (modEnd e awaitOver (ringOf s r))) := by
    unfold retry
    rw [ha]
    exact if_pos ht
  unfold retryOrEnd
  rw [ha]
  dsimp only
  rw [hretry]
  rfl

theorem retryOrEnd_spent (ha : (endOf (ringOf s r) e).await = some m) (ht : 3 ≤ m.tries) : retryOrEnd r e false s =
    ringAdvance r (giveUp r m (modRing r (fun _ => modEnd e awaitOver (ringOf s r)) s)) := by
  have hretry : retry e false (ringOf s r) = (true, modEnd e awaitOver (ringOf s r)) := by
    unfold retry
    rw [ha]
    exact if_neg (not_lt.2 ht)
  unfold retryOrEnd
  rw [ha]
  dsimp only
  rw [hretry]
  rfl

/-- A change of an end leaves the end through which a message is to leave. -/
theorem msgEnd_modEnd (d : PortEnd) (f : RingEnd → RingEnd) (x : RingSt) (e : PortEnd) (m : WagMsg) :
    msgEnd (modEnd d f x) e m = msgEnd x e m := by
  cases d <;> rfl

theorem await_waitsAgain (d : PortEnd) (x : RingSt) : (endOf (waitsAgain e m x) d).await = (endOf x d).await := by
  unfold waitsAgain
  split
  · exact endOf_modEnd_keeps RingEnd.await (f := boxed m) (fun _ => rfl) ..
  · exact endOf_modEnd_keeps RingEnd.await (f := fun y => { y with todo := m :: y.todo }) (fun _ => rfl) ..

theorem waitsAgain_box (huse : m.use = .mailbox) (x : RingSt) : (endOf (waitsAgain e m x) (msgEnd x e m)).box = some m := by
  rw [waitsAgain, if_pos huse, endOf_modEnd]
  rfl

theorem waitsAgain_todo (huse : m.use ≠ .mailbox) (x : RingSt) :
    (endOf (waitsAgain e m x) (msgEnd x e m)).todo = m :: (endOf x (msgEnd x e m)).todo := by
  rw [waitsAgain, if_neg huse, wagPut, endOf_modEnd]
  rfl

/-- Requests of a node's diagnostic run are dropped. -/
def diagUnasked (a : Nat) (x : RingSt) : RingSt := { x with reqs := x.reqs.filter fun q => !(q.g.kind == 2 && q.g.node == a) }

/-- The wire test `w` lacks a run: it runs once more, or ends indeterminate. -/
def testLacksRun (r : Nat) (w : WireTest) (s : State) : State :=
  if w.runs = 0 then
    let w := { w with again := true, going := false, asked := false, runs := 1 }
    { s with csv := { s.csv with ring := vmod s.csv.ring r fun x => { x with test := some w } } }
  else
    let s := wiresIndet r w.node w.mask s
    let q := setFlag (setF s.csv.r F.CSV_WIRE_STAT_result 3) F.CSV_WIRE_STAT_done
    let q := setF (setF q F.CSV_WIRE_STAT_ring r) F.CSV_WIRE_STAT_node w.node
    irq 6 { s with csv := { s.csv with r := q, ring := vmod s.csv.ring r fun x => { x with test := none } } }

theorem wireIndet_none (h : (vget s.csv.ring r {}).test = none) : wireIndet r s = s := by
  unfold wireIndet
  rw [h]

theorem wireIndet_some {w : WireTest} (h : (vget s.csv.ring r {}).test = some w) :
    wireIndet r s = testLacksRun r w (modRing r (diagUnasked w.node) s) := by
  unfold wireIndet
  rw [h]
  rfl

theorem cellsOnly_testLacksRun (r : Nat) (w : WireTest) (s : State) : CellsOnly s (testLacksRun r w s) :=
  .ite (cellsOnly_csv _ _) (((cellsOnly_wiresIndet ..).trans (cellsOnly_csv _ _)).trans (cellsOnly_irq ..))

theorem wireIndet_ends (hr : r < 24) (s : State) (d : PortEnd) : endOf (ringOf (wireIndet r s) r) d = endOf (ringOf s r) d := by
  cases h : (vget s.csv.ring r {}).test with
  | none => rw [wireIndet_none h]
  | some w =>
    rw [wireIndet_some h, (cellsOnly_testLacksRun ..).ringOf, ringOf_modRing_self _ _ hr]
    cases d <;> rfl

theorem ringChanges_wireIndet (r : Nat) (s : State) : RingChanges r s (wireIndet r s) := by
  cases h : (vget s.csv.ring r {}).test with
  | none =>
    rw [wireIndet_none h]
    exact .refl r s
  | some w =>
    rw [wireIndet_some h]
    exact (ringChanges_modRing _ s).trans ((cellsOnly_testLacksRun ..).ringChanges r)

theorem ringChanges_giveUp (r : Nat) (m : WagMsg) (s : State) : RingChanges r s (giveUp r m s) := by
  unfold giveUp
  split
  · exact ringChanges_mailboxEnd ..
  · exact ringChanges_wireIndet r s
  · exact ((cellsOnly_csv _ s).trans (cellsOnly_balRefuse ..)).ringChanges r
  · exact .refl r s

theorem giveUp_ends (hr : r < 24) (m : WagMsg) (s : State) (d : PortEnd) : endOf (ringOf (giveUp r m s) r) d = endOf (ringOf s r) d := by
  unfold giveUp
  split
  · rw [ringOf_mailboxEnd]
  · exact wireIndet_ends hr s d
  · exact congrArg (endOf · d) (((cellsOnly_csv _ s).trans (cellsOnly_balRefuse ..)).ringOf r)
  · rfl

theorem giveUp_mailbox (h : m.use = .mailbox) : giveUp r m s = mailboxEnd (if m.crcs = 3 then 1 else 2) s := by
  unfold giveUp
  rw [h]

theorem giveUp_bal (h : m.use = .bal) : giveUp r m s = balRefuse 3 { s with csv := { s.csv with bal := none } } := by
  unfold giveUp
  rw [h]

theorem balRefuse_bal (k : Nat) (s : State) : (balRefuse k s).csv.bal = s.csv.bal := by
  rw [balRefuse_frame]

end

/-- The part of the statement about a request that is sent again. -/
theorem replyTimeout_again_shows {r : Fin 24} {e : PortEnd} {m : WagMsg} {s : State} (ha : (endOf (ringOf s r) e).await = some m)
    (ht : m.tries < 3) : ∃ u, retryOrEnd r e false s = ringAdvance r u ∧ RingChanges r s u ∧ (endOf (ringOf u r) e).await = none ∧
      u = { s with rng := { s.rng with ring := u.rng.ring } } ∧
      (m.use = .mailbox → (endOf (ringOf u r) (msgEnd (ringOf s r) e m)).box = some m) ∧
      (m.use ≠ .mailbox → (endOf (ringOf u r) (msgEnd (ringOf s r) e m)).todo =
        m :: (endOf (ringOf s r) (msgEnd (ringOf s r) e m)).todo) := by
  have hself := ringOf_modRing_self s (fun _ => waitsAgain e m (modEnd e awaitOver (ringOf s r))) r.isLt
  have hmsg := msgEnd_modEnd e awaitOver (ringOf s r) e m
  refine ⟨_, retryOrEnd_again ha ht, ringChanges_modRing .., ?_, rfl, fun huse => ?_, fun huse => ?_⟩
  · rw [hself, await_waitsAgain, endOf_modEnd]
    rfl
  · rw [hself, ← hmsg]
    exact waitsAgain_box huse _
  · rw [hself, ← hmsg, waitsAgain_todo huse]
    exact congrArg _ (endOf_modEnd_keeps RingEnd.todo (f := awaitOver) (fun _ => rfl) ..)

/-- The part of the statement about a request that is given up. -/
theorem replyTimeout_spent_shows {r : Fin 24} {e : PortEnd} {m : WagMsg} {s : State} (ha : (endOf (ringOf s r) e).await = some m)
    (ht : 3 ≤ m.tries) : ∃ u, retryOrEnd r e false s = ringAdvance r u ∧ RingChanges r s u ∧ (endOf (ringOf u r) e).await = none ∧
      (m.use = .mailbox → flag u.rng.r F.RNG_WAG_CTL_failed = true ∧ flag u.rng.r F.RNG_WAG_CTL_busy = false ∧
        getF u.rng.r F.RNG_WAG_CTL_err = (if m.crcs = 3 then 1 else 2)) ∧
      (m.use = .bal → u.csv.bal = none ∧ flag u.csv.r F.CSV_BAL_STAT_refused = true ∧ getF u.csv.r F.CSV_BAL_STAT_reason = 3) := by
  have hself := ringOf_modRing_self s (fun _ => modEnd e awaitOver (ringOf s r)) r.isLt
  refine ⟨_, retryOrEnd_spent ha ht, (ringChanges_modRing _ s).trans (ringChanges_giveUp ..), ?_, fun huse => ?_, fun huse => ?_⟩
  · rw [giveUp_ends r.isLt, hself, endOf_modEnd]
    rfl
  · have hlt : (if m.crcs = 3 then 1 else 2) ≠ 0 ∧ (if m.crcs = 3 then 1 else 2) < 256 := by
      split <;> decide
    rw [giveUp_mailbox huse, mailboxEnd_regs]
    obtain ⟨hfailed, herr⟩ := mailEnded_failed s.rng.r hlt.1 hlt.2
    exact ⟨hfailed, mailEnded_busy .., herr⟩
  · rw [giveUp_bal huse]
    obtain ⟨hrefused, hreason, -, -⟩ := balRefuse_shows (k := 3) (by decide)
      { modRing r (fun _ => modEnd e awaitOver (ringOf s r)) s with csv := { s.csv with bal := none } }
    exact ⟨balRefuse_bal .., hrefused, hreason⟩

/-- The part of the statement about a reply that does not come in 64 strides. -/
theorem replyTimeout_due_shows {r : Fin 24} {e : PortEnd} {m : WagMsg} {s : State} (ha : (endOf (ringOf s r) e).await = some m)
    (hin : (endOf (ringOf s r) e).inbox = none) (hrx : (endOf (ringOf s r) e).rx = none) (hwait : 64 ≤ (endOf (ringOf s r) e).wait) :
    ∃ u, exec (.waggleReplyTimeout r e) s = .next (ringAdvance r u) ∧
      u = { s with rng := u.rng, csv := u.csv, hst := u.hst, two := u.two, out := u.out } ∧
      (endOf (ringOf u r) e).await = none ∧ (∀ q : Fin 24, q ≠ r → ringOf u q = ringOf s q) ∧
      (m.tries < 3 → u = { s with rng := { s.rng with ring := u.rng.ring } } ∧
        (m.use = .mailbox → (endOf (ringOf u r) (msgEnd (ringOf s r) e m)).box = some m) ∧
        (m.use ≠ .mailbox → (endOf (ringOf u r) (msgEnd (ringOf s r) e m)).todo =
          m :: (endOf (ringOf s r) (msgEnd (ringOf s r) e m)).todo)) ∧
      (3 ≤ m.tries → m.use = .mailbox → flag u.rng.r F.RNG_WAG_CTL_failed = true ∧ flag u.rng.r F.RNG_WAG_CTL_busy = false ∧
        getF u.rng.r F.RNG_WAG_CTL_err = (if m.crcs = 3 then 1 else 2)) ∧
      (3 ≤ m.tries → m.use = .bal → u.csv.bal = none ∧ flag u.csv.r F.CSV_BAL_STAT_refused = true ∧
        getF u.csv.r F.CSV_BAL_STAT_reason = 3) := by
  have hexec := (exec_waggleReplyTimeout r e s).trans (congrArg _ (replyTimeout_due ha hin hrx hwait))
  obtain ht | ht := lt_or_ge m.tries 3
  · obtain ⟨u, hadv, hchanges, hawait, hframe, hbox, htodo⟩ := replyTimeout_again_shows ha ht
    exact ⟨u, hexec.trans (congrArg _ hadv), hchanges.frame, hawait, fun q hq => (hchanges.other_fin q hq).2,
      fun _ => ⟨hframe, hbox, htodo⟩, fun h3 => absurd ht (not_lt.2 h3), fun h3 => absurd ht (not_lt.2 h3)⟩
  · obtain ⟨u, hadv, hchanges, hawait, hmail, hbal⟩ := replyTimeout_spent_shows ha ht
    exact ⟨u, hexec.trans (congrArg _ hadv), hchanges.frame, hawait, fun q hq => (hchanges.other_fin q hq).2,
      fun hlt => absurd hlt (not_lt.2 ht), fun _ => hmail, fun _ => hbal⟩

/-! ## A message on the uplink (R264 to R267) -/

/-- A message is dropped, and the wait goes on. -/
def inboxDropped (y : RingEnd) : RingEnd := { y with inbox := none }

/-- The reply is taken. -/
def answered (y : RingEnd) : RingEnd := { y with inbox := none, await := none, wait := 0 }

/-- What an ACK, a DESC and any other message of the node asked bring about. -/
def ackTaken (r : Nat) (m : WagMsg) (ws : List Half) (s : State) : State :=
  if m.use = .mailbox then mailboxReply ws s else acked r m ((ws.getD 2 0).toNat % 256) s
def descTaken (r : Nat) (m : WagMsg) (ws : List Half) (s : State) : State :=
  if m.use = .mailbox then mailboxReply ws s else modRing r (modNode (wagNode m.words) fun n => { n with desc := some (descBits (ws.drop 2)) }) s
def otherTaken (_ : WagMsg) (ws : List Half) (s : State) : State := mailboxReply ws s

section
variable {r : Nat} {e : PortEnd} {m : WagMsg} {ws : List Half} {s : State} {want : Nat → Bool} {act : WagMsg → List Half → State → State}

theorem takeInbox_otherNode (ha : (endOf (ringOf s r) e).await = some m) (hin : (endOf (ringOf s r) e).inbox = some ws)
    (hw : want (wagType ws) = true) (hn : wagNode ws ≠ wagNode m.words) :
    takeInbox r e want act s = modRing r (modEnd e inboxDropped) s := by
  unfold takeInbox
  dsimp only
  rw [ha, hin]
  dsimp only
  rw [if_neg (by rw [hw]; decide), if_pos hn]
  rfl

theorem takeInbox_usable (ha : (endOf (ringOf s r) e).await = some m) (hin : (endOf (ringOf s r) e).inbox = some ws)
    (hw : want (wagType ws) = true) (hn : wagNode ws = wagNode m.words) (hu : usableReply m ws = true) :
    takeInbox r e want act s = ringAdvance r (act m ws (modRing r (modEnd e answered) s)) := by
  unfold takeInbox
  dsimp only
  rw [ha, hin]
  dsimp only
  rw [if_neg (by rw [hw]; decide), if_neg (not_not.2 hn), if_neg (by rw [hu]; decide)]
  rfl

theorem exec_waggleAck (r : Fin 24) (e : PortEnd) (s : State) :
    exec (.waggleAck r e) s = .next (takeInbox r e (· == 0x81) (ackTaken r) s) := rfl
theorem exec_waggleDesc (r : Fin 24) (e : PortEnd) (s : State) :
    exec (.waggleDesc r e) s = .next (takeInbox r e (· == 0x82) (descTaken r) s) := rfl
theorem exec_waggleUplinkOther (r : Fin 24) (e : PortEnd) (s : State) :
    exec (.waggleUplinkOther r e) s = .next (takeInbox r e (fun t => t != 0x81 && t != 0x82) otherTaken s) := rfl

/-- The command `c` is the one that takes messages of the kind of `ws` at end `e` of ring `r`. -/
def TakesKind (r : Fin 24) (e : PortEnd) (ws : List Half) (c : Instr) : Prop :=
  (c = .waggleAck r e ∧ wagType ws = 0x81) ∨ (c = .waggleDesc r e ∧ wagType ws = 0x82) ∨
    (c = .waggleUplinkOther r e ∧ wagType ws ≠ 0x81 ∧ wagType ws ≠ 0x82)

/-- Each command takes a message of its kind, and hands a reply to the mailbox's message to the mailbox. -/
theorem exec_takesInbox {r : Fin 24} {c : Instr} (hc : TakesKind r e ws c) (s : State) :
    ∃ want act, exec c s = .next (takeInbox r e want act s) ∧ want (wagType ws) = true ∧
      ∀ m u, m.use = .mailbox → act m ws u = mailboxReply ws u := by
  obtain ⟨rfl, ht⟩ | ⟨rfl, ht⟩ | ⟨rfl, h81, h82⟩ := hc
  · exact ⟨_, _, exec_waggleAck r e s, by simp [ht], fun m u huse => if_pos huse⟩
  · exact ⟨_, _, exec_waggleDesc r e s, by simp [ht], fun m u huse => if_pos huse⟩
  · exact ⟨_, _, exec_waggleUplinkOther r e s, by simp [h81, h82], fun m u _ => rfl⟩

end

/-! ### The mailbox's reply (R265) -/

/-- The first `n` registers `RNG_WAG_RXn` hold the words of a reply. -/
def rxFilled (ws : List Half) (n : Nat) (q : RegFile) : RegFile :=
  foldN n (fun q n => kvSet q (R.RNG_WAG_RXn n) (ws.getD (2 * n + 1) 0 ++ ws.getD (2 * n) 0)) q

theorem rxFilled_succ (ws : List Half) (n : Nat) (q : RegFile) :
    rxFilled ws (n + 1) q = kvSet (rxFilled ws n q) (R.RNG_WAG_RXn n) (ws.getD (2 * n + 1) 0 ++ ws.getD (2 * n) 0) := by
  simp only [rxFilled, foldN, List.range_succ, List.foldl_append, List.foldl_cons, List.foldl_nil]

theorem kvGet_rxFilled (ws : List Half) (q : RegFile) {i : Nat} : ∀ {n : Nat}, i < n →
    kvGet (rxFilled ws n q) (R.RNG_WAG_RXn i) = ws.getD (2 * i + 1) 0 ++ ws.getD (2 * i) 0
  | n + 1, h => by
    rw [rxFilled_succ]
    obtain rfl | hne := eq_or_ne i n
    · exact kvGet_kvSet_self ..
    · rw [kvGet_kvSet_ne _ _ (by simp only [R.RNG_WAG_RXn]; omega)]
      exact kvGet_rxFilled ws q (by omega)

/-- The registers behind the mailbox's reply. -/
def replyShown (ws : List Half) (q : RegFile) : RegFile := mailEnded 0 (setFlag (rxFilled ws 17 q) F.RNG_WAG_CTL_reply)

section
variable (ws : List Half) (s : State)

theorem mailboxReply_eq : mailboxReply ws s = mailboxEnd 0 (rngRegs_ (fun q => setFlag (rxFilled ws 17 q) F.RNG_WAG_CTL_reply) s) := rfl

theorem mailboxReply_regs : (mailboxReply ws s).rng.r = replyShown ws s.rng.r := by
  rw [mailboxReply_eq, mailboxEnd_regs]
  rfl

theorem mailboxReply_frame : mailboxReply ws s = { s with
    rng := { s.rng with r := (mailboxReply ws s).rng.r }, hst := (mailboxReply ws s).hst, two := (mailboxReply ws s).two,
    out := (mailboxReply ws s).out } := by
  rw [mailboxReply_eq, mailboxEnd_frame]
  rfl

theorem ringOf_mailboxReply (q : Nat) : ringOf (mailboxReply ws s) q = ringOf s q := by
  rw [mailboxReply_eq, ringOf_mailboxEnd]
  rfl

theorem replyShown_flags (q : RegFile) : flag (replyShown ws q) F.RNG_WAG_CTL_reply = true ∧
    flag (replyShown ws q) F.RNG_WAG_CTL_done = true ∧ flag (replyShown ws q) F.RNG_WAG_CTL_busy = false :=
  ⟨(mailEnded_reply _).trans (flag_setFlag_self _ _ (by decide) (by decide)), mailEnded_done _, mailEnded_busy ..⟩

theorem kvGet_replyShown (q : RegFile) {i : Nat} (h : i < 17) :
    kvGet (replyShown ws q) (R.RNG_WAG_RXn i) = ws.getD (2 * i + 1) 0 ++ ws.getD (2 * i) 0 := by
  have hne : R.RNG_WAG_RXn i ≠ R.RNG_WAG_CTL := by
    simp only [R.RNG_WAG_RXn, R.RNG_WAG_CTL]
    omega
  rw [replyShown, kvGet_mailEnded_ne _ _ hne, kvGet_setFlag_ne _ hne, kvGet_rxFilled ws q h]

end

/-! ### A balancing command's ACK (R287, R300) -/

theorem cellsOnly_foldN {f : State → Nat → State} (h : ∀ s x, CellsOnly s (f s x)) (n : Nat) (s : State) : CellsOnly s (foldN n f s) :=
  .foldl h _ s

theorem cellsOnly_balShow (r a laps : Nat) (mask : BitVec 12) (s : State) : CellsOnly s (balShow r a laps mask s) := by
  have hnode : CellsOnly s (modCsv r a (fun n => { n with laps := laps, mask := mask }) s) := rfl
  exact (hnode.trans (cellsOnly_combPutN ..)).trans (cellsOnly_foldN (fun s c => cellsOnly_combPutN ..) 12 _)

section
variable {s : State}

theorem balDone_none (h : s.csv.bal = none) : balDone s = s := by
  unfold balDone
  rw [h]

/-- The balancing command `b` is in force. -/
def balInForce (b : BalOp) (s : State) : State := balShow b.ring b.node b.laps (if b.laps = 0 then 0 else b.mask) s

theorem balDone_some {b : BalOp} (h : s.csv.bal = some b) : balDone s =
    irq 6 { balInForce b s with csv := { (balInForce b s).csv with
      r := setFlag (balInForce b s).csv.r F.CSV_BAL_STAT_done, bal := none } } := by
  unfold balDone
  rw [h]
  rfl

theorem cellsOnly_balDone (s : State) : CellsOnly s (balDone s) := by
  cases h : s.csv.bal with
  | none =>
    rw [balDone_none h]
    exact .refl s
  | some b =>
    rw [balDone_some h]
    exact ((cellsOnly_balShow ..).trans (cellsOnly_csv _ _)).trans (cellsOnly_irq ..)

theorem balDone_bal (s : State) : (balDone s).csv.bal = none := by
  cases h : s.csv.bal with
  | none => rw [balDone_none h, h]
  | some b => rw [balDone_some h, irq_csv]

theorem balDone_done (h : s.csv.bal ≠ none) : flag (balDone s).csv.r F.CSV_BAL_STAT_done = true := by
  obtain ⟨b, hb⟩ := Option.ne_none_iff_exists'.1 h
  rw [balDone_some hb, irq_csv]
  exact flag_setFlag_self _ _ (by decide) (by decide)

end

theorem acked_bal {r : Nat} {m : WagMsg} (h : m.use = .bal) (st : Nat) (s : State) :
    acked r m st s = if st = 0 then balDone s else balRefuse 2 { s with csv := { s.csv with bal := none } } := by
  unfold acked
  rw [h]

theorem ackTaken_bal {r : Nat} {m : WagMsg} (h : m.use = .bal) (ws : List Half) (s : State) : ackTaken r m ws s =
    if (ws.getD 2 0).toNat % 256 = 0 then balDone s else balRefuse 2 { s with csv := { s.csv with bal := none } } := by
  rw [ackTaken, if_neg (by rw [h]; decide), acked_bal h]

theorem cellsOnly_ackTaken_bal {r : Nat} {m : WagMsg} (h : m.use = .bal) (ws : List Half) (s : State) :
    CellsOnly s (ackTaken r m ws s) := by
  rw [ackTaken_bal h]
  exact .ite (cellsOnly_balDone s) ((cellsOnly_csv _ s).trans (cellsOnly_balRefuse ..))

/-! ### What each message shows -/

section
variable {r : Fin 24} {e : PortEnd} {m : WagMsg} {ws : List Half} {s : State}

/-- The part of the statement about a message of another node. -/
theorem takeInbox_otherNode_shows {c : Instr} (hc : TakesKind r e ws c)
    (ha : (endOf (ringOf s r) e).await = some m) (hin : (endOf (ringOf s r) e).inbox = some ws) (hn : wagNode ws ≠ wagNode m.words) :
    ∃ t, exec c s = .next t ∧ t = { s with rng := { s.rng with ring := t.rng.ring } } ∧
      endOf (ringOf t r) e = { endOf (ringOf s r) e with inbox := none } ∧
      endOf (ringOf t r) (otherEnd e) = endOf (ringOf s r) (otherEnd e) ∧ (ringOf t r).nodes = (ringOf s r).nodes ∧
      ∀ q : Fin 24, q ≠ r → ringOf t q = ringOf s q := by
  obtain ⟨want, act, hexec, hw, -⟩ := exec_takesInbox hc s
  rw [takeInbox_otherNode ha hin hw hn] at hexec
  refine ⟨_, hexec, rfl, ?_, ?_, ?_, fun q hq => ringOf_modRing_ne _ _ (Fin.val_ne_of_ne hq)⟩
  · rw [ringOf_modRing_self _ _ r.isLt, endOf_modEnd]
    rfl
  · rw [ringOf_modRing_self _ _ r.isLt, endOf_modEnd_ne (otherEnd_ne e)]
  · rw [ringOf_modRing_self _ _ r.isLt]
    cases e <;> rfl

/-- The part of the statement about the reply to the mailbox's message. -/
theorem takeInbox_mailbox_shows {c : Instr} (hc : TakesKind r e ws c)
    (ha : (endOf (ringOf s r) e).await = some m) (hin : (endOf (ringOf s r) e).inbox = some ws) (hn : wagNode ws = wagNode m.words)
    (huse : m.use = .mailbox) : ∃ u, exec c s = .next (ringAdvance r u) ∧
      u = { s with rng := u.rng, hst := u.hst, two := u.two, out := u.out } ∧
      (endOf (ringOf u r) e).await = none ∧ (endOf (ringOf u r) e).inbox = none ∧ flag u.rng.r F.RNG_WAG_CTL_reply = true ∧
      flag u.rng.r F.RNG_WAG_CTL_done = true ∧ flag u.rng.r F.RNG_WAG_CTL_busy = false ∧
      (∀ n < 17, kvGet u.rng.r (R.RNG_WAG_RXn n) = ws.getD (2 * n + 1) 0 ++ ws.getD (2 * n) 0) ∧
      getBit u.hst.r R.HST_IRQ_STAT 5 = true ∧ ∀ q : Fin 24, q ≠ r → ringOf u q = ringOf s q := by
  obtain ⟨want, act, hexec, hw, hact⟩ := exec_takesInbox hc s
  rw [takeInbox_usable ha hin hw hn (by simp [usableReply, huse]), hact m _ huse] at hexec
  have hend : endOf (ringOf (mailboxReply ws (modRing r (modEnd e answered) s)) r) e = answered (endOf (ringOf s r) e) := by
    rw [ringOf_mailboxReply, ringOf_modRing_self _ _ r.isLt, endOf_modEnd]
  have hregs := mailboxReply_regs ws (modRing r (modEnd e answered) s)
  obtain ⟨hreply, hdone, hbusy⟩ := replyShown_flags ws s.rng.r
  refine ⟨_, hexec, ?_, by rw [hend]; rfl, by rw [hend]; rfl, ?_, ?_, ?_, fun n hlt => ?_, mailboxEnd_cause .., fun q hq => ?_⟩
  · rw [mailboxReply_frame]
    rfl
  · rw [hregs]
    exact hreply
  · rw [hregs]
    exact hdone
  · rw [hregs]
    exact hbusy
  · rw [hregs]
    exact kvGet_replyShown ws _ hlt
  · rw [ringOf_mailboxReply]
    exact ringOf_modRing_ne _ _ (Fin.val_ne_of_ne hq)

/-- The part of the statement about a descriptor. -/
theorem waggleDesc_ring_shows (hty : wagType ws = 0x82) (ha : (endOf (ringOf s r) e).await = some m)
    (hin : (endOf (ringOf s r) e).inbox = some ws) (hn : wagNode ws = wagNode m.words) (huse : m.use = .ring)
    (ht : wagType m.words = 2) (hlen : wagLen ws = 16) (hlt : wagNode m.words < (ringOf s r).nodes.length) :
    ∃ u, exec (.waggleDesc r e) s = .next (ringAdvance r u) ∧ u = { s with rng := { s.rng with ring := u.rng.ring } } ∧
      nodeAt (ringOf u r) (wagNode m.words) = { nodeAt (ringOf s r) (wagNode m.words) with desc := some (descBits (ws.drop 2)) } ∧
      (∀ a, a ≠ wagNode m.words → nodeAt (ringOf u r) a = nodeAt (ringOf s r) a) ∧ (endOf (ringOf u r) e).await = none ∧
      ∀ q : Fin 24, q ≠ r → ringOf u q = ringOf s q := by
  have hexec := exec_waggleDesc r e s
  have hact (u : State) : descTaken r m ws u =
      modRing r (modNode (wagNode m.words) fun n => { n with desc := some (descBits (ws.drop 2)) }) u :=
    if_neg (by rw [huse]; decide)
  rw [takeInbox_usable ha hin (by simp [hty]) hn (by simp [usableReply, huse, ht, hty, hlen]), hact] at hexec
  have hnodes : (modEnd e answered (ringOf s r)).nodes = (ringOf s r).nodes := by cases e <;> rfl
  have hsame (a : Nat) : nodeAt (modEnd e answered (ringOf s r)) a = nodeAt (ringOf s r) a := by
    rw [nodeAt, hnodes, nodeAt]
  have hnode (a : Nat) := nodeAt_modNode (a := wagNode m.words) (b := a) (x := modEnd e answered (ringOf s r))
    (fun n => { n with desc := some (descBits (ws.drop 2)) }) (by rw [hnodes]; exact hlt)
  have hself : ringOf (modRing r (modNode (wagNode m.words) fun n => { n with desc := some (descBits (ws.drop 2)) })
      (modRing r (modEnd e answered) s)) r =
      modNode (wagNode m.words) (fun n => { n with desc := some (descBits (ws.drop 2)) }) (modEnd e answered (ringOf s r)) := by
    rw [ringOf_modRing_self _ _ r.isLt, ringOf_modRing_self _ _ r.isLt]
  refine ⟨_, hexec, rfl, ?_, fun a hne => ?_, ?_, fun q hq => ?_⟩
  · rw [hself, hnode, if_pos rfl, hsame]
  · rw [hself, hnode, if_neg hne, hsame]
  · rw [hself]
    cases e <;> rfl
  · rw [ringOf_modRing_ne _ _ (Fin.val_ne_of_ne hq), ringOf_modRing_ne _ _ (Fin.val_ne_of_ne hq)]

/-- The part of the statement about the ACK of a balancing command. -/
theorem waggleAck_bal_shows (hty : wagType ws = 0x81) (ha : (endOf (ringOf s r) e).await = some m)
    (hin : (endOf (ringOf s r) e).inbox = some ws) (hn : wagNode ws = wagNode m.words) (huse : m.use = .bal)
    (ht : wagType m.words ≠ 2) (hack : (ws.getD 2 0).toNat / 256 = wagType m.words) :
    ∃ u, exec (.waggleAck r e) s = .next (ringAdvance r u) ∧
      u = { s with rng := { s.rng with ring := u.rng.ring }, csv := u.csv, hst := u.hst, two := u.two, out := u.out } ∧
      (endOf (ringOf u r) e).await = none ∧ u.csv.bal = none ∧ (∀ q : Fin 24, q ≠ r → ringOf u q = ringOf s q) ∧
      ((ws.getD 2 0).toNat % 256 = 0 → s.csv.bal ≠ none → flag u.csv.r F.CSV_BAL_STAT_done = true) ∧
      ((ws.getD 2 0).toNat % 256 ≠ 0 → flag u.csv.r F.CSV_BAL_STAT_refused = true ∧ getF u.csv.r F.CSV_BAL_STAT_reason = 2 ∧
        u.csv.comb = s.csv.comb) := by
  have husable : usableReply m ws = true := by
    rw [usableReply, if_neg ht, hty, hack]
    simp
  have hexec := exec_waggleAck r e s
  rw [takeInbox_usable ha hin (by simp [hty]) hn husable] at hexec
  have hcells : CellsOnly _ (ackTaken r m ws (modRing r (modEnd e answered) s)) := cellsOnly_ackTaken_bal huse ws _
  have hact := ackTaken_bal (r := r) huse ws (modRing r (modEnd e answered) s)
  refine ⟨_, hexec, ?_, ?_, ?_, fun q hq => ?_, fun h0 hbal => ?_, fun h0 => ?_⟩
  · rw [hcells]
    rfl
  · rw [hcells.ringOf, ringOf_modRing_self _ _ r.isLt, endOf_modEnd]
    rfl
  · rw [hact]
    split
    · exact balDone_bal _
    · exact balRefuse_bal ..
  · rw [hcells.ringOf]
    exact ringOf_modRing_ne _ _ (Fin.val_ne_of_ne hq)
  · rw [hact, if_pos h0]
    exact balDone_done hbal
  · rw [hact, if_neg h0]
    obtain ⟨hrefused, hreason, -, -⟩ := balRefuse_shows (k := 2) (by decide)
      { modRing r (modEnd e answered) s with csv := { (modRing r (modEnd e answered) s).csv with bal := none } }
    refine ⟨hrefused, hreason, ?_⟩
    rw [balRefuse_frame]
    rfl

end

/-! ## The statement -/

/-- Settles O37: a message leaves with its last bit, a request waits for its reply, is asked again or given up, and a reply is taken by
its node and by what the request was for. (What is usable, and how often a request is sent: log entry 65.) -/
theorem waggleMessages : Obligations.WaggleMessages := by
  unfold Obligations.WaggleMessages
  intro r e m ws s
  refine ⟨fun u => ringAdvance_ready, fun u => stopDone_idle, fun hcur => ⟨fun hbit => ?_, sendComplete_shows hcur⟩, fun _ h => ?_,
    replyTimeout_due_shows, fun c hc ha hin => ⟨takeInbox_otherNode_shows hc ha hin, takeInbox_mailbox_shows hc ha hin,
      fun hn huse ht hdesc hlen hlt => ?_, fun hn huse ht hack hword => ?_⟩⟩
  · rw [exec_waggleSendComplete, sendComplete_early hcur hbit]
  · rw [exec_waggleReplyTimeout, replyTimeout_early h]
  · subst hdesc
    have hty : wagType ws = 0x82 := by simpa using hc
    exact waggleDesc_ring_shows hty ha hin hn huse ht hlen hlt
  · subst hack
    have hty : wagType ws = 0x81 := by simpa using hc
    exact waggleAck_bal_shows hty ha hin hn huse ht hword

end Sys2Proof.Machine
end

section
/-! Sweep runs and the figures of a bank (R289, R292, R294, R297, R298, R301, R302): what the words, the events, the suspect wires and
the cells of a run leave, what the figures leave, and the statement about them. -/
namespace Sys2Proof.Machine

/-! ## The points of a node (R299) -/

/-- Node `a` of ring `r` has its points in the comb. -/
def HasNode (s : State) (r a : Nat) : Prop := r < 24 ∧ (ringRec s r).ring = r ∧ a < (ringRec s r).nodes ∧ a < 256

section
variable {r a i j : Nat} {s : State}

theorem combHas_point (h : HasNode s r a) (hi : i < 880) : combHas s (r * 262144 + a * 1024 + i) = true := by
  obtain ⟨hr, hring, hnode, ha⟩ := h
  have h1 : (r * 262144 + a * 1024 + i) / 262144 = r := by omega
  have h2 : (r * 262144 + a * 1024 + i) / 1024 % 256 = a := by omega
  have h3 : (r * 262144 + a * 1024 + i) % 1024 = i := by omega
  simp [combHas, h1, h2, h3, hr, hring, hnode, hi]

theorem combGet_combPut_self (h : HasNode s r a) (hi : i < 880) (v : Half) : combGet (combPut r a i v s) r a i = v := by
  obtain ⟨m, hm, hv, -⟩ := combPut_writes (r := r) (a := a) (i := i) rfl v s
  rw [hm]
  exact hv (combHas_point h hi)

theorem combGet_combPut_ne (h : j ≠ i) (v : Half) : combGet (combPut r a i v s) r a j = combGet s r a j := by
  obtain ⟨m, hm, -, hkeep⟩ := combPut_writes (r := r) (a := a) (i := i) rfl v s
  rw [hm]
  exact hkeep _ (by omega)

theorem combN_combPutN_self (h : HasNode s r a) (hi : i < 880) (v : Nat) : combN (combPutN r a i v s) r a i = v % 65536 := by
  rw [combN, combPutN, combGet_combPut_self h hi, BitVec.toNat_ofNat]

theorem combGet_combPutN_self (h : HasNode s r a) (hi : i < 880) (v : Half) : combGet (combPutN r a i v.toNat s) r a i = v := by
  rw [combPutN, combGet_combPut_self h hi, BitVec.ofNat_toNat, BitVec.setWidth_eq]

theorem csvNode_modCsv (f : CsvNode → CsvNode) (hr : r < 24) :
    csvNode (modCsv r a f s) r a = f (csvNode s r a) ∨ csvNode (modCsv r a f s) r a = csvNode s r a := by
  have hget (l : List CsvNode) : (l.modify a f).getD a {} = f (l.getD a {}) ∨ (l.modify a f).getD a {} = l.getD a {} := by
    by_cases ha : a < l.length <;> simp [List.getD, ha]
  unfold csvNode modCsv
  rw [csvRing_modCsvRing_self s _ hr]
  cases hl : (vget s.csv.ring r {}).nodes with
  | nil =>
    have hd : (List.replicate 256 ({} : CsvNode)).getD a {} = {} := List.getElem?_getD_replicate_default_eq ..
    simpa only [List.isEmpty_nil, if_true, List.getD_nil, hd] using hget (List.replicate 256 {})
  | cons x l => exact hget (x :: l)

end

/-! ## What a sweep run may change -/

/-- Supervision of the node `a`, its ring's controller, queue 7, the fault collector and free values may change, and nothing else. -/
structure SweepFrame (r a : Nat) (s t : State) : Prop where
  frame : t = { s with sys := { s.sys with qcnt := t.sys.qcnt }, plc := { s.plc with q7 := t.plc.q7 },
                       rng := { s.rng with ring := t.rng.ring }, csv := t.csv, flt := t.flt, free := t.free }
  rings : ∀ q, q ≠ r → ringOf t q = ringOf s q
  other : ∀ p, p / 1024 ≠ r * 256 + a → kvGet t.csv.comb p = kvGet s.csv.comb p

/-- What judging a run changes before its figures go: of the comb, points `W` of node `a` alone; no limit, no node's record in the ring
controller, no word of queue 4, no sensor's first reading. -/
structure CellWork (r a : Nat) (W : Nat → Prop) (s t : State) : Prop where
  frame  : t = { s with rng := { s.rng with ring := t.rng.ring }, csv := t.csv, flt := t.flt }
  rings  : ∀ q, q ≠ r → ringOf t q = ringOf s q
  q4     : (ringOf t r).q4 = (ringOf s r).q4
  nodes  : (ringOf t r).nodes = (ringOf s r).nodes
  points : ∀ p, (∀ i, W i → p ≠ r * 262144 + a * 1024 + i) → kvGet t.csv.comb p = kvGet s.csv.comb p
  limits : ∀ o, 0x100 ≤ o → kvGet t.csv.r o = kvGet s.csv.r o
  read   : (csvNode t r a).tsRead = (csvNode s r a).tsRead

section
variable {r a : Nat} {W V : Nat → Prop} {s t u : State}

theorem SweepFrame.refl (s : State) : SweepFrame r a s s := ⟨rfl, fun _ _ => rfl, fun _ _ => rfl⟩

theorem SweepFrame.trans (h1 : SweepFrame r a s t) (h2 : SweepFrame r a t u) : SweepFrame r a s u where
  frame := by rw [h2.frame, h1.frame]
  rings q hq := (h2.rings q hq).trans (h1.rings q hq)
  other p hp := (h2.other p hp).trans (h1.other p hp)

theorem SweepFrame.img (h : SweepFrame r a s t) : t.img = s.img := by rw [h.frame]
theorem SweepFrame.tbs (h : SweepFrame r a s t) : t.tbs = s.tbs := by rw [h.frame]

theorem SweepFrame.hasNode (h : SweepFrame r a s t) (hs : HasNode s r a) : HasNode t r a := by
  unfold HasNode ringRec at *
  rwa [h.img]

theorem SweepFrame.nodeSet (h : SweepFrame r a s t) : nodeSet t r a = nodeSet s r a := by
  unfold Sys2Proof.Machine.nodeSet
  rw [h.img]

theorem CellWork.refl (s : State) : CellWork r a W s s := ⟨rfl, fun _ _ => rfl, rfl, rfl, fun _ _ => rfl, fun _ _ => rfl, rfl⟩

theorem CellWork.trans (h1 : CellWork r a W s t) (h2 : CellWork r a W t u) : CellWork r a W s u where
  frame := by rw [h2.frame, h1.frame]
  rings q hq := (h2.rings q hq).trans (h1.rings q hq)
  q4 := h2.q4.trans h1.q4
  nodes := h2.nodes.trans h1.nodes
  points p hp := (h2.points p hp).trans (h1.points p hp)
  limits o ho := (h2.limits o ho).trans (h1.limits o ho)
  read := h2.read.trans h1.read

theorem CellWork.mono (h : CellWork r a W s t) (hW : ∀ i, W i → V i) : CellWork r a V s t :=
  { h with points := fun p hp => h.points p fun i hi => hp i (hW i hi) }

theorem CellWork.ite {p : Prop} [Decidable p] (h1 : CellWork r a W s t) (h2 : CellWork r a W s u) :
    CellWork r a W s (if p then t else u) := by
  split
  · exact h1
  · exact h2

/-- Each step of the list may use what the steps before it have kept. -/
theorem CellWork.foldl {α : Type} {f : State → α → State} : ∀ (l : List α) (s : State),
    (∀ u, CellWork r a W s u → ∀ x ∈ l, CellWork r a W u (f u x)) → CellWork r a W s (l.foldl f s)
  | [], s, _ => .refl s
  | x :: l, s, h =>
    have hx := h s (.refl s) x (by simp)
    hx.trans (CellWork.foldl l (f s x) fun u hu y hy => h u (hx.trans hu) y (by simp [hy]))

theorem CellWork.sweepFrame (h : CellWork r a W s t) (hW : ∀ i, W i → i < 1024) : SweepFrame r a s t where
  frame := by rw [h.frame]
  rings := h.rings
  other p hp := h.points p fun i hi he => by
    have := hW i hi
    omega

theorem CellWork.combGet (h : CellWork r a W s t) {i : Nat} (hi : ¬ W i) : combGet t r a i = combGet s r a i :=
  h.points _ fun j hj he => hi (by rwa [show i = j by omega])

/-- Only the registers from the limits on say what a cell is beyond. -/
theorem beyondLimits_congr (h : ∀ o, 0x100 ≤ o → kvGet t.csv.r o = kvGet s.csv.r o) (set v : Nat) (x : Option Int) :
    beyondLimits t set v x = beyondLimits s set v x := by
  have hN (f : Nat → Fld) (hf : 0x100 ≤ (f set).ofs) : limN t f set = limN s f set := getF_congr (h _ hf)
  have hI (f : Nat → Fld) (hf : 0x100 ≤ (f set).ofs) : limI t f set = limI s f set := by
    simp only [limI, getFI, getF_congr (h _ hf)]
  unfold beyondLimits
  have ofs {k : Nat} (hk : 0x100 ≤ k) : 0x100 ≤ k + 32 * set := Nat.le_add_right_of_le hk
  simp only [hN F.CSV_LIMn_0_v_hi_hard (ofs (by decide)), hN F.CSV_LIMn_0_v_hi_soft (ofs (by decide)),
    hN F.CSV_LIMn_1_v_lo_hard (ofs (by decide)), hN F.CSV_LIMn_1_v_lo_soft (ofs (by decide)),
    hI F.CSV_LIMn_2_t_hi_hard (ofs (by decide)), hI F.CSV_LIMn_2_t_hi_soft (ofs (by decide)),
    hI F.CSV_LIMn_3_t_lo_hard (ofs (by decide)), hI F.CSV_LIMn_3_t_lo_soft (ofs (by decide))]

/-! ### The model's operations -/

theorem cellWork_combPut {i : Nat} (hi : W i) (v : Half) (s : State) : CellWork r a W s (combPut r a i v s) := by
  obtain ⟨m, hm, -, hkeep⟩ := combPut_writes (r := r) (a := a) (i := i) rfl v s
  rw [hm]
  exact ⟨rfl, fun _ _ => rfl, rfl, rfl, fun p hp => hkeep p (hp i hi), fun _ _ => rfl, rfl⟩

theorem cellWork_combPutN {i : Nat} (hi : W i) (v : Nat) (s : State) : CellWork r a W s (combPutN r a i v s) := cellWork_combPut hi _ s

theorem cellWork_raise (src u b : Nat) (s : State) : CellWork r a W s (raise src u b s) :=
  ⟨rfl, fun _ _ => rfl, rfl, rfl, fun _ _ => rfl, fun _ _ => rfl, rfl⟩

/-- A change of registers below the limits. -/
theorem cellWork_csvRegs {f : RegFile → RegFile} (hf : ∀ q o, 0x100 ≤ o → kvGet (f q) o = kvGet q o) (s : State) :
    CellWork r a W s (csvRegs_ f s) :=
  ⟨rfl, fun _ _ => rfl, rfl, rfl, fun _ _ => rfl, hf _, rfl⟩

theorem cellWork_count {f : Fld} (hf : f.ofs < 0x100) (n : Nat) (s : State) : CellWork r a W s (csvRegs_ (fun q => incF q f n) s) :=
  cellWork_csvRegs (fun q _ ho => kvGet_setF_ne q _ (by omega)) s

theorem cellWork_modCsv {f : CsvNode → CsvNode} (hf : ∀ x, (f x).tsRead = x.tsRead) (hr : r < 24) (s : State) :
    CellWork r a W s (modCsv r a f s) := by
  refine ⟨rfl, fun _ _ => rfl, rfl, rfl, fun _ _ => rfl, fun _ _ => rfl, ?_⟩
  obtain h | h := csvNode_modCsv (a := a) (s := s) f hr
  · rw [h, hf]
  · rw [h]

theorem cellWork_modCsvRing {f : CsvRing → CsvRing} (hf : ∀ x, (f x).nodes = x.nodes) (hr : r < 24) (s : State) :
    CellWork r a W s (modCsvRing r f s) := by
  refine ⟨rfl, fun _ _ => rfl, rfl, rfl, fun _ _ => rfl, fun _ _ => rfl, ?_⟩
  rw [csvNode, csvRing_modCsvRing_self s f hr, hf, csvNode]

theorem cellWork_modRing {f : RingSt → RingSt} (hf : ∀ x, (f x).q4 = x.q4 ∧ (f x).nodes = x.nodes) (hr : r < 24) (s : State) :
    CellWork r a W s (modRing r f s) := by
  refine ⟨rfl, fun q hq => ringOf_modRing_ne s f hq, ?_, ?_, fun _ _ => rfl, fun _ _ => rfl, rfl⟩
  · rw [ringOf_modRing_self s f hr, (hf _).1]
  · rw [ringOf_modRing_self s f hr, (hf _).2]

theorem cellWork_wagUni (front : Bool) (type b : Nat) (pl : List Half) (use : WagUse) (hr : r < 24) (s : State) :
    CellWork r a W s (wagUni front type b pl use r s) := by
  unfold wagUni
  split
  next e _ => exact cellWork_modRing (fun x => by cases e <;> exact ⟨rfl, rfl⟩) hr s
  next => exact .refl s

/-! ## Suspect wires (R292, R293) -/

theorem cellWork_wireStart (b : Nat) (mask : BitVec 13) (tp : Nat) (hr : r < 24) (s : State) :
    CellWork r a W s (wireStart r b mask tp s) := by
  have hnoted : CellWork r a W s (wireNoted r b mask tp s) := by
    refine .trans (cellWork_modCsvRing (fun _ => by rfl) hr s) (cellWork_csvRegs (fun q o ho => ?_) _)
    have hofs : o ≠ R.CSV_WIRE_STAT := by
      rintro rfl
      exact absurd ho (by decide)
    exact ((kvGet_setF_ne _ _ hofs).trans (kvGet_setF_ne _ _ hofs)).trans (kvGet_setF_ne _ _ hofs)
  exact hnoted.trans (cellWork_wagUni _ _ _ _ _ hr _)

theorem cellWork_autoTest (hr : r < 24) (s : State) : CellWork r a W s (autoTest r s) := by
  unfold autoTest
  dsimp only
  split
  next => exact (cellWork_modCsvRing (fun _ => by rfl) hr s).trans (.ite (cellWork_wireStart _ _ _ hr _) (.refl _))
  next => exact .refl s

/-- The points that a run's own words are written to. -/
def WordPt (i : Nat) : Prop := i = 864 ∨ i = 866 ∨ 867 ≤ i ∧ i < 872 ∨ i < 864 ∧ i % 72 = 0

/-- The points that show what a run's words mean. -/
def JudgedPt (i : Nat) : Prop := i < 880 ∧ ¬ WordPt i

theorem wordPt_lt {i : Nat} (h : WordPt i) : i < 1024 := by
  unfold WordPt at h
  omega

theorem judgedPt_lt {i : Nat} (h : JudgedPt i) : i < 1024 := h.1.trans (by decide)

theorem cellWork_put4 {c : Nat} (on off : Nat) (h12 : (nodeAt (ringOf s r) a).cells ≤ 12) :
    CellWork r a JudgedPt s (put4 r a c on off s) := by
  unfold put4
  split
  · exact .refl s
  · refine cellWork_combPutN ?_ _ s
    unfold JudgedPt WordPt
    omega

theorem CellWork.cells (h : CellWork r a W s t) : (nodeAt (ringOf t r) a).cells = (nodeAt (ringOf s r) a).cells := by
  rw [nodeAt, h.nodes, nodeAt]

theorem cellWork_markSuspect (k : Nat) (h12 : (nodeAt (ringOf s r) a).cells ≤ 12) : CellWork r a JudgedPt s (markSuspect r a k s) := by
  have hbelow : CellWork r a JudgedPt s (if 0 < k then put4 r a (k - 1) 0x40 0 s else s) := .ite (cellWork_put4 _ _ h12) (.refl s)
  have habove := hbelow.trans (cellWork_put4 (c := k) 0x20 0 (hbelow.cells ▸ h12))
  exact habove.trans (cellWork_combPutN (by unfold JudgedPt WordPt; omega) _ _)

theorem cellWork_suspectFound (k : Nat) (hr : r < 24) (h12 : (nodeAt (ringOf s r) a).cells ≤ 12) :
    CellWork r a JudgedPt s (suspectFound r a k s) := by
  unfold suspectFound
  split
  · exact .refl s
  · have hshown := ((cellWork_markSuspect k h12).trans (cellWork_count (f := F.CSV_CNT_wire_cnt) (by decide) 1 _)).trans
      (cellWork_raise 17 r a _)
    exact .ite (hshown.trans ((cellWork_modCsvRing (fun _ => by rfl) hr _).trans (cellWork_autoTest hr _))) hshown

/-- The suspect wires of a run that has a predecessor. -/
def suspectsShown (r a : Nat) (prev : Bool) (ks : List Nat) (s : State) : State :=
  if prev then ks.foldl (fun s k => suspectFound r a k s) s else s

theorem cellWork_suspectsShown (prev : Bool) (ks : List Nat) (hr : r < 24) (h12 : (nodeAt (ringOf s r) a).cells ≤ 12) :
    CellWork r a JudgedPt s (suspectsShown r a prev ks s) :=
  .ite (.foldl ks s fun _ hu k _ => cellWork_suspectFound k hr (hu.cells ▸ h12)) (.refl s)

/-! ## A cell of a run (R288, R294, R297, R300, R301) -/

/-- The points of cell `c` that show what its voltage means. -/
def CellPt (c i : Nat) : Prop := 72 * c < i ∧ i < 72 * c + 7

/-- The events of a cell beyond its limits. -/
def cellEvents (r a : Nat) (soft hard seen : Bool) (s : State) : State :=
  let s := if soft then raise 19 r a (csvRegs_ (fun q => incF q F.CSV_CNT_lim_cnt 1) s) else s
  let s := if hard then raise 20 r a (csvRegs_ (fun q => incF q F.CSV_CNT_lim_cnt 1) s) else s
  if hard && !seen then raise 10 r a s else s

/-- Points +1 to +3 of a cell: its filtered voltage where a headroom is computed, its temperature where its sensor was read. -/
def cellValues (r a c : Nat) (kept read : Bool) (vf t : Half) (bal : Nat) (s : State) : State :=
  let s := if kept then modCsv r a (fun x => { x with vfSet := x.vfSet ||| (1 <<< c) }) (combPut r a (72 * c + 1) vf s) else s
  let s := if read then combPut r a (72 * c + 2) t s else s
  combPutN r a (72 * c + 3) bal s

/-- Point +4 of a cell, of the bits of wires that it keeps, the run's flags and the limits the cell is beyond. -/
def cellStatus (old flags : Nat) (aff pair : Bool) (lim : Bool × Bool) : Nat :=
  (old &&& 0x0FE0) + flags + aff.toNat * 16 + lim.1.toNat * 4096 + lim.2.toNat * 8192 + pair.toNat * 16384

/-- Points +5 and +6 of a cell, and its headroom in a run of this lap. -/
def cellEnd (r a c : Nat) (soft here : Bool) (d : Half) (h : Option (Int × Int)) (s : State) : State :=
  let s := combPut r a (72 * c + 5) d s
  let s := if soft then combPutN r a (72 * c + 6) (min 65535 (combN s r a (72 * c + 6) + 1)) s else s
  if here then modCsv r a (fun x => { x with hr := x.hr ++ [h] }) s else s

/-- The limits that a node's cell with voltage `v` is beyond, with the temperature of its sensor where that was read. -/
def cellLimits (s : State) (r a c v : Nat) : Bool × Bool :=
  let k := coverOf (descOf (nodeAt (ringOf s r) a)) c
  beyondLimits s (nodeSet s r a) v (if (csvNode s r a).tsRead.getLsbD k then some (combGet s r a (868 + k)).toInt else none)

/-- A cell is judged in this order: its events, points +1 to +3, point +4 with the limits it is beyond, the rest. -/
theorem sweepCell_eq (N : Nat) (v : Nat → Nat) (total mask flags : Nat) (bad bal here : Bool) (s : State) (c : Nat) :
    ∃ seen kept read vf t bp old aff pair d h, sweepCell r a N v total mask flags bad bal here s c =
      cellEnd r a c (cellLimits s r a c (v c)).1 here d h (combPutN r a (72 * c + 4)
        (cellStatus old flags aff pair (cellLimits s r a c (v c)))
        (cellValues r a c kept read vf t bp (cellEvents r a (cellLimits s r a c (v c)).1 (cellLimits s r a c (v c)).2 seen s))) :=
  ⟨_, _, _, _, _, _, _, _, _, _, _, rfl⟩

theorem cellWork_cellEvents (soft hard seen : Bool) (s : State) : CellWork r a W s (cellEvents r a soft hard seen s) := by
  have hcount (src : Nat) (u : State) : CellWork r a W u (raise src r a (csvRegs_ (fun q => incF q F.CSV_CNT_lim_cnt 1) u)) :=
    (cellWork_count (by decide) 1 u).trans (cellWork_raise ..)
  have hsoft : CellWork r a W s (if soft then raise 19 r a (csvRegs_ (fun q => incF q F.CSV_CNT_lim_cnt 1) s) else s) :=
    .ite (hcount 19 s) (.refl s)
  have hhard := hsoft.trans (.ite (p := hard = true) (hcount 20 _) (.refl _))
  exact hhard.trans (.ite (cellWork_raise ..) (.refl _))

theorem cellWork_cellValues (c : Nat) (kept read : Bool) (vf t : Half) (bal : Nat) (hr : r < 24) (s : State) :
    CellWork r a (CellPt c) s (cellValues r a c kept read vf t bal s) := by
  have hput (i : Nat) (v : Half) (hi : 0 < i ∧ i < 7) (u : State) : CellWork r a (CellPt c) u (combPut r a (72 * c + i) v u) :=
    cellWork_combPut (by unfold CellPt; omega) v u
  have hkept : CellWork r a (CellPt c) s
      (if kept then modCsv r a (fun x => { x with vfSet := x.vfSet ||| (1 <<< c) }) (combPut r a (72 * c + 1) vf s) else s) :=
    .ite ((hput 1 vf (by decide) s).trans (cellWork_modCsv (fun _ => by rfl) hr _)) (.refl s)
  have hread := hkept.trans (.ite (p := read = true) (hput 2 t (by decide) _) (.refl _))
  exact hread.trans (hput 3 _ (by decide) _)

theorem cellWork_cellEnd (c : Nat) (soft here : Bool) (d : Half) (h : Option (Int × Int)) (hr : r < 24) (s : State) :
    CellWork r a (fun i => 72 * c + 4 < i ∧ i < 72 * c + 7) s (cellEnd r a c soft here d h s) := by
  have hd := cellWork_combPut (r := r) (a := a) (W := fun i => 72 * c + 4 < i ∧ i < 72 * c + 7) (i := 72 * c + 5) (by omega) d s
  have hcount (n : Nat) (u : State) := cellWork_combPutN (r := r) (a := a) (W := fun i => 72 * c + 4 < i ∧ i < 72 * c + 7)
    (i := 72 * c + 6) (by omega) n u
  exact (hd.trans (.ite (hcount ..) (.refl _))).trans (.ite (cellWork_modCsv (fun _ => by rfl) hr _) (.refl _))

/-- Bits 12 and 13 of point +4 of a cell are the limits it is beyond. -/
theorem cellStatus_limits {flags : Nat} (old : Nat) (aff pair : Bool) (lim : Bool × Bool) (hf : flags < 16) :
    ((cellStatus old flags aff pair lim % 65536).testBit 12, (cellStatus old flags aff pair lim % 65536).testBit 13) = lim := by
  obtain ⟨soft, hard⟩ := lim
  have hold : old &&& 0x0FE0 ≤ 0x0FE0 := Nat.and_le_right
  have haff := Bool.toNat_le aff
  have hlow : (old &&& 0x0FE0) + flags + aff.toNat * 16 < 4096 := by omega
  unfold cellStatus
  generalize (old &&& 0x0FE0) + flags + aff.toNat * 16 = low at hlow ⊢
  rw [Nat.testBit_eq_decide_div_mod_eq, Nat.testBit_eq_decide_div_mod_eq]
  cases soft <;> cases hard <;> cases pair <;> simp <;> omega

theorem cellWork_beforeStatus (soft hard seen : Bool) (c : Nat) (kept read : Bool) (vf t : Half) (bal : Nat) (hr : r < 24) (s : State) :
    CellWork r a (CellPt c) s (cellValues r a c kept read vf t bal (cellEvents r a soft hard seen s)) :=
  (cellWork_cellEvents ..).trans (cellWork_cellValues c _ _ _ _ _ hr _)

section
variable (N : Nat) (v : Nat → Nat) (total mask : Nat) {flags : Nat} (bad bal here : Bool) {c : Nat}

theorem cellWork_sweepCell (hr : r < 24) (s : State) : CellWork r a (CellPt c) s (sweepCell r a N v total mask flags bad bal here s c) := by
  obtain ⟨seen, kept, read, vf, t, bp, old, aff, pair, d, h, he⟩ := sweepCell_eq (r := r) (a := a) N v total mask flags bad bal here s c
  rw [he]
  refine ((cellWork_beforeStatus _ _ seen c kept read vf t bp hr s).trans (cellWork_combPutN ?_ _ _)).trans
    ((cellWork_cellEnd c _ here d h hr _).mono fun i hi => ?_)
  · unfold CellPt
    omega
  · unfold CellPt
    omega

theorem sweepCell_limits (hc : c < 12) (hf : flags < 16) (hs : HasNode s r a) :
    ((combN (sweepCell r a N v total mask flags bad bal here s c) r a (72 * c + 4)).testBit 12,
      (combN (sweepCell r a N v total mask flags bad bal here s c) r a (72 * c + 4)).testBit 13) = cellLimits s r a c (v c) := by
  obtain ⟨seen, kept, read, vf, t, bp, old, aff, pair, d, h, he⟩ := sweepCell_eq (r := r) (a := a) N v total mask flags bad bal here s c
  have hbefore := cellWork_beforeStatus (a := a) (cellLimits s r a c (v c)).1 (cellLimits s r a c (v c)).2 seen c kept read vf t bp hs.1 s
  have hnode := (hbefore.sweepFrame fun i hi => by unfold CellPt at hi; omega).hasNode hs
  have hstatus : combN (sweepCell r a N v total mask flags bad bal here s c) r a (72 * c + 4) =
      cellStatus old flags aff pair (cellLimits s r a c (v c)) % 65536 := by
    rw [he, combN, (cellWork_cellEnd c _ here d h hs.1 _).combGet (by omega)]
    exact combN_combPutN_self hnode (by omega) _
  rw [hstatus]
  exact cellStatus_limits old aff pair _ hf

end

/-! ## The run's words, events and points (R289, R301, R302) -/

/-- A run's words go to the points they are of: `k` is the sensor of its temperature. -/
def wordsPut (r a N k : Nat) (w : Nat → Nat) (s : State) : State :=
  combPutN r a (868 + k) (w (N + 3)) (combPutN r a 866 (w (N + 2)) (combPutN r a 864 (w (N + 1))
    ((List.range N).foldl (fun s c => combPutN r a (72 * c) (w (c + 1)) s) (combPutN r a 867 (w 0) s))))

/-- The events of a run that fails its sum, its reference. -/
def failsShown (r a : Nat) (sum ref : Bool) (s : State) : State :=
  let s := if sum then raise 15 r a (csvRegs_ (fun q => incF q F.CSV_CNT_sum_fail_cnt 1) s) else s
  if ref then raise 16 r a (csvRegs_ (fun q => incF q F.CSV_CNT_ref_fail_cnt 1) s) else s

/-- The node's record of a run. -/
def runNoted (r a k : Nat) (unal here : Bool) (s : State) : State :=
  modCsv r a (fun x => { x with
    tsRead := (x.tsRead ||| (1 <<< k)), prev := !unal, got := (x.got || here), hr := (if here then [] else x.hr) }) s

/-- The points of a run that its cells leave: the sum of the cells, the checks, the mask asked for, the laps since, the run's lap. -/
def runShown (r a sum checks mask : Nat) (here : Bool) (s : State) : State :=
  let s := combPutN r a 877 0 (combPutN r a 874 mask (combPutN r a 872 checks (combPutN r a 865 sum s)))
  combPutN r a 873 ((s.tbs.lap - (!here).toNat) % 65536) s

/-- The sum of the cells of a run lies beyond the stack's tolerance (R289). -/
def sumFails (s : State) (set N : Nat) (w : Nat → Nat) : Bool :=
  decide (limN s F.CSV_LIMn_4_sum_tol set <
    iabs (((((List.range N).map fun c => w (c + 1)).sum : Nat) : Int) - 10 * w (N + 1)))

theorem runFlags_lt (sum ref unal : Bool) : 1 + sum.toNat * 2 + ref.toNat * 4 + unal.toNat * 8 < 16 := by
  have := sum.toNat_le
  have := ref.toNat_le
  have := unal.toNat_le
  omega

theorem runChecks_mod (sum ref unal bal run seen hard : Bool) : (sum.toNat + ref.toNat * 2 + unal.toNat * 4 + bal.toNat * 8 +
    run.toNat * 16 + seen.toNat * 32 + hard.toNat * 64) % 2 = sum.toNat := by
  have := sum.toNat_le
  omega

/-- A run is judged in this order; `u` is the state behind its words, `p` the one before its ring's figures. -/
theorem sweepRun_eq (tag : Nat) (ws : List Half) (s : State) {N k : Nat} {w : Nat → Nat} (hN : N = (nodeAt (ringOf s r) a).cells)
    (hw : w = fun i => (ws.getD i 0).toNat) (hk : k = w 0 / 4096 % 4) {here : Bool}
    (hh : here = decide ((strideTag s + 256 - tag) % 256 ≤ strideInLap s)) :
    ∃ (u p : State) (ref unal prev bad bal : Bool) (ks : List Nat) (total mask flags mean checks asked : Nat),
      u = wordsPut r a N k w s ∧
      p = wireAsk r (runShown r a mean checks asked here
        ((List.range N).foldl (sweepCell r a N (fun c => w (c + 1)) total mask flags bad bal here)
          (suspectsShown r a prev ks (runNoted r a k unal here (failsShown r a (sumFails u (nodeSet s r a) N w) ref u))))) ∧
      sweepRun r a tag ws s = figuresDue r p ∧ flags < 16 ∧ checks % 2 = (sumFails u (nodeSet s r a) N w).toNat := by
  subst hN hw hk hh
  exact ⟨_, _, _, _, _, _, _, _, _, _, _, _, _, _, rfl, rfl, rfl, runFlags_lt .., runChecks_mod ..⟩

/-! ### Words -/

theorem lt_of_mem_cells {N : Nat} (hN : N ≤ 12) : ∀ c ∈ List.range N, c < 12 := fun _ hc => (List.mem_range.1 hc).trans_le hN

theorem cellWork_cellWords (x : Nat → Nat) {l : List Nat} (hl : ∀ c ∈ l, c < 12) (s : State) :
    CellWork r a (fun i => i < 864 ∧ i % 72 = 0) s (l.foldl (fun s c => combPutN r a (72 * c) (x c) s) s) :=
  .foldl l s fun u _ c hc => cellWork_combPutN (by have := hl c hc; omega) _ u

theorem combGet_cellWords (x : Nat → Half) {c : Nat} (hs : HasNode s r a) {l : List Nat} (hl : ∀ c ∈ l, c < 12) (hc : c ∈ l) :
    combGet (l.foldl (fun s c => combPutN r a (72 * c) (x c).toNat s) s) r a (72 * c) = x c := by
  induction l using List.reverseRecOn with
  | nil => exact absurd hc List.not_mem_nil
  | append_singleton l d ih =>
    have hl' : ∀ c ∈ l, c < 12 := fun c hc => hl c (by simp [hc])
    rw [List.foldl_append, List.foldl_cons, List.foldl_nil]
    by_cases hcd : c = d
    · subst hcd
      have hnode := ((cellWork_cellWords (fun c => (x c).toNat) hl' s).sweepFrame fun i hi => by omega).hasNode hs
      exact combGet_combPutN_self hnode (by have := hl c hc; omega) _
    · rw [combPutN, combGet_combPut_ne (by omega)]
      exact ih hl' (by simpa [hcd] using hc)

theorem cellWork_wordsPut {N k : Nat} (w : Nat → Nat) (hN : N ≤ 12) (hk : k < 4) (s : State) :
    CellWork r a WordPt s (wordsPut r a N k w s) := by
  have hstatus : CellWork r a WordPt s (combPutN r a 867 (w 0) s) := cellWork_combPutN (by unfold WordPt; omega) _ s
  have hcells := hstatus.trans ((cellWork_cellWords (fun c => w (c + 1)) (lt_of_mem_cells hN) _).mono fun i hi => .inr (.inr (.inr hi)))
  refine ((hcells.trans (cellWork_combPutN ?_ _ _)).trans (cellWork_combPutN ?_ _ _)).trans (cellWork_combPutN ?_ _ _)
  · exact .inl rfl
  · exact .inr (.inl rfl)
  · unfold WordPt
    omega

/-- The points of node `a` hold the words `x` of a run of `N` cells, whose temperature is that of sensor `k`. -/
def HoldsWords (r a N k : Nat) (x : Nat → Half) (s : State) : Prop :=
  (∀ c < N, combGet s r a (72 * c) = x (c + 1)) ∧ combGet s r a 867 = x 0 ∧ combGet s r a 864 = x (N + 1) ∧
    combGet s r a 866 = x (N + 2) ∧ combGet s r a (868 + k) = x (N + 3)

theorem holdsWords_wordsPut {N k : Nat} (x : Nat → Half) (hN : N ≤ 12) (hk : k < 4) (hs : HasNode s r a) :
    HoldsWords r a N k x (wordsPut r a N k (fun i => (x i).toNat) s) := by
  have hrange := lt_of_mem_cells hN
  have h1 : CellWork r a WordPt s (combPutN r a 867 (x 0).toNat s) := cellWork_combPutN (by unfold WordPt; omega) _ s
  have hcells := cellWork_cellWords (r := r) (a := a) (fun c => (x (c + 1)).toNat) hrange (combPutN r a 867 (x 0).toNat s)
  have h2 := h1.trans (hcells.mono fun i hi => .inr (.inr (.inr hi)))
  have h3 := h2.trans (cellWork_combPutN (i := 864) (.inl rfl) (x (N + 1)).toNat _)
  have h4 := h3.trans (cellWork_combPutN (i := 866) (.inr (.inl rfl)) (x (N + 2)).toNat _)
  have hnode {u : State} (h : CellWork r a WordPt s u) : HasNode u r a :=
    (h.sweepFrame fun _ => wordPt_lt).hasNode hs
  have hne {i j v : Nat} {u : State} (h : j ≠ i) : combGet (combPutN r a i v u) r a j = combGet u r a j := combGet_combPut_ne h _
  unfold wordsPut
  refine ⟨fun c hc => ?_, ?_, ?_, ?_, combGet_combPutN_self (hnode h4) (by omega) _⟩
  · rw [hne (by omega), hne (by omega), hne (by omega)]
    exact combGet_cellWords (fun c => x (c + 1)) (hnode h1) hrange (List.mem_range.2 hc)
  · rw [hne (by omega), hne (by omega), hne (by omega), hcells.combGet (by omega)]
    exact combGet_combPutN_self hs (by omega) _
  · rw [hne (by omega), hne (by omega)]
    exact combGet_combPutN_self (hnode h2) (by omega) _
  · rw [hne (by omega)]
    exact combGet_combPutN_self (hnode h3) (by omega) _

theorem HoldsWords.congr {N k : Nat} {x : Nat → Half} (h : HoldsWords r a N k x s) (hN : N ≤ 12) (hk : k < 4)
    (ht : ∀ i, WordPt i → combGet t r a i = combGet s r a i) : HoldsWords r a N k x t := by
  obtain ⟨hcell, hstatus, hstack, href, htemp⟩ := h
  exact ⟨fun c hc => (ht _ (.inr (.inr (.inr (by omega))))).trans (hcell c hc), (ht _ (.inr (.inr (.inl (by omega))))).trans hstatus,
    (ht _ (.inl rfl)).trans hstack, (ht _ (.inr (.inl rfl))).trans href, (ht _ (.inr (.inr (.inl (by omega))))).trans htemp⟩

/-! ### Events, record, cells and the points of the run -/

theorem cellWork_failsShown (sum ref : Bool) (s : State) : CellWork r a W s (failsShown r a sum ref s) := by
  have hcount (src : Nat) (f : Fld) (hf : f.ofs < 0x100) (u : State) :
      CellWork r a W u (raise src r a (csvRegs_ (fun q => incF q f 1) u)) := (cellWork_count hf 1 u).trans (cellWork_raise ..)
  have hsum : CellWork r a W s (if sum then raise 15 r a (csvRegs_ (fun q => incF q F.CSV_CNT_sum_fail_cnt 1) s) else s) :=
    .ite (hcount _ _ (by decide) s) (.refl s)
  exact hsum.trans (.ite (hcount _ _ (by decide) _) (.refl _))

theorem coverOf_lt (d : BitVec 256) (c : Nat) : coverOf d c < 4 := by
  have hmem : ∀ k ∈ (List.range (descF d 240 2 + 1)).filter fun k => descF d (64 + 4 * k) 4 ≤ c, k < 4 := fun k hk => by
    have hk := List.mem_range.1 (List.mem_filter.1 hk).1
    have : descF d 240 2 < 4 := Nat.mod_lt _ (by decide)
    omega
  exact List.foldlRecOn (motive := (· < 4)) _ _ (by decide) fun b hb k hk => max_lt hb (hmem k hk)

theorem CellWork.nodeSet (h : CellWork r a W s t) : nodeSet t r a = nodeSet s r a := by
  unfold Sys2Proof.Machine.nodeSet
  rw [h.frame]

theorem CellWork.cellLimits (h : CellWork r a JudgedPt s t) (c v : Nat) : cellLimits t r a c v = cellLimits s r a c v := by
  have hnode : nodeAt (ringOf t r) a = nodeAt (ringOf s r) a := by rw [nodeAt, h.nodes, nodeAt]
  have hk := coverOf_lt (descOf (nodeAt (ringOf s r) a)) c
  unfold Sys2Proof.Machine.cellLimits
  rw [hnode, h.nodeSet, h.read, beyondLimits_congr h.limits]
  dsimp only
  rw [h.combGet fun hj => hj.2 (.inr (.inr (.inl (by omega))))]

theorem judgedPt_of_cellPt {c i : Nat} (hc : c < 12) (h : CellPt c i) : JudgedPt i := by
  unfold CellPt at h
  unfold JudgedPt WordPt
  omega

section
variable (N : Nat) (v : Nat → Nat) (total mask : Nat) {flags : Nat} (bad bal here : Bool) {l : List Nat}

/-- Bits 12 and 13 of each listed cell's point +4 are the limits that it is beyond. -/
def ShowsLimits (r a : Nat) (v : Nat → Nat) (l : List Nat) (t : State) : Prop :=
  ∀ c ∈ l, ((combN t r a (72 * c + 4)).testBit 12, (combN t r a (72 * c + 4)).testBit 13) = cellLimits t r a c (v c)

theorem cellWork_sweepCells (hr : r < 24) (hl : ∀ c ∈ l, c < 12) (s : State) :
    CellWork r a JudgedPt s (l.foldl (sweepCell r a N v total mask flags bad bal here) s) :=
  .foldl l s fun u _ c hc => (cellWork_sweepCell N v total mask bad bal here hr u).mono fun _ hi => judgedPt_of_cellPt (hl c hc) hi

theorem showsLimits_sweepCells (hf : flags < 16) (hs : HasNode s r a) (hl : ∀ c ∈ l, c < 12) :
    ShowsLimits r a v l (l.foldl (sweepCell r a N v total mask flags bad bal here) s) := by
  induction l using List.reverseRecOn with
  | nil => exact fun c hc => absurd hc List.not_mem_nil
  | append_singleton l d ih =>
    have hl' : ∀ c ∈ l, c < 12 := fun c hc => hl c (by simp [hc])
    have hd : d < 12 := hl d (by simp)
    have hnode := ((cellWork_sweepCells (a := a) N v total mask (flags := flags) bad bal here hs.1 hl' s).sweepFrame
      fun _ => judgedPt_lt).hasNode hs
    rw [List.foldl_append, List.foldl_cons, List.foldl_nil]
    generalize l.foldl (sweepCell r a N v total mask flags bad bal here) s = u at ih hnode ⊢
    have hcell := cellWork_sweepCell (a := a) N v total mask (flags := flags) bad bal here (c := d) hs.1 u
    intro c hc
    rw [(hcell.mono fun _ => judgedPt_of_cellPt hd).cellLimits]
    by_cases hcd : c = d
    · subst hcd
      exact sweepCell_limits N v total mask bad bal here hd hf hnode
    · have hkept : combN (sweepCell r a N v total mask flags bad bal here u d) r a (72 * c + 4) = combN u r a (72 * c + 4) :=
        congrArg BitVec.toNat (hcell.combGet fun hi => by unfold CellPt at hi; omega)
      rw [hkept]
      exact ih hl' c (by simpa [hcd] using hc)

end

/-- The points that `runShown` writes. -/
def RunPt (i : Nat) : Prop := i = 865 ∨ i = 872 ∨ i = 873 ∨ i = 874 ∨ i = 877

theorem judgedPt_of_runPt {i : Nat} (h : RunPt i) : JudgedPt i := by
  unfold RunPt at h
  unfold JudgedPt WordPt
  omega

theorem cellWork_runShown (sum checks mask : Nat) (here : Bool) (s : State) :
    CellWork r a RunPt s (runShown r a sum checks mask here s) := by
  have hput (i v : Nat) (hi : RunPt i) (u : State) : CellWork r a RunPt u (combPutN r a i v u) := cellWork_combPutN hi v u
  have hchecks := (hput 865 sum (.inl rfl) s).trans (hput 872 checks (.inr (.inl rfl)) _)
  have hmask := hchecks.trans (hput 874 mask (.inr (.inr (.inr (.inl rfl)))) _)
  have hlaps := hmask.trans (hput 877 0 (.inr (.inr (.inr (.inr rfl)))) _)
  exact hlaps.trans (hput 873 _ (.inr (.inr (.inl rfl))) _)

theorem runShown_points (sum checks mask : Nat) (here : Bool) (hs : HasNode s r a) :
    combN (runShown r a sum checks mask here s) r a 872 = checks % 65536 ∧
      combN (runShown r a sum checks mask here s) r a 873 = (s.tbs.lap - (!here).toNat) % 65536 := by
  have hput (i v : Nat) (hi : i < 880) {u : State} (h : SweepFrame r a s u) : SweepFrame r a s (combPutN r a i v u) :=
    h.trans ((cellWork_combPutN (W := (· < 880)) hi v u).sweepFrame fun _ hi => by omega)
  have hne {i j v : Nat} {u : State} (h : j ≠ i) : combN (combPutN r a i v u) r a j = combN u r a j :=
    congrArg BitVec.toNat (combGet_combPut_ne h _)
  have hsum := hput 865 sum (by decide) (.refl s)
  have hlaps := hput 877 0 (by decide) (hput 874 mask (by decide) (hput 872 checks (by decide) hsum))
  unfold runShown
  dsimp only
  constructor
  · rw [hne (by decide), hne (by decide), hne (by decide)]
    exact combN_combPutN_self (hsum.hasNode hs) (by decide) _
  · rw [combN_combPutN_self (hlaps.hasNode hs) (by decide), hlaps.tbs, Nat.mod_mod]

theorem cellWork_wireAsk (hr : r < 24) (s : State) : CellWork r a W s (wireAsk r s) := by
  unfold wireAsk
  dsimp only
  split
  next => exact .refl s
  next x _ =>
    refine .ite ?_ (.refl s)
    refine (cellWork_modRing (fun _ => by exact ⟨rfl, rfl⟩) hr s).trans
      ⟨rfl, fun _ _ => rfl, rfl, rfl, fun _ _ => rfl, fun _ _ => rfl, ?_⟩
    rw [csvNode, vget_vset_self _ _ _ hr]
    rfl

/-- A write of points of the node as a whole leaves what its cells show. -/
theorem ShowsLimits.runPts {v : Nat → Nat} {l : List Nat} (h : ShowsLimits r a v l s) (hl : ∀ c ∈ l, c < 12)
    (ht : CellWork r a RunPt s t) : ShowsLimits r a v l t := by
  intro c hc
  have hc12 := hl c hc
  have hkept : combN t r a (72 * c + 4) = combN s r a (72 * c + 4) :=
    congrArg BitVec.toNat (ht.combGet fun hi => by unfold RunPt at hi; omega)
  rw [hkept, (ht.mono fun _ => judgedPt_of_runPt).cellLimits]
  exact h c hc

/-- What the points of the node show when its suspect wires, its cells and the run as a whole have been judged. -/
theorem runJudged_shows {N : Nat} (prev : Bool) (ks : List Nat) (v : Nat → Nat) (total mask : Nat) {flags : Nat} (bad bal here : Bool)
    (mean checks asked : Nat) (hs : HasNode s r a) (h12 : (nodeAt (ringOf s r) a).cells ≤ 12) (hN : N ≤ 12) (hf : flags < 16)
    {t : State} (ht : t = wireAsk r (runShown r a mean checks asked here
      ((List.range N).foldl (sweepCell r a N v total mask flags bad bal here) (suspectsShown r a prev ks s)))) :
    CellWork r a JudgedPt s t ∧ combN t r a 872 = checks % 65536 ∧ combN t r a 873 = (s.tbs.lap - (!here).toNat) % 65536 ∧
      ShowsLimits r a v (List.range N) t := by
  have hrange := lt_of_mem_cells hN
  have hsus := cellWork_suspectsShown (a := a) prev ks hs.1 h12
  have hlimits := showsLimits_sweepCells N v total mask bad bal here hf ((hsus.sweepFrame fun _ => judgedPt_lt).hasNode hs) hrange
  have hcells := hsus.trans (cellWork_sweepCells N v total mask (flags := flags) bad bal here hs.1 hrange _)
  have hframe := hcells.sweepFrame fun _ => judgedPt_lt
  obtain ⟨hchecks, hlap⟩ := runShown_points mean checks asked here (hframe.hasNode hs)
  have hshown := cellWork_runShown (r := r) (a := a) mean checks asked here
    ((List.range N).foldl (sweepCell r a N v total mask flags bad bal here) (suspectsShown r a prev ks s))
  have hask {W : Nat → Prop} := cellWork_wireAsk (a := a) (W := W) hs.1 (runShown r a mean checks asked here
    ((List.range N).foldl (sweepCell r a N v total mask flags bad bal here) (suspectsShown r a prev ks s)))
  subst ht
  refine ⟨(hcells.trans (hshown.mono fun _ => judgedPt_of_runPt)).trans hask, ?_, ?_, hlimits.runPts hrange (hshown.trans hask)⟩
  · exact (congrArg BitVec.toNat ((hask (W := fun _ => False)).combGet id)).trans hchecks
  · rw [← hframe.tbs]
    exact (congrArg BitVec.toNat ((hask (W := fun _ => False)).combGet id)).trans hlap

/-! ## Figures (R153, R297, R298) -/

theorem q7Put_frame (f : Figure) (s : State) :
    q7Put f s = { s with sys := { s.sys with qcnt := (q7Put f s).sys.qcnt }, plc := { s.plc with q7 := (q7Put f s).plc.q7 } } := by
  unfold q7Put
  dsimp only
  split <;> rfl

theorem q7Put_new {f : Figure} (h : ∀ x ∈ s.plc.q7, x.bank = f.bank → x.chg ≠ f.chg) :
    q7Put f s = { s with plc := { s.plc with q7 := s.plc.q7 ++ [f] } } := by
  unfold q7Put
  dsimp only
  rw [if_pos]
  simpa [List.filter_eq_nil_iff] using h

/-- A figure of bank `b` in the direction `chg` that speaks of lap `lap`. -/
def FigureOf (b lap : Nat) (chg valid : Bool) (f : Figure) : Prop := f.bank = b ∧ f.chg = chg ∧ f.valid = valid ∧ f.lap = lap % 256

theorem mkFigure_shows (b lap : Nat) (chg valid : Bool) (best : Option (Int × Nat × Nat)) (x : Option Int) (s : State) :
    FigureOf b lap chg valid (mkFigure b lap chg valid best x s).1 ∧
      (mkFigure b lap chg valid best x s).2 = { s with free := (mkFigure b lap chg valid best x s).2.free } := by
  unfold mkFigure
  cases best <;> cases x <;> exact ⟨⟨rfl, rfl, rfl, rfl⟩, rfl⟩

/-- The ring's figures have been sent. -/
def figuresNoted (x : CsvRing) : CsvRing := { x with sent := true }

/-- Every node of the ring has delivered its run, and every cell its headroom. -/
def figuresReady (s : State) (r : Nat) : Bool :=
  (List.range (ringRec s r).nodes).all fun a => (csvNode s r a).got && (csvNode s r a).hr.all (·.isSome)

/-- The registers of bank `b` behind its figures `d` and `c`. -/
def figuresShown (b : Nat) (d c : Figure) (valid : Bool) (q : RegFile) : RegFile :=
  let put := fun (q : RegFile) (ofs : Nat) (f : Figure) => kvSet q ofs (BitVec.ofInt 16 f.t ++ BitVec.ofInt 16 f.h)
  let q := put (put q (R.CSV_HRn_DIS b) d) (R.CSV_HRn_CHG b) c
  let q := kvSet q (R.CSV_HRn_SRC b) (BitVec.ofNat 32 (c.valid.toNat * 2 ^ 31 + c.cell * 2 ^ 24 + c.node * 65536 + d.valid.toNat * 32768 +
    d.cell * 256 + d.node))
  if valid then q else setFlag q F.CSV_STAT_hr_invalid

theorem figuresShown_invalid (b : Nat) (d c : Figure) (q : RegFile) : flag (figuresShown b d c false q) F.CSV_STAT_hr_invalid = true := by
  unfold figuresShown
  rw [if_neg Bool.false_ne_true]
  exact flag_setFlag_self _ _ (by decide) (by decide)

/-- Both figures of a bank go, discharge first. -/
theorem sendFigures_eq (r b : Nat) (all : Bool) (s : State) : ∃ (d c : Figure) (n : Nat) (g : RegFile → RegFile),
    FigureOf b s.tbs.lap false (all && figuresReady s r) d ∧ FigureOf b s.tbs.lap true (all && figuresReady s r) c ∧
    (all = false → ∀ q, flag (g q) F.CSV_STAT_hr_invalid = true) ∧
    sendFigures r b all s = q7Put c (q7Put d (modCsvRing r figuresNoted (csvRegs_ g { s with free := n }))) := by
  obtain ⟨v, hv⟩ : ∃ v, v = (all && figuresReady s r) := ⟨_, rfl⟩
  obtain ⟨m1, h1⟩ : ∃ m, m = mkFigure b s.tbs.lap false v (bestOf s r false) (topTemp s r) s := ⟨_, rfl⟩
  obtain ⟨m2, h2⟩ : ∃ m, m = mkFigure b m1.2.tbs.lap true v (bestOf m1.2 r true) (topTemp s r) m1.2 := ⟨_, rfl⟩
  have hsent : sendFigures r b all s =
      q7Put m2.1 (q7Put m1.1 (modCsvRing r figuresNoted (csvRegs_ (figuresShown b m1.1 m2.1 v) m2.2))) := by
    subst h2 h1 hv
    rfl
  obtain ⟨hd, hs1⟩ := mkFigure_shows b s.tbs.lap false v (bestOf s r false) (topTemp s r) s
  obtain ⟨⟨hbank, hchg, hvalid, hlap⟩, hs2⟩ := mkFigure_shows b m1.2.tbs.lap true v (bestOf m1.2 r true) (topTemp s r) m1.2
  rw [← h1] at hd hs1
  rw [← h2] at hbank hchg hvalid hlap hs2
  have hfree : m2.2 = { s with free := m2.2.free } := by rw [hs2, hs1]
  refine ⟨m1.1, m2.1, m2.2.free, figuresShown b m1.1 m2.1 v, hv ▸ hd,
    ⟨hbank, hchg, hv ▸ hvalid, hlap.trans (by rw [hs1])⟩, fun hall => ?_, ?_⟩
  · rw [hv, hall, Bool.false_and]
    exact figuresShown_invalid b _ _
  · rw [← hfree]
    exact hsent

theorem q7Put_csv (f : Figure) (s : State) : (q7Put f s).csv = s.csv := by rw [q7Put_frame]
theorem q7Put_rng (f : Figure) (s : State) : (q7Put f s).rng = s.rng := by rw [q7Put_frame]

theorem sweepFrame_q7Put (f : Figure) (s : State) : SweepFrame r a s (q7Put f s) := by
  rw [q7Put_frame]
  exact ⟨rfl, fun _ _ => rfl, fun _ _ => rfl⟩

theorem sendFigures_keeps (b : Nat) (all : Bool) (hr : r < 24) (s : State) : SweepFrame r a s (sendFigures r b all s) ∧
    (sendFigures r b all s).rng = s.rng ∧ (sendFigures r b all s).csv.comb = s.csv.comb ∧
    csvNode (sendFigures r b all s) r a = csvNode s r a := by
  obtain ⟨d, c, n, g, -, -, -, he⟩ := sendFigures_eq r b all s
  have hshown : SweepFrame r a s (modCsvRing r figuresNoted (csvRegs_ g { s with free := n })) := ⟨rfl, fun _ _ => rfl, fun _ _ => rfl⟩
  rw [csvNode, he, q7Put_csv, q7Put_csv, q7Put_rng, q7Put_rng, csvRing_modCsvRing_self _ _ hr]
  exact ⟨(hshown.trans (sweepFrame_q7Put d _)).trans (sweepFrame_q7Put c _), rfl, rfl, rfl⟩

/-- The figures of a ring that has delivered leave its points and its nodes' records as they are. -/
theorem figuresDue_keeps (hr : r < 24) (s : State) : SweepFrame r a s (figuresDue r s) ∧ (figuresDue r s).rng = s.rng ∧
    (figuresDue r s).csv.comb = s.csv.comb ∧ csvNode (figuresDue r s) r a = csvNode s r a := by
  have hsame : SweepFrame r a s s ∧ s.rng = s.rng ∧ s.csv.comb = s.csv.comb ∧ csvNode s r a = csvNode s r a :=
    ⟨.refl s, rfl, rfl, rfl⟩
  unfold figuresDue
  split
  next => exact hsame
  next b _ =>
    split
    · exact sendFigures_keeps b true hr s
    · exact hsame

/-! ## SWEEP_RUN_CHECK (R289) -/

theorem exec_sweepRunCheck (r : Fin 24) (s : State) : exec (.sweepRunCheck r) s = .next (sweepRunCheck r s) := rfl

theorem sweepRunCheck_idle (h : ∀ w ∈ (ringOf s r).q4.head?, w.flags / 4 % 2 = 1) : sweepRunCheck r s = s := by
  unfold sweepRunCheck
  split
  next => rfl
  next w t hl => exact if_pos (h w (by rw [hl]; rfl))

theorem sweepRunCheck_run {h : RingWord} {rest : List RingWord} (hq : (ringOf s r).q4 = h :: rest) (hf : h.flags / 4 % 2 = 0) :
    sweepRunCheck r s = sweepRun r h.node h.tag (((ringOf s r).q4.take ((nodeAt (ringOf s r) h.node).cells + 4)).map (·.val))
      (drop4 r ((nodeAt (ringOf s r) h.node).cells + 4) s) := by
  unfold sweepRunCheck
  rw [hq]
  dsimp only
  rw [if_neg (by omega)]

theorem testBit_zero_of_mod {n : Nat} {b : Bool} (h : n % 2 = b.toNat) : (n % 65536).testBit 0 = b := by
  rw [Nat.testBit_zero, Nat.mod_mod_of_dvd _ (by decide), h]
  cases b <;> rfl

/-- The lap of a run, of its lap or of the one before. -/
theorem runLap_mod (p : Prop) [Decidable p] (lap : Nat) : (lap - (!decide p).toNat) % 65536 = (if p then lap else lap - 1) % 65536 := by
  by_cases h : p <;> simp [h]

/-- What a run of at most 12 cells leaves: its words in their points, the lap it is of, and what its sum and its cells are beyond. -/
theorem sweepRun_shows (tag : Nat) (ws : List Half) {N k : Nat} {here : Bool} {t : State} (hs : HasNode s r a)
    (hN : N = (nodeAt (ringOf s r) a).cells) (h12 : N ≤ 12) (hk : k = (ws.getD 0 0).toNat / 4096 % 4)
    (hh : here = decide ((strideTag s + 256 - tag) % 256 ≤ strideInLap s)) (ht : t = sweepRun r a tag ws s) :
    SweepFrame r a s t ∧ (ringOf t r).q4 = (ringOf s r).q4 ∧ HoldsWords r a N k (fun i => ws.getD i 0) t ∧
      combN t r a 873 = (s.tbs.lap - (!here).toNat) % 65536 ∧
      (combN t r a 872).testBit 0 = sumFails s (nodeSet s r a) N (fun i => (ws.getD i 0).toNat) ∧
      ∀ c < N, ((combN t r a (72 * c + 4)).testBit 12, (combN t r a (72 * c + 4)).testBit 13) =
        beyondLimits s (nodeSet s r a) (ws.getD (c + 1) 0).toNat
          (if (csvNode t r a).tsRead.getLsbD (coverOf (descOf (nodeAt (ringOf s r) a)) c) then
            some (combGet t r a (868 + coverOf (descOf (nodeAt (ringOf s r) a)) c)).toInt else none) := by
  have hk4 : k < 4 := by omega
  obtain ⟨u, p, ref, unal, prev, bad, bal, ks, total, mask, flags, mean, checks, asked, hu, hp, he, hflags, hchecks⟩ :=
    sweepRun_eq tag ws s hN rfl hk hh
  have hwords : CellWork r a WordPt s u := hu ▸ cellWork_wordsPut _ h12 hk4 s
  have hsum : sumFails u (nodeSet s r a) N (fun i => (ws.getD i 0).toNat) = sumFails s (nodeSet s r a) N fun i => (ws.getD i 0).toNat := by
    have htol : limN u F.CSV_LIMn_4_sum_tol (nodeSet s r a) = limN s F.CSV_LIMn_4_sum_tol (nodeSet s r a) :=
      getF_congr (hwords.limits _ (Nat.le_add_right_of_le (by decide)))
    rw [sumFails, sumFails, htol]
  rw [hsum] at hp hchecks
  have hfails : CellWork r a (fun _ => False) u (failsShown r a (sumFails s (nodeSet s r a) N fun i => (ws.getD i 0).toNat) ref u) :=
    cellWork_failsShown ..
  generalize failsShown r a (sumFails s (nodeSet s r a) N fun i => (ws.getD i 0).toNat) ref u = y at hp hfails
  have hy := hwords.trans (hfails.mono fun _ => False.elim)
  have hz : SweepFrame r a s (runNoted r a k unal here y) :=
    (hy.sweepFrame fun _ => wordPt_lt).trans ⟨rfl, fun _ _ => rfl, fun _ _ => rfl⟩
  obtain ⟨hjudged, hpt872, hpt873, hlimits⟩ := runJudged_shows prev ks (fun c => (ws.getD (c + 1) 0).toNat) total mask bad bal here
    mean checks asked (hz.hasNode hs) (hy.cells.trans_le (hN ▸ h12)) h12 hflags hp
  obtain ⟨hframe, hrng, hcomb, hrec⟩ := figuresDue_keeps (a := a) hs.1 p
  rw [← he, ← ht] at hframe hrng hcomb hrec
  have hring : ringOf t r = ringOf p r := by rw [ringOf, hrng, ringOf]
  have hget (i : Nat) : combGet t r a i = combGet p r a i := by rw [combGet, hcomb, combGet]
  have hN' (i : Nat) : combN t r a i = combN p r a i := congrArg BitVec.toNat (hget i)
  have hnode : nodeAt (ringOf p r) a = nodeAt (ringOf s r) a := by rw [nodeAt, hjudged.nodes.trans hy.nodes, nodeAt]
  have hset : nodeSet p r a = nodeSet s r a := hjudged.nodeSet.trans hz.nodeSet
  refine ⟨(hz.trans (hjudged.sweepFrame fun _ => judgedPt_lt)).trans hframe, ?_, ?_, ?_, ?_, fun c hc => ?_⟩
  · rw [hring, hjudged.q4]
    exact hy.q4
  · refine (hu ▸ holdsWords_wordsPut (fun i => ws.getD i 0) h12 hk4 hs : HoldsWords r a N k _ u).congr h12 hk4 fun i hi => ?_
    rw [hget, hjudged.combGet fun hj => hj.2 hi]
    exact hfails.combGet id
  · rw [hN', hpt873, hz.tbs]
  · rw [hN', hpt872, testBit_zero_of_mod hchecks]
  · rw [hN', hlimits c (List.mem_range.2 hc), hrec, hget]
    unfold cellLimits
    rw [hnode, hset, beyondLimits_congr fun o ho => (hjudged.limits o ho).trans (hy.limits o ho)]

/-! ## HEADROOM_DEADLINE (R298) -/

theorem exec_headroomDeadline (b : Fin 24) (s : State) : exec (.headroomDeadline b) s = .next (headroomDeadline b s) := rfl

theorem headroomDeadline_idle {b : Nat} (h : strides s = false ∨ strideInLap s + 2 ≠ lapLen s ∨
    (vget s.csv.ring (s.img.str.banks.getD b {}).ring {}).sent = true) : headroomDeadline b s = s := by
  refine if_pos ?_
  simp only [Bool.or_eq_true, Bool.not_eq_true', decide_eq_true_eq]
  obtain h | h | h := h
  · exact .inl (.inl (.inl (.inl h)))
  · exact .inl (.inr h)
  · exact .inr h

theorem headroomDeadline_sends {b : Nat} (hr : r = (s.img.str.banks.getD b {}).ring) (hs : strides s = true)
    (hu : (usedBanks s.img.str).contains b = true) (h24 : r < 24) (hl : strideInLap s + 2 = lapLen s)
    (hn : (vget s.csv.ring r {}).sent = false) : headroomDeadline b s = sendFigures r b false s := by
  subst hr
  refine if_neg ?_
  rw [hs, hu, hn]
  simpa using ⟨h24, hl⟩

/-- With none of the bank's figures in queue 7, both are appended. -/
theorem q7Put_both {b lap : Nat} {v : Bool} {d c : Figure} (hd : FigureOf b lap false v d) (hc : FigureOf b lap true v c)
    (hq : ∀ f ∈ s.plc.q7, f.bank ≠ b) :
    q7Put c (q7Put d s) = { s with plc := { s.plc with q7 := s.plc.q7 ++ [d, c] } } := by
  have hqd : ∀ x ∈ s.plc.q7, x.bank = d.bank → x.chg ≠ d.chg := fun x hx hb => absurd (hb.trans hd.1) (hq x hx)
  have hqc : ∀ x ∈ s.plc.q7 ++ [d], x.bank = c.bank → x.chg ≠ c.chg := by
    intro x hx hb
    obtain hx | hx := List.mem_append.1 hx
    · exact absurd (hb.trans hc.1) (hq x hx)
    · rw [List.mem_singleton.1 hx, hd.2.1, hc.2.1]
      decide
  rw [q7Put_new hqd, q7Put_new hqc, List.append_assoc, List.singleton_append]

/-- HEADROOM_DEADLINE where the ring has not delivered. -/
theorem headroomDeadline_shows {b : Fin 24} (hr : r = (s.img.str.banks.getD b {}).ring) (hs : strides s = true)
    (hused : (usedBanks s.img.str).contains b.val = true) (h24 : r < 24) (hl : strideInLap s + 2 = lapLen s)
    (hn : (vget s.csv.ring r {}).sent = false) (hq : ∀ f ∈ s.plc.q7, f.bank ≠ b.val) :
    ∃ t, exec (.headroomDeadline b) s = .next t ∧
      t = { s with plc := { s.plc with q7 := t.plc.q7 }, csv := { s.csv with r := t.csv.r, ring := t.csv.ring }, free := t.free } ∧
      (∃ d c : Figure, t.plc.q7 = s.plc.q7 ++ [d, c] ∧ d.bank = b ∧ c.bank = b ∧ d.chg = false ∧ c.chg = true ∧
        d.valid = false ∧ c.valid = false ∧ d.lap = s.tbs.lap % 256 ∧ c.lap = s.tbs.lap % 256) ∧
      (vget t.csv.ring r {}).sent = true ∧ flag t.csv.r F.CSV_STAT_hr_invalid = true ∧
      ∀ q : Fin 24, q.val ≠ r → t.csv.ring[q] = s.csv.ring[q] := by
  obtain ⟨d, c, n, g, hd, hc, hinvalid, he⟩ := sendFigures_eq r b false s
  rw [Bool.false_and] at hd hc
  have hsent := csvRing_modCsvRing_self (csvRegs_ g { s with free := n }) figuresNoted h24
  have hother (q : Fin 24) (hq : q.val ≠ r) := csvRing_modCsvRing_ne (csvRegs_ g { s with free := n }) figuresNoted hq
  have hput := q7Put_both (s := modCsvRing r figuresNoted (csvRegs_ g { s with free := n })) hd hc hq
  obtain ⟨hdb, hdc, hdv, hdl⟩ := hd
  obtain ⟨hcb, hcc, hcv, hcl⟩ := hc
  rw [exec_headroomDeadline, headroomDeadline_sends hr hs hused h24 hl hn, he, hput]
  refine ⟨_, rfl, rfl, ⟨d, c, rfl, hdb, hcb, hdc, hcc, hdv, hcv, hdl, hcl⟩, congrArg CsvRing.sent hsent,
    hinvalid rfl _, fun q hq => ?_⟩
  have hkept := hother q hq
  rwa [vget_fin, vget_fin] at hkept

end

/-! ## The statement -/

/-- Settles O39: a run's words go to their points and stay there, each cell's point +4 is written once with the limits that the cell is
beyond, and a late ring's figures go once in the lap. (A temperature limit is judged once its sensor has been read: log entry 72.) -/
theorem sweepRunsAndFigures : Obligations.SweepRunsAndFigures := by
  unfold Obligations.SweepRunsAndFigures
  refine ⟨fun r s h => ?_, fun r h rest a N ws s hq hf ha hN h12 hws hring hnode ha256 => ?_, fun b r s hr =>
    ⟨fun hs hu h24 hl hn hq => ?_, fun h => ?_⟩⟩
  · rw [exec_sweepRunCheck, sweepRunCheck_idle h]
  · have hcells : nodeAt (ringOf (drop4 r (N + 4) s) r) a = nodeAt (ringOf s r) a := by rw [drop4_q4 _ r.isLt, nodeAt, nodeAt]
    have hs : HasNode (drop4 r (N + 4) s) r a := ⟨r.isLt, hring, hnode, ha256⟩
    obtain ⟨hframe, hq4, ⟨hcell, hstatus, hstack, href, htemp⟩, hlap, hsum, hlimits⟩ :=
      sweepRun_shows h.tag ws (here := decide ((strideTag s + 256 - h.tag) % 256 ≤ strideInLap s)) hs (hN.trans (by rw [hcells])) h12
        rfl rfl rfl
    refine ⟨sweepRun r a h.tag ws (drop4 r (N + 4) s), ?_, hframe.frame, ?_, hcell, hstatus, hstack, href, htemp,
      hlap.trans (runLap_mod _ s.tbs.lap), hsum, fun c hc k hk => ?_, hframe.other, fun q hq => ?_⟩
    · rw [exec_sweepRunCheck, sweepRunCheck_run hq hf, ← ha, ← hN, ← hws]
    · rw [hq4, drop4_q4 _ r.isLt]
    · rw [hlimits c hc, hcells, ← hk]
      rfl
    · exact (hframe.rings q (Fin.val_ne_of_ne hq)).trans (ringOf_modRing_ne s _ (Fin.val_ne_of_ne hq))
  · exact headroomDeadline_shows hr hs hu h24 hl hn hq
  · rw [exec_headroomDeadline, headroomDeadline_idle (hr ▸ h)]

end Sys2Proof.Machine
end
